-- ==== Sys2Proof/Word.lean ====
section
/-! DEFINITION. The word types of the block and their plainest arithmetic (R13, R15). -/

namespace Sys2Proof

/-- A register word: every register of the block is 32 bits wide (R640). -/
abbrev Word := BitVec 32

/-- A byte is 8 bits (R13). -/
abbrev Byte := BitVec 8

/-- A field of a register word: its lowest bit and its width (R15). -/
structure Fld where
  lo : Nat
  width : Nat
deriving DecidableEq, Repr

end Sys2Proof
end

