-- ==== Sys2Proof/Syntax.lean ====
section
/-! DEFINITION. The commands of the block: one constructor per row of spec/opcode_table.json, with the operands the
row's event carries. A row that is a register command carries its master (Table 16-4). -/

namespace Sys2Proof

/-- A master of the register space (Table 16-4): the physical function of H0 to H3, PE0 to PE63, the supervisor core,
JTAG. -/
inductive Master where
  | pf (h : Fin 4) | pe (e : Fin 64) | supervisor | jtag
deriving DecidableEq, Repr

/-- What a register access reaches: an offset of the register space, or an offset of an instance page (R638). -/
inductive RegTarget where
  | reg (off : Word)
  | inst (h : Fin 4) (i : Fin 64) (off : BitVec 16)
deriving DecidableEq, Repr

/-- A unit whose handling step has a bound (Table 0-6): block k of a region, or a region. -/
inductive ErrUnit where
  | block (n : Fin 4) (k : Fin 10)
  | region (n : Fin 4)
deriving DecidableEq, Repr

/-- The two copies of the layout image in flash (R67). -/
inductive FlashCopy where
  | a | b
deriving DecidableEq, Repr

/-- A port: P0 to P127 by their numbers, the Ethernet host ports H4 and H5 by their destination codes 132 and 133
(Table 6-2). -/
abbrev PortId := Fin 134

/-- What takes a port's link down (R131, R132). -/
inductive FaultCause where
  | signal | lock | align | localFault
deriving DecidableEq, Repr

/-- Where a descriptor offered to the pipeline comes from (R58). -/
inductive FrameSource where
  | port (p : PortId) | host (n : Fin 4) (i : Fin 64) | engine (e : Fin 64)
deriving DecidableEq, Repr

/-- The unit a start step's completion reports on. -/
inductive StepUnit where
  | chip | region (n : Fin 4) | block (n : Fin 4) (k : Fin 10)
deriving DecidableEq, Repr

/-- A failing SRAM found by memory BIST (R564): the unit that owns it and its memory number. -/
structure BistFail where
  unit : StepUnit
  memory : BitVec 16
deriving DecidableEq, Repr

/-- A core that runs the instruction set of Table 11-5: a packet engine or the supervisor core. -/
inductive Core where
  | pe (e : Fin 64) | supervisor
deriving DecidableEq, Repr

/-- A configuration request of a PCIe host port: a read of the identifiers (of the physical or a virtual function), of class
code and revision, of InitialVFs and TotalVFs, of First VF Offset and VF Stride (R522); a write of VF Enable and NumVFs, or of
PASID Enable. -/
inductive PcieConfig where
  | deviceId (vf : Bool) | classRev | vfCounts | vfOffsetStride
  | vfControl (enable : Bool) (num : BitVec 7)
  | pasidEnable (enable : Bool)
deriving DecidableEq, Repr

/-- How the line coded a received frame: whether it brought a code error, and the codewords its FEC corrected and could not
correct (R126). -/
structure LineCodes where
  error : Bool
  corrected : Byte
  uncorrected : Byte
deriving DecidableEq, Repr

/-- An I2C controller whose transaction ends early, and the data bytes it had transferred (R158). -/
structure I2cStop where
  controller : Fin 16
  count : Fin 33
deriving DecidableEq, Repr

/-- The region a Floor message comes from, and whether one of its flits came with a single-bit error (Table 1-9). -/
structure FloorSource where
  region : Fin 4
  bitError : Bool
deriving DecidableEq, Repr

/-- An update record of a LOFT message (R471). -/
structure LoftUpdate where
  slot : Word
  seq : Word
  length : Word
  data : List Byte
deriving DecidableEq, Repr

/-- The commands. -/
inductive Instr where
  -- Register interface (chapters 0, 4, 11, 15, 16)
  | registerWrite (m : Master) (t : RegTarget) (be : BitVec 4) (v : Word)
  | rcFieldRead (m : Master) (t : RegTarget)
  | tbNsRead (m : Master) (t : Fin 4)
  | chainedCounterRead (m : Master) (t : RegTarget)
  | loftUsLoRead (m : Master) (n : Fin 4)
  -- Errors and restarts (chapter 1)
  | escalationTimeout (u : ErrUnit)
  | containedRestartStart (n : Fin 4) (k : Fin 10) (cell addr : BitVec 16)
  | containedRestartEnd (n : Fin 4) (k : Fin 10)
  | regionRestartStart (n : Fin 4) (cell addr : BitVec 16)
  | regionRestartEnd (n : Fin 4)
  | chipFatalError (cause : Fin 9) (errUnit errAddr : Word)
  | backgroundSlotGrant (n : Fin 4) (bank : Fin 112)
  -- Floor and pipeline (chapters 1, 8); Floor port 4 is the chip port
  | enqArrival (src dst : Fin 4)
  | readArrival (src dst : Fin 4)
  | regrArrival (src dst : Fin 5)
  | regwArrival (src dst : Fin 5)
  | dataArrival (src : FloorSource) (dst : Fin 4)
  | cplArrival (src dst : Fin 5)
  | nackArrival (src dst : Fin 5)
  | floorTransferRetry (src dst : Fin 5) (senderOk receiverOk : Bool)
  | pipelineSlotGrant (n : Fin 4)
  | mirrorCopyTimeout (n : Fin 4)
  -- Restart, loader and re-layout (chapters 1, 2)
  | rgnRestartWarm (m : Master) (n : Fin 4)
  | imageCopyChecked (copy : FlashCopy) (readFailed : Bool)
  | flashOperationStart
  | flashOperationComplete
  | verifyA (m : Master)
  | verifyB (m : Master)
  | verifyComplete (readFailed : Bool)
  | advanceSvn (m : Master)
  | revokeSlot (m : Master) (slot : Fin 4)
  | relayoutArm (m : Master) (n : Fin 4) (drainMs : Byte)
  | relayoutDrainComplete (n : Fin 4)
  | relayoutDrainTimeout (n : Fin 4)
  -- Ports (chapter 3); p is P0 to P127, 132 is H4 and 133 is H5
  | refclkLost (b : Fin 18)
  | refclkReturn (b : Fin 18)
  | calibrationComplete (p : PortId)
  | signalDetected (p : PortId)
  | lockAchieved (p : PortId) (ctle dfe : Byte)
  | lockLost (p : PortId) (lane : Fin 4) (signalLost : Bool)
  | alignComplete (p : PortId) (speed : BitVec 4) (fullDuplex : Bool)
  | holdUpExpiry (p : PortId)
  | linkFault (p : PortId) (lane : Fin 4) (cause : FaultCause)
  | faultEnd (p : PortId)
  | holdDownExpiry (p : PortId)
  | remoteFaultReceived (p : PortId)
  | frameBegin (p : PortId)
  | landingChargeRetry (src : FrameSource)
  | headWindowOffer (src : FrameSource) (head : List Byte)
  | frameEnd (p : PortId) (bytes : List Byte) (codes : LineCodes)
  | transmitSelect (p : PortId)
  | transmitComplete (p : PortId)
  | transmitCut (p : PortId)
  -- PHY and module management (chapter 3)
  | mdioC22Write (m : Master) (b : Fin 16) (phy reg : BitVec 5) (data : BitVec 16)
  | mdioC22Read (m : Master) (b : Fin 16) (phy reg : BitVec 5)
  | mdioC45Address (m : Master) (b : Fin 16) (prt dev : BitVec 5) (data : BitVec 16)
  | mdioC45Write (m : Master) (b : Fin 16) (prt dev : BitVec 5) (data : BitVec 16)
  | mdioC45Read (m : Master) (b : Fin 16) (prt dev : BitVec 5)
  | mdioC45PostReadInc (m : Master) (b : Fin 16) (prt dev : BitVec 5)
  | mdioFrameEnd (b : Fin 16) (turnaround : Bool) (data : BitVec 16)
  | i2cTransaction (m : Master) (b : Fin 16) (addr : BitVec 7) (wlen rlen : BitVec 5) (sdaHigh : Option (Fin 10))
  | i2cBusClearCmd (m : Master) (b : Fin 16) (sdaHigh : Option (Fin 10))
  | i2cCommandEnd (b : Fin 16) (ackAddr : Bool) (count : Fin 33) (nackData : Bool) (read : List Byte)
  | i2cStretchTimeout (e : I2cStop) (sdaHigh : Option (Fin 10))
  | i2cArbitrationLost (e : I2cStop)
  -- Time bases and axes (chapter 4)
  | tbRateWrite (m : Master) (t : Fin 4) (v : Word)
  | tbSet (m : Master) (t : Fin 4)
  | tbStep (m : Master) (t : Fin 4)
  | holdoverWatchdogExpiry (t : Fin 4)
  | mainsEdge (rising : Bool) (heldUs : Byte)
  | mainsMiss
  | mainsEnable (m : Master) (v : Word)
  | odoEdge (high100ns : Byte) (dir : Bool)
  | odoSet (m : Master)
  | odoStillExpiry
  | cadenceSwitch (p : Fin 128)
  | captureEdge (i : Fin 2) (rising : Bool) (held10ns : Byte)
  | capturePop (m : Master) (i : Fin 2)
  | scheduleWindowOpen (k : Fin 8)
  | scheduleFallbackWindow (k : Fin 8)
  -- Head window and rules (chapter 5)
  | wnwWrite (m : Master) (n : Fin 4) (addr : BitVec 14)
  | wnwInsert (m : Master) (n : Fin 4) (addr : BitVec 14)
  | wnwDelete (m : Master) (n : Fin 4) (addr : BitVec 14)
  | wnwRemove (m : Master) (n : Fin 4) (addr : BitVec 14)
  | wnwBadop (m : Master) (n : Fin 4) (op : BitVec 4)
  | wnwCmdStep (n : Fin 4)
  | wnwCmdComplete (n : Fin 4)
  | patternMapRebuildDone (n : Fin 4)
  -- Forwarding tables (chapter 6); c is the command channel
  | tblInsert (m : Master) (n c : Fin 4)
  | tblUpdate (m : Master) (n c : Fin 4)
  | tblDelete (m : Master) (n c : Fin 4)
  | tblLookup (m : Master) (n c : Fin 4)
  | tblVlanWrite (m : Master) (n c : Fin 4)
  | tblGroupWrite (m : Master) (n c : Fin 4)
  | tblBadop (m : Master) (n c : Fin 4) (op : BitVec 4)
  | tblCmdStart (n : Fin 4)
  | tblCmdComplete (n : Fin 4)
  | learnFilterExpiry (n : Fin 4)
  | learnDispatch (n : Fin 4)
  | tblLrnPop (m : Master) (n : Fin 4)
  | gleanerBurst (n : Fin 4)
  | spareCopyComplete (n : Fin 4)
  | tblShadowAdj (m : Master) (n : Fin 4) (word : BitVec 13) (set : Bool)
  | tblGlnMismatchPop (m : Master) (n : Fin 4)
  | tableVerifyPassDone (n : Fin 4)
  -- Granary and Silo (chapter 7)
  | decisionCharge (n : Fin 4)
  | frameCommit (n : Fin 4)
  | ownerRelease (n : Fin 4)
  | ringCacheRefill (n : Fin 4)
  | ringCacheWriteback (n : Fin 4)
  | spillComplete (n : Fin 4)
  | baleReturn (n : Fin 4)
  | grnHoldStart (m : Master) (n : Fin 4)
  | grnHoldEnd (m : Master) (n : Fin 4)
  | holdTimeout (n : Fin 4)
  -- Queues (chapter 8)
  | polWrite (m : Master) (n : Fin 4) (index : BitVec 16)
  | polRead (m : Master) (n : Fin 4) (index : BitVec 16)
  | polClear (m : Master) (n : Fin 4) (index : BitVec 16)
  | polBadop (m : Master) (n : Fin 4) (op : BitVec 4)
  | portNotReady (p : Fin 134)
  | schFlush (m : Master) (n : Fin 4) (port : Fin 33) (queues : Byte)
  | gateArm (m : Master) (p : Fin 128)
  | recoveryResetExpiry (n : Fin 4)
  -- DRAM (chapter 9)
  | dramReadRequest (n : Fin 4) (burst : BitVec 26) (chip : Bool)
  | dramWriteRequest (n : Fin 4) (burst : BitVec 26) (data : BitVec 512)
  | dramCommandIssue (n : Fin 4)
  | dramReadComplete (n : Fin 4) (err : Fin 4)
  | dramRefreshDue (n : Fin 4)
  | dramTempRead (n : Fin 4) (die0 die1 : Byte) (mult : BitVec 2) (hot : Bool)
  | dramPowerDownIdle (n : Fin 4)
  | dramSelfRefreshIdle (n : Fin 4)
  | dramTrainingComplete (n : Fin 4) (ok : Bool)
  | dramTrackingInterval (n : Fin 4)
  | dramTrackingPassDone (n : Fin 4) (drift : BitVec 16) (retrainOk calOk : Bool)
  | dramReadTimeout (n : Fin 4)
  | drcRequalify (m : Master) (n : Fin 4)
  -- Accepted work (chapter 10)
  | gapSkipTimeout (n : Fin 4)
  | retryResend (n : Fin 4)
  | replayStart (n : Fin 4)
  -- Engines and the Loft (chapter 11): a core issues the instruction at the PC of a thread
  | taskDispatch (n : Fin 4)
  | taskWatchdogExpiry (e : Fin 64) (t : Fin 8)
  | tskFlush (m : Master) (n : Fin 4) (queue : Byte)
  | opr (c : Core) (t : Fin 8)
  | addk (c : Core) (t : Fin 8)
  | andk (c : Core) (t : Fin 8)
  | ork (c : Core) (t : Fin 8)
  | xork (c : Core) (t : Fin 8)
  | insh (c : Core) (t : Fin 8)
  | shlk (c : Core) (t : Fin 8)
  | shrk (c : Core) (t : Fin 8)
  | sark (c : Core) (t : Fin 8)
  | ltk (c : Core) (t : Fin 8)
  | setk (c : Core) (t : Fin 8)
  | rdw (c : Core) (t : Fin 8)
  | rdb (c : Core) (t : Fin 8)
  | wrw (c : Core) (t : Fin 8)
  | wrb (c : Core) (t : Fin 8)
  | rds (c : Core) (t : Fin 8)
  | wrs (c : Core) (t : Fin 8)
  | rdx (c : Core) (t : Fin 8)
  | wrx (c : Core) (t : Fin 8)
  | rdt (c : Core) (t : Fin 8)
  | rdf (c : Core) (t : Fin 8)
  | atom (c : Core) (t : Fin 8)
  | barr (c : Core) (t : Fin 8)
  | ifeq (c : Core) (t : Fin 8)
  | ifne (c : Core) (t : Fin 8)
  | iflt (c : Core) (t : Fin 8)
  | ifge (c : Core) (t : Fin 8)
  | iflo (c : Core) (t : Fin 8)
  | ifhs (c : Core) (t : Fin 8)
  | call (c : Core) (t : Fin 8)
  | ret (c : Core) (t : Fin 8)
  | go (c : Core) (t : Fin 8)
  | send (c : Core) (t : Fin 8)
  | fwd (c : Core) (t : Fin 8)
  | drop (c : Core) (t : Fin 8)
  | done (c : Core) (t : Fin 8)
  | lfput (c : Core) (t : Fin 8)
  | lfget (c : Core) (t : Fin 8)
  | crc (c : Core) (t : Fin 8)
  | dirGets (k : Fin 8) (line : Fin 2048)
  | dirGetx (k : Fin 8) (line : Fin 2048)
  | dirPutx (e : Fin 64) (line : Fin 2048)
  | supWatchdogExpiry
  | supWdogKick (m : Master)
  | supMboxInWrite (m : Master) (v : Word)
  | loftMirrorSend (n : Fin 4)
  | loftResyncAll (m : Master) (n : Fin 4)
  -- Decision channels (chapter 12): each channel's record comes changed by a mask, or does not come
  | vote (n : Fin 4) (a b c : Option (BitVec 176))
  | strikeClear (n : Fin 4) (c : Fin 3)
  | disagreeClear (n : Fin 4)
  | channelSelfTest (n : Fin 4) (pass : BitVec 3)
  -- The Abaide link and the lease (chapter 12): messages come on a lane with their LINK_SEQ and EPOCH
  | abaideLaneUp (lane : Fin 2)
  | hello (lane : Fin 2) (seq : Word) (epoch : BitVec 16) (version : BitVec 4) (serial : BitVec 64) (device : Word)
  | claim (lane : Fin 2) (seq : Word) (epoch : BitVec 16) (serial : BitVec 64)
  | claimAck (lane : Fin 2) (seq : Word) (epoch : BitVec 16) (serial : BitVec 64)
  | renew (lane : Fin 2) (seq : Word) (epoch : BitVec 16) (lseq : Word)
  | renewAck (lane : Fin 2) (seq : Word) (epoch : BitVec 16) (lseq : Word)
  | yield (lane : Fin 2) (seq : Word) (epoch : BitVec 16)
  | status (lane : Fin 2) (seq : Word) (serial : BitVec 64) (role : Word)
  | keepalive (lane : Fin 2) (seq : Word) (epoch : BitVec 16)
  | loft (lane : Fin 2) (seq : Word) (epoch : BitVec 16) (n : Fin 4) (records : List LoftUpdate)
  | resyncReq (lane : Fin 2) (seq : Word) (epoch : BitVec 16)
  | twinmsg (lane : Fin 2) (seq : Word) (epoch : BitVec 16) (n : Fin 4) (queue : Byte) (body : BitVec 128)
  | abaideGapExpiry (seq : Word)
  | abaideSilenceExpiry
  | keepaliveTimer
  | helloResendTimer
  | renewTimer
  | ownLeaseExpiry
  | viewDeadlineExpiry
  | claimResendTimer
  | twnCmdYield (m : Master)
  | abdTxSend (m : Master) (queue : Byte) (region : Fin 4)
  | compatStatusTimer
  | compatActiveTimeout
  | compatDualTimeout
  | compatYieldTimeout
  | resetSafeStateExpiry
  -- PCIe host ports (chapter 13): h is Hh, i an instance, q a queue pair, gen the generation a completion carries
  | pcieConfigRequest (h : Fin 4) (r : PcieConfig)
  | pciePerst (h : Fin 4)
  | pcieHotReset (h : Fin 4)
  | pcieLinkDown (h : Fin 4)
  | pfFlr (h : Fin 4)
  | vfFlr (h : Fin 4) (i : Fin 64)
  | instReset (h : Fin 4) (i : Fin 64)
  | instResetComplete (h : Fin 4) (i : Fin 64)
  | dmaError (h : Fin 4) (i : Fin 64) (q : Fin 8) (kind : Fin 3) (gen : Byte) (cause : Fin 3)
  | dmaCompletionTimeout (h : Fin 4) (i : Fin 64) (q : Fin 8) (kind : Fin 3)
  | txqTailWrite (h : Fin 4) (i : Fin 64) (q : Fin 8) (v : Word)
  | rxqTailWrite (h : Fin 4) (i : Fin 64) (q : Fin 8) (v : Word)
  | txDescriptorFetch (h : Fin 4) (i : Fin 64) (q : Fin 8) (gen : Byte) (words : List Word)
  | txFrameReadComplete (h : Fin 4) (i : Fin 64) (gen : Byte) (bytes : List Byte)
  | txWriteback (h : Fin 4) (i : Fin 64) (q : Fin 8)
  | tsWaitExpiry (h : Fin 4) (i : Fin 64) (q : Fin 8) (slot : Fin 4096)
  | rxHandover (h : Fin 4) (i : Fin 64) (q : Fin 8) (descs : List (List Word))
  | rxWaitExpiry (h : Fin 4) (i : Fin 64) (q : Fin 8)
  | instMsgSend (h : Fin 4) (i : Fin 64)
  | msixModerationExpiry (h : Fin 4) (i : Fin 64) (q : Fin 8)
  -- Start, reset, calibration, supply (chapters 14, 17): `low` in clocks, rails in the order of Table 17-3, `mv` in mV, `temp`
  -- in units of 0.25 °C
  | powerOn
  | coldStart (cause : Fin 12)
  | warmStart (cause : Fin 12)
  | resetNFall
  | resetNRise (low : Word)
  | strCmdCold (m : Master)
  | strCmdWarm (m : Master)
  | startStepComplete (step : Fin 12) (unit : StepUnit) (fails : List BistFail)
  | enterService
  | startTimeout
  | failCountClear
  | retentionLoss
  | calSave (m : Master)
  | calSaveComplete (readBackGood : Bool)
  | calRestoreFactory (m : Master)
  | sagNFall
  | sagNRise
  | sagLadderExpiry (stage : Fin 6)
  | railMonitorCrossing (rail : Fin 7) (mv : BitVec 12)
  | thermalMonitorCrossing (temp : BitVec 11)
  | shedStageEntry
  | shedDwellExpiry
  | heldExit
  | vddAuxLoss
  -- Fatal dump, log, interrupts, snapshots (chapter 15)
  | dumpComplete
  | dumpTimeout
  | dumpRelease (m : Master)
  | logPop (m : Master)
  | intEoi (m : Master)
  | snapTake (m : Master)
  | snapHold (m : Master)
  | snapRelease (m : Master)
  -- Maintenance UART (chapter 15)
  | uartFrameRx (start : Bool) (bits : Byte) (stop : Bool)
  | uartRxPop (m : Master)
  | uartTxWrite (m : Master) (byte : Byte)
  -- Indirect pair (chapter 16)
  | indCtlWrite (m : Master) (v : Word)
  | indAddrWrite (m : Master) (v : Word)
  | indDataRead (m : Master)
  | indDataWrite (m : Master) (v : Word)
  | indPrefetchComplete (m : Master)
  | indWaitTimeout (m : Master)
  | fuseBlow (m : Master) (slot : Fin 4) (auxInLimits : Bool)
  -- Test access (chapter 17)
  | testEntry (drivesBalls : Bool)
  | testExit
  -- Events of several units
  | abaideLaneDown (lane : Fin 2)
  | pcieLinkUp (h : Fin 4) (speed width : BitVec 3)
  | remoteFaultEnd (p : PortId)
  | cadenceEntryChange (p : Fin 128)
  | pulseOutputEdge (j : Fin 4)
  | scheduleWindowClose (k : Fin 8)
  | serdesReadaptationPass (n : Fin 4)
  | replayWalkEnd (n : Fin 4)
  | abaideBadFrame (lane : Fin 2) (crcGood : Bool) (type : Byte)
  | abaideFrameTx
  | msixUnmask (h : Fin 4) (fn : Fin 64) (entry : Fin 1024)
  | uartFrameTx
  | supMboxInRead
  | supMboxOutRead (m : Master)
  | prbsCheckerLock (l : Fin 68) (lock : Bool) (errors : BitVec 16)
  | dramZqLatch (n : Fin 4)
deriving DecidableEq, Repr

end Sys2Proof
end

