-- ==== Sys2Proof/Machine/RegTypes.lean ====
section
/-! DEFINITION. The vocabulary of the register maps: access codes (Table 0-8), start values (Table 0-9),
live groups (R92), privilege, and the bases of the pages of the register space (R635, R638). -/

namespace Sys2Proof.Machine

/-- Access codes of Table 0-8. -/
inductive Access where
  | ro | rw | rwl | w1c | w1s | wo | rc
deriving DecidableEq, Repr

/-- A Cold or Warm entry: a number or a word of Table 0-9. -/
inductive StartVal where
  | num (n : Nat) | img | fuse | kept | hw
deriving DecidableEq, Repr

/-- The live group a field belongs to (Table 2-13), or none. -/
inductive LiveGroup where
  | none | chip (k : Nat) | rgn (k : Nat)
deriving DecidableEq, Repr

/-- The privilege of a register (R222 header line, R645 to R647). -/
inductive Privilege where
  | openReg | privileged
deriving DecidableEq, Repr

/-- Whether a register is a counter cell of R607. -/
inductive CellKind where
  | plain | cell
deriving DecidableEq, Repr

/-- One field of a register map. -/
structure FieldDesc where
  fld : Fld
  access : Access
  cold : StartVal
  warm : StartVal
  group : LiveGroup
deriving DecidableEq, Repr

/-- One register, or an array of registers of one shape: n1 places of stride s1, each of n2 places of stride s2. -/
structure RegDesc where
  name : String
  off : Nat
  n1 : Nat
  s1 : Nat
  n2 : Nat
  s2 : Nat
  priv : Privilege
  kind : CellKind
  fields : List FieldDesc
deriving DecidableEq, Repr

/-- A field row of a register map. -/
def f (lo width : Nat) (a : Access) (cold warm : StartVal) (g : LiveGroup := .none) : FieldDesc :=
  { fld := ⟨lo, width⟩, access := a, cold := cold, warm := warm, group := g }

/-- A register row of a register map. -/
def r (name : String) (off : Nat) (dims : Nat × Nat × Nat × Nat) (p : Privilege) (k : CellKind)
    (fs : List FieldDesc) : RegDesc :=
  { name := name, off := off, n1 := dims.1, s1 := dims.2.1, n2 := dims.2.2.1, s2 := dims.2.2.2,
    priv := p, kind := k, fields := fs }

/-- Chip page k (R635, Table 16-2). -/
def chipPage (k : Nat) : Nat := 0x10000 * k

/-- Page k of region n (R635, Table 16-3). -/
def rgnPage (n k : Nat) : Nat := 0x01000000 * (n + 1) + 0x10000 * k

/-- The page of port block b, b = 4n + j (Table 16-3). -/
def pbPage (b : Nat) : Nat := rgnPage (b / 4) (1 + b % 4)

/-- The page of engine block k, k = 2n + j (Table 16-3). -/
def engPage (k : Nat) : Nat := rgnPage (k / 2) (5 + k % 2)

/-- The registers of lane l: network lanes 0 to 63 in their port block's page, 66 and 67 the lanes of H4 and H5 in the
host block pages of regions 1 and 3 (the lane indices of Table 14-7). -/
def laneBase (l : Nat) : Nat :=
  if l < 64 then pbPage (l / 4) + 0x100 + 0x40 * (l % 4)
  else rgnPage (if l = 66 then 1 else 3) 10 + 0x1900

/-- The MAC registers of port p: P0 to P127 in their port block's page, 132 and 133 the Ethernet host ports H4 and H5
in the host block pages of regions 1 and 3 (the destination codes of Table 6-2). -/
def macBase (p : Nat) : Nat :=
  if p < 128 then pbPage (p / 8) + 0x800 + 0x100 * (p % 8)
  else rgnPage (if p = 132 then 1 else 3) 10 + 0x1800

/-- The page of instance i of host port n. Instance pages lie outside the register space (R638): the model places
them above it, at keys no register offset reaches. -/
def instPage (n i : Nat) : Nat := 0x100000000 + 0x10000 * (64 * n + i)

/-- Word keys of indirect space `code` of region n (Table 16-7): above every register offset. -/
def spWord (code n : Nat) : Nat := 0x200000000 + 0x01000000 * (4 * code + n)

end Sys2Proof.Machine
end

