-- ==== Sys2Proof/Machine/RegMap.lean ====
section
/-! DEFINITION. The register maps of the spec as data (Tables 1-13 to 16-17): for every page the position,
privilege and fields of each register, each field with its access code (R19), its Cold and Warm entry (R20)
and its live group (R92). A field whose position repeats in a word is listed once per place. -/

namespace Sys2Proof.Machine

def mapChip0 : List RegDesc := [
  r "ID_DEVICE" 0x0 (1, 4, 1, 4) .openReg .plain [f 0 16 .ro (.num 38500) (.num 38500), f 16 8 .ro .fuse .fuse, f 24 8 .ro .fuse .fuse],
  r "ID_SERIAL_LO" 0x4 (1, 4, 1, 4) .openReg .plain [f 0 32 .ro .fuse .fuse],
  r "ID_SERIAL_HI" 0x8 (1, 4, 1, 4) .openReg .plain [f 0 32 .ro .fuse .fuse],
  r "ID_CONFIG" 0xC (1, 4, 1, 4) .openReg .plain [f 0 4 .ro .img .img, f 4 1 .ro .img .img, f 5 2 .ro .img .img, f 8 2 .ro .img .img, f 10 6 .ro .img .img],
  r "ID_WHOAMI" 0x10 (1, 4, 1, 4) .openReg .plain [f 0 8 .ro .hw .hw, f 8 1 .ro .hw .hw]]

def mapChip1 : List RegDesc := [
  r "CHIP_STATE" 0x0 (1, 4, 1, 4) .openReg .plain [f 0 4 .ro .hw .hw, f 4 4 .ro .hw .hw],
  r "CHIP_STATE_US" 0x4 (1, 4, 1, 4) .openReg .plain [f 0 32 .ro (.num 0) .hw],
  r "CHIP_TEMP" 0x8 (1, 4, 1, 4) .openReg .plain [f 0 11 .ro .hw .hw],
  r "CHIP_TEMP_PEAK" 0xC (1, 4, 1, 4) .openReg .plain [f 0 11 .rc .hw .hw],
  r "REG_UNPRIV" 0x10 (1, 4, 1, 4) .privileged .cell [f 0 32 .ro (.num 0) .kept],
  r "REG_PARTIAL_WR" 0x14 (1, 4, 1, 4) .privileged .cell [f 0 32 .ro (.num 0) .kept],
  r "IND_REFUSED" 0x18 (1, 4, 1, 4) .privileged .cell [f 0 32 .ro (.num 0) .kept],
  r "IND_OVERRUN" 0x1C (1, 4, 1, 4) .privileged .cell [f 0 32 .ro (.num 0) .kept]]

def mapChip2 : List RegDesc := [
  r "RDY_CHIP" 0x0 (1, 4, 1, 4) .openReg .plain [f 0 1 .ro (.num 0) .hw, f 1 1 .ro (.num 0) .hw, f 2 1 .ro (.num 0) (.num 0), f 3 1 .ro (.num 0) (.num 0), f 4 4 .ro (.num 0) .hw, f 8 1 .ro (.num 0) .hw, f 9 4 .ro (.num 0) (.num 0), f 13 4 .ro (.num 0) (.num 0), f 17 4 .ro (.num 0) .hw, f 21 2 .ro (.num 0) (.num 0), f 23 1 .ro (.num 0) .hw, f 24 4 .ro (.num 0) .kept],
  r "RDY_REGION" 0x4 (4, 4, 1, 4) .openReg .plain [f 0 1 .ro (.num 0) (.num 0), f 1 1 .ro (.num 0) (.num 0), f 2 1 .ro (.num 0) (.num 0), f 3 1 .ro (.num 0) (.num 0), f 4 3 .ro (.num 0) .hw, f 7 1 .ro (.num 0) .hw, f 8 2 .ro (.num 0) (.num 0), f 16 16 .ro (.num 0) (.num 0)],
  r "RDY_PORT" 0x14 (4, 4, 1, 4) .openReg .plain [f 0 32 .ro (.num 0) (.num 0)]]

def mapChip3 : List RegDesc := [
  r "IND_CTL" 0x0 (1, 4, 1, 4) .openReg .plain [f 0 8 .rw (.num 0) (.num 0), f 8 2 .rw (.num 0) (.num 0), f 10 2 .rw (.num 0) (.num 0), f 12 1 .rw (.num 0) (.num 0)],
  r "IND_ADDR" 0x4 (1, 4, 1, 4) .openReg .plain [f 2 30 .rw (.num 0) (.num 0)],
  r "IND_DATA" 0x8 (1, 4, 1, 4) .openReg .plain [f 0 32 .rw (.num 0) (.num 0)],
  r "IND_STAT" 0xC (1, 4, 1, 4) .openReg .plain [f 0 1 .ro (.num 0) (.num 0), f 1 1 .w1c (.num 0) (.num 0), f 2 1 .w1c (.num 0) (.num 0)]]

def mapChip4 : List RegDesc := [
  r "FLR_CFG" 0x0 (1, 4, 1, 4) .privileged .plain [f 0 4 .rwl .img .kept (.chip 0), f 8 1 .rwl .img .kept (.chip 0)],
  r "FLR_STAT" 0x4 (1, 4, 1, 4) .openReg .plain [f 0 4 .ro .hw .hw, f 4 1 .ro .hw .hw, f 8 4 .ro (.num 0) .hw],
  r "FLR_GEN" 0x8 (1, 4, 1, 4) .openReg .plain [f 0 8 .ro (.num 0) .hw, f 8 8 .ro (.num 0) .hw, f 16 8 .ro (.num 0) .hw, f 24 8 .ro (.num 0) .hw],
  r "FLR_ERR" 0xC (1, 4, 1, 4) .privileged .plain [f 0 1 .w1c (.num 0) .kept, f 1 1 .w1c (.num 0) .kept, f 2 1 .w1c (.num 0) .kept, f 3 1 .w1c (.num 0) .kept, f 4 4 .ro (.num 0) .kept, f 8 4 .ro (.num 0) .kept],
  r "FLR_CORR_CNT" 0x10 (1, 4, 1, 4) .openReg .cell [f 0 32 .ro (.num 0) .kept],
  r "FLR_RETRY_CNT" 0x14 (1, 4, 1, 4) .openReg .cell [f 0 32 .ro (.num 0) .kept],
  r "FLR_STALE_CNT" 0x18 (1, 4, 1, 4) .openReg .cell [f 0 32 .ro (.num 0) .kept],
  r "FLR_NACK_CNT" 0x1C (1, 4, 1, 4) .openReg .cell [f 0 32 .ro (.num 0) .kept]]

def mapChip5 : List RegDesc := [
  r "LDR_STAT" 0x0 (1, 4, 1, 4) .privileged .plain [f 0 2 .ro (.num 0) (.num 0), f 2 1 .ro .hw .hw, f 3 1 .ro (.num 0) .hw, f 4 1 .ro .hw .hw, f 5 1 .ro .fuse .fuse, f 6 4 .ro (.num 0) (.num 0), f 10 1 .ro (.num 0) (.num 0), f 11 1 .w1c (.num 0) (.num 0), f 12 1 .w1c (.num 0) (.num 0)],
  r "LDR_CMD" 0x4 (1, 4, 1, 4) .privileged .plain [f 0 4 .wo (.num 0) (.num 0), f 4 2 .wo (.num 0) (.num 0)],
  r "LDR_RUN" 0x8 (1, 4, 1, 4) .openReg .plain [f 0 32 .ro .hw .hw],
  r "LDR_RUN_INFO" 0xC (1, 4, 1, 4) .openReg .plain [f 0 6 .ro .hw .hw, f 6 2 .ro .hw .hw, f 8 4 .ro .img .img],
  r "LDR_RELAYOUT" 0x10 (1, 4, 1, 4) .privileged .plain [f 0 2 .rw (.num 0) (.num 0), f 2 1 .w1s (.num 0) (.num 0), f 3 1 .ro (.num 0) (.num 0), f 4 1 .ro (.num 0) (.num 0), f 8 8 .rw (.num 20) (.num 20)],
  r "LDR_FUSE" 0x14 (1, 4, 1, 4) .privileged .plain [f 0 4 .ro .fuse .fuse, f 4 4 .ro .fuse .fuse, f 8 7 .ro .fuse .fuse],
  r "LDR_LIVE_IGN" 0x18 (1, 4, 1, 4) .privileged .cell [f 0 32 .ro (.num 0) .kept],
  r "LDR_CAND" 0x1C (1, 4, 1, 4) .privileged .plain [f 0 32 .ro (.num 0) (.num 0)]]

def mapChip6p0 : List RegDesc := [
  r "TB_NS" 0x0 (4, 64, 1, 4) .openReg .plain [f 0 32 .ro .hw .hw],
  r "TB_FRAC" 0x4 (4, 64, 1, 4) .openReg .plain [f 0 32 .ro (.num 0) (.num 0)],
  r "TB_RATE" 0x8 (4, 64, 1, 4) .privileged .plain [f 0 32 .rw (.num 0) .kept],
  r "TB_SET_NS" 0xC (4, 64, 1, 4) .privileged .plain [f 0 32 .rw (.num 0) .kept],
  r "TB_SET_FRAC" 0x10 (4, 64, 1, 4) .privileged .plain [f 0 32 .rw (.num 0) .kept],
  r "TB_STEP" 0x14 (4, 64, 1, 4) .privileged .plain [f 0 32 .rw (.num 0) .kept],
  r "TB_CMD" 0x18 (4, 64, 1, 4) .privileged .plain [f 0 1 .w1s (.num 0) (.num 0), f 1 1 .w1s (.num 0) (.num 0)],
  r "TB_CFG" 0x1C (4, 64, 1, 4) .privileged .plain [f 0 1 .rwl .img .kept (.chip 2), f 1 6 .rwl .img .kept (.chip 2), f 7 1 .rwl .img .kept (.chip 2), f 8 8 .rwl .img .kept (.chip 2)],
  r "TB_STAT" 0x20 (4, 64, 1, 4) .openReg .plain [f 0 1 .ro (.num 0) .kept, f 1 1 .ro (.num 0) .hw, f 2 1 .w1c (.num 0) .kept, f 3 1 .ro (.num 0) .kept],
  r "TB_ADJ_CNT" 0x24 (4, 64, 1, 4) .openReg .cell [f 0 32 .ro (.num 0) .kept],
  r "TB_HOLD_CNT" 0x28 (4, 64, 1, 4) .openReg .cell [f 0 32 .ro (.num 0) .kept],
  r "PH_MAINS_CFG" 0x100 (1, 4, 1, 4) .privileged .plain [f 0 1 .rwl .img .kept (.chip 2), f 1 1 .rwl .img .kept (.chip 2), f 2 8 .rwl .img .kept (.chip 2), f 10 12 .rwl .img .kept (.chip 2), f 22 3 .rwl .img .kept (.chip 2)],
  r "PH_MAINS_NOW" 0x104 (1, 4, 1, 4) .openReg .plain [f 0 32 .ro (.num 0) .hw],
  r "PH_MAINS_PERIOD" 0x108 (1, 4, 1, 4) .openReg .plain [f 0 27 .ro (.num 0) .kept],
  r "PH_MAINS_STAT" 0x10C (1, 4, 1, 4) .openReg .plain [f 0 2 .ro (.num 0) .kept, f 2 1 .w1c (.num 0) .kept, f 3 1 .w1c (.num 0) .kept],
  r "PH_MAINS_MISSED" 0x110 (1, 4, 1, 4) .openReg .cell [f 0 32 .ro (.num 0) .kept]]

def mapChip6p1 : List RegDesc := [
  r "PH_MAINS_STRAY" 0x114 (1, 4, 1, 4) .openReg .cell [f 0 32 .ro (.num 0) .kept],
  r "PH_MAINS_COMPRESSED" 0x118 (1, 4, 1, 4) .openReg .cell [f 0 32 .ro (.num 0) .kept],
  r "PH_MAINS_RESYNC" 0x11C (1, 4, 1, 4) .openReg .cell [f 0 32 .ro (.num 0) .kept],
  r "PH_ODO_CFG" 0x140 (1, 4, 1, 4) .privileged .plain [f 0 1 .rwl .img .kept (.chip 2), f 1 1 .rwl .img .kept (.chip 2), f 2 8 .rwl .img .kept (.chip 2), f 10 8 .rwl .img .kept (.chip 2)],
  r "PH_ODO_POS" 0x144 (1, 4, 1, 4) .openReg .plain [f 0 32 .ro (.num 0) .hw],
  r "PH_ODO_SET" 0x148 (1, 4, 1, 4) .privileged .plain [f 0 32 .rw (.num 0) .kept],
  r "PH_ODO_CMD" 0x14C (1, 4, 1, 4) .privileged .plain [f 0 1 .w1s (.num 0) (.num 0)],
  r "PH_ODO_STAT" 0x150 (1, 4, 1, 4) .openReg .plain [f 0 1 .ro (.num 1) .hw, f 1 1 .ro (.num 0) .hw],
  r "PH_ODO_FWD" 0x154 (1, 4, 1, 4) .openReg .cell [f 0 32 .ro (.num 0) .kept],
  r "PH_ODO_REV" 0x158 (1, 4, 1, 4) .openReg .cell [f 0 32 .ro (.num 0) .kept],
  r "PH_ODO_GLITCH" 0x15C (1, 4, 1, 4) .openReg .cell [f 0 32 .ro (.num 0) .kept],
  r "CAP_CFG" 0x180 (2, 32, 1, 4) .privileged .plain [f 0 2 .rw .img .kept, f 2 8 .rw .img .kept, f 31 1 .w1s (.num 0) (.num 0)],
  r "CAP_STAT" 0x184 (2, 32, 1, 4) .openReg .plain [f 0 5 .ro (.num 0) .kept, f 5 1 .ro (.num 0) .kept, f 6 1 .w1c (.num 0) .kept, f 8 8 .ro (.num 0) .kept],
  r "CAP_TB" 0x188 (2, 32, 4, 4) .openReg .plain [f 0 32 .ro (.num 0) .kept],
  r "CAP_MAINS" 0x198 (2, 32, 1, 4) .openReg .plain [f 0 32 .ro (.num 0) .kept],
  r "CAP_ODO" 0x19C (2, 32, 1, 4) .openReg .plain [f 0 32 .ro (.num 0) .kept]]

def mapChip6p2 : List RegDesc := [
  r "PO_CFG" 0x200 (4, 32, 1, 4) .privileged .plain [f 0 1 .rw .img .kept, f 1 3 .rw .img .kept, f 4 1 .rw .img .kept],
  r "PO_START" 0x204 (4, 32, 1, 4) .privileged .plain [f 0 32 .rw .img .kept],
  r "PO_PERIOD" 0x208 (4, 32, 1, 4) .privileged .plain [f 0 32 .rw .img .kept],
  r "PO_WIDTH" 0x20C (4, 32, 1, 4) .privileged .plain [f 0 32 .rw .img .kept],
  r "PO_STAT" 0x210 (4, 32, 1, 4) .openReg .plain [f 0 1 .ro (.num 0) .hw, f 1 1 .ro (.num 0) .hw, f 2 1 .w1c (.num 0) .kept, f 3 1 .ro (.num 0) .hw],
  r "PO_EDGES" 0x214 (4, 32, 1, 4) .openReg .cell [f 0 32 .ro (.num 0) .kept],
  r "SCH_CFG" 0x400 (8, 32, 1, 4) .privileged .plain [f 0 1 .rw .img .kept, f 1 3 .rw .img .kept, f 4 3 .rw .img .kept, f 8 8 .rw .img .kept, f 16 16 .rw .img .kept],
  r "SCH_BASE" 0x404 (8, 32, 1, 4) .privileged .plain [f 0 32 .rw .img .kept],
  r "SCH_CYCLE" 0x408 (8, 32, 1, 4) .privileged .plain [f 0 32 .rw .img .kept],
  r "SCH_OPEN" 0x40C (8, 32, 1, 4) .privileged .plain [f 0 32 .rw .img .kept],
  r "SCH_LEN" 0x410 (8, 32, 1, 4) .privileged .plain [f 0 32 .rw .img .kept],
  r "SCH_STAT" 0x414 (8, 32, 1, 4) .openReg .plain [f 0 1 .ro (.num 0) .hw, f 1 1 .ro (.num 0) .hw, f 2 1 .w1c (.num 0) .kept, f 3 1 .w1c (.num 0) .kept],
  r "SCH_OPENS" 0x418 (8, 32, 1, 4) .openReg .cell [f 0 32 .ro (.num 0) .kept],
  r "SCH_LATE" 0x41C (8, 32, 1, 4) .openReg .cell [f 0 32 .ro (.num 0) .kept]]

def mapChip6 : List RegDesc := mapChip6p0 ++ mapChip6p1 ++ mapChip6p2

def mapChip7 : List RegDesc := [
  r "CLS_PMAP" 0x0 (8, 4, 1, 4) .privileged .plain [f 0 3 .rwl .img .kept (.chip 5), f 3 3 .rwl .img .kept (.chip 5), f 6 3 .rwl .img .kept (.chip 5), f 9 3 .rwl .img .kept (.chip 5), f 12 3 .rwl .img .kept (.chip 5), f 15 3 .rwl .img .kept (.chip 5), f 18 3 .rwl .img .kept (.chip 5), f 21 3 .rwl .img .kept (.chip 5)],
  r "CLS_PSEL" 0x20 (16, 4, 1, 4) .privileged .plain [f 0 3 .rwl .img .kept (.chip 5), f 4 3 .rwl .img .kept (.chip 5), f 8 3 .rwl .img .kept (.chip 5), f 12 3 .rwl .img .kept (.chip 5), f 16 3 .rwl .img .kept (.chip 5), f 20 3 .rwl .img .kept (.chip 5), f 24 3 .rwl .img .kept (.chip 5), f 28 3 .rwl .img .kept (.chip 5)],
  r "CLS_HSEL" 0x60 (1, 4, 1, 4) .privileged .plain [f 0 3 .rwl .img .kept (.chip 5), f 4 3 .rwl .img .kept (.chip 5), f 8 3 .rwl .img .kept (.chip 5), f 12 3 .rwl .img .kept (.chip 5), f 16 3 .rwl .img .kept (.chip 5), f 20 3 .rwl .img .kept (.chip 5)]]

def mapChip8 : List RegDesc := [
  r "SUP_STAT" 0x0 (1, 4, 1, 4) .openReg .plain [f 0 1 .ro .hw .hw, f 1 1 .ro (.num 0) .kept, f 2 1 .ro (.num 0) (.num 0)],
  r "SUP_WDOG" 0x4 (1, 4, 1, 4) .privileged .plain [f 0 16 .rw .img .kept, f 31 1 .w1s (.num 0) (.num 0)],
  r "SUP_MBOX_IN" 0x8 (1, 4, 1, 4) .privileged .plain [f 0 32 .rw (.num 0) (.num 0)],
  r "SUP_MBOX_OUT" 0xC (1, 4, 1, 4) .privileged .plain [f 0 32 .ro (.num 0) (.num 0)]]

def mapChip9p0 : List RegDesc := [
  r "TWN_CFG" 0x0 (1, 4, 1, 4) .privileged .plain [f 0 2 .ro .img .img, f 2 1 .rwl .img .kept (.chip 3), f 3 1 .rwl .img .kept (.chip 3)],
  r "TWN_STAT" 0x4 (1, 4, 1, 4) .openReg .plain [f 0 2 .ro .hw .hw, f 2 1 .ro .hw .hw, f 3 1 .ro (.num 0) (.num 0), f 4 1 .ro (.num 0) (.num 0), f 16 16 .ro (.num 0) .kept],
  r "TWN_EVT" 0x8 (1, 4, 1, 4) .privileged .plain [f 0 1 .w1c (.num 0) .kept, f 1 1 .w1c (.num 0) .kept, f 2 1 .w1c (.num 0) .kept, f 3 1 .w1c (.num 0) .kept, f 4 1 .w1c (.num 0) .kept, f 5 1 .w1c (.num 0) .kept, f 6 1 .w1c (.num 0) .kept, f 7 1 .w1c (.num 0) .kept, f 8 1 .w1c (.num 0) .kept, f 9 1 .w1c (.num 0) .kept],
  r "TWN_EVT_EN" 0xC (1, 4, 1, 4) .privileged .plain [f 0 10 .rw (.num 0) .kept],
  r "TWN_CMD" 0x10 (1, 4, 1, 4) .privileged .plain [f 0 1 .w1s (.num 0) (.num 0)],
  r "TWN_LEASE" 0x14 (1, 4, 1, 4) .openReg .plain [f 0 32 .ro (.num 0) .kept],
  r "TWN_PEER_LO" 0x18 (1, 4, 1, 4) .openReg .plain [f 0 32 .ro (.num 0) .kept],
  r "TWN_PEER_HI" 0x1C (1, 4, 1, 4) .openReg .plain [f 0 32 .ro (.num 0) .kept],
  r "TWN_ACT" 0x20 (4, 4, 1, 4) .privileged .plain [f 0 32 .rwl .img .kept (.chip 3)],
  r "ABD_CFG" 0x30 (1, 4, 1, 4) .privileged .plain [f 0 10 .rwl .img .kept (.chip 3), f 10 10 .rwl .img .kept (.chip 3), f 20 1 .rwl .img .kept (.chip 3), f 21 1 .rwl .img .kept (.chip 3)],
  r "ABD_STAT" 0x34 (1, 4, 1, 4) .openReg .plain [f 0 2 .ro (.num 0) .hw, f 2 1 .ro (.num 0) .hw, f 3 3 .ro (.num 0) .kept, f 6 1 .ro (.num 0) (.num 0), f 7 1 .w1c (.num 0) (.num 0)],
  r "ABD_TX_CMD" 0x38 (1, 4, 1, 4) .privileged .plain [f 0 8 .wo (.num 0) (.num 0), f 8 2 .wo (.num 0) (.num 0), f 31 1 .wo (.num 0) (.num 0)],
  r "ABD_TX_MSG" 0x40 (4, 4, 1, 4) .privileged .plain [f 0 32 .rw (.num 0) (.num 0)],
  r "OUT_CTL" 0x50 (1, 4, 1, 4) .privileged .plain [f 0 8 .rw (.num 0) .kept, f 8 8 .rw (.num 0) .kept, f 16 1 .rw (.num 1) .kept],
  r "OUT_STAT" 0x54 (1, 4, 1, 4) .openReg .plain [f 0 8 .ro (.num 0) .hw, f 8 8 .ro (.num 0) .hw, f 16 1 .ro (.num 0) .hw, f 17 1 .ro (.num 1) .hw],
  r "OUT_ASRC" 0x58 (1, 4, 1, 4) .privileged .plain [f 0 6 .w1c (.num 0) .kept]]

def mapChip9p1 : List RegDesc := [
  r "OUT_AEN" 0x5C (1, 4, 1, 4) .privileged .plain [f 0 6 .rw .img .kept],
  r "TWN_CLAIMS" 0x60 (1, 4, 1, 4) .openReg .cell [f 0 32 .ro (.num 0) .kept],
  r "TWN_YIELDS" 0x64 (1, 4, 1, 4) .openReg .cell [f 0 32 .ro (.num 0) .kept],
  r "TWN_OWN_EXPIRED" 0x68 (1, 4, 1, 4) .openReg .cell [f 0 32 .ro (.num 0) .kept],
  r "TWN_PEER_EXPIRED" 0x6C (1, 4, 1, 4) .openReg .cell [f 0 32 .ro (.num 0) .kept],
  r "TWN_RENEW_TX" 0x70 (1, 4, 1, 4) .openReg .cell [f 0 32 .ro (.num 0) .kept],
  r "TWN_RENEW_ACK_RX" 0x74 (1, 4, 1, 4) .openReg .cell [f 0 32 .ro (.num 0) .kept],
  r "TWN_SIMUL" 0x78 (1, 4, 1, 4) .openReg .cell [f 0 32 .ro (.num 0) .kept],
  r "TWN_STALE" 0x7C (1, 4, 1, 4) .openReg .cell [f 0 32 .ro (.num 0) .kept],
  r "TWN_PASSIVE_DROP" 0x80 (1, 4, 1, 4) .openReg .cell [f 0 32 .ro (.num 0) .kept],
  r "TWN_PASSIVE_OMIT" 0x84 (1, 4, 1, 4) .openReg .cell [f 0 32 .ro (.num 0) .kept],
  r "TWN_DUAL_MS" 0x88 (1, 4, 1, 4) .openReg .cell [f 0 32 .ro (.num 0) .kept],
  r "ABD_TX_FRAMES" 0x8C (1, 4, 1, 4) .openReg .cell [f 0 32 .ro (.num 0) .kept],
  r "ABD_RX_FRAMES" 0x90 (1, 4, 1, 4) .openReg .cell [f 0 32 .ro (.num 0) .kept],
  r "ABD_RX_DUP" 0x94 (1, 4, 1, 4) .openReg .cell [f 0 32 .ro (.num 0) .kept],
  r "ABD_GAP" 0x98 (1, 4, 1, 4) .openReg .cell [f 0 32 .ro (.num 0) .kept]]

def mapChip9p2 : List RegDesc := [
  r "ABD_CRC_ERR" 0x9C (1, 4, 1, 4) .openReg .cell [f 0 32 .ro (.num 0) .kept]]

def mapChip9 : List RegDesc := mapChip9p0 ++ mapChip9p1 ++ mapChip9p2

def mapChip10p0 : List RegDesc := [
  r "STR_STAT" 0x0 (1, 4, 1, 4) .openReg .plain [f 0 2 .ro .hw .hw, f 2 4 .ro .hw .hw, f 6 2 .ro .hw .hw, f 8 2 .ro .hw .hw, f 10 1 .ro .hw .hw, f 11 1 .ro (.num 0) (.num 0)],
  r "STR_CMD" 0x4 (1, 4, 1, 4) .privileged .plain [f 0 1 .w1s (.num 0) (.num 0), f 1 1 .w1s (.num 0) (.num 0)],
  r "STR_CAUSE" 0x8 (1, 4, 1, 4) .openReg .plain [f 0 4 .ro .hw .kept, f 4 2 .ro .hw .kept, f 8 4 .ro .hw .kept],
  r "STR_TIME" 0xC (1, 4, 1, 4) .openReg .plain [f 0 32 .ro .hw .hw],
  r "STR_TIME_FWD" 0x10 (1, 4, 1, 4) .openReg .plain [f 0 32 .ro .hw .hw],
  r "CAL_STAT" 0x14 (1, 4, 1, 4) .openReg .plain [f 0 2 .ro (.num 0) (.num 0), f 2 1 .ro .hw .kept, f 3 1 .ro .hw .kept, f 4 4 .ro .hw .kept, f 8 1 .ro (.num 0) .kept, f 9 1 .ro .hw .kept],
  r "CAL_CMD" 0x18 (1, 4, 1, 4) .privileged .plain [f 0 1 .w1s (.num 0) (.num 0), f 1 1 .w1s (.num 0) (.num 0)],
  r "PWR_CFG" 0x20 (1, 4, 1, 4) .privileged .plain [f 0 1 .rw (.num 1) .kept, f 1 3 .rw (.num 5) .kept, f 8 8 .rw (.num 20) .kept, f 16 16 .rw (.num 50) .kept],
  r "PWR_LADDER0" 0x24 (1, 4, 1, 4) .privileged .plain [f 0 8 .rw (.num 0) .kept, f 8 8 .rw (.num 2) .kept, f 16 8 .rw (.num 5) .kept, f 24 8 .rw (.num 10) .kept],
  r "PWR_LADDER1" 0x28 (1, 4, 1, 4) .privileged .plain [f 0 16 .rw (.num 25) .kept],
  r "PWR_STAT" 0x2C (1, 4, 1, 4) .openReg .plain [f 0 3 .ro (.num 0) .hw, f 3 3 .ro (.num 0) .hw, f 6 1 .ro (.num 0) .hw, f 7 3 .ro (.num 0) .hw, f 10 1 .ro (.num 0) (.num 0), f 11 1 .ro (.num 0) (.num 0)],
  r "PWR_EVT" 0x30 (1, 4, 1, 4) .privileged .plain [f 0 1 .w1c (.num 0) .kept, f 1 1 .w1c (.num 0) .kept, f 2 1 .w1c (.num 0) .kept, f 3 1 .w1c (.num 0) .kept, f 4 1 .w1c (.num 0) .kept],
  r "PWR_EVT_EN" 0x34 (1, 4, 1, 4) .privileged .plain [f 0 5 .rw (.num 0) .kept],
  r "PWR_SHEDDABLE" 0x40 (4, 4, 1, 4) .privileged .plain [f 0 32 .rwl .img .kept (.chip 1)],
  r "PWR_VITAL" 0x50 (4, 4, 1, 4) .privileged .plain [f 0 32 .rwl .img .kept (.chip 1)],
  r "PWR_SAG_CNT" 0x60 (1, 4, 1, 4) .openReg .cell [f 0 32 .ro (.num 0) .kept]]

def mapChip10p1 : List RegDesc := [
  r "PWR_ENTER1" 0x64 (1, 4, 1, 4) .openReg .cell [f 0 32 .ro (.num 0) .kept],
  r "PWR_ENTER2" 0x68 (1, 4, 1, 4) .openReg .cell [f 0 32 .ro (.num 0) .kept],
  r "PWR_ENTER3" 0x6C (1, 4, 1, 4) .openReg .cell [f 0 32 .ro (.num 0) .kept],
  r "PWR_ENTER4" 0x70 (1, 4, 1, 4) .openReg .cell [f 0 32 .ro (.num 0) .kept],
  r "PWR_ENTER5" 0x74 (1, 4, 1, 4) .openReg .cell [f 0 32 .ro (.num 0) .kept],
  r "STR_WARM_CNT" 0x78 (1, 4, 1, 4) .openReg .cell [f 0 32 .ro .hw .hw],
  r "STR_COLD_CNT" 0x7C (1, 4, 1, 4) .openReg .cell [f 0 32 .ro .hw .hw]]

def mapChip10 : List RegDesc := mapChip10p0 ++ mapChip10p1

def mapChip11 : List RegDesc := [
  r "INT_CHIP_STAT" 0x0 (1, 4, 1, 4) .privileged .plain [f 0 12 .ro (.num 0) .hw],
  r "INT_CHIP_EN" 0x4 (1, 4, 1, 4) .privileged .plain [f 0 12 .rw (.num 0) .kept],
  r "INT_CTL" 0x8 (1, 4, 1, 4) .privileged .plain [f 0 1 .w1s (.num 0) (.num 0)],
  r "INT_RGN_STAT" 0x10 (4, 4, 1, 4) .privileged .plain [f 0 10 .ro (.num 0) .hw, f 10 1 .ro (.num 0) .hw],
  r "INT_RGN_EN" 0x20 (4, 4, 1, 4) .privileged .plain [f 0 11 .rw (.num 0) .kept, f 11 18 .rw (.num 262143) .kept]]

def mapChip12 : List RegDesc := [
  r "LOG_CFG" 0x0 (1, 4, 1, 4) .privileged .plain [f 0 1 .rwl .img .kept (.chip 4), f 1 1 .rwl .img .kept (.chip 4), f 2 2 .rwl .img .kept (.chip 4), f 16 14 .rwl .img .kept (.chip 4)],
  r "LOG_STAT" 0x4 (1, 4, 1, 4) .privileged .plain [f 0 14 .ro (.num 0) .kept, f 14 1 .w1c (.num 0) .kept],
  r "LOG_POP" 0x8 (1, 4, 1, 4) .privileged .plain [f 0 1 .w1s (.num 0) (.num 0)],
  r "LOG_HEAD" 0x10 (4, 4, 1, 4) .privileged .plain [f 0 32 .ro (.num 0) .kept],
  r "LOG_WRITTEN" 0x20 (1, 4, 1, 4) .privileged .cell [f 0 32 .ro (.num 0) .kept],
  r "LOG_DROPPED" 0x24 (1, 4, 1, 4) .privileged .cell [f 0 32 .ro (.num 0) .kept],
  r "LOG_OVERWRITTEN" 0x28 (1, 4, 1, 4) .privileged .cell [f 0 32 .ro (.num 0) .kept],
  r "LOG_CORR_SUPPRESSED" 0x2C (1, 4, 1, 4) .privileged .cell [f 0 32 .ro (.num 0) .kept]]

def mapChip13 : List RegDesc := [
  r "ABD_TX_DROP" 0x0 (1, 4, 1, 4) .openReg .cell [f 0 32 .ro (.num 0) .kept],
  r "ERR_CORRECTED" 0x4 (1, 4, 1, 4) .openReg .cell [f 0 32 .ro (.num 0) .kept],
  r "ERR_CONTAINED" 0x8 (1, 4, 1, 4) .openReg .cell [f 0 32 .ro (.num 0) .kept],
  r "ERR_REGION_FATAL" 0xC (1, 4, 1, 4) .openReg .cell [f 0 32 .ro (.num 0) .kept],
  r "ERR_CHIP_FATAL" 0x10 (1, 4, 1, 4) .openReg .cell [f 0 32 .ro (.num 0) .kept],
  r "ERR_ABSORBED" 0x14 (1, 4, 1, 4) .openReg .cell [f 0 32 .ro (.num 0) .kept],
  r "ERR_ESCALATED" 0x18 (1, 4, 1, 4) .openReg .cell [f 0 32 .ro (.num 0) .kept],
  r "INT_MSI_SENT" 0x1C (1, 4, 1, 4) .openReg .cell [f 0 32 .ro (.num 0) .kept],
  r "SNAP_TAKEN" 0x20 (1, 4, 1, 4) .openReg .cell [f 0 32 .ro (.num 0) .kept],
  r "SNAP_CFG" 0x40 (1, 4, 1, 4) .privileged .plain [f 0 9 .rw .img .kept],
  r "SNAP_STAT" 0x44 (1, 4, 1, 4) .openReg .plain [f 0 1 .ro (.num 0) .kept, f 1 1 .ro (.num 0) (.num 0), f 2 1 .ro (.num 0) (.num 0)],
  r "SNAP_CMD" 0x48 (1, 4, 1, 4) .privileged .plain [f 0 1 .w1s (.num 0) (.num 0), f 1 1 .w1s (.num 0) (.num 0), f 2 1 .w1s (.num 0) (.num 0)]]

def mapChip14 : List RegDesc := [
  r "DUMP_CFG" 0x0 (1, 4, 1, 4) .privileged .plain [f 0 1 .rw .img .kept, f 8 8 .rw .img .kept],
  r "DUMP_STAT" 0x4 (1, 4, 1, 4) .privileged .plain [f 0 1 .ro .hw .hw, f 1 1 .ro .hw .hw, f 2 1 .ro .hw .hw, f 3 1 .ro .hw .hw, f 8 8 .ro .hw .hw],
  r "DUMP_SEQ" 0x8 (1, 4, 1, 4) .privileged .plain [f 0 32 .ro .hw .hw],
  r "DUMP_LEN" 0xC (1, 4, 1, 4) .privileged .plain [f 0 32 .ro .hw .hw],
  r "DUMP_BASE" 0x10 (1, 4, 1, 4) .privileged .plain [f 0 32 .ro .img .img],
  r "DUMP_CMD" 0x14 (1, 4, 1, 4) .privileged .plain [f 0 1 .w1s (.num 0) (.num 0)]]

def mapChip15 : List RegDesc := [
  r "UART_CFG" 0x0 (1, 4, 1, 4) .privileged .plain [f 0 16 .rw (.num 542) .kept, f 16 1 .rw (.num 1) .kept],
  r "UART_STAT" 0x4 (1, 4, 1, 4) .privileged .plain [f 0 7 .ro (.num 0) (.num 0), f 8 7 .ro (.num 0) (.num 0), f 16 1 .w1c (.num 0) (.num 0), f 17 1 .w1c (.num 0) (.num 0), f 18 1 .w1c (.num 0) (.num 0)],
  r "UART_RX" 0x8 (1, 4, 1, 4) .privileged .plain [f 0 8 .ro (.num 0) (.num 0), f 8 1 .ro (.num 0) (.num 0)],
  r "UART_RX_POP" 0xC (1, 4, 1, 4) .privileged .plain [f 0 1 .w1s (.num 0) (.num 0)],
  r "UART_TX" 0x10 (1, 4, 1, 4) .privileged .plain [f 0 8 .wo (.num 0) (.num 0)],
  r "UART_FRAMING_ERR" 0x14 (1, 4, 1, 4) .openReg .cell [f 0 32 .ro (.num 0) .kept],
  r "UART_OVERRUN" 0x18 (1, 4, 1, 4) .openReg .cell [f 0 32 .ro (.num 0) .kept],
  r "UART_BREAK" 0x1C (1, 4, 1, 4) .openReg .cell [f 0 32 .ro (.num 0) .kept]]

def mapRgn0 : List RegDesc := [
  r "RGN_FLR_WEIGHT" 0x0 (1, 4, 1, 4) .privileged .plain [f 0 4 .rwl .img .kept (.rgn 0), f 4 4 .rwl .img .kept (.rgn 0), f 8 4 .rwl .img .kept (.rgn 0), f 12 4 .rwl .img .kept (.rgn 0), f 16 4 .rwl .img .kept (.rgn 0), f 20 4 .rwl .img .kept (.rgn 0)],
  r "RGN_STAT" 0x4 (1, 4, 1, 4) .openReg .plain [f 0 2 .ro .hw .hw, f 4 10 .ro (.num 0) (.num 0), f 16 4 .ro (.num 0) .kept],
  r "RGN_ERR" 0x8 (1, 4, 1, 4) .privileged .plain [f 0 10 .w1c (.num 0) .kept, f 16 1 .w1c (.num 0) .kept, f 17 1 .w1c (.num 0) .kept],
  r "RGN_RESTART" 0xC (1, 4, 1, 4) .privileged .plain [f 0 1 .w1s (.num 0) (.num 0)]]

def mapPortp0 : List RegDesc := [
  r "PB_MODE" 0x0 (1, 4, 1, 4) .privileged .plain [f 0 8 .ro .img .img, f 8 2 .ro .img .img, f 10 4 .ro .img .img, f 14 1 .ro .hw .hw],
  r "PB_STAT" 0x4 (1, 4, 1, 4) .openReg .plain [f 0 1 .ro .hw .hw, f 1 1 .ro (.num 0) (.num 0), f 8 8 .ro (.num 0) (.num 0), f 16 8 .ro .img .img],
  r "PB_EVT" 0x8 (1, 4, 1, 4) .privileged .plain [f 0 8 .w1c (.num 0) .kept, f 8 8 .w1c (.num 0) .kept, f 16 1 .w1c (.num 0) .kept],
  r "PB_EVT_EN" 0xC (1, 4, 1, 4) .privileged .plain [f 0 17 .rw (.num 0) .kept],
  r "MDIO_CFG" 0x40 (1, 4, 1, 4) .privileged .plain [f 0 10 .rw (.num 200) .kept, f 10 1 .rw (.num 0) .kept],
  r "MDIO_CMD" 0x44 (1, 4, 1, 4) .privileged .plain [f 0 5 .wo (.num 0) (.num 0), f 5 5 .wo (.num 0) (.num 0), f 10 2 .wo (.num 0) (.num 0), f 12 1 .wo (.num 0) (.num 0), f 16 16 .wo (.num 0) (.num 0)],
  r "MDIO_STAT" 0x48 (1, 4, 1, 4) .privileged .plain [f 0 1 .ro (.num 0) (.num 0), f 1 1 .w1c (.num 0) (.num 0), f 2 1 .w1c (.num 0) (.num 0), f 3 1 .w1c (.num 0) (.num 0), f 16 16 .ro (.num 0) (.num 0)],
  r "I2C_CFG" 0x60 (1, 4, 1, 4) .privileged .plain [f 0 1 .rw (.num 0) .kept],
  r "I2C_CMD" 0x64 (1, 4, 1, 4) .privileged .plain [f 0 7 .wo (.num 0) (.num 0), f 8 5 .wo (.num 0) (.num 0), f 16 5 .wo (.num 0) (.num 0), f 24 1 .wo (.num 0) (.num 0)],
  r "I2C_STAT" 0x68 (1, 4, 1, 4) .privileged .plain [f 0 1 .ro (.num 0) (.num 0), f 1 1 .w1c (.num 0) (.num 0), f 2 1 .w1c (.num 0) (.num 0), f 3 1 .w1c (.num 0) (.num 0), f 4 1 .w1c (.num 0) (.num 0), f 5 1 .w1c (.num 0) (.num 0), f 6 1 .w1c (.num 0) (.num 0), f 7 1 .w1c (.num 0) (.num 0), f 8 1 .w1c (.num 0) (.num 0), f 16 5 .ro (.num 0) (.num 0)],
  r "I2C_DATA" 0x70 (4, 4, 1, 4) .privileged .plain [f 0 32 .rw (.num 0) (.num 0)],
  r "LN_CFG" 0x100 (4, 64, 1, 4) .privileged .plain [f 0 1 .rw .hw .kept, f 1 1 .rw .hw .kept, f 2 2 .rw (.num 0) (.num 0), f 4 1 .rw (.num 0) (.num 0)],
  r "LN_TXEQ" 0x104 (4, 64, 1, 4) .privileged .plain [f 0 5 .rw .hw .kept, f 8 5 .rw .hw .kept, f 16 6 .rw .hw .kept],
  r "LN_RXEQ" 0x108 (4, 64, 1, 4) .openReg .plain [f 0 5 .ro .hw .hw, f 8 8 .ro .hw .hw, f 16 1 .ro (.num 0) (.num 0)],
  r "LN_PRBS" 0x10C (4, 64, 1, 4) .privileged .plain [f 0 3 .rw (.num 0) (.num 0), f 4 3 .rw (.num 0) (.num 0)],
  r "LN_STAT" 0x110 (4, 64, 1, 4) .openReg .plain [f 0 1 .ro (.num 0) (.num 0), f 1 1 .ro (.num 0) (.num 0), f 2 1 .ro (.num 0) (.num 0), f 3 1 .ro (.num 0) (.num 0), f 4 1 .ro (.num 0) (.num 0)]]

def mapPortp1 : List RegDesc := [
  r "LN_PRBS_ERR" 0x120 (4, 64, 1, 4) .openReg .cell [f 0 32 .ro (.num 0) .kept],
  r "LN_SIG_LOSS" 0x124 (4, 64, 1, 4) .openReg .cell [f 0 32 .ro (.num 0) .kept],
  r "LN_SYNC_LOSS" 0x128 (4, 64, 1, 4) .openReg .cell [f 0 32 .ro (.num 0) .kept],
  r "MAC_CFG" 0x800 (8, 256, 1, 4) .privileged .plain [f 0 1 .rwl .img .kept (.rgn 1), f 1 1 .rwl .img .kept (.rgn 1), f 2 1 .rwl .img .kept (.rgn 1), f 3 1 .rwl .img .kept (.rgn 1), f 4 4 .rwl .img .kept (.rgn 1)],
  r "MAC_FRAME" 0x804 (8, 256, 1, 4) .privileged .plain [f 0 14 .rwl .img .kept (.rgn 1)],
  r "MAC_LINK" 0x808 (8, 256, 1, 4) .privileged .plain [f 0 8 .rwl .img .kept (.rgn 1), f 8 8 .rwl .img .kept (.rgn 1)],
  r "MAC_TS_ADJ" 0x80C (8, 256, 1, 4) .privileged .plain [f 0 16 .rwl .img .kept (.rgn 1), f 16 16 .rwl .img .kept (.rgn 1)],
  r "MAC_STAT" 0x810 (8, 256, 1, 4) .openReg .plain [f 0 3 .ro (.num 0) (.num 0), f 3 1 .ro (.num 0) (.num 0), f 4 4 .ro (.num 0) (.num 0), f 8 1 .ro (.num 0) (.num 0), f 9 1 .ro (.num 0) (.num 0), f 10 1 .ro (.num 0) (.num 0), f 11 1 .ro (.num 0) (.num 0), f 12 1 .ro (.num 0) (.num 0)],
  r "MAC_MCHASH" 0x840 (8, 256, 16, 4) .privileged .plain [f 0 32 .rw .img .kept],
  r "MAC_RX_OK" 0x880 (8, 256, 1, 4) .openReg .cell [f 0 32 .ro (.num 0) .kept],
  r "MAC_RX_OK_BYTES" 0x884 (8, 256, 1, 4) .openReg .cell [f 0 32 .ro (.num 0) .kept],
  r "MAC_RX_RUNT" 0x888 (8, 256, 1, 4) .openReg .cell [f 0 32 .ro (.num 0) .kept],
  r "MAC_RX_OVERSIZE" 0x88C (8, 256, 1, 4) .openReg .cell [f 0 32 .ro (.num 0) .kept],
  r "MAC_RX_FCS_ERR" 0x890 (8, 256, 1, 4) .openReg .cell [f 0 32 .ro (.num 0) .kept],
  r "MAC_RX_ABORT" 0x894 (8, 256, 1, 4) .openReg .cell [f 0 32 .ro (.num 0) .kept],
  r "MAC_RX_MC_FILTERED" 0x898 (8, 256, 1, 4) .openReg .cell [f 0 32 .ro (.num 0) .kept]]

def mapPortp2 : List RegDesc := [
  r "MAC_RX_BCAST_DROP" 0x89C (8, 256, 1, 4) .openReg .cell [f 0 32 .ro (.num 0) .kept],
  r "MAC_RX_MAC_CTRL" 0x8A0 (8, 256, 1, 4) .openReg .cell [f 0 32 .ro (.num 0) .kept],
  r "MAC_RX_NOT_READY" 0x8A4 (8, 256, 1, 4) .openReg .cell [f 0 32 .ro (.num 0) .kept],
  r "MAC_RX_FIFO_FULL" 0x8A8 (8, 256, 1, 4) .openReg .cell [f 0 32 .ro (.num 0) .kept],
  r "MAC_RX_EGRESS_MTU" 0x8AC (8, 256, 1, 4) .openReg .cell [f 0 32 .ro (.num 0) .kept],
  r "MAC_TX_OK" 0x8B0 (8, 256, 1, 4) .openReg .cell [f 0 32 .ro (.num 0) .kept],
  r "MAC_TX_OK_BYTES" 0x8B4 (8, 256, 1, 4) .openReg .cell [f 0 32 .ro (.num 0) .kept],
  r "MAC_TX_STOMP" 0x8B8 (8, 256, 1, 4) .openReg .cell [f 0 32 .ro (.num 0) .kept],
  r "MAC_TX_ABORT" 0x8BC (8, 256, 1, 4) .openReg .cell [f 0 32 .ro (.num 0) .kept],
  r "MAC_TX_TS" 0x8C0 (8, 256, 1, 4) .openReg .cell [f 0 32 .ro (.num 0) .kept],
  r "MAC_FEC_CORR" 0x8C4 (8, 256, 1, 4) .openReg .cell [f 0 32 .ro (.num 0) .kept],
  r "MAC_FEC_UNCORR" 0x8C8 (8, 256, 1, 4) .openReg .cell [f 0 32 .ro (.num 0) .kept],
  r "MAC_LINK_DOWN" 0x8CC (8, 256, 1, 4) .openReg .cell [f 0 32 .ro (.num 0) .kept],
  r "MAC_HOLD_DOWN_RECOVERED" 0x8D0 (8, 256, 1, 4) .openReg .cell [f 0 32 .ro (.num 0) .kept]]

def mapPort : List RegDesc := mapPortp0 ++ mapPortp1 ++ mapPortp2

def mapEnginep0 : List RegDesc := [
  r "ENG_BLK_CFG" 0x0 (1, 4, 1, 4) .privileged .plain [f 0 8 .rw .img .kept, f 8 1 .rw .img .kept],
  r "ENG_BLK_STAT" 0x4 (1, 4, 1, 4) .openReg .plain [f 0 1 .ro (.num 0) (.num 0), f 1 1 .ro (.num 0) (.num 0), f 2 8 .ro (.num 0) (.num 0), f 10 8 .ro (.num 0) (.num 0)],
  r "ENG_BLK_EVT" 0x8 (1, 4, 1, 4) .privileged .plain [f 0 1 .w1c (.num 0) .kept, f 1 1 .w1c (.num 0) .kept, f 2 1 .w1c (.num 0) .kept, f 3 1 .w1c (.num 0) .kept],
  r "ENG_BLK_EVT_EN" 0xC (1, 4, 1, 4) .privileged .plain [f 0 4 .rw (.num 0) .kept],
  r "ENG_RESTART_INFO" 0x10 (1, 4, 1, 4) .openReg .plain [f 0 11 .ro (.num 0) .kept, f 16 8 .ro (.num 0) .kept],
  r "ENG_DIR_PTR" 0x14 (1, 4, 1, 4) .openReg .plain [f 0 3 .ro (.num 0) (.num 0)],
  r "ENG_CTL" 0x100 (8, 16, 1, 4) .privileged .plain [f 0 1 .rw (.num 0) (.num 0), f 1 1 .rw (.num 0) (.num 0)],
  r "ENG_STAT" 0x104 (8, 16, 1, 4) .openReg .plain [f 0 8 .ro (.num 0) (.num 0), f 8 8 .ro (.num 0) (.num 0), f 16 1 .ro (.num 0) (.num 0)],
  r "ENG_FAULT" 0x108 (8, 16, 1, 4) .privileged .plain [f 0 4 .ro (.num 0) .kept, f 4 3 .ro (.num 0) .kept, f 7 1 .w1c (.num 0) .kept, f 16 16 .ro (.num 0) .kept],
  r "ENG_FAULT_CNT" 0x10C (8, 16, 1, 4) .openReg .cell [f 0 32 .ro (.num 0) .kept],
  r "ENG_DIR_GETS" 0x200 (1, 4, 1, 4) .openReg .cell [f 0 32 .ro (.num 0) .kept],
  r "ENG_DIR_GETX" 0x204 (1, 4, 1, 4) .openReg .cell [f 0 32 .ro (.num 0) .kept],
  r "ENG_DIR_RECALL" 0x208 (1, 4, 1, 4) .openReg .cell [f 0 32 .ro (.num 0) .kept],
  r "ENG_DIR_CONTEND" 0x20C (1, 4, 1, 4) .openReg .cell [f 0 32 .ro (.num 0) .kept],
  r "ENG_CORR" 0x210 (1, 4, 1, 4) .openReg .cell [f 0 32 .ro (.num 0) .kept],
  r "ENG_UNCORR" 0x214 (1, 4, 1, 4) .openReg .cell [f 0 32 .ro (.num 0) .kept]]

def mapEnginep1 : List RegDesc := [
  r "ENG_SLOT_RETIRED" 0x300 (8, 16, 1, 4) .openReg .cell [f 0 32 .ro (.num 0) .kept],
  r "ENG_SLOT_WASTED" 0x304 (8, 16, 1, 4) .openReg .cell [f 0 32 .ro (.num 0) .kept],
  r "ENG_SLOT_FRONT" 0x308 (8, 16, 1, 4) .openReg .cell [f 0 32 .ro (.num 0) .kept],
  r "ENG_SLOT_BACK" 0x30C (8, 16, 1, 4) .openReg .cell [f 0 32 .ro (.num 0) .kept]]

def mapEngine : List RegDesc := mapEnginep0 ++ mapEnginep1

def mapRgn7p0 : List RegDesc := [
  r "TBL_STAT" 0x0 (1, 4, 1, 4) .openReg .plain [f 0 1 .ro (.num 0) (.num 0), f 1 1 .ro (.num 0) (.num 0), f 2 5 .ro .img .img, f 8 6 .ro (.num 0) .kept],
  r "TBL_FDB_CFG" 0x4 (1, 4, 1, 4) .privileged .plain [f 0 6 .rw .img .kept],
  r "TBL_AGE_CFG" 0x8 (1, 4, 1, 4) .privileged .plain [f 0 1 .rwl .img .kept (.rgn 11), f 16 16 .rwl .img .kept (.rgn 11)],
  r "TBL_LRN_CFG" 0xC (1, 4, 1, 4) .privileged .plain [f 0 1 .rw .img .kept, f 8 8 .rw .img .kept, f 16 16 .rw .img .kept],
  r "TBL_FDB_SEED_LO" 0x10 (2, 8, 1, 4) .openReg .plain [f 0 32 .ro .img .img],
  r "TBL_FDB_SEED_HI" 0x14 (2, 8, 1, 4) .openReg .plain [f 0 28 .ro .img .img],
  r "TBL_FDB_COUNT" 0x20 (1, 4, 1, 4) .openReg .plain [f 0 19 .ro .hw .hw],
  r "TBL_LRN_STAT" 0x24 (1, 4, 1, 4) .openReg .plain [f 0 13 .ro (.num 0) (.num 0)],
  r "TBL_LRN_POP" 0x28 (1, 4, 1, 4) .privileged .plain [f 0 1 .w1s (.num 0) (.num 0)],
  r "TBL_LRN_HEAD" 0x30 (4, 4, 1, 4) .privileged .plain [f 0 32 .ro (.num 0) (.num 0)],
  r "TBL_GLN_CFG" 0x40 (1, 4, 1, 4) .privileged .plain [f 0 16 .rw .img .kept, f 16 8 .rw .img .kept],
  r "TBL_GLN_STAT" 0x44 (1, 4, 1, 4) .openReg .plain [f 0 1 .ro (.num 0) .hw, f 1 1 .w1c (.num 0) .kept, f 2 5 .ro (.num 0) .kept, f 7 9 .ro .hw .hw],
  r "TBL_GLN_MISMATCH" 0x48 (1, 4, 1, 4) .privileged .plain [f 0 13 .ro (.num 0) .kept, f 13 1 .ro (.num 0) .kept, f 31 1 .w1s (.num 0) (.num 0)],
  r "TBL_SPARE_STAT" 0x4C (1, 4, 1, 4) .openReg .plain [f 0 6 .ro (.num 0) .kept, f 6 1 .ro (.num 0) .kept, f 7 1 .ro (.num 0) (.num 0), f 8 5 .ro (.num 0) .kept],
  r "TBL_SHADOW_ADJ" 0x50 (1, 4, 1, 4) .privileged .plain [f 0 13 .wo (.num 0) (.num 0), f 13 1 .wo (.num 0) (.num 0)],
  r "TBL_SHADOW_DELTA" 0x54 (1, 4, 1, 4) .privileged .plain [f 0 32 .rw (.num 0) (.num 0)]]

def mapRgn7p1 : List RegDesc := [
  r "TBL_CMD_KEY_LO" 0x80 (4, 64, 1, 4) .privileged .plain [f 0 32 .rw (.num 0) (.num 0)],
  r "TBL_CMD_KEY_HI" 0x84 (4, 64, 1, 4) .privileged .plain [f 0 16 .rw (.num 0) (.num 0), f 16 12 .rw (.num 0) (.num 0)],
  r "TBL_CMD_DELTA" 0x9C (4, 64, 1, 4) .privileged .plain [f 0 32 .rw (.num 0) (.num 0)],
  r "TBL_CMD" 0xA0 (4, 64, 1, 4) .privileged .plain [f 0 4 .wo (.num 0) (.num 0)],
  r "TBL_CMD_STAT" 0xA4 (4, 64, 1, 4) .privileged .plain [f 0 1 .ro (.num 0) (.num 0), f 1 1 .w1c (.num 0) (.num 0), f 2 1 .w1c (.num 0) (.num 0), f 4 4 .ro (.num 0) (.num 0), f 8 8 .ro (.num 0) (.num 0)],
  r "TBL_CMD_LOC" 0xA8 (4, 64, 1, 4) .privileged .plain [f 0 20 .ro (.num 0) (.num 0)],
  r "TBL_CMD_RDATA" 0xAC (4, 64, 1, 4) .privileged .plain [f 0 12 .ro (.num 0) (.num 0), f 12 1 .ro (.num 0) (.num 0), f 13 1 .ro (.num 0) (.num 0), f 14 1 .ro (.num 0) (.num 0)],
  r "TBL_CMD_DATA" 0x88 (4, 64, 5, 4) .privileged .plain [f 0 32 .rw (.num 0) (.num 0)],
  r "TBL_PORT" 0x200 (34, 4, 1, 4) .privileged .plain [f 0 12 .rw .img .kept, f 12 3 .rw .img .kept, f 15 1 .rw .img .kept, f 16 1 .rw .img .kept],
  r "TBL_DA_HIT" 0x300 (1, 4, 1, 4) .openReg .cell [f 0 32 .ro (.num 0) .kept],
  r "TBL_DA_MISS_UC" 0x304 (1, 4, 1, 4) .openReg .cell [f 0 32 .ro (.num 0) .kept],
  r "TBL_DA_MISS_MC" 0x308 (1, 4, 1, 4) .openReg .cell [f 0 32 .ro (.num 0) .kept],
  r "TBL_SA_MISS" 0x30C (1, 4, 1, 4) .openReg .cell [f 0 32 .ro (.num 0) .kept],
  r "TBL_LRN_POSTED" 0x310 (1, 4, 1, 4) .openReg .cell [f 0 32 .ro (.num 0) .kept],
  r "TBL_LRN_DROP" 0x314 (1, 4, 1, 4) .openReg .cell [f 0 32 .ro (.num 0) .kept],
  r "TBL_LRN_FILTERED" 0x318 (1, 4, 1, 4) .openReg .cell [f 0 32 .ro (.num 0) .kept]]

def mapRgn7p2 : List RegDesc := [
  r "TBL_VLAN_UNKNOWN" 0x31C (1, 4, 1, 4) .openReg .cell [f 0 32 .ro (.num 0) .kept],
  r "TBL_VLAN_FILTERED" 0x320 (1, 4, 1, 4) .openReg .cell [f 0 32 .ro (.num 0) .kept],
  r "TBL_SAME_PORT" 0x324 (1, 4, 1, 4) .openReg .cell [f 0 32 .ro (.num 0) .kept],
  r "TBL_STATIC_MOVE" 0x328 (1, 4, 1, 4) .openReg .cell [f 0 32 .ro (.num 0) .kept],
  r "TBL_DEST_BAD" 0x32C (1, 4, 1, 4) .openReg .cell [f 0 32 .ro (.num 0) .kept],
  r "TBL_CORR" 0x330 (1, 4, 1, 4) .openReg .cell [f 0 32 .ro (.num 0) .kept],
  r "TBL_UNCORR" 0x334 (1, 4, 1, 4) .openReg .cell [f 0 32 .ro (.num 0) .kept],
  r "TBL_GLN_PASSES" 0x338 (1, 4, 1, 4) .openReg .cell [f 0 32 .ro (.num 0) .kept],
  r "TBL_GLN_MISMATCHES" 0x33C (1, 4, 1, 4) .openReg .cell [f 0 32 .ro (.num 0) .kept],
  r "TBL_GLN_UNSETTLED" 0x340 (1, 4, 1, 4) .openReg .cell [f 0 32 .ro (.num 0) .kept],
  r "TBL_RELOCATED" 0x344 (1, 4, 1, 4) .openReg .cell [f 0 32 .ro (.num 0) .kept],
  r "TBL_PORT_BLOCKED" 0x348 (1, 4, 1, 4) .openReg .cell [f 0 32 .ro (.num 0) .kept],
  r "LOFT_CFG" 0x380 (1, 4, 1, 4) .privileged .plain [f 0 1 .rw .img .kept, f 1 1 .rw .img .kept],
  r "LOFT_STAT" 0x384 (1, 4, 1, 4) .openReg .plain [f 0 1 .ro (.num 0) (.num 0), f 1 14 .ro .img .img, f 15 1 .ro (.num 0) .hw, f 16 11 .ro (.num 0) (.num 0)],
  r "LOFT_US_LO" 0x388 (1, 4, 1, 4) .openReg .plain [f 0 32 .ro .hw .hw],
  r "LOFT_US_HI" 0x38C (1, 4, 1, 4) .openReg .plain [f 0 32 .ro .hw .hw]]

def mapRgn7p3 : List RegDesc := [
  r "LOFT_CMD" 0x390 (1, 4, 1, 4) .privileged .plain [f 0 1 .w1s (.num 0) (.num 0)],
  r "LOFT_PUT_OK" 0x394 (1, 4, 1, 4) .openReg .cell [f 0 32 .ro (.num 0) .kept],
  r "LOFT_STALE" 0x398 (1, 4, 1, 4) .openReg .cell [f 0 32 .ro (.num 0) .kept],
  r "LOFT_SOURCE" 0x39C (1, 4, 1, 4) .openReg .cell [f 0 32 .ro (.num 0) .kept],
  r "LOFT_REFUSED" 0x3A0 (1, 4, 1, 4) .openReg .cell [f 0 32 .ro (.num 0) .kept],
  r "LOFT_GET" 0x3A4 (1, 4, 1, 4) .openReg .cell [f 0 32 .ro (.num 0) .kept],
  r "LOFT_GET_WAIT" 0x3A8 (1, 4, 1, 4) .openReg .cell [f 0 32 .ro (.num 0) .kept],
  r "LOFT_MIRROR_TX" 0x3AC (1, 4, 1, 4) .openReg .cell [f 0 32 .ro (.num 0) .kept],
  r "LOFT_MIRROR_RX" 0x3B0 (1, 4, 1, 4) .openReg .cell [f 0 32 .ro (.num 0) .kept],
  r "LOFT_MIRROR_DROP" 0x3B4 (1, 4, 1, 4) .openReg .cell [f 0 32 .ro (.num 0) .kept],
  r "LOFT_LOST" 0x3B8 (1, 4, 1, 4) .openReg .cell [f 0 32 .ro (.num 0) .kept]]

def mapRgn7 : List RegDesc := mapRgn7p0 ++ mapRgn7p1 ++ mapRgn7p2 ++ mapRgn7p3

def mapRgn8p0 : List RegDesc := [
  r "GRN_CFG" 0x0 (1, 4, 1, 4) .privileged .plain [f 0 1 .ro .img .img, f 1 4 .ro .img .img, f 5 1 .rwl .img .kept (.rgn 7), f 6 1 .rwl .img .kept (.rgn 8), f 7 1 .rwl .img .kept (.rgn 10)],
  r "GRN_STAT" 0x4 (1, 4, 1, 4) .openReg .plain [f 0 1 .ro (.num 0) (.num 0), f 1 1 .ro (.num 0) (.num 0), f 2 1 .ro (.num 1) (.num 1), f 3 1 .ro (.num 0) (.num 0), f 4 1 .ro (.num 0) (.num 0), f 5 1 .ro (.num 0) (.num 0), f 6 1 .ro (.num 0) .hw],
  r "GRN_EVT" 0x8 (1, 4, 1, 4) .privileged .plain [f 0 1 .w1c (.num 0) .kept, f 1 1 .w1c (.num 0) .kept, f 2 1 .w1c (.num 0) .kept, f 3 1 .w1c (.num 0) .kept, f 4 1 .w1c (.num 0) .kept, f 5 1 .w1c (.num 0) .kept, f 6 1 .w1c (.num 0) .kept, f 7 1 .w1c (.num 0) .kept],
  r "GRN_EVT_EN" 0xC (1, 4, 1, 4) .privileged .plain [f 0 8 .rw (.num 0) .kept],
  r "GRN_RESERVE" 0x10 (1, 4, 1, 4) .openReg .plain [f 0 16 .ro .img .img, f 16 16 .ro (.num 0) .hw],
  r "GRN_BALE_OWN" 0x14 (1, 4, 1, 4) .openReg .plain [f 0 21 .ro .hw .hw],
  r "GRN_BALE_MIRROR" 0x18 (1, 4, 1, 4) .openReg .plain [f 0 21 .ro .hw .hw],
  r "GRN_HOLD_CFG" 0x20 (1, 4, 1, 4) .privileged .plain [f 0 16 .rw .img .kept],
  r "GRN_HOLD_CMD" 0x24 (1, 4, 1, 4) .privileged .plain [f 0 1 .w1s (.num 0) (.num 0), f 1 1 .w1s (.num 0) (.num 0)],
  r "GRN_HOLD_STAT" 0x28 (1, 4, 1, 4) .openReg .plain [f 0 1 .ro (.num 0) (.num 0), f 1 1 .ro (.num 0) (.num 0), f 16 16 .ro (.num 0) (.num 0)],
  r "GRN_HOLD_FLUSH" 0x2C (1, 4, 1, 4) .privileged .plain [f 0 32 .rw (.num 0) (.num 0)],
  r "GRN_LAND" 0x30 (5, 4, 1, 4) .privileged .plain [f 0 3 .rwl .img .kept (.rgn 8), f 4 3 .rwl .img .kept (.rgn 8), f 8 3 .rwl .img .kept (.rgn 8), f 12 3 .rwl .img .kept (.rgn 8), f 16 3 .rwl .img .kept (.rgn 8), f 20 3 .rwl .img .kept (.rgn 8), f 24 3 .rwl .img .kept (.rgn 8), f 28 3 .rwl .img .kept (.rgn 8)],
  r "GRN_QAGE" 0x60 (8, 4, 1, 4) .privileged .plain [f 0 16 .rw .img .kept],
  r "GRN_POOL_CFG" 0x80 (8, 16, 1, 4) .privileged .plain [f 0 16 .ro .img .img, f 16 1 .rwl .img .kept (.rgn 8), f 17 8 .rwl .img .kept (.rgn 8), f 25 3 .rwl .img .kept (.rgn 8)],
  r "GRN_POOL_MARK" 0x84 (8, 16, 1, 4) .privileged .plain [f 0 16 .rwl .img .kept (.rgn 10)],
  r "GRN_POOL_USED" 0x88 (8, 16, 1, 4) .openReg .plain [f 0 16 .ro (.num 0) .hw, f 16 16 .ro (.num 0) .hw]]

def mapRgn8p1 : List RegDesc := [
  r "GRN_POOL_PEAK" 0x8C (8, 16, 1, 4) .openReg .plain [f 0 16 .rc (.num 0) (.num 0)],
  r "GRN_REFUSED" 0x100 (8, 4, 1, 4) .openReg .cell [f 0 32 .ro (.num 0) .kept],
  r "GRN_FALLBACK" 0x120 (1, 4, 1, 4) .openReg .cell [f 0 32 .ro (.num 0) .kept],
  r "GRN_LAND_WAIT" 0x124 (1, 4, 1, 4) .openReg .cell [f 0 32 .ro (.num 0) .kept],
  r "GRN_PUSHED" 0x128 (1, 4, 1, 4) .openReg .cell [f 0 32 .ro (.num 0) .kept],
  r "GRN_AGED_OUT" 0x12C (1, 4, 1, 4) .openReg .cell [f 0 32 .ro (.num 0) .kept],
  r "GRN_MARKED" 0x130 (1, 4, 1, 4) .openReg .cell [f 0 32 .ro (.num 0) .kept],
  r "GRN_DOUBLE_FREE" 0x134 (1, 4, 1, 4) .openReg .cell [f 0 32 .ro (.num 0) .kept],
  r "GRN_ALLOC_HELD" 0x138 (1, 4, 1, 4) .openReg .cell [f 0 32 .ro (.num 0) .kept],
  r "GRN_RING_EMPTY" 0x13C (1, 4, 1, 4) .openReg .cell [f 0 32 .ro (.num 0) .kept],
  r "GRN_SPILLED" 0x140 (1, 4, 1, 4) .openReg .cell [f 0 32 .ro (.num 0) .kept],
  r "GRN_RETURNED" 0x144 (1, 4, 1, 4) .openReg .cell [f 0 32 .ro (.num 0) .kept],
  r "GRN_RETURN_LATE" 0x148 (1, 4, 1, 4) .openReg .cell [f 0 32 .ro (.num 0) .kept],
  r "GRN_SPILL_BLOCKED" 0x14C (1, 4, 1, 4) .openReg .cell [f 0 32 .ro (.num 0) .kept],
  r "GRN_MIRROR_USED" 0x150 (1, 4, 1, 4) .openReg .cell [f 0 32 .ro (.num 0) .kept],
  r "GRN_BALE_LOST" 0x154 (1, 4, 1, 4) .openReg .cell [f 0 32 .ro (.num 0) .kept]]

def mapRgn8p2 : List RegDesc := [
  r "GRN_STALE_SKIP" 0x158 (1, 4, 1, 4) .openReg .cell [f 0 32 .ro (.num 0) .kept],
  r "GRN_UNDELIVERABLE" 0x15C (1, 4, 1, 4) .openReg .cell [f 0 32 .ro (.num 0) .kept],
  r "GRN_RESTART_FREED" 0x160 (1, 4, 1, 4) .openReg .cell [f 0 32 .ro (.num 0) .kept],
  r "GRN_HOLD_SPILLED" 0x164 (1, 4, 1, 4) .openReg .cell [f 0 32 .ro (.num 0) .kept],
  r "GRN_COMMITTED" 0x168 (1, 4, 1, 4) .openReg .cell [f 0 32 .ro (.num 0) .kept],
  r "GRN_QSPILL" 0x400 (256, 4, 1, 4) .privileged .plain [f 0 16 .rwl .img .kept (.rgn 7), f 16 16 .rwl .img .kept (.rgn 7)],
  r "DRC_CFG" 0x800 (1, 4, 1, 4) .privileged .plain [f 0 1 .ro .img .img, f 1 3 .ro .img .img, f 4 1 .rw .img .kept, f 5 1 .rw .img .kept, f 16 8 .rw .img .kept, f 24 8 .rw .img .kept],
  r "DRC_STAT" 0x804 (1, 4, 1, 4) .openReg .plain [f 0 2 .ro .hw .hw, f 2 1 .ro (.num 0) .hw, f 3 1 .ro (.num 0) (.num 0), f 4 1 .ro (.num 0) (.num 0), f 5 1 .ro (.num 0) (.num 0), f 6 1 .ro .hw .kept, f 7 1 .ro (.num 0) .hw, f 8 7 .ro (.num 0) (.num 0), f 16 7 .ro (.num 0) (.num 0), f 24 2 .ro (.num 0) .hw, f 26 1 .ro (.num 0) .hw, f 28 3 .ro (.num 0) .kept],
  r "DRC_EVT" 0x808 (1, 4, 1, 4) .privileged .plain [f 0 1 .w1c (.num 0) .kept, f 1 1 .w1c (.num 0) .kept, f 2 1 .w1c (.num 0) .kept, f 3 1 .w1c (.num 0) .kept, f 4 1 .w1c (.num 0) .kept, f 5 1 .w1c (.num 0) .kept],
  r "DRC_EVT_EN" 0x80C (1, 4, 1, 4) .privileged .plain [f 0 6 .rw (.num 0) .kept],
  r "DRC_CMD" 0x810 (1, 4, 1, 4) .privileged .plain [f 0 1 .w1s (.num 0) (.num 0)],
  r "DRC_SCHED" 0x814 (1, 4, 1, 4) .privileged .plain [f 0 7 .rw .img .kept, f 8 7 .rw .img .kept, f 16 16 .rw .img .kept],
  r "DRC_PWR" 0x818 (1, 4, 1, 4) .privileged .plain [f 0 8 .rw .img .kept, f 8 16 .rw .img .kept, f 24 8 .rw .img .kept],
  r "DRC_RT_CFG" 0x81C (1, 4, 1, 4) .privileged .plain [f 0 8 .rw .img .kept, f 8 8 .rw .img .kept, f 16 16 .rw .img .kept],
  r "DRC_LAST_ERR" 0x820 (1, 4, 1, 4) .openReg .plain [f 0 26 .ro (.num 0) .kept, f 26 1 .ro (.num 0) .kept],
  r "DRC_TEMP" 0x824 (1, 4, 1, 4) .openReg .plain [f 0 8 .ro (.num 0) .hw, f 8 8 .ro (.num 0) .hw]]

def mapRgn8p3 : List RegDesc := [
  r "DRC_RD_BURSTS" 0x880 (1, 4, 1, 4) .openReg .cell [f 0 32 .ro (.num 0) .kept],
  r "DRC_WR_BURSTS" 0x884 (1, 4, 1, 4) .openReg .cell [f 0 32 .ro (.num 0) .kept],
  r "DRC_CHK_WRITES" 0x888 (1, 4, 1, 4) .openReg .cell [f 0 32 .ro (.num 0) .kept],
  r "DRC_FWD" 0x88C (1, 4, 1, 4) .openReg .cell [f 0 32 .ro (.num 0) .kept],
  r "DRC_MERGED" 0x890 (1, 4, 1, 4) .openReg .cell [f 0 32 .ro (.num 0) .kept],
  r "DRC_CORR" 0x894 (1, 4, 1, 4) .openReg .cell [f 0 32 .ro (.num 0) .kept],
  r "DRC_UNCORR" 0x898 (1, 4, 1, 4) .openReg .cell [f 0 32 .ro (.num 0) .kept],
  r "DRC_DRAIN" 0x89C (1, 4, 1, 4) .openReg .cell [f 0 32 .ro (.num 0) .kept],
  r "DRC_AGE_PROMOTE" 0x8A0 (1, 4, 1, 4) .openReg .cell [f 0 32 .ro (.num 0) .kept],
  r "DRC_QFULL_WAIT" 0x8A4 (1, 4, 1, 4) .openReg .cell [f 0 32 .ro (.num 0) .kept],
  r "DRC_SREF" 0x8A8 (1, 4, 1, 4) .openReg .cell [f 0 32 .ro (.num 0) .kept],
  r "DRC_TRACK" 0x8AC (1, 4, 1, 4) .openReg .cell [f 0 32 .ro (.num 0) .kept],
  r "DRC_RETRAIN" 0x8B0 (1, 4, 1, 4) .openReg .cell [f 0 32 .ro (.num 0) .kept],
  r "DRC_REFRESH" 0x8B4 (1, 4, 1, 4) .openReg .cell [f 0 32 .ro (.num 0) .kept]]

def mapRgn8 : List RegDesc := mapRgn8p0 ++ mapRgn8p1 ++ mapRgn8p2 ++ mapRgn8p3

def mapRgn9p0 : List RegDesc := [
  r "WNW_CFG" 0x0 (1, 4, 1, 4) .privileged .plain [f 0 1 .rwl .img .kept (.rgn 3), f 1 1 .rwl .img .kept (.rgn 3)],
  r "WNW_STAT" 0x4 (1, 4, 1, 4) .openReg .plain [f 0 1 .ro (.num 0) (.num 0), f 1 1 .ro (.num 0) (.num 0), f 2 1 .ro (.num 0) .hw, f 3 1 .w1c (.num 0) .kept, f 4 7 .ro .hw .hw, f 11 3 .ro .hw .hw, f 16 3 .ro .img .img, f 19 4 .ro .img .img],
  r "WNW_DEFAULT0" 0x8 (1, 4, 1, 4) .privileged .plain [f 0 32 .rwl .img .kept (.rgn 3)],
  r "WNW_DEFAULT1" 0xC (1, 4, 1, 4) .privileged .plain [f 0 32 .rwl .img .kept (.rgn 3)],
  r "WNW_DEFAULT2" 0x10 (1, 4, 1, 4) .privileged .plain [f 0 32 .rwl .img .kept (.rgn 3)],
  r "WNW_FREE" 0x14 (1, 4, 1, 4) .openReg .plain [f 0 14 .ro .hw .hw, f 14 1 .ro .hw .hw, f 16 15 .ro .hw .hw],
  r "WNW_CMD_DATA" 0x20 (4, 4, 1, 4) .privileged .plain [f 0 32 .rw (.num 0) (.num 0)],
  r "WNW_CMD" 0x40 (1, 4, 1, 4) .privileged .plain [f 0 4 .wo (.num 0) (.num 0) (.rgn 3), f 4 14 .wo (.num 0) (.num 0) (.rgn 3)],
  r "WNW_CMD_STAT" 0x44 (1, 4, 1, 4) .privileged .plain [f 0 1 .ro (.num 0) (.num 0), f 1 1 .w1c (.num 0) (.num 0), f 2 1 .w1c (.num 0) (.num 0), f 4 4 .ro (.num 0) (.num 0), f 16 16 .ro (.num 0) (.num 0)],
  r "WNW_SRC_CLASS" 0x50 (4, 4, 1, 4) .privileged .plain [f 0 32 .rwl .img .kept (.rgn 3)],
  r "WNW_SRC_CLASS4" 0x60 (1, 4, 1, 4) .privileged .plain [f 0 4 .rwl .img .kept (.rgn 3), f 4 4 .rwl .img .kept (.rgn 3), f 8 4 .rwl .img .kept (.rgn 3), f 12 4 .rwl .img .kept (.rgn 3)],
  r "WNW_XPROF" 0x100 (16, 16, 4, 4) .privileged .plain [f 0 16 .rwl .img .kept (.rgn 3), f 16 16 .rwl .img .kept (.rgn 3)],
  r "WNW_DEFAULT_HITS" 0x200 (1, 4, 1, 4) .openReg .cell [f 0 32 .ro (.num 0) .kept],
  r "WNW_DISCARD" 0x204 (1, 4, 1, 4) .openReg .cell [f 0 32 .ro (.num 0) .kept],
  r "WNW_NO_ENGINE" 0x208 (1, 4, 1, 4) .openReg .cell [f 0 32 .ro (.num 0) .kept],
  r "WNW_UNCORR" 0x20C (1, 4, 1, 4) .openReg .cell [f 0 32 .ro (.num 0) .kept]]

def mapRgn9p1 : List RegDesc := [
  r "WNW_XTRUNC" 0x210 (1, 4, 1, 4) .openReg .cell [f 0 32 .ro (.num 0) .kept],
  r "WNW_ABSENT" 0x214 (1, 4, 1, 4) .openReg .cell [f 0 32 .ro (.num 0) .kept],
  r "WNW_MOVES" 0x218 (1, 4, 1, 4) .openReg .cell [f 0 32 .ro (.num 0) .kept],
  r "WNW_AUT_FAULT" 0x21C (1, 4, 1, 4) .openReg .cell [f 0 32 .ro (.num 0) .kept],
  r "POL_CMD_DATA" 0x400 (4, 4, 1, 4) .privileged .plain [f 0 32 .rw (.num 0) (.num 0)],
  r "POL_CMD" 0x410 (1, 4, 1, 4) .privileged .plain [f 0 4 .wo (.num 0) (.num 0) (.rgn 4), f 16 16 .wo (.num 0) (.num 0) (.rgn 4)],
  r "POL_CMD_STAT" 0x414 (1, 4, 1, 4) .privileged .plain [f 0 1 .ro (.num 0) (.num 0), f 1 1 .w1c (.num 0) (.num 0), f 2 1 .w1c (.num 0) (.num 0), f 4 4 .ro (.num 0) (.num 0)],
  r "POL_RD_CBKT" 0x418 (1, 4, 1, 4) .privileged .plain [f 0 23 .ro (.num 0) (.num 0)],
  r "POL_RD_XBKT" 0x41C (1, 4, 1, 4) .privileged .plain [f 0 23 .ro (.num 0) (.num 0)],
  r "POL_RED_DROP" 0x440 (1, 4, 1, 4) .openReg .cell [f 0 32 .ro (.num 0) .kept],
  r "POL_UNCORR" 0x444 (1, 4, 1, 4) .openReg .cell [f 0 32 .ro (.num 0) .kept],
  r "MIR_WAIT_DROP" 0x448 (1, 4, 1, 4) .openReg .cell [f 0 32 .ro (.num 0) .kept],
  r "MIR_OMIT" 0x44C (1, 4, 1, 4) .openReg .cell [f 0 32 .ro (.num 0) .kept],
  r "MIR_COPIES" 0x450 (1, 4, 1, 4) .openReg .cell [f 0 32 .ro (.num 0) .kept],
  r "PIPE_NOTREADY_OMIT" 0x454 (1, 4, 1, 4) .openReg .cell [f 0 32 .ro (.num 0) .kept],
  r "CB_GENERATED" 0x458 (1, 4, 1, 4) .openReg .cell [f 0 32 .ro (.num 0) .kept]]

def mapRgn9p2 : List RegDesc := [
  r "CB_NO_RTAG" 0x45C (1, 4, 1, 4) .openReg .cell [f 0 32 .ro (.num 0) .kept],
  r "MIR_SESSION" 0x480 (7, 4, 1, 4) .privileged .plain [f 0 12 .rwl .img .kept (.rgn 9), f 12 3 .rwl .img .kept (.rgn 9), f 16 8 .rwl .img .kept (.rgn 9), f 31 1 .rwl .img .kept (.rgn 9)],
  r "MIR_PORTSEL" 0x4A0 (4, 4, 1, 4) .privileged .plain [f 0 3 .rwl .img .kept (.rgn 9), f 4 3 .rwl .img .kept (.rgn 9), f 8 3 .rwl .img .kept (.rgn 9), f 12 3 .rwl .img .kept (.rgn 9), f 16 3 .rwl .img .kept (.rgn 9), f 20 3 .rwl .img .kept (.rgn 9), f 24 3 .rwl .img .kept (.rgn 9), f 28 3 .rwl .img .kept (.rgn 9)],
  r "VOTE_CFG" 0x600 (1, 4, 1, 4) .privileged .plain [f 0 4 .rw .img .kept, f 4 4 .rw .img .kept, f 8 8 .rw .img .kept],
  r "VOTE_STAT" 0x604 (1, 4, 1, 4) .openReg .plain [f 0 3 .ro .hw .hw, f 3 1 .ro .hw .hw, f 4 3 .ro .hw .hw, f 7 1 .ro (.num 0) (.num 0), f 8 4 .ro (.num 0) (.num 0), f 12 4 .ro (.num 0) (.num 0), f 16 4 .ro (.num 0) (.num 0), f 20 9 .ro (.num 0) (.num 0)],
  r "VOTE_EVT" 0x608 (1, 4, 1, 4) .privileged .plain [f 0 1 .w1c (.num 0) .kept, f 1 1 .w1c (.num 0) .kept, f 2 1 .w1c (.num 0) .kept, f 3 1 .w1c (.num 0) .kept, f 4 1 .w1c (.num 0) .kept, f 5 1 .w1c (.num 0) .kept],
  r "VOTE_EVT_EN" 0x60C (1, 4, 1, 4) .privileged .plain [f 0 6 .rw (.num 0) .kept],
  r "VOTE_LAST" 0x610 (1, 4, 1, 4) .openReg .plain [f 0 3 .ro (.num 0) .kept, f 3 2 .ro (.num 0) .kept, f 16 6 .ro (.num 0) .kept],
  r "VOTE_RELEASED" 0x640 (1, 4, 1, 4) .openReg .cell [f 0 32 .ro (.num 0) .kept],
  r "VOTE_ODD_A" 0x644 (1, 4, 1, 4) .openReg .cell [f 0 32 .ro (.num 0) .kept],
  r "VOTE_ODD_B" 0x648 (1, 4, 1, 4) .openReg .cell [f 0 32 .ro (.num 0) .kept],
  r "VOTE_ODD_C" 0x64C (1, 4, 1, 4) .openReg .cell [f 0 32 .ro (.num 0) .kept],
  r "VOTE_NO_MAJORITY" 0x650 (1, 4, 1, 4) .openReg .cell [f 0 32 .ro (.num 0) .kept],
  r "VOTE_DISAGREE2" 0x654 (1, 4, 1, 4) .openReg .cell [f 0 32 .ro (.num 0) .kept],
  r "VOTE_OVERRUN" 0x658 (1, 4, 1, 4) .openReg .cell [f 0 32 .ro (.num 0) .kept],
  r "VOTE_DOWN_DROP" 0x65C (1, 4, 1, 4) .openReg .cell [f 0 32 .ro (.num 0) .kept]]

def mapRgn9p3 : List RegDesc := [
  r "ACC_CFG" 0x800 (1, 4, 1, 4) .privileged .plain [f 0 16 .rw .img .kept, f 16 10 .rw .img .kept, f 26 1 .rw .img .kept],
  r "ACC_STAT" 0x804 (1, 4, 1, 4) .openReg .plain [f 0 1 .ro (.num 0) (.num 0), f 1 1 .ro (.num 0) (.num 0), f 2 1 .ro .img .img, f 3 5 .ro .img .img, f 8 8 .ro .img .img],
  r "ACC_JRNL" 0x808 (1, 4, 1, 4) .openReg .plain [f 0 17 .ro (.num 0) .hw],
  r "ACC_JRNL_PEAK" 0x80C (1, 4, 1, 4) .openReg .plain [f 0 17 .rc (.num 0) (.num 0)],
  r "ACC_STORE" 0x818 (1, 4, 1, 4) .openReg .plain [f 0 15 .ro (.num 0) (.num 0)],
  r "ACC_EVT" 0x810 (1, 4, 1, 4) .privileged .plain [f 0 1 .w1c (.num 0) .kept, f 1 1 .w1c (.num 0) .kept, f 2 1 .w1c (.num 0) .kept, f 3 1 .w1c (.num 0) .kept, f 4 1 .w1c (.num 0) .kept, f 5 1 .w1c (.num 0) .kept, f 6 1 .w1c (.num 0) .kept],
  r "ACC_EVT_EN" 0x814 (1, 4, 1, 4) .privileged .plain [f 0 7 .rw (.num 0) .kept],
  r "ACC_ACCEPTED" 0x840 (1, 4, 1, 4) .openReg .cell [f 0 32 .ro (.num 0) .kept],
  r "ACC_JRNL_FULL" 0x844 (1, 4, 1, 4) .openReg .cell [f 0 32 .ro (.num 0) .kept],
  r "ACC_RETIRE_TX" 0x848 (1, 4, 1, 4) .openReg .cell [f 0 32 .ro (.num 0) .kept],
  r "ACC_RETIRE_DONE" 0x84C (1, 4, 1, 4) .openReg .cell [f 0 32 .ro (.num 0) .kept],
  r "ACC_RETIRE_UNDELIV" 0x850 (1, 4, 1, 4) .openReg .cell [f 0 32 .ro (.num 0) .kept],
  r "ACC_RETIRE_ELIM" 0x854 (1, 4, 1, 4) .openReg .cell [f 0 32 .ro (.num 0) .kept],
  r "ACC_RETIRE_INST" 0x858 (1, 4, 1, 4) .openReg .cell [f 0 32 .ro (.num 0) .kept],
  r "ACC_RETIRE_PASSED" 0x85C (1, 4, 1, 4) .openReg .cell [f 0 32 .ro (.num 0) .kept],
  r "ACC_LOST" 0x860 (1, 4, 1, 4) .openReg .cell [f 0 32 .ro (.num 0) .kept]]

def mapRgn9p4 : List RegDesc := [
  r "ACC_REPLAYED" 0x864 (1, 4, 1, 4) .openReg .cell [f 0 32 .ro (.num 0) .kept],
  r "ACC_RETRY" 0x868 (1, 4, 1, 4) .openReg .cell [f 0 32 .ro (.num 0) .kept],
  r "ACC_DUP_DISCARD" 0x86C (1, 4, 1, 4) .openReg .cell [f 0 32 .ro (.num 0) .kept],
  r "ACC_GAP_HELD" 0x870 (1, 4, 1, 4) .openReg .cell [f 0 32 .ro (.num 0) .kept],
  r "ACC_GAP_SKIP" 0x874 (1, 4, 1, 4) .openReg .cell [f 0 32 .ro (.num 0) .kept],
  r "ACC_CPL_MISMATCH" 0x878 (1, 4, 1, 4) .openReg .cell [f 0 32 .ro (.num 0) .kept],
  r "ACC_NACK_LOST" 0x87C (1, 4, 1, 4) .openReg .cell [f 0 32 .ro (.num 0) .kept],
  r "TSK_CFG" 0xA00 (1, 4, 1, 4) .privileged .plain [f 0 16 .rw .img .kept],
  r "TSK_STAT" 0xA04 (1, 4, 1, 4) .openReg .plain [f 0 15 .ro (.num 0) (.num 0), f 16 15 .ro (.num 0) (.num 0)],
  r "TSK_CMD" 0xA08 (1, 4, 1, 4) .privileged .plain [f 0 8 .wo (.num 0) (.num 0), f 8 2 .wo (.num 0) (.num 0)],
  r "TSK_ENQUEUED" 0xA10 (1, 4, 1, 4) .openReg .cell [f 0 32 .ro (.num 0) .kept],
  r "TSK_DISPATCHED" 0xA14 (1, 4, 1, 4) .openReg .cell [f 0 32 .ro (.num 0) .kept],
  r "TSK_COMPLETED" 0xA18 (1, 4, 1, 4) .openReg .cell [f 0 32 .ro (.num 0) .kept],
  r "TSK_DROP_FULL" 0xA1C (1, 4, 1, 4) .openReg .cell [f 0 32 .ro (.num 0) .kept],
  r "TSK_CANCELLED" 0xA20 (1, 4, 1, 4) .openReg .cell [f 0 32 .ro (.num 0) .kept],
  r "TSK_ABORTED" 0xA24 (1, 4, 1, 4) .openReg .cell [f 0 32 .ro (.num 0) .kept]]

def mapRgn9p5 : List RegDesc := [
  r "TSK_REDISPATCHED" 0xA28 (1, 4, 1, 4) .openReg .cell [f 0 32 .ro (.num 0) .kept],
  r "TSK_RESTART_DROP" 0xA2C (1, 4, 1, 4) .openReg .cell [f 0 32 .ro (.num 0) .kept],
  r "TSK_SHED_DROP" 0xA30 (1, 4, 1, 4) .openReg .cell [f 0 32 .ro (.num 0) .kept],
  r "TSK_REORDER_WAIT" 0xA34 (1, 4, 1, 4) .openReg .cell [f 0 32 .ro (.num 0) .kept],
  r "PIPE_SLOT_RETIRED" 0xC00 (1, 4, 1, 4) .openReg .cell [f 0 32 .ro (.num 0) .kept],
  r "PIPE_SLOT_WASTED" 0xC04 (1, 4, 1, 4) .openReg .cell [f 0 32 .ro (.num 0) .kept],
  r "PIPE_SLOT_FRONT" 0xC08 (1, 4, 1, 4) .openReg .cell [f 0 32 .ro (.num 0) .kept],
  r "PIPE_SLOT_BACK" 0xC0C (1, 4, 1, 4) .openReg .cell [f 0 32 .ro (.num 0) .kept]]

def mapRgn9 : List RegDesc := mapRgn9p0 ++ mapRgn9p1 ++ mapRgn9p2 ++ mapRgn9p3 ++ mapRgn9p4 ++ mapRgn9p5

def mapRgn10p0 : List RegDesc := [
  r "HST_CFG" 0x0 (1, 4, 1, 4) .openReg .plain [f 0 2 .ro .img .img, f 2 7 .ro .img .img, f 9 1 .ro .img .img],
  r "HST_STAT" 0x4 (1, 4, 1, 4) .openReg .plain [f 0 1 .ro (.num 0) .hw, f 1 1 .ro (.num 0) .hw, f 2 3 .ro (.num 0) .hw, f 5 3 .ro (.num 0) .hw, f 8 1 .ro (.num 0) .hw, f 9 7 .ro (.num 0) .hw, f 16 1 .ro (.num 0) .hw, f 17 1 .ro (.num 0) (.num 0), f 18 1 .ro (.num 0) (.num 0)],
  r "HST_EVT" 0x8 (1, 4, 1, 4) .privileged .plain [f 0 1 .w1c (.num 0) .kept, f 1 1 .w1c (.num 0) .kept, f 2 1 .w1c (.num 0) .kept, f 3 1 .w1c (.num 0) .kept, f 4 1 .w1c (.num 0) .kept, f 5 1 .w1c (.num 0) .kept],
  r "HST_EVT_EN" 0xC (1, 4, 1, 4) .privileged .plain [f 0 6 .rw (.num 0) .kept],
  r "HST_ETH_CFG" 0x10 (1, 4, 1, 4) .privileged .plain [f 0 1 .ro .img .img],
  r "HST_TIMING" 0x14 (1, 4, 1, 4) .privileged .plain [f 0 16 .rw .img .kept, f 16 16 .rw .img .kept],
  r "HST_CFG_RETRY" 0x100 (1, 4, 1, 4) .openReg .cell [f 0 32 .ro (.num 0) .kept],
  r "HST_RX_NOMATCH" 0x104 (1, 4, 1, 4) .openReg .cell [f 0 32 .ro (.num 0) .kept],
  r "HST_TX_SPOOF" 0x108 (1, 4, 1, 4) .openReg .cell [f 0 32 .ro (.num 0) .kept],
  r "HST_STALE_CPL" 0x10C (1, 4, 1, 4) .openReg .cell [f 0 32 .ro (.num 0) .kept],
  r "HST_INST_RESETS" 0x110 (1, 4, 1, 4) .openReg .cell [f 0 32 .ro (.num 0) .kept],
  r "HST_DMA_ERR" 0x114 (1, 4, 1, 4) .openReg .cell [f 0 32 .ro (.num 0) .kept],
  r "HST_RESET_DROP" 0x118 (1, 4, 1, 4) .openReg .cell [f 0 32 .ro (.num 0) .kept],
  r "HST_NOTREADY_DISCARD" 0x11C (1, 4, 1, 4) .openReg .cell [f 0 32 .ro (.num 0) .kept],
  r "INSTE_MAC_LO" 0x400 (64, 64, 4, 8) .privileged .plain [f 0 32 .rw .img .kept],
  r "INSTE_MAC_HI" 0x404 (64, 64, 4, 8) .privileged .plain [f 0 16 .rw .img .kept, f 16 1 .rw .img .kept]]

def mapRgn10p1 : List RegDesc := [
  r "INSTE_FILT" 0x420 (64, 64, 1, 4) .privileged .plain [f 0 1 .rw .img .kept, f 1 1 .rw .img .kept, f 2 1 .rw .img .kept, f 3 1 .rw .img .kept],
  r "INSTE_GRANT" 0x424 (64, 64, 1, 4) .privileged .plain [f 0 1 .rw .img .kept, f 1 1 .rw .img .kept, f 2 1 .rw .img .kept],
  r "INSTE_PASID" 0x428 (64, 64, 1, 4) .privileged .plain [f 0 20 .rw .img .kept, f 20 1 .rw .img .kept],
  r "INSTE_MSGQ" 0x42C (64, 64, 1, 4) .privileged .plain [f 0 8 .rw .img .kept],
  r "LN_CFG_H" 0x1900 (1, 4, 1, 4) .privileged .plain [f 0 1 .rw .hw .kept, f 1 1 .rw .hw .kept, f 2 2 .rw (.num 0) (.num 0), f 4 1 .rw (.num 0) (.num 0)],
  r "LN_TXEQ_H" 0x1904 (1, 4, 1, 4) .privileged .plain [f 0 5 .rw .hw .kept, f 8 5 .rw .hw .kept, f 16 6 .rw .hw .kept],
  r "LN_RXEQ_H" 0x1908 (1, 4, 1, 4) .openReg .plain [f 0 5 .ro .hw .hw, f 8 8 .ro .hw .hw, f 16 1 .ro (.num 0) (.num 0)],
  r "LN_PRBS_H" 0x190C (1, 4, 1, 4) .privileged .plain [f 0 3 .rw (.num 0) (.num 0), f 4 3 .rw (.num 0) (.num 0)],
  r "LN_STAT_H" 0x1910 (1, 4, 1, 4) .openReg .plain [f 0 1 .ro (.num 0) (.num 0), f 1 1 .ro (.num 0) (.num 0), f 2 1 .ro (.num 0) (.num 0), f 3 1 .ro (.num 0) (.num 0), f 4 1 .ro (.num 0) (.num 0)],
  r "LN_PRBS_ERR_H" 0x1920 (1, 4, 1, 4) .openReg .cell [f 0 32 .ro (.num 0) .kept],
  r "LN_SIG_LOSS_H" 0x1924 (1, 4, 1, 4) .openReg .cell [f 0 32 .ro (.num 0) .kept],
  r "LN_SYNC_LOSS_H" 0x1928 (1, 4, 1, 4) .openReg .cell [f 0 32 .ro (.num 0) .kept],
  r "MAC_CFG_H" 0x1800 (1, 4, 1, 4) .privileged .plain [f 0 1 .rwl .img .kept (.rgn 1), f 1 1 .rwl .img .kept (.rgn 1), f 2 1 .rwl .img .kept (.rgn 1), f 3 1 .rwl .img .kept (.rgn 1), f 4 4 .rwl .img .kept (.rgn 1)],
  r "MAC_FRAME_H" 0x1804 (1, 4, 1, 4) .privileged .plain [f 0 14 .rwl .img .kept (.rgn 1)],
  r "MAC_LINK_H" 0x1808 (1, 4, 1, 4) .privileged .plain [f 0 8 .rwl .img .kept (.rgn 1), f 8 8 .rwl .img .kept (.rgn 1)],
  r "MAC_TS_ADJ_H" 0x180C (1, 4, 1, 4) .privileged .plain [f 0 16 .rwl .img .kept (.rgn 1), f 16 16 .rwl .img .kept (.rgn 1)]]

def mapRgn10p2 : List RegDesc := [
  r "MAC_STAT_H" 0x1810 (1, 4, 1, 4) .openReg .plain [f 0 3 .ro (.num 0) (.num 0), f 3 1 .ro (.num 0) (.num 0), f 4 4 .ro (.num 0) (.num 0), f 8 1 .ro (.num 0) (.num 0), f 9 1 .ro (.num 0) (.num 0), f 10 1 .ro (.num 0) (.num 0), f 11 1 .ro (.num 0) (.num 0), f 12 1 .ro (.num 0) (.num 0)],
  r "MAC_MCHASH_H" 0x1840 (1, 256, 16, 4) .privileged .plain [f 0 32 .rw .img .kept],
  r "MAC_RX_OK_H" 0x1880 (1, 4, 1, 4) .openReg .cell [f 0 32 .ro (.num 0) .kept],
  r "MAC_RX_OK_BYTES_H" 0x1884 (1, 4, 1, 4) .openReg .cell [f 0 32 .ro (.num 0) .kept],
  r "MAC_RX_RUNT_H" 0x1888 (1, 4, 1, 4) .openReg .cell [f 0 32 .ro (.num 0) .kept],
  r "MAC_RX_OVERSIZE_H" 0x188C (1, 4, 1, 4) .openReg .cell [f 0 32 .ro (.num 0) .kept],
  r "MAC_RX_FCS_ERR_H" 0x1890 (1, 4, 1, 4) .openReg .cell [f 0 32 .ro (.num 0) .kept],
  r "MAC_RX_ABORT_H" 0x1894 (1, 4, 1, 4) .openReg .cell [f 0 32 .ro (.num 0) .kept],
  r "MAC_RX_MC_FILTERED_H" 0x1898 (1, 4, 1, 4) .openReg .cell [f 0 32 .ro (.num 0) .kept],
  r "MAC_RX_BCAST_DROP_H" 0x189C (1, 4, 1, 4) .openReg .cell [f 0 32 .ro (.num 0) .kept],
  r "MAC_RX_MAC_CTRL_H" 0x18A0 (1, 4, 1, 4) .openReg .cell [f 0 32 .ro (.num 0) .kept],
  r "MAC_RX_NOT_READY_H" 0x18A4 (1, 4, 1, 4) .openReg .cell [f 0 32 .ro (.num 0) .kept],
  r "MAC_RX_FIFO_FULL_H" 0x18A8 (1, 4, 1, 4) .openReg .cell [f 0 32 .ro (.num 0) .kept],
  r "MAC_RX_EGRESS_MTU_H" 0x18AC (1, 4, 1, 4) .openReg .cell [f 0 32 .ro (.num 0) .kept],
  r "MAC_TX_OK_H" 0x18B0 (1, 4, 1, 4) .openReg .cell [f 0 32 .ro (.num 0) .kept],
  r "MAC_TX_OK_BYTES_H" 0x18B4 (1, 4, 1, 4) .openReg .cell [f 0 32 .ro (.num 0) .kept]]

def mapRgn10p3 : List RegDesc := [
  r "MAC_TX_STOMP_H" 0x18B8 (1, 4, 1, 4) .openReg .cell [f 0 32 .ro (.num 0) .kept],
  r "MAC_TX_ABORT_H" 0x18BC (1, 4, 1, 4) .openReg .cell [f 0 32 .ro (.num 0) .kept],
  r "MAC_TX_TS_H" 0x18C0 (1, 4, 1, 4) .openReg .cell [f 0 32 .ro (.num 0) .kept],
  r "MAC_FEC_CORR_H" 0x18C4 (1, 4, 1, 4) .openReg .cell [f 0 32 .ro (.num 0) .kept],
  r "MAC_FEC_UNCORR_H" 0x18C8 (1, 4, 1, 4) .openReg .cell [f 0 32 .ro (.num 0) .kept],
  r "MAC_LINK_DOWN_H" 0x18CC (1, 4, 1, 4) .openReg .cell [f 0 32 .ro (.num 0) .kept],
  r "MAC_HOLD_DOWN_RECOVERED_H" 0x18D0 (1, 4, 1, 4) .openReg .cell [f 0 32 .ro (.num 0) .kept]]

def mapRgn10 : List RegDesc := mapRgn10p0 ++ mapRgn10p1 ++ mapRgn10p2 ++ mapRgn10p3

def mapInstancep0 : List RegDesc := [
  r "INST_ID" 0x0 (1, 4, 1, 4) .openReg .plain [f 0 6 .ro .img .img, f 6 2 .ro .img .img, f 8 2 .ro .img .img, f 10 4 .ro .img .img],
  r "INST_CTL" 0x4 (1, 4, 1, 4) .openReg .plain [f 0 1 .w1s (.num 0) (.num 0)],
  r "INST_STAT" 0x8 (1, 4, 1, 4) .openReg .plain [f 0 2 .ro (.num 0) .kept, f 2 1 .ro (.num 0) (.num 0), f 4 4 .ro (.num 0) .kept, f 8 8 .ro (.num 0) .kept, f 16 1 .ro .img .kept],
  r "INST_EVT" 0xC (1, 4, 1, 4) .openReg .plain [f 0 1 .w1c (.num 0) .kept, f 1 1 .w1c (.num 0) .kept, f 2 1 .w1c (.num 0) .kept, f 3 1 .w1c (.num 0) .kept],
  r "INST_EVT_EN" 0x10 (1, 4, 1, 4) .openReg .plain [f 0 4 .rw (.num 1) .kept],
  r "INST_RX_QMAP" 0x14 (1, 4, 1, 4) .openReg .plain [f 0 3 .rw (.num 0) .kept, f 3 3 .rw (.num 0) .kept, f 6 3 .rw (.num 0) .kept, f 9 3 .rw (.num 0) .kept, f 12 3 .rw (.num 0) .kept, f 15 3 .rw (.num 0) .kept, f 18 3 .rw (.num 0) .kept, f 21 3 .rw (.num 0) .kept],
  r "INST_MSG" 0x20 (4, 4, 1, 4) .openReg .plain [f 0 32 .rw (.num 0) .kept],
  r "INST_MSG_CMD" 0x30 (1, 4, 1, 4) .openReg .plain [f 0 1 .w1s (.num 0) (.num 0)],
  r "INST_STALE_CPL" 0x40 (1, 4, 1, 4) .openReg .cell [f 0 32 .ro (.num 0) .kept],
  r "INST_DMA_ERR" 0x44 (1, 4, 1, 4) .openReg .cell [f 0 32 .ro (.num 0) .kept],
  r "INST_DESC_ERR" 0x48 (1, 4, 1, 4) .openReg .cell [f 0 32 .ro (.num 0) .kept],
  r "INST_MSG_REFUSED" 0x4C (1, 4, 1, 4) .openReg .cell [f 0 32 .ro (.num 0) .kept],
  r "TXQ_BASE_LO" 0x100 (8, 64, 1, 4) .openReg .plain [f 6 26 .rw (.num 0) .kept],
  r "TXQ_BASE_HI" 0x104 (8, 64, 1, 4) .openReg .plain [f 0 32 .rw (.num 0) .kept],
  r "TXQ_CFG" 0x108 (8, 64, 1, 4) .openReg .plain [f 0 4 .rw (.num 4) .kept, f 4 1 .rw (.num 0) .kept],
  r "TXQ_TAIL" 0x10C (8, 64, 1, 4) .openReg .plain [f 0 12 .rw (.num 0) .kept]]

def mapInstancep1 : List RegDesc := [
  r "TXQ_HEAD" 0x110 (8, 64, 1, 4) .openReg .plain [f 0 12 .ro (.num 0) .hw],
  r "RXQ_BASE_LO" 0x114 (8, 64, 1, 4) .openReg .plain [f 6 26 .rw (.num 0) .kept],
  r "RXQ_BASE_HI" 0x118 (8, 64, 1, 4) .openReg .plain [f 0 32 .rw (.num 0) .kept],
  r "RXQ_CFG" 0x11C (8, 64, 1, 4) .openReg .plain [f 0 4 .rw (.num 4) .kept, f 4 1 .rw (.num 0) .kept, f 8 6 .rw (.num 8) .kept],
  r "RXQ_TAIL" 0x120 (8, 64, 1, 4) .openReg .plain [f 0 12 .rw (.num 0) .kept],
  r "RXQ_HEAD" 0x124 (8, 64, 1, 4) .openReg .plain [f 0 12 .ro (.num 0) .hw],
  r "QP_IRQ" 0x128 (8, 64, 1, 4) .openReg .plain [f 0 10 .rw (.num 0) .kept, f 10 8 .rw (.num 1) .kept, f 18 1 .rw (.num 0) .kept],
  r "QP_RX_FRAMES" 0x300 (8, 32, 1, 4) .openReg .cell [f 0 32 .ro (.num 0) .kept],
  r "QP_RX_BYTES" 0x304 (8, 32, 1, 4) .openReg .cell [f 0 32 .ro (.num 0) .kept],
  r "QP_RX_NODESC_DROP" 0x308 (8, 32, 1, 4) .openReg .cell [f 0 32 .ro (.num 0) .kept],
  r "QP_TX_FRAMES" 0x30C (8, 32, 1, 4) .openReg .cell [f 0 32 .ro (.num 0) .kept],
  r "QP_TX_BYTES" 0x310 (8, 32, 1, 4) .openReg .cell [f 0 32 .ro (.num 0) .kept],
  r "QP_TX_DISCARDED" 0x314 (8, 32, 1, 4) .openReg .cell [f 0 32 .ro (.num 0) .kept]]

def mapInstance : List RegDesc := mapInstancep0 ++ mapInstancep1

def mapSpace69 : List RegDesc := [
  r "SCH_PORT" 0x0 (33, 256, 1, 4) .privileged .plain [f 0 8 .rwl .img .kept (.rgn 5), f 8 1 .rwl .img .kept (.rgn 6), f 9 1 .ro .img .img, f 10 1 .ro .img .img],
  r "SCH_PSHAPE" 0x4 (33, 256, 1, 4) .privileged .plain [f 0 22 .rwl .img .kept (.rgn 5)],
  r "SCH_PBURST" 0x8 (33, 256, 1, 4) .privileged .plain [f 0 16 .rwl .img .kept (.rgn 5)],
  r "SCH_FLUSH" 0xC (33, 256, 1, 4) .privileged .plain [f 0 8 .wo (.num 0) (.num 0) (.rgn 5)],
  r "SCH_CQMAP" 0x10 (33, 256, 1, 4) .privileged .plain [f 0 3 .rwl .img .kept (.rgn 2), f 3 3 .rwl .img .kept (.rgn 2), f 6 3 .rwl .img .kept (.rgn 2), f 9 3 .rwl .img .kept (.rgn 2), f 12 3 .rwl .img .kept (.rgn 2), f 15 3 .rwl .img .kept (.rgn 2), f 18 3 .rwl .img .kept (.rgn 2), f 21 3 .rwl .img .kept (.rgn 2)],
  r "SCH_PSTAT" 0x14 (33, 256, 1, 4) .privileged .plain [f 0 8 .ro (.num 0) .hw, f 8 8 .ro (.num 0) .hw, f 16 8 .ro (.num 0) .hw, f 24 1 .ro (.num 0) .kept, f 25 1 .ro (.num 0) .kept, f 26 1 .ro (.num 0) .kept, f 27 1 .ro (.num 0) .kept, f 28 1 .ro (.num 0) (.num 0)],
  r "G_CTRL" 0x18 (33, 256, 1, 4) .privileged .plain [f 0 1 .rwl .img .kept (.rgn 6), f 1 3 .rwl .img .kept (.rgn 6), f 4 1 .w1s (.num 0) (.num 0) (.rgn 6), f 8 8 .rwl .img .kept (.rgn 6)],
  r "Q_RATE" 0x20 (33, 256, 8, 16) .privileged .plain [f 0 22 .rwl .img .kept (.rgn 5)],
  r "Q_PARAM" 0x24 (33, 256, 8, 16) .privileged .plain [f 0 16 .rwl .img .kept (.rgn 5), f 16 8 .rwl .img .kept (.rgn 5)],
  r "Q_ECN" 0x28 (33, 256, 8, 16) .privileged .plain [f 0 16 .rwl .img .kept (.rgn 10), f 16 1 .rwl .img .kept (.rgn 10)],
  r "Q_STAT" 0x2C (33, 256, 8, 16) .privileged .plain [f 0 1 .ro (.num 0) .hw, f 1 1 .ro (.num 0) .hw, f 2 1 .ro (.num 0) .hw, f 3 1 .ro (.num 0) .hw]]

def mapSpace70 : List RegDesc := [
  r "GT_BASE" 0x0 (32, 2048, 2, 1024) .privileged .plain [f 0 32 .rwl .img .kept (.rgn 6)],
  r "GT_CYCLE" 0x4 (32, 2048, 2, 1024) .privileged .plain [f 0 32 .rwl .img .kept (.rgn 6)],
  r "GT_LEN" 0x8 (32, 2048, 2, 1024) .privileged .plain [f 0 7 .rwl .img .kept (.rgn 6)],
  r "GT_DUR" 0x100 (64, 1024, 64, 8) .privileged .plain [f 0 32 .rwl .img .kept (.rgn 6)],
  r "GT_GATES" 0x104 (64, 1024, 64, 8) .privileged .plain [f 0 8 .rwl .img .kept (.rgn 6)]]

/-- The map of chip page k (Table 16-2). -/
def chipMap (k : Nat) : List RegDesc :=
  match k with
  | 0 => mapChip0
  | 1 => mapChip1
  | 2 => mapChip2
  | 3 => mapChip3
  | 4 => mapChip4
  | 5 => mapChip5
  | 6 => mapChip6
  | 7 => mapChip7
  | 8 => mapChip8
  | 9 => mapChip9
  | 10 => mapChip10
  | 11 => mapChip11
  | 12 => mapChip12
  | 13 => mapChip13
  | 14 => mapChip14
  | 15 => mapChip15
  | _ => []

/-- The map of page k of a region (Table 16-3). -/
def rgnMap (k : Nat) : List RegDesc :=
  match k with
  | 0 => mapRgn0
  | 1 | 2 | 3 | 4 => mapPort
  | 5 | 6 => mapEngine
  | 7 => mapRgn7
  | 8 => mapRgn8
  | 9 => mapRgn9
  | 10 => mapRgn10
  | _ => []

/-- The word map of an indirect space whose fields have access codes (Tables 8-12, 8-13). -/
def spaceMap (code : Nat) : List RegDesc :=
  match code with
  | 0x45 => mapSpace69
  | 0x46 => mapSpace70
  | _ => []

end Sys2Proof.Machine
end

