-- ==== Sys2Proof/Machine/RegNames.lean ====
section
/-! DEFINITION. The address of every register and the place of every field of the spec's register maps,
by the names the spec gives them (chapters 1 to 16; R65, R120, R166, R214, R251, R290, R338, R380, R410,
R443, R483, R520, R557, R592, R634, R666). -/

namespace Sys2Proof.Machine.R

def ID_DEVICE : Nat := chipPage 0 + 0x0
def ID_DEVICE.DEVICE : Fld := ⟨0, 16⟩
def ID_DEVICE.REV : Fld := ⟨16, 8⟩
def ID_DEVICE.GRADE : Fld := ⟨24, 8⟩
def ID_SERIAL_LO : Nat := chipPage 0 + 0x4
def ID_SERIAL_LO.SERIAL : Fld := ⟨0, 32⟩
def ID_SERIAL_HI : Nat := chipPage 0 + 0x8
def ID_SERIAL_HI.SERIAL : Fld := ⟨0, 32⟩
def ID_CONFIG : Nat := chipPage 0 + 0xC
def ID_CONFIG.REGIONS : Fld := ⟨0, 4⟩
def ID_CONFIG.SILO_PRESENT : Fld := ⟨4, 1⟩
def ID_CONFIG.TWIN_MODE : Fld := ⟨5, 2⟩
def ID_CONFIG.MASTER_PORT : Fld := ⟨8, 2⟩
def ID_CONFIG.MASTER_INST : Fld := ⟨10, 6⟩
def ID_WHOAMI : Nat := chipPage 0 + 0x10
def ID_WHOAMI.MASTER : Fld := ⟨0, 8⟩
def ID_WHOAMI.PRIV : Fld := ⟨8, 1⟩
def CHIP_STATE : Nat := chipPage 1 + 0x0
def CHIP_STATE.STATE : Fld := ⟨0, 4⟩
def CHIP_STATE.PREV : Fld := ⟨4, 4⟩
def CHIP_STATE_US : Nat := chipPage 1 + 0x4
def CHIP_STATE_US.US : Fld := ⟨0, 32⟩
def CHIP_TEMP : Nat := chipPage 1 + 0x8
def CHIP_TEMP.TEMP : Fld := ⟨0, 11⟩
def CHIP_TEMP_PEAK : Nat := chipPage 1 + 0xC
def CHIP_TEMP_PEAK.PEAK : Fld := ⟨0, 11⟩
def REG_UNPRIV : Nat := chipPage 1 + 0x10
def REG_PARTIAL_WR : Nat := chipPage 1 + 0x14
def IND_REFUSED : Nat := chipPage 1 + 0x18
def IND_OVERRUN : Nat := chipPage 1 + 0x1C
def RDY_CHIP : Nat := chipPage 2 + 0x0
def RDY_CHIP.IMAGE : Fld := ⟨0, 1⟩
def RDY_CHIP.SUPERVISOR : Fld := ⟨1, 1⟩
def RDY_CHIP.MIN_SET : Fld := ⟨2, 1⟩
def RDY_CHIP.SERVING : Fld := ⟨3, 1⟩
def RDY_CHIP.FLOOR : Fld := ⟨4, 4⟩
def RDY_CHIP.FLOOR_CHIP : Fld := ⟨8, 1⟩
def RDY_CHIP.REGION_RUN : Fld := ⟨9, 4⟩
def RDY_CHIP.SILO : Fld := ⟨13, 4⟩
def RDY_CHIP.HOST_PCIE : Fld := ⟨17, 4⟩
def RDY_CHIP.HOST_ETH : Fld := ⟨21, 2⟩
def RDY_CHIP.ABAIDE : Fld := ⟨23, 1⟩
def RDY_CHIP.TB_VALID : Fld := ⟨24, 4⟩
def RDY_REGION (i : Nat) : Nat := chipPage 2 + 0x4 + 0x4 * i
def RDY_REGION.PIPELINE : Fld := ⟨0, 1⟩
def RDY_REGION.GRANARY : Fld := ⟨1, 1⟩
def RDY_REGION.CUSTODY : Fld := ⟨2, 1⟩
def RDY_REGION.LOFT : Fld := ⟨3, 1⟩
def RDY_REGION.CHANNELS : Fld := ⟨4, 3⟩
def RDY_REGION.VITAL_DOWN : Fld := ⟨7, 1⟩
def RDY_REGION.ENG_BLOCK : Fld := ⟨8, 2⟩
def RDY_REGION.ENG_FW : Fld := ⟨16, 16⟩
def RDY_PORT (i : Nat) : Nat := chipPage 2 + 0x14 + 0x4 * i
def RDY_PORT.READY : Fld := ⟨0, 32⟩
def IND_CTL : Nat := chipPage 3 + 0x0
def IND_CTL.SPACE : Fld := ⟨0, 8⟩
def IND_CTL.REGION : Fld := ⟨8, 2⟩
def IND_CTL.STRIDE : Fld := ⟨10, 2⟩
def IND_CTL.NOPF : Fld := ⟨12, 1⟩
def IND_ADDR : Nat := chipPage 3 + 0x4
def IND_ADDR.ADDR : Fld := ⟨2, 30⟩
def IND_DATA : Nat := chipPage 3 + 0x8
def IND_DATA.DATA : Fld := ⟨0, 32⟩
def IND_STAT : Nat := chipPage 3 + 0xC
def IND_STAT.BUSY : Fld := ⟨0, 1⟩
def IND_STAT.OVERRUN : Fld := ⟨1, 1⟩
def IND_STAT.EARLY : Fld := ⟨2, 1⟩
def FLR_CFG : Nat := chipPage 4 + 0x0
def FLR_CFG.RETRY_LIMIT : Fld := ⟨0, 4⟩
def FLR_CFG.STALE_LOG : Fld := ⟨8, 1⟩
def FLR_STAT : Nat := chipPage 4 + 0x4
def FLR_STAT.PORT_UP : Fld := ⟨0, 4⟩
def FLR_STAT.CHIP_PORT_UP : Fld := ⟨4, 1⟩
def FLR_STAT.IN_RESTART : Fld := ⟨8, 4⟩
def FLR_GEN : Nat := chipPage 4 + 0x8
def FLR_GEN.GEN0 : Fld := ⟨0, 8⟩
def FLR_GEN.GEN1 : Fld := ⟨8, 8⟩
def FLR_GEN.GEN2 : Fld := ⟨16, 8⟩
def FLR_GEN.GEN3 : Fld := ⟨24, 8⟩
def FLR_ERR : Nat := chipPage 4 + 0xC
def FLR_ERR.RETRY_EXHAUSTED : Fld := ⟨0, 1⟩
def FLR_ERR.PATH_FATAL : Fld := ⟨1, 1⟩
def FLR_ERR.STALE_SEEN : Fld := ⟨2, 1⟩
def FLR_ERR.SINK_VIOLATION : Fld := ⟨3, 1⟩
def FLR_ERR.LAST_SRC : Fld := ⟨4, 4⟩
def FLR_ERR.LAST_DST : Fld := ⟨8, 4⟩
def FLR_CORR_CNT : Nat := chipPage 4 + 0x10
def FLR_RETRY_CNT : Nat := chipPage 4 + 0x14
def FLR_STALE_CNT : Nat := chipPage 4 + 0x18
def FLR_NACK_CNT : Nat := chipPage 4 + 0x1C
def LDR_STAT : Nat := chipPage 5 + 0x0
def LDR_STAT.RESULT : Fld := ⟨0, 2⟩
def LDR_STAT.RUN_COPY : Fld := ⟨2, 1⟩
def LDR_STAT.FROM_STORE : Fld := ⟨3, 1⟩
def LDR_STAT.RECOVERY : Fld := ⟨4, 1⟩
def LDR_STAT.KEYS_OPEN : Fld := ⟨5, 1⟩
def LDR_STAT.DIFF : Fld := ⟨6, 4⟩
def LDR_STAT.CHIP_DIFF : Fld := ⟨10, 1⟩
def LDR_STAT.ABANDONED : Fld := ⟨11, 1⟩
def LDR_STAT.RELAYOUT_DONE : Fld := ⟨12, 1⟩
def LDR_CMD : Nat := chipPage 5 + 0x4
def LDR_CMD.OP : Fld := ⟨0, 4⟩
def LDR_CMD.SLOT : Fld := ⟨4, 2⟩
def LDR_RUN : Nat := chipPage 5 + 0x8
def LDR_RUN.SEQ : Fld := ⟨0, 32⟩
def LDR_RUN_INFO : Nat := chipPage 5 + 0xC
def LDR_RUN_INFO.SVN : Fld := ⟨0, 6⟩
def LDR_RUN_INFO.KEY_SLOT : Fld := ⟨6, 2⟩
def LDR_RUN_INFO.REGIONS : Fld := ⟨8, 4⟩
def LDR_RELAYOUT : Nat := chipPage 5 + 0x10
def LDR_RELAYOUT.REGION : Fld := ⟨0, 2⟩
def LDR_RELAYOUT.ARM : Fld := ⟨2, 1⟩
def LDR_RELAYOUT.ARMED : Fld := ⟨3, 1⟩
def LDR_RELAYOUT.ACTIVE : Fld := ⟨4, 1⟩
def LDR_RELAYOUT.DRAIN_MS : Fld := ⟨8, 8⟩
def LDR_FUSE : Nat := chipPage 5 + 0x14
def LDR_FUSE.SLOT_PROG : Fld := ⟨0, 4⟩
def LDR_FUSE.SLOT_REVOKED : Fld := ⟨4, 4⟩
def LDR_FUSE.SVN_FUSE : Fld := ⟨8, 7⟩
def LDR_LIVE_IGN : Nat := chipPage 5 + 0x18
def LDR_CAND : Nat := chipPage 5 + 0x1C
def LDR_CAND.SEQ : Fld := ⟨0, 32⟩
def TB_NS (i : Nat) : Nat := chipPage 6 + 0x0 + 0x40 * i
def TB_NS.NS : Fld := ⟨0, 32⟩
def TB_FRAC (i : Nat) : Nat := chipPage 6 + 0x4 + 0x40 * i
def TB_FRAC.FRAC : Fld := ⟨0, 32⟩
def TB_RATE (i : Nat) : Nat := chipPage 6 + 0x8 + 0x40 * i
def TB_RATE.RATE : Fld := ⟨0, 32⟩
def TB_SET_NS (i : Nat) : Nat := chipPage 6 + 0xC + 0x40 * i
def TB_SET_NS.NS : Fld := ⟨0, 32⟩
def TB_SET_FRAC (i : Nat) : Nat := chipPage 6 + 0x10 + 0x40 * i
def TB_SET_FRAC.FRAC : Fld := ⟨0, 32⟩
def TB_STEP (i : Nat) : Nat := chipPage 6 + 0x14 + 0x40 * i
def TB_STEP.NS : Fld := ⟨0, 32⟩
def TB_CMD (i : Nat) : Nat := chipPage 6 + 0x18 + 0x40 * i
def TB_CMD.SET : Fld := ⟨0, 1⟩
def TB_CMD.STEP : Fld := ⟨1, 1⟩
def TB_CFG (i : Nat) : Nat := chipPage 6 + 0x1C + 0x40 * i
def TB_CFG.EN : Fld := ⟨0, 1⟩
def TB_CFG.OWNER : Fld := ⟨1, 6⟩
def TB_CFG.OWNER_EN : Fld := ⟨7, 1⟩
def TB_CFG.HOLD_10MS : Fld := ⟨8, 8⟩
def TB_STAT (i : Nat) : Nat := chipPage 6 + 0x20 + 0x40 * i
def TB_STAT.VALID : Fld := ⟨0, 1⟩
def TB_STAT.HOLDOVER : Fld := ⟨1, 1⟩
def TB_STAT.STEPPED : Fld := ⟨2, 1⟩
def TB_STAT.RATE_CLAMPED : Fld := ⟨3, 1⟩
def TB_ADJ_CNT (i : Nat) : Nat := chipPage 6 + 0x24 + 0x40 * i
def TB_HOLD_CNT (i : Nat) : Nat := chipPage 6 + 0x28 + 0x40 * i
def PH_MAINS_CFG : Nat := chipPage 6 + 0x100
def PH_MAINS_CFG.EN : Fld := ⟨0, 1⟩
def PH_MAINS_CFG.EDGE : Fld := ⟨1, 1⟩
def PH_MAINS_CFG.FILT : Fld := ⟨2, 8⟩
def PH_MAINS_CFG.WIN : Fld := ⟨10, 12⟩
def PH_MAINS_CFG.LOSS_CNT : Fld := ⟨22, 3⟩
def PH_MAINS_NOW : Nat := chipPage 6 + 0x104
def PH_MAINS_NOW.VALUE : Fld := ⟨0, 32⟩
def PH_MAINS_PERIOD : Nat := chipPage 6 + 0x108
def PH_MAINS_PERIOD.NS : Fld := ⟨0, 27⟩
def PH_MAINS_STAT : Nat := chipPage 6 + 0x10C
def PH_MAINS_STAT.STATE : Fld := ⟨0, 2⟩
def PH_MAINS_STAT.LOCK_EVT : Fld := ⟨2, 1⟩
def PH_MAINS_STAT.LOST_EVT : Fld := ⟨3, 1⟩
def PH_MAINS_MISSED : Nat := chipPage 6 + 0x110
def PH_MAINS_STRAY : Nat := chipPage 6 + 0x114
def PH_MAINS_COMPRESSED : Nat := chipPage 6 + 0x118
def PH_MAINS_RESYNC : Nat := chipPage 6 + 0x11C
def PH_ODO_CFG : Nat := chipPage 6 + 0x140
def PH_ODO_CFG.EN : Fld := ⟨0, 1⟩
def PH_ODO_CFG.DIR_POL : Fld := ⟨1, 1⟩
def PH_ODO_CFG.FILT : Fld := ⟨2, 8⟩
def PH_ODO_CFG.STILL_10MS : Fld := ⟨10, 8⟩
def PH_ODO_POS : Nat := chipPage 6 + 0x144
def PH_ODO_POS.POS : Fld := ⟨0, 32⟩
def PH_ODO_SET : Nat := chipPage 6 + 0x148
def PH_ODO_SET.POS : Fld := ⟨0, 32⟩
def PH_ODO_CMD : Nat := chipPage 6 + 0x14C
def PH_ODO_CMD.SET : Fld := ⟨0, 1⟩
def PH_ODO_STAT : Nat := chipPage 6 + 0x150
def PH_ODO_STAT.STILL : Fld := ⟨0, 1⟩
def PH_ODO_STAT.DIR : Fld := ⟨1, 1⟩
def PH_ODO_FWD : Nat := chipPage 6 + 0x154
def PH_ODO_REV : Nat := chipPage 6 + 0x158
def PH_ODO_GLITCH : Nat := chipPage 6 + 0x15C
def CAP_CFG (i : Nat) : Nat := chipPage 6 + 0x180 + 0x20 * i
def CAP_CFG.EDGE : Fld := ⟨0, 2⟩
def CAP_CFG.FILT : Fld := ⟨2, 8⟩
def CAP_CFG.POP : Fld := ⟨31, 1⟩
def CAP_STAT (i : Nat) : Nat := chipPage 6 + 0x184 + 0x20 * i
def CAP_STAT.LEVEL : Fld := ⟨0, 5⟩
def CAP_STAT.HEAD_EDGE : Fld := ⟨5, 1⟩
def CAP_STAT.OVERFLOW : Fld := ⟨6, 1⟩
def CAP_STAT.DROPPED : Fld := ⟨8, 8⟩
def CAP_TB (i j : Nat) : Nat := chipPage 6 + 0x188 + 0x20 * i + 0x4 * j
def CAP_TB.NS : Fld := ⟨0, 32⟩
def CAP_MAINS (i : Nat) : Nat := chipPage 6 + 0x198 + 0x20 * i
def CAP_MAINS.VALUE : Fld := ⟨0, 32⟩
def CAP_ODO (i : Nat) : Nat := chipPage 6 + 0x19C + 0x20 * i
def CAP_ODO.POS : Fld := ⟨0, 32⟩
def PO_CFG (i : Nat) : Nat := chipPage 6 + 0x200 + 0x20 * i
def PO_CFG.EN : Fld := ⟨0, 1⟩
def PO_CFG.AXIS : Fld := ⟨1, 3⟩
def PO_CFG.POL : Fld := ⟨4, 1⟩
def PO_START (i : Nat) : Nat := chipPage 6 + 0x204 + 0x20 * i
def PO_START.VALUE : Fld := ⟨0, 32⟩
def PO_PERIOD (i : Nat) : Nat := chipPage 6 + 0x208 + 0x20 * i
def PO_PERIOD.UNITS : Fld := ⟨0, 32⟩
def PO_WIDTH (i : Nat) : Nat := chipPage 6 + 0x20C + 0x20 * i
def PO_WIDTH.UNITS : Fld := ⟨0, 32⟩
def PO_STAT (i : Nat) : Nat := chipPage 6 + 0x210 + 0x20 * i
def PO_STAT.LEVEL : Fld := ⟨0, 1⟩
def PO_STAT.RUNNING : Fld := ⟨1, 1⟩
def PO_STAT.IGNORED : Fld := ⟨2, 1⟩
def PO_STAT.BADCFG : Fld := ⟨3, 1⟩
def PO_EDGES (i : Nat) : Nat := chipPage 6 + 0x214 + 0x20 * i
def SCH_CFG (i : Nat) : Nat := chipPage 6 + 0x400 + 0x20 * i
def SCH_CFG.EN : Fld := ⟨0, 1⟩
def SCH_CFG.KIND : Fld := ⟨1, 3⟩
def SCH_CFG.AXIS : Fld := ⟨4, 3⟩
def SCH_CFG.TARGET : Fld := ⟨8, 8⟩
def SCH_CFG.MAXGAP_MS : Fld := ⟨16, 16⟩
def SCH_BASE (i : Nat) : Nat := chipPage 6 + 0x404 + 0x20 * i
def SCH_BASE.VALUE : Fld := ⟨0, 32⟩
def SCH_CYCLE (i : Nat) : Nat := chipPage 6 + 0x408 + 0x20 * i
def SCH_CYCLE.UNITS : Fld := ⟨0, 32⟩
def SCH_OPEN (i : Nat) : Nat := chipPage 6 + 0x40C + 0x20 * i
def SCH_OPEN.UNITS : Fld := ⟨0, 32⟩
def SCH_LEN (i : Nat) : Nat := chipPage 6 + 0x410 + 0x20 * i
def SCH_LEN.UNITS : Fld := ⟨0, 32⟩
def SCH_STAT (i : Nat) : Nat := chipPage 6 + 0x414 + 0x20 * i
def SCH_STAT.OPEN : Fld := ⟨0, 1⟩
def SCH_STAT.BADCFG : Fld := ⟨1, 1⟩
def SCH_STAT.IGNORED : Fld := ⟨2, 1⟩
def SCH_STAT.LATE : Fld := ⟨3, 1⟩
def SCH_OPENS (i : Nat) : Nat := chipPage 6 + 0x418 + 0x20 * i
def SCH_LATE (i : Nat) : Nat := chipPage 6 + 0x41C + 0x20 * i
def CLS_PMAP (i : Nat) : Nat := chipPage 7 + 0x0 + 0x4 * i
def CLS_PMAP.TC (i : Nat) : Fld := ⟨3 * i, 3⟩
def CLS_PSEL (i : Nat) : Nat := chipPage 7 + 0x20 + 0x4 * i
def CLS_PSEL.MAP (i : Nat) : Fld := ⟨4 * i, 3⟩
def CLS_HSEL : Nat := chipPage 7 + 0x60
def CLS_HSEL.MAP (i : Nat) : Fld := ⟨4 * i, 3⟩
def SUP_STAT : Nat := chipPage 8 + 0x0
def SUP_STAT.MODE : Fld := ⟨0, 1⟩
def SUP_STAT.WDOG_EXPIRED : Fld := ⟨1, 1⟩
def SUP_STAT.MBOX_FULL : Fld := ⟨2, 1⟩
def SUP_WDOG : Nat := chipPage 8 + 0x4
def SUP_WDOG.MS : Fld := ⟨0, 16⟩
def SUP_WDOG.KICK : Fld := ⟨31, 1⟩
def SUP_MBOX_IN : Nat := chipPage 8 + 0x8
def SUP_MBOX_IN.MSG : Fld := ⟨0, 32⟩
def SUP_MBOX_OUT : Nat := chipPage 8 + 0xC
def SUP_MBOX_OUT.MSG : Fld := ⟨0, 32⟩
def TWN_CFG : Nat := chipPage 9 + 0x0
def TWN_CFG.MODE : Fld := ⟨0, 2⟩
def TWN_CFG.CLAIM_EN : Fld := ⟨2, 1⟩
def TWN_CFG.AUTO_YIELD : Fld := ⟨3, 1⟩
def TWN_STAT : Nat := chipPage 9 + 0x4
def TWN_STAT.STATE : Fld := ⟨0, 2⟩
def TWN_STAT.ACTING : Fld := ⟨2, 1⟩
def TWN_STAT.VIEW_VALID : Fld := ⟨3, 1⟩
def TWN_STAT.DUAL : Fld := ⟨4, 1⟩
def TWN_STAT.EPOCH : Fld := ⟨16, 16⟩
def TWN_EVT : Nat := chipPage 9 + 0x8
def TWN_EVT.CLAIMED : Fld := ⟨0, 1⟩
def TWN_EVT.YIELDED : Fld := ⟨1, 1⟩
def TWN_EVT.OWN_EXPIRED : Fld := ⟨2, 1⟩
def TWN_EVT.PEER_EXPIRED : Fld := ⟨3, 1⟩
def TWN_EVT.SIMUL : Fld := ⟨4, 1⟩
def TWN_EVT.DUAL : Fld := ⟨5, 1⟩
def TWN_EVT.COMPAT_OVER : Fld := ⟨6, 1⟩
def TWN_EVT.YIELD_FAIL : Fld := ⟨7, 1⟩
def TWN_EVT.LINK_LOST : Fld := ⟨8, 1⟩
def TWN_EVT.PEER_BAD : Fld := ⟨9, 1⟩
def TWN_EVT_EN : Nat := chipPage 9 + 0xC
def TWN_EVT_EN.EN : Fld := ⟨0, 10⟩
def TWN_CMD : Nat := chipPage 9 + 0x10
def TWN_CMD.YIELD : Fld := ⟨0, 1⟩
def TWN_LEASE : Nat := chipPage 9 + 0x14
def TWN_LEASE.LSEQ : Fld := ⟨0, 32⟩
def TWN_PEER_LO : Nat := chipPage 9 + 0x18
def TWN_PEER_LO.SERIAL : Fld := ⟨0, 32⟩
def TWN_PEER_HI : Nat := chipPage 9 + 0x1C
def TWN_PEER_HI.SERIAL : Fld := ⟨0, 32⟩
def TWN_ACT (i : Nat) : Nat := chipPage 9 + 0x20 + 0x4 * i
def TWN_ACT.PORTS : Fld := ⟨0, 32⟩
def ABD_CFG : Nat := chipPage 9 + 0x30
def ABD_CFG.SILENCE_US : Fld := ⟨0, 10⟩
def ABD_CFG.GAP_US : Fld := ⟨10, 10⟩
def ABD_CFG.A0_EN : Fld := ⟨20, 1⟩
def ABD_CFG.A1_EN : Fld := ⟨21, 1⟩
def ABD_STAT : Nat := chipPage 9 + 0x34
def ABD_STAT.LANE_UP : Fld := ⟨0, 2⟩
def ABD_STAT.IN_SERVICE : Fld := ⟨2, 1⟩
def ABD_STAT.PEER_CAUSE : Fld := ⟨3, 3⟩
def ABD_STAT.TX_BUSY : Fld := ⟨6, 1⟩
def ABD_STAT.OVERRUN : Fld := ⟨7, 1⟩
def ABD_TX_CMD : Nat := chipPage 9 + 0x38
def ABD_TX_CMD.QUEUE : Fld := ⟨0, 8⟩
def ABD_TX_CMD.REGION : Fld := ⟨8, 2⟩
def ABD_TX_CMD.SEND : Fld := ⟨31, 1⟩
def ABD_TX_MSG (i : Nat) : Nat := chipPage 9 + 0x40 + 0x4 * i
def ABD_TX_MSG.BODY : Fld := ⟨0, 32⟩
def OUT_CTL : Nat := chipPage 9 + 0x50
def OUT_CTL.BYP : Fld := ⟨0, 8⟩
def OUT_CTL.LINK : Fld := ⟨8, 8⟩
def OUT_CTL.ALARM : Fld := ⟨16, 1⟩
def OUT_STAT : Nat := chipPage 9 + 0x54
def OUT_STAT.BYP : Fld := ⟨0, 8⟩
def OUT_STAT.LINK : Fld := ⟨8, 8⟩
def OUT_STAT.ALARM_N : Fld := ⟨16, 1⟩
def OUT_STAT.SAFE : Fld := ⟨17, 1⟩
def OUT_ASRC : Nat := chipPage 9 + 0x58
def OUT_ASRC.SRC : Fld := ⟨0, 6⟩
def OUT_AEN : Nat := chipPage 9 + 0x5C
def OUT_AEN.EN : Fld := ⟨0, 6⟩
def TWN_CLAIMS : Nat := chipPage 9 + 0x60
def TWN_YIELDS : Nat := chipPage 9 + 0x64
def TWN_OWN_EXPIRED : Nat := chipPage 9 + 0x68
def TWN_PEER_EXPIRED : Nat := chipPage 9 + 0x6C
def TWN_RENEW_TX : Nat := chipPage 9 + 0x70
def TWN_RENEW_ACK_RX : Nat := chipPage 9 + 0x74
def TWN_SIMUL : Nat := chipPage 9 + 0x78
def TWN_STALE : Nat := chipPage 9 + 0x7C
def TWN_PASSIVE_DROP : Nat := chipPage 9 + 0x80
def TWN_PASSIVE_OMIT : Nat := chipPage 9 + 0x84
def TWN_DUAL_MS : Nat := chipPage 9 + 0x88
def ABD_TX_FRAMES : Nat := chipPage 9 + 0x8C
def ABD_RX_FRAMES : Nat := chipPage 9 + 0x90
def ABD_RX_DUP : Nat := chipPage 9 + 0x94
def ABD_GAP : Nat := chipPage 9 + 0x98
def ABD_CRC_ERR : Nat := chipPage 9 + 0x9C
def STR_STAT : Nat := chipPage 10 + 0x0
def STR_STAT.LAST_KIND : Fld := ⟨0, 2⟩
def STR_STAT.CAUSE : Fld := ⟨2, 4⟩
def STR_STAT.WARM_FAILS : Fld := ⟨6, 2⟩
def STR_STAT.COLD_FAILS : Fld := ⟨8, 2⟩
def STR_STAT.RETAIN_OK : Fld := ⟨10, 1⟩
def STR_STAT.MIN_SET : Fld := ⟨11, 1⟩
def STR_CMD : Nat := chipPage 10 + 0x4
def STR_CMD.COLD : Fld := ⟨0, 1⟩
def STR_CMD.WARM : Fld := ⟨1, 1⟩
def STR_CAUSE : Nat := chipPage 10 + 0x8
def STR_CAUSE.FAIL_CAUSE : Fld := ⟨0, 4⟩
def STR_CAUSE.FAIL_KIND : Fld := ⟨4, 2⟩
def STR_CAUSE.FAIL_STEP : Fld := ⟨8, 4⟩
def STR_TIME : Nat := chipPage 10 + 0xC
def STR_TIME.US : Fld := ⟨0, 32⟩
def STR_TIME_FWD : Nat := chipPage 10 + 0x10
def STR_TIME_FWD.US : Fld := ⟨0, 32⟩
def CAL_STAT : Nat := chipPage 10 + 0x14
def CAL_STAT.RESULT : Fld := ⟨0, 2⟩
def CAL_STAT.COPY : Fld := ⟨2, 1⟩
def CAL_STAT.LANES_USER : Fld := ⟨3, 1⟩
def CAL_STAT.DRAM_USER : Fld := ⟨4, 4⟩
def CAL_STAT.FACTORY_PENDING : Fld := ⟨8, 1⟩
def CAL_STAT.NO_COPY : Fld := ⟨9, 1⟩
def CAL_CMD : Nat := chipPage 10 + 0x18
def CAL_CMD.SAVE : Fld := ⟨0, 1⟩
def CAL_CMD.RESTORE_FACTORY : Fld := ⟨1, 1⟩
def PWR_CFG : Nat := chipPage 10 + 0x20
def PWR_CFG.SAG_EN : Fld := ⟨0, 1⟩
def PWR_CFG.SAG_MAX : Fld := ⟨1, 3⟩
def PWR_CFG.SAG_FILT_US : Fld := ⟨8, 8⟩
def PWR_CFG.DWELL_MS : Fld := ⟨16, 16⟩
def PWR_LADDER0 : Nat := chipPage 10 + 0x24
def PWR_LADDER0.T1_MS : Fld := ⟨0, 8⟩
def PWR_LADDER0.T2_MS : Fld := ⟨8, 8⟩
def PWR_LADDER0.T3_MS : Fld := ⟨16, 8⟩
def PWR_LADDER0.T4_MS : Fld := ⟨24, 8⟩
def PWR_LADDER1 : Nat := chipPage 10 + 0x28
def PWR_LADDER1.T5_MS : Fld := ⟨0, 16⟩
def PWR_STAT : Nat := chipPage 10 + 0x2C
def PWR_STAT.STAGE : Fld := ⟨0, 3⟩
def PWR_STAT.REQ : Fld := ⟨3, 3⟩
def PWR_STAT.SAG : Fld := ⟨6, 1⟩
def PWR_STAT.MON_REQ : Fld := ⟨7, 3⟩
def PWR_STAT.ENTERING : Fld := ⟨10, 1⟩
def PWR_STAT.DWELL : Fld := ⟨11, 1⟩
def PWR_EVT : Nat := chipPage 10 + 0x30
def PWR_EVT.SAG : Fld := ⟨0, 1⟩
def PWR_EVT.STAGE_UP : Fld := ⟨1, 1⟩
def PWR_EVT.STAGE_DOWN : Fld := ⟨2, 1⟩
def PWR_EVT.MON : Fld := ⟨3, 1⟩
def PWR_EVT.MARK_IGNORED : Fld := ⟨4, 1⟩
def PWR_EVT_EN : Nat := chipPage 10 + 0x34
def PWR_EVT_EN.EN : Fld := ⟨0, 5⟩
def PWR_SHEDDABLE (i : Nat) : Nat := chipPage 10 + 0x40 + 0x4 * i
def PWR_SHEDDABLE.PORTS : Fld := ⟨0, 32⟩
def PWR_VITAL (i : Nat) : Nat := chipPage 10 + 0x50 + 0x4 * i
def PWR_VITAL.PORTS : Fld := ⟨0, 32⟩
def PWR_SAG_CNT : Nat := chipPage 10 + 0x60
def PWR_ENTER1 : Nat := chipPage 10 + 0x64
def PWR_ENTER2 : Nat := chipPage 10 + 0x68
def PWR_ENTER3 : Nat := chipPage 10 + 0x6C
def PWR_ENTER4 : Nat := chipPage 10 + 0x70
def PWR_ENTER5 : Nat := chipPage 10 + 0x74
def STR_WARM_CNT : Nat := chipPage 10 + 0x78
def STR_COLD_CNT : Nat := chipPage 10 + 0x7C
def INT_CHIP_STAT : Nat := chipPage 11 + 0x0
def INT_CHIP_STAT.SRC : Fld := ⟨0, 12⟩
def INT_CHIP_EN : Nat := chipPage 11 + 0x4
def INT_CHIP_EN.EN : Fld := ⟨0, 12⟩
def INT_CTL : Nat := chipPage 11 + 0x8
def INT_CTL.EOI : Fld := ⟨0, 1⟩
def INT_RGN_STAT (i : Nat) : Nat := chipPage 11 + 0x10 + 0x4 * i
def INT_RGN_STAT.BLOCK : Fld := ⟨0, 10⟩
def INT_RGN_STAT.REGION : Fld := ⟨10, 1⟩
def INT_RGN_EN (i : Nat) : Nat := chipPage 11 + 0x20 + 0x4 * i
def INT_RGN_EN.EN : Fld := ⟨0, 11⟩
def INT_RGN_EN.REGION_MASK : Fld := ⟨11, 18⟩
def LOG_CFG : Nat := chipPage 12 + 0x0
def LOG_CFG.OVERWRITE : Fld := ⟨0, 1⟩
def LOG_CFG.CORR : Fld := ⟨1, 1⟩
def LOG_CFG.TB : Fld := ⟨2, 2⟩
def LOG_CFG.IRQ_LEVEL : Fld := ⟨16, 14⟩
def LOG_STAT : Nat := chipPage 12 + 0x4
def LOG_STAT.LEVEL : Fld := ⟨0, 14⟩
def LOG_STAT.LOG_FULL : Fld := ⟨14, 1⟩
def LOG_POP : Nat := chipPage 12 + 0x8
def LOG_POP.POP : Fld := ⟨0, 1⟩
def LOG_HEAD (i : Nat) : Nat := chipPage 12 + 0x10 + 0x4 * i
def LOG_HEAD.WORD : Fld := ⟨0, 32⟩
def LOG_WRITTEN : Nat := chipPage 12 + 0x20
def LOG_DROPPED : Nat := chipPage 12 + 0x24
def LOG_OVERWRITTEN : Nat := chipPage 12 + 0x28
def LOG_CORR_SUPPRESSED : Nat := chipPage 12 + 0x2C
def ABD_TX_DROP : Nat := chipPage 13 + 0x0
def ERR_CORRECTED : Nat := chipPage 13 + 0x4
def ERR_CONTAINED : Nat := chipPage 13 + 0x8
def ERR_REGION_FATAL : Nat := chipPage 13 + 0xC
def ERR_CHIP_FATAL : Nat := chipPage 13 + 0x10
def ERR_ABSORBED : Nat := chipPage 13 + 0x14
def ERR_ESCALATED : Nat := chipPage 13 + 0x18
def INT_MSI_SENT : Nat := chipPage 13 + 0x1C
def SNAP_TAKEN : Nat := chipPage 13 + 0x20
def SNAP_CFG : Nat := chipPage 13 + 0x40
def SNAP_CFG.LEN : Fld := ⟨0, 9⟩
def SNAP_STAT : Nat := chipPage 13 + 0x44
def SNAP_STAT.LATEST : Fld := ⟨0, 1⟩
def SNAP_STAT.HELD_VALID : Fld := ⟨1, 1⟩
def SNAP_STAT.HELD : Fld := ⟨2, 1⟩
def SNAP_CMD : Nat := chipPage 13 + 0x48
def SNAP_CMD.TAKE : Fld := ⟨0, 1⟩
def SNAP_CMD.HOLD : Fld := ⟨1, 1⟩
def SNAP_CMD.RELEASE : Fld := ⟨2, 1⟩
def DUMP_CFG : Nat := chipPage 14 + 0x0
def DUMP_CFG.KEEP_FIRST : Fld := ⟨0, 1⟩
def DUMP_CFG.MAX_MS : Fld := ⟨8, 8⟩
def DUMP_STAT : Nat := chipPage 14 + 0x4
def DUMP_STAT.VALID : Fld := ⟨0, 1⟩
def DUMP_STAT.UNREAD : Fld := ⟨1, 1⟩
def DUMP_STAT.ON_CHIP : Fld := ⟨2, 1⟩
def DUMP_STAT.COMPLETE : Fld := ⟨3, 1⟩
def DUMP_STAT.CAUSE : Fld := ⟨8, 8⟩
def DUMP_SEQ : Nat := chipPage 14 + 0x8
def DUMP_SEQ.SEQ : Fld := ⟨0, 32⟩
def DUMP_LEN : Nat := chipPage 14 + 0xC
def DUMP_LEN.BYTES : Fld := ⟨0, 32⟩
def DUMP_BASE : Nat := chipPage 14 + 0x10
def DUMP_BASE.ADDR : Fld := ⟨0, 32⟩
def DUMP_CMD : Nat := chipPage 14 + 0x14
def DUMP_CMD.RELEASE : Fld := ⟨0, 1⟩
def UART_CFG : Nat := chipPage 15 + 0x0
def UART_CFG.DIV : Fld := ⟨0, 16⟩
def UART_CFG.EN : Fld := ⟨16, 1⟩
def UART_STAT : Nat := chipPage 15 + 0x4
def UART_STAT.RX_LEVEL : Fld := ⟨0, 7⟩
def UART_STAT.TX_LEVEL : Fld := ⟨8, 7⟩
def UART_STAT.FRAMING : Fld := ⟨16, 1⟩
def UART_STAT.OVERRUN : Fld := ⟨17, 1⟩
def UART_STAT.BREAK : Fld := ⟨18, 1⟩
def UART_RX : Nat := chipPage 15 + 0x8
def UART_RX.BYTE : Fld := ⟨0, 8⟩
def UART_RX.VALID : Fld := ⟨8, 1⟩
def UART_RX_POP : Nat := chipPage 15 + 0xC
def UART_RX_POP.POP : Fld := ⟨0, 1⟩
def UART_TX : Nat := chipPage 15 + 0x10
def UART_TX.BYTE : Fld := ⟨0, 8⟩
def UART_FRAMING_ERR : Nat := chipPage 15 + 0x14
def UART_OVERRUN : Nat := chipPage 15 + 0x18
def UART_BREAK : Nat := chipPage 15 + 0x1C
def RGN_FLR_WEIGHT (n : Nat) : Nat := rgnPage n 0 + 0x0
def RGN_FLR_WEIGHT.PIPE : Fld := ⟨0, 4⟩
def RGN_FLR_WEIGHT.BUF : Fld := ⟨4, 4⟩
def RGN_FLR_WEIGHT.ENG0 : Fld := ⟨8, 4⟩
def RGN_FLR_WEIGHT.ENG1 : Fld := ⟨12, 4⟩
def RGN_FLR_WEIGHT.HOST : Fld := ⟨16, 4⟩
def RGN_FLR_WEIGHT.TBL : Fld := ⟨20, 4⟩
def RGN_STAT (n : Nat) : Nat := rgnPage n 0 + 0x4
def RGN_STAT.STATE : Fld := ⟨0, 2⟩
def RGN_STAT.BLOCK_RESTART : Fld := ⟨4, 10⟩
def RGN_STAT.REGION_RESTARTS : Fld := ⟨16, 4⟩
def RGN_ERR (n : Nat) : Nat := rgnPage n 0 + 0x8
def RGN_ERR.CONTAINED : Fld := ⟨0, 10⟩
def RGN_ERR.REGION_FATAL : Fld := ⟨16, 1⟩
def RGN_ERR.ESCALATED : Fld := ⟨17, 1⟩
def RGN_RESTART (n : Nat) : Nat := rgnPage n 0 + 0xC
def RGN_RESTART.WARM : Fld := ⟨0, 1⟩
def PB_MODE (b : Nat) : Nat := pbPage b + 0x0
def PB_MODE.MODE : Fld := ⟨0, 8⟩
def PB_MODE.FEC : Fld := ⟨8, 2⟩
def PB_MODE.LANE_EN : Fld := ⟨10, 4⟩
def PB_MODE.REFSEL : Fld := ⟨14, 1⟩
def PB_STAT (b : Nat) : Nat := pbPage b + 0x4
def PB_STAT.REFCLK_OK : Fld := ⟨0, 1⟩
def PB_STAT.RESTART : Fld := ⟨1, 1⟩
def PB_STAT.READY : Fld := ⟨8, 8⟩
def PB_STAT.PRESENT : Fld := ⟨16, 8⟩
def PB_EVT (b : Nat) : Nat := pbPage b + 0x8
def PB_EVT.LINK_UP : Fld := ⟨0, 8⟩
def PB_EVT.LINK_DOWN : Fld := ⟨8, 8⟩
def PB_EVT.REFCLK_LOST : Fld := ⟨16, 1⟩
def PB_EVT_EN (b : Nat) : Nat := pbPage b + 0xC
def PB_EVT_EN.EN : Fld := ⟨0, 17⟩
def MDIO_CFG (b : Nat) : Nat := pbPage b + 0x40
def MDIO_CFG.DIV : Fld := ⟨0, 10⟩
def MDIO_CFG.NO_PRE : Fld := ⟨10, 1⟩
def MDIO_CMD (b : Nat) : Nat := pbPage b + 0x44
def MDIO_CMD.REG : Fld := ⟨0, 5⟩
def MDIO_CMD.PHY : Fld := ⟨5, 5⟩
def MDIO_CMD.OP : Fld := ⟨10, 2⟩
def MDIO_CMD.C45 : Fld := ⟨12, 1⟩
def MDIO_CMD.DATA : Fld := ⟨16, 16⟩
def MDIO_STAT (b : Nat) : Nat := pbPage b + 0x48
def MDIO_STAT.BUSY : Fld := ⟨0, 1⟩
def MDIO_STAT.DONE : Fld := ⟨1, 1⟩
def MDIO_STAT.NO_RESP : Fld := ⟨2, 1⟩
def MDIO_STAT.OVERRUN : Fld := ⟨3, 1⟩
def MDIO_STAT.RDATA : Fld := ⟨16, 16⟩
def I2C_CFG (b : Nat) : Nat := pbPage b + 0x60
def I2C_CFG.SPEED : Fld := ⟨0, 1⟩
def I2C_CMD (b : Nat) : Nat := pbPage b + 0x64
def I2C_CMD.ADDR : Fld := ⟨0, 7⟩
def I2C_CMD.WLEN : Fld := ⟨8, 5⟩
def I2C_CMD.RLEN : Fld := ⟨16, 5⟩
def I2C_CMD.CLEAR : Fld := ⟨24, 1⟩
def I2C_STAT (b : Nat) : Nat := pbPage b + 0x68
def I2C_STAT.BUSY : Fld := ⟨0, 1⟩
def I2C_STAT.DONE : Fld := ⟨1, 1⟩
def I2C_STAT.NACK_ADDR : Fld := ⟨2, 1⟩
def I2C_STAT.NACK_DATA : Fld := ⟨3, 1⟩
def I2C_STAT.STRETCH_TO : Fld := ⟨4, 1⟩
def I2C_STAT.BUS_STUCK : Fld := ⟨5, 1⟩
def I2C_STAT.LOST : Fld := ⟨6, 1⟩
def I2C_STAT.OVERRUN : Fld := ⟨7, 1⟩
def I2C_STAT.CLEARED : Fld := ⟨8, 1⟩
def I2C_STAT.COUNT : Fld := ⟨16, 5⟩
def I2C_DATA (b i : Nat) : Nat := pbPage b + 0x70 + 0x4 * i
def I2C_DATA.BYTES : Fld := ⟨0, 32⟩
def LN_CFG (l : Nat) : Nat := laneBase l + 0x0
def LN_CFG.TX_INV : Fld := ⟨0, 1⟩
def LN_CFG.RX_INV : Fld := ⟨1, 1⟩
def LN_CFG.LOOP : Fld := ⟨2, 2⟩
def LN_CFG.TX_OFF : Fld := ⟨4, 1⟩
def LN_TXEQ (l : Nat) : Nat := laneBase l + 0x4
def LN_TXEQ.PRE : Fld := ⟨0, 5⟩
def LN_TXEQ.POST : Fld := ⟨8, 5⟩
def LN_TXEQ.MAIN : Fld := ⟨16, 6⟩
def LN_RXEQ (l : Nat) : Nat := laneBase l + 0x8
def LN_RXEQ.CTLE : Fld := ⟨0, 5⟩
def LN_RXEQ.DFE1 : Fld := ⟨8, 8⟩
def LN_RXEQ.ADAPTED : Fld := ⟨16, 1⟩
def LN_PRBS (l : Nat) : Nat := laneBase l + 0xC
def LN_PRBS.GEN : Fld := ⟨0, 3⟩
def LN_PRBS.CHK : Fld := ⟨4, 3⟩
def LN_STAT (l : Nat) : Nat := laneBase l + 0x10
def LN_STAT.SIGNAL : Fld := ⟨0, 1⟩
def LN_STAT.CDR_LOCK : Fld := ⟨1, 1⟩
def LN_STAT.SYNC : Fld := ⟨2, 1⟩
def LN_STAT.CAL_DONE : Fld := ⟨3, 1⟩
def LN_STAT.PRBS_LOCK : Fld := ⟨4, 1⟩
def LN_PRBS_ERR (l : Nat) : Nat := laneBase l + 0x20
def LN_SIG_LOSS (l : Nat) : Nat := laneBase l + 0x24
def LN_SYNC_LOSS (l : Nat) : Nat := laneBase l + 0x28
def MAC_CFG (p : Nat) : Nat := macBase p + 0x0
def MAC_CFG.EN : Fld := ⟨0, 1⟩
def MAC_CFG.AN37 : Fld := ⟨1, 1⟩
def MAC_CFG.MC_FILTER : Fld := ⟨2, 1⟩
def MAC_CFG.BCAST_DROP : Fld := ⟨3, 1⟩
def MAC_CFG.RX_TB : Fld := ⟨4, 4⟩
def MAC_FRAME (p : Nat) : Nat := macBase p + 0x4
def MAC_FRAME.MAX : Fld := ⟨0, 14⟩
def MAC_LINK (p : Nat) : Nat := macBase p + 0x8
def MAC_LINK.UP_MS : Fld := ⟨0, 8⟩
def MAC_LINK.DOWN_MS : Fld := ⟨8, 8⟩
def MAC_TS_ADJ (p : Nat) : Nat := macBase p + 0xC
def MAC_TS_ADJ.RX_ADJ : Fld := ⟨0, 16⟩
def MAC_TS_ADJ.TX_ADJ : Fld := ⟨16, 16⟩
def MAC_STAT (p : Nat) : Nat := macBase p + 0x10
def MAC_STAT.LSTATE : Fld := ⟨0, 3⟩
def MAC_STAT.READY : Fld := ⟨3, 1⟩
def MAC_STAT.SPEED : Fld := ⟨4, 4⟩
def MAC_STAT.LOCAL_FAULT : Fld := ⟨8, 1⟩
def MAC_STAT.REMOTE_FAULT : Fld := ⟨9, 1⟩
def MAC_STAT.AN_FAIL : Fld := ⟨10, 1⟩
def MAC_STAT.FEC_LOCK : Fld := ⟨11, 1⟩
def MAC_STAT.ALIGNED : Fld := ⟨12, 1⟩
def MAC_MCHASH (p j : Nat) : Nat := macBase p + 0x40 + 0x4 * j
def MAC_MCHASH.BITS : Fld := ⟨0, 32⟩
def MAC_RX_OK (p : Nat) : Nat := macBase p + 0x80
def MAC_RX_OK_BYTES (p : Nat) : Nat := macBase p + 0x84
def MAC_RX_RUNT (p : Nat) : Nat := macBase p + 0x88
def MAC_RX_OVERSIZE (p : Nat) : Nat := macBase p + 0x8C
def MAC_RX_FCS_ERR (p : Nat) : Nat := macBase p + 0x90
def MAC_RX_ABORT (p : Nat) : Nat := macBase p + 0x94
def MAC_RX_MC_FILTERED (p : Nat) : Nat := macBase p + 0x98
def MAC_RX_BCAST_DROP (p : Nat) : Nat := macBase p + 0x9C
def MAC_RX_MAC_CTRL (p : Nat) : Nat := macBase p + 0xA0
def MAC_RX_NOT_READY (p : Nat) : Nat := macBase p + 0xA4
def MAC_RX_FIFO_FULL (p : Nat) : Nat := macBase p + 0xA8
def MAC_RX_EGRESS_MTU (p : Nat) : Nat := macBase p + 0xAC
def MAC_TX_OK (p : Nat) : Nat := macBase p + 0xB0
def MAC_TX_OK_BYTES (p : Nat) : Nat := macBase p + 0xB4
def MAC_TX_STOMP (p : Nat) : Nat := macBase p + 0xB8
def MAC_TX_ABORT (p : Nat) : Nat := macBase p + 0xBC
def MAC_TX_TS (p : Nat) : Nat := macBase p + 0xC0
def MAC_FEC_CORR (p : Nat) : Nat := macBase p + 0xC4
def MAC_FEC_UNCORR (p : Nat) : Nat := macBase p + 0xC8
def MAC_LINK_DOWN (p : Nat) : Nat := macBase p + 0xCC
def MAC_HOLD_DOWN_RECOVERED (p : Nat) : Nat := macBase p + 0xD0
def ENG_BLK_CFG (k : Nat) : Nat := engPage k + 0x0
def ENG_BLK_CFG.EN : Fld := ⟨0, 8⟩
def ENG_BLK_CFG.STOP_ON_FAULT : Fld := ⟨8, 1⟩
def ENG_BLK_STAT (k : Nat) : Nat := engPage k + 0x4
def ENG_BLK_STAT.READY : Fld := ⟨0, 1⟩
def ENG_BLK_STAT.RESTART : Fld := ⟨1, 1⟩
def ENG_BLK_STAT.RUNNING : Fld := ⟨2, 8⟩
def ENG_BLK_STAT.FW_READY : Fld := ⟨10, 8⟩
def ENG_BLK_EVT (k : Nat) : Nat := engPage k + 0x8
def ENG_BLK_EVT.FAULT : Fld := ⟨0, 1⟩
def ENG_BLK_EVT.WDOG : Fld := ⟨1, 1⟩
def ENG_BLK_EVT.RESTARTED : Fld := ⟨2, 1⟩
def ENG_BLK_EVT.POISONED : Fld := ⟨3, 1⟩
def ENG_BLK_EVT_EN (k : Nat) : Nat := engPage k + 0xC
def ENG_BLK_EVT_EN.EN : Fld := ⟨0, 4⟩
def ENG_RESTART_INFO (k : Nat) : Nat := engPage k + 0x10
def ENG_RESTART_INFO.FIRST_POISON : Fld := ⟨0, 11⟩
def ENG_RESTART_INFO.POISON_COUNT : Fld := ⟨16, 8⟩
def ENG_DIR_PTR (k : Nat) : Nat := engPage k + 0x14
def ENG_DIR_PTR.POINTER : Fld := ⟨0, 3⟩
def ENG_CTL (e : Nat) : Nat := engPage (e / 8) + 0x100 + 0x10 * (e % 8)
def ENG_CTL.FW_READY : Fld := ⟨0, 1⟩
def ENG_CTL.HALT : Fld := ⟨1, 1⟩
def ENG_STAT (e : Nat) : Nat := engPage (e / 8) + 0x104 + 0x10 * (e % 8)
def ENG_STAT.BUSY : Fld := ⟨0, 8⟩
def ENG_STAT.WAIT : Fld := ⟨8, 8⟩
def ENG_STAT.SHED : Fld := ⟨16, 1⟩
def ENG_FAULT (e : Nat) : Nat := engPage (e / 8) + 0x108 + 0x10 * (e % 8)
def ENG_FAULT.CAUSE : Fld := ⟨0, 4⟩
def ENG_FAULT.THREAD : Fld := ⟨4, 3⟩
def ENG_FAULT.VALID : Fld := ⟨7, 1⟩
def ENG_FAULT.PC : Fld := ⟨16, 16⟩
def ENG_FAULT_CNT (e : Nat) : Nat := engPage (e / 8) + 0x10C + 0x10 * (e % 8)
def ENG_DIR_GETS (k : Nat) : Nat := engPage k + 0x200
def ENG_DIR_GETX (k : Nat) : Nat := engPage k + 0x204
def ENG_DIR_RECALL (k : Nat) : Nat := engPage k + 0x208
def ENG_DIR_CONTEND (k : Nat) : Nat := engPage k + 0x20C
def ENG_CORR (k : Nat) : Nat := engPage k + 0x210
def ENG_UNCORR (k : Nat) : Nat := engPage k + 0x214
def ENG_SLOT_RETIRED (e : Nat) : Nat := engPage (e / 8) + 0x300 + 0x10 * (e % 8)
def ENG_SLOT_WASTED (e : Nat) : Nat := engPage (e / 8) + 0x304 + 0x10 * (e % 8)
def ENG_SLOT_FRONT (e : Nat) : Nat := engPage (e / 8) + 0x308 + 0x10 * (e % 8)
def ENG_SLOT_BACK (e : Nat) : Nat := engPage (e / 8) + 0x30C + 0x10 * (e % 8)
def TBL_STAT (n : Nat) : Nat := rgnPage n 7 + 0x0
def TBL_STAT.READY : Fld := ⟨0, 1⟩
def TBL_STAT.RESTART : Fld := ⟨1, 1⟩
def TBL_STAT.FDB_BANKS : Fld := ⟨2, 5⟩
def TBL_STAT.STASH_USED : Fld := ⟨8, 6⟩
def TBL_FDB_CFG (n : Nat) : Nat := rgnPage n 7 + 0x4
def TBL_FDB_CFG.MAX_KICKS : Fld := ⟨0, 6⟩
def TBL_AGE_CFG (n : Nat) : Nat := rgnPage n 7 + 0x8
def TBL_AGE_CFG.EN : Fld := ⟨0, 1⟩
def TBL_AGE_CFG.PASSES : Fld := ⟨16, 16⟩
def TBL_LRN_CFG (n : Nat) : Nat := rgnPage n 7 + 0xC
def TBL_LRN_CFG.TARGET : Fld := ⟨0, 1⟩
def TBL_LRN_CFG.ENG_Q : Fld := ⟨8, 8⟩
def TBL_LRN_CFG.HOLD_US : Fld := ⟨16, 16⟩
def TBL_FDB_SEED_LO (n i : Nat) : Nat := rgnPage n 7 + 0x10 + 0x8 * i
def TBL_FDB_SEED_LO.SEED : Fld := ⟨0, 32⟩
def TBL_FDB_SEED_HI (n i : Nat) : Nat := rgnPage n 7 + 0x14 + 0x8 * i
def TBL_FDB_SEED_HI.SEED : Fld := ⟨0, 28⟩
def TBL_FDB_COUNT (n : Nat) : Nat := rgnPage n 7 + 0x20
def TBL_FDB_COUNT.VALID : Fld := ⟨0, 19⟩
def TBL_LRN_STAT (n : Nat) : Nat := rgnPage n 7 + 0x24
def TBL_LRN_STAT.LEVEL : Fld := ⟨0, 13⟩
def TBL_LRN_POP (n : Nat) : Nat := rgnPage n 7 + 0x28
def TBL_LRN_POP.POP : Fld := ⟨0, 1⟩
def TBL_LRN_HEAD (n i : Nat) : Nat := rgnPage n 7 + 0x30 + 0x4 * i
def TBL_LRN_HEAD.WORD : Fld := ⟨0, 32⟩
def TBL_GLN_CFG (n : Nat) : Nat := rgnPage n 7 + 0x40
def TBL_GLN_CFG.MIN_GAP_MS : Fld := ⟨0, 16⟩
def TBL_GLN_CFG.SPARE_CE : Fld := ⟨16, 8⟩
def TBL_GLN_STAT (n : Nat) : Nat := rgnPage n 7 + 0x44
def TBL_GLN_STAT.IN_PASS : Fld := ⟨0, 1⟩
def TBL_GLN_STAT.MISMATCH : Fld := ⟨1, 1⟩
def TBL_GLN_STAT.FIFO_LEVEL : Fld := ⟨2, 5⟩
def TBL_GLN_STAT.BURSTS : Fld := ⟨7, 9⟩
def TBL_GLN_MISMATCH (n : Nat) : Nat := rgnPage n 7 + 0x48
def TBL_GLN_MISMATCH.WORD : Fld := ⟨0, 13⟩
def TBL_GLN_MISMATCH.CAUSE : Fld := ⟨13, 1⟩
def TBL_GLN_MISMATCH.POP : Fld := ⟨31, 1⟩
def TBL_SPARE_STAT (n : Nat) : Nat := rgnPage n 7 + 0x4C
def TBL_SPARE_STAT.LAST_RETIRED : Fld := ⟨0, 6⟩
def TBL_SPARE_STAT.NONE_LEFT : Fld := ⟨6, 1⟩
def TBL_SPARE_STAT.COPYING : Fld := ⟨7, 1⟩
def TBL_SPARE_STAT.RETIRED : Fld := ⟨8, 5⟩
def TBL_SHADOW_ADJ (n : Nat) : Nat := rgnPage n 7 + 0x50
def TBL_SHADOW_ADJ.WORD : Fld := ⟨0, 13⟩
def TBL_SHADOW_ADJ.MODE : Fld := ⟨13, 1⟩
def TBL_SHADOW_DELTA (n : Nat) : Nat := rgnPage n 7 + 0x54
def TBL_SHADOW_DELTA.DELTA : Fld := ⟨0, 32⟩
def TBL_CMD_KEY_LO (n i : Nat) : Nat := rgnPage n 7 + 0x80 + 0x40 * i
def TBL_CMD_KEY_LO.KEY : Fld := ⟨0, 32⟩
def TBL_CMD_KEY_HI (n i : Nat) : Nat := rgnPage n 7 + 0x84 + 0x40 * i
def TBL_CMD_KEY_HI.MAC : Fld := ⟨0, 16⟩
def TBL_CMD_KEY_HI.FID : Fld := ⟨16, 12⟩
def TBL_CMD_DELTA (n i : Nat) : Nat := rgnPage n 7 + 0x9C + 0x40 * i
def TBL_CMD_DELTA.DELTA : Fld := ⟨0, 32⟩
def TBL_CMD (n i : Nat) : Nat := rgnPage n 7 + 0xA0 + 0x40 * i
def TBL_CMD.OP : Fld := ⟨0, 4⟩
def TBL_CMD_STAT (n i : Nat) : Nat := rgnPage n 7 + 0xA4 + 0x40 * i
def TBL_CMD_STAT.BUSY : Fld := ⟨0, 1⟩
def TBL_CMD_STAT.DONE : Fld := ⟨1, 1⟩
def TBL_CMD_STAT.OVERRUN : Fld := ⟨2, 1⟩
def TBL_CMD_STAT.RESULT : Fld := ⟨4, 4⟩
def TBL_CMD_STAT.MOVES : Fld := ⟨8, 8⟩
def TBL_CMD_LOC (n i : Nat) : Nat := rgnPage n 7 + 0xA8 + 0x40 * i
def TBL_CMD_LOC.LOC : Fld := ⟨0, 20⟩
def TBL_CMD_RDATA (n i : Nat) : Nat := rgnPage n 7 + 0xAC + 0x40 * i
def TBL_CMD_RDATA.DEST : Fld := ⟨0, 12⟩
def TBL_CMD_RDATA.STATIC : Fld := ⟨12, 1⟩
def TBL_CMD_RDATA.HIT : Fld := ⟨13, 1⟩
def TBL_CMD_RDATA.AGE : Fld := ⟨14, 1⟩
def TBL_CMD_DATA (n i j : Nat) : Nat := rgnPage n 7 + 0x88 + 0x40 * i + 0x4 * j
def TBL_CMD_DATA.WORD : Fld := ⟨0, 32⟩
def TBL_PORT (n i : Nat) : Nat := rgnPage n 7 + 0x200 + 0x4 * i
def TBL_PORT.PVID : Fld := ⟨0, 12⟩
def TBL_PORT.DEF_PCP : Fld := ⟨12, 3⟩
def TBL_PORT.LEARN_EN : Fld := ⟨15, 1⟩
def TBL_PORT.FWD_EN : Fld := ⟨16, 1⟩
def TBL_DA_HIT (n : Nat) : Nat := rgnPage n 7 + 0x300
def TBL_DA_MISS_UC (n : Nat) : Nat := rgnPage n 7 + 0x304
def TBL_DA_MISS_MC (n : Nat) : Nat := rgnPage n 7 + 0x308
def TBL_SA_MISS (n : Nat) : Nat := rgnPage n 7 + 0x30C
def TBL_LRN_POSTED (n : Nat) : Nat := rgnPage n 7 + 0x310
def TBL_LRN_DROP (n : Nat) : Nat := rgnPage n 7 + 0x314
def TBL_LRN_FILTERED (n : Nat) : Nat := rgnPage n 7 + 0x318
def TBL_VLAN_UNKNOWN (n : Nat) : Nat := rgnPage n 7 + 0x31C
def TBL_VLAN_FILTERED (n : Nat) : Nat := rgnPage n 7 + 0x320
def TBL_SAME_PORT (n : Nat) : Nat := rgnPage n 7 + 0x324
def TBL_STATIC_MOVE (n : Nat) : Nat := rgnPage n 7 + 0x328
def TBL_DEST_BAD (n : Nat) : Nat := rgnPage n 7 + 0x32C
def TBL_CORR (n : Nat) : Nat := rgnPage n 7 + 0x330
def TBL_UNCORR (n : Nat) : Nat := rgnPage n 7 + 0x334
def TBL_GLN_PASSES (n : Nat) : Nat := rgnPage n 7 + 0x338
def TBL_GLN_MISMATCHES (n : Nat) : Nat := rgnPage n 7 + 0x33C
def TBL_GLN_UNSETTLED (n : Nat) : Nat := rgnPage n 7 + 0x340
def TBL_RELOCATED (n : Nat) : Nat := rgnPage n 7 + 0x344
def TBL_PORT_BLOCKED (n : Nat) : Nat := rgnPage n 7 + 0x348
def LOFT_CFG (n : Nat) : Nat := rgnPage n 7 + 0x380
def LOFT_CFG.MIRROR_EN : Fld := ⟨0, 1⟩
def LOFT_CFG.TWIN_APPLY : Fld := ⟨1, 1⟩
def LOFT_STAT (n : Nat) : Nat := rgnPage n 7 + 0x384
def LOFT_STAT.READY : Fld := ⟨0, 1⟩
def LOFT_STAT.SLOTS : Fld := ⟨1, 14⟩
def LOFT_STAT.RESYNC_PENDING : Fld := ⟨15, 1⟩
def LOFT_STAT.MQ_LEVEL : Fld := ⟨16, 11⟩
def LOFT_US_LO (n : Nat) : Nat := rgnPage n 7 + 0x388
def LOFT_US_LO.US : Fld := ⟨0, 32⟩
def LOFT_US_HI (n : Nat) : Nat := rgnPage n 7 + 0x38C
def LOFT_US_HI.US : Fld := ⟨0, 32⟩
def LOFT_CMD (n : Nat) : Nat := rgnPage n 7 + 0x390
def LOFT_CMD.RESYNC_ALL : Fld := ⟨0, 1⟩
def LOFT_PUT_OK (n : Nat) : Nat := rgnPage n 7 + 0x394
def LOFT_STALE (n : Nat) : Nat := rgnPage n 7 + 0x398
def LOFT_SOURCE (n : Nat) : Nat := rgnPage n 7 + 0x39C
def LOFT_REFUSED (n : Nat) : Nat := rgnPage n 7 + 0x3A0
def LOFT_GET (n : Nat) : Nat := rgnPage n 7 + 0x3A4
def LOFT_GET_WAIT (n : Nat) : Nat := rgnPage n 7 + 0x3A8
def LOFT_MIRROR_TX (n : Nat) : Nat := rgnPage n 7 + 0x3AC
def LOFT_MIRROR_RX (n : Nat) : Nat := rgnPage n 7 + 0x3B0
def LOFT_MIRROR_DROP (n : Nat) : Nat := rgnPage n 7 + 0x3B4
def LOFT_LOST (n : Nat) : Nat := rgnPage n 7 + 0x3B8
def GRN_CFG (n : Nat) : Nat := rgnPage n 8 + 0x0
def GRN_CFG.MODE : Fld := ⟨0, 1⟩
def GRN_CFG.POOLS : Fld := ⟨1, 4⟩
def GRN_CFG.SPILL_EN : Fld := ⟨5, 1⟩
def GRN_CFG.PUSH_EN : Fld := ⟨6, 1⟩
def GRN_CFG.MARK_EN : Fld := ⟨7, 1⟩
def GRN_STAT (n : Nat) : Nat := rgnPage n 8 + 0x4
def GRN_STAT.READY : Fld := ⟨0, 1⟩
def GRN_STAT.SILO_READY : Fld := ⟨1, 1⟩
def GRN_STAT.SPILL_STOPPED : Fld := ⟨2, 1⟩
def GRN_STAT.HOLD : Fld := ⟨3, 1⟩
def GRN_STAT.REBUILD : Fld := ⟨4, 1⟩
def GRN_STAT.BALE_REBUILD : Fld := ⟨5, 1⟩
def GRN_STAT.PARTNER_OK : Fld := ⟨6, 1⟩
def GRN_EVT (n : Nat) : Nat := rgnPage n 8 + 0x8
def GRN_EVT.DOUBLE_FREE : Fld := ⟨0, 1⟩
def GRN_EVT.ALLOC_HELD : Fld := ⟨1, 1⟩
def GRN_EVT.RING_EMPTY : Fld := ⟨2, 1⟩
def GRN_EVT.BALES_OUT : Fld := ⟨3, 1⟩
def GRN_EVT.MIRROR_OUT : Fld := ⟨4, 1⟩
def GRN_EVT.HOLD_TIMEOUT : Fld := ⟨5, 1⟩
def GRN_EVT.BALE_LOST : Fld := ⟨6, 1⟩
def GRN_EVT.MIN_OVER : Fld := ⟨7, 1⟩
def GRN_EVT_EN (n : Nat) : Nat := rgnPage n 8 + 0xC
def GRN_EVT_EN.EN : Fld := ⟨0, 8⟩
def GRN_RESERVE (n : Nat) : Nat := rgnPage n 8 + 0x10
def GRN_RESERVE.GRAINS : Fld := ⟨0, 16⟩
def GRN_RESERVE.USED : Fld := ⟨16, 16⟩
def GRN_BALE_OWN (n : Nat) : Nat := rgnPage n 8 + 0x14
def GRN_BALE_OWN.FREE : Fld := ⟨0, 21⟩
def GRN_BALE_MIRROR (n : Nat) : Nat := rgnPage n 8 + 0x18
def GRN_BALE_MIRROR.FREE : Fld := ⟨0, 21⟩
def GRN_HOLD_CFG (n : Nat) : Nat := rgnPage n 8 + 0x20
def GRN_HOLD_CFG.MAX_MS : Fld := ⟨0, 16⟩
def GRN_HOLD_CMD (n : Nat) : Nat := rgnPage n 8 + 0x24
def GRN_HOLD_CMD.START : Fld := ⟨0, 1⟩
def GRN_HOLD_CMD.END : Fld := ⟨1, 1⟩
def GRN_HOLD_STAT (n : Nat) : Nat := rgnPage n 8 + 0x28
def GRN_HOLD_STAT.ACTIVE : Fld := ⟨0, 1⟩
def GRN_HOLD_STAT.RELEASING : Fld := ⟨1, 1⟩
def GRN_HOLD_STAT.HOLD_MS : Fld := ⟨16, 16⟩
def GRN_HOLD_FLUSH (n : Nat) : Nat := rgnPage n 8 + 0x2C
def GRN_HOLD_FLUSH.PORTS : Fld := ⟨0, 32⟩
def GRN_LAND (n i : Nat) : Nat := rgnPage n 8 + 0x30 + 0x4 * i
def GRN_LAND.LAND_TC (i : Nat) : Fld := ⟨4 * i, 3⟩
def GRN_QAGE (n i : Nat) : Nat := rgnPage n 8 + 0x60 + 0x4 * i
def GRN_QAGE.LIMIT : Fld := ⟨0, 16⟩
def GRN_POOL_CFG (n i : Nat) : Nat := rgnPage n 8 + 0x80 + 0x10 * i
def GRN_POOL_CFG.GRAINS : Fld := ⟨0, 16⟩
def GRN_POOL_CFG.FALLBACK : Fld := ⟨16, 1⟩
def GRN_POOL_CFG.PUSH_MASK : Fld := ⟨17, 8⟩
def GRN_POOL_CFG.PUSH_MAX : Fld := ⟨25, 3⟩
def GRN_POOL_MARK (n i : Nat) : Nat := rgnPage n 8 + 0x84 + 0x10 * i
def GRN_POOL_MARK.GRAINS : Fld := ⟨0, 16⟩
def GRN_POOL_USED (n i : Nat) : Nat := rgnPage n 8 + 0x88 + 0x10 * i
def GRN_POOL_USED.CHARGED : Fld := ⟨0, 16⟩
def GRN_POOL_USED.SHARED : Fld := ⟨16, 16⟩
def GRN_POOL_PEAK (n i : Nat) : Nat := rgnPage n 8 + 0x8C + 0x10 * i
def GRN_POOL_PEAK.PEAK : Fld := ⟨0, 16⟩
def GRN_REFUSED (n i : Nat) : Nat := rgnPage n 8 + 0x100 + 0x4 * i
def GRN_FALLBACK (n : Nat) : Nat := rgnPage n 8 + 0x120
def GRN_LAND_WAIT (n : Nat) : Nat := rgnPage n 8 + 0x124
def GRN_PUSHED (n : Nat) : Nat := rgnPage n 8 + 0x128
def GRN_AGED_OUT (n : Nat) : Nat := rgnPage n 8 + 0x12C
def GRN_MARKED (n : Nat) : Nat := rgnPage n 8 + 0x130
def GRN_DOUBLE_FREE (n : Nat) : Nat := rgnPage n 8 + 0x134
def GRN_ALLOC_HELD (n : Nat) : Nat := rgnPage n 8 + 0x138
def GRN_RING_EMPTY (n : Nat) : Nat := rgnPage n 8 + 0x13C
def GRN_SPILLED (n : Nat) : Nat := rgnPage n 8 + 0x140
def GRN_RETURNED (n : Nat) : Nat := rgnPage n 8 + 0x144
def GRN_RETURN_LATE (n : Nat) : Nat := rgnPage n 8 + 0x148
def GRN_SPILL_BLOCKED (n : Nat) : Nat := rgnPage n 8 + 0x14C
def GRN_MIRROR_USED (n : Nat) : Nat := rgnPage n 8 + 0x150
def GRN_BALE_LOST (n : Nat) : Nat := rgnPage n 8 + 0x154
def GRN_STALE_SKIP (n : Nat) : Nat := rgnPage n 8 + 0x158
def GRN_UNDELIVERABLE (n : Nat) : Nat := rgnPage n 8 + 0x15C
def GRN_RESTART_FREED (n : Nat) : Nat := rgnPage n 8 + 0x160
def GRN_HOLD_SPILLED (n : Nat) : Nat := rgnPage n 8 + 0x164
def GRN_COMMITTED (n : Nat) : Nat := rgnPage n 8 + 0x168
def GRN_QSPILL (n i : Nat) : Nat := rgnPage n 8 + 0x400 + 0x4 * i
def GRN_QSPILL.SPILL_ON : Fld := ⟨0, 16⟩
def GRN_QSPILL.RETURN_AT : Fld := ⟨16, 16⟩
def DRC_CFG (n : Nat) : Nat := rgnPage n 8 + 0x800
def DRC_CFG.EN : Fld := ⟨0, 1⟩
def DRC_CFG.SIZE : Fld := ⟨1, 3⟩
def DRC_CFG.DBI_RD : Fld := ⟨4, 1⟩
def DRC_CFG.DBI_WR : Fld := ⟨5, 1⟩
def DRC_CFG.UNCORR_LIMIT : Fld := ⟨16, 8⟩
def DRC_CFG.TIMEOUT_US : Fld := ⟨24, 8⟩
def DRC_STAT (n : Nat) : Nat := rgnPage n 8 + 0x804
def DRC_STAT.STATE : Fld := ⟨0, 2⟩
def DRC_STAT.SREF : Fld := ⟨2, 1⟩
def DRC_STAT.PD : Fld := ⟨3, 1⟩
def DRC_STAT.PASS : Fld := ⟨4, 1⟩
def DRC_STAT.DRAIN : Fld := ⟨5, 1⟩
def DRC_STAT.FROM_SAVED : Fld := ⟨6, 1⟩
def DRC_STAT.CHECK_FAIL : Fld := ⟨7, 1⟩
def DRC_STAT.WQ_LEVEL : Fld := ⟨8, 7⟩
def DRC_STAT.RQ_LEVEL : Fld := ⟨16, 7⟩
def DRC_STAT.REFRESH_MULT : Fld := ⟨24, 2⟩
def DRC_STAT.HOT : Fld := ⟨26, 1⟩
def DRC_STAT.FAIL_CAUSE : Fld := ⟨28, 3⟩
def DRC_EVT (n : Nat) : Nat := rgnPage n 8 + 0x808
def DRC_EVT.FAILED : Fld := ⟨0, 1⟩
def DRC_EVT.UNCORR : Fld := ⟨1, 1⟩
def DRC_EVT.HOT : Fld := ⟨2, 1⟩
def DRC_EVT.RETRAIN_ADJ : Fld := ⟨3, 1⟩
def DRC_EVT.REQUAL_DONE : Fld := ⟨4, 1⟩
def DRC_EVT.CHECK_FAIL : Fld := ⟨5, 1⟩
def DRC_EVT_EN (n : Nat) : Nat := rgnPage n 8 + 0x80C
def DRC_EVT_EN.EN : Fld := ⟨0, 6⟩
def DRC_CMD (n : Nat) : Nat := rgnPage n 8 + 0x810
def DRC_CMD.REQUALIFY : Fld := ⟨0, 1⟩
def DRC_SCHED (n : Nat) : Nat := rgnPage n 8 + 0x814
def DRC_SCHED.WR_HI : Fld := ⟨0, 7⟩
def DRC_SCHED.WR_LO : Fld := ⟨8, 7⟩
def DRC_SCHED.AGE_MAX_NS : Fld := ⟨16, 16⟩
def DRC_PWR (n : Nat) : Nat := rgnPage n 8 + 0x818
def DRC_PWR.PD_IDLE : Fld := ⟨0, 8⟩
def DRC_PWR.SR_IDLE_US : Fld := ⟨8, 16⟩
def DRC_PWR.SR_CHECK_MS : Fld := ⟨24, 8⟩
def DRC_RT_CFG (n : Nat) : Nat := rgnPage n 8 + 0x81C
def DRC_RT_CFG.TRACK_PS : Fld := ⟨0, 8⟩
def DRC_RT_CFG.RETRAIN_PS : Fld := ⟨8, 8⟩
def DRC_RT_CFG.INTERVAL_MS : Fld := ⟨16, 16⟩
def DRC_LAST_ERR (n : Nat) : Nat := rgnPage n 8 + 0x820
def DRC_LAST_ERR.BURST : Fld := ⟨0, 26⟩
def DRC_LAST_ERR.TAG : Fld := ⟨26, 1⟩
def DRC_TEMP (n : Nat) : Nat := rgnPage n 8 + 0x824
def DRC_TEMP.DIE0 : Fld := ⟨0, 8⟩
def DRC_TEMP.DIE1 : Fld := ⟨8, 8⟩
def DRC_RD_BURSTS (n : Nat) : Nat := rgnPage n 8 + 0x880
def DRC_WR_BURSTS (n : Nat) : Nat := rgnPage n 8 + 0x884
def DRC_CHK_WRITES (n : Nat) : Nat := rgnPage n 8 + 0x888
def DRC_FWD (n : Nat) : Nat := rgnPage n 8 + 0x88C
def DRC_MERGED (n : Nat) : Nat := rgnPage n 8 + 0x890
def DRC_CORR (n : Nat) : Nat := rgnPage n 8 + 0x894
def DRC_UNCORR (n : Nat) : Nat := rgnPage n 8 + 0x898
def DRC_DRAIN (n : Nat) : Nat := rgnPage n 8 + 0x89C
def DRC_AGE_PROMOTE (n : Nat) : Nat := rgnPage n 8 + 0x8A0
def DRC_QFULL_WAIT (n : Nat) : Nat := rgnPage n 8 + 0x8A4
def DRC_SREF (n : Nat) : Nat := rgnPage n 8 + 0x8A8
def DRC_TRACK (n : Nat) : Nat := rgnPage n 8 + 0x8AC
def DRC_RETRAIN (n : Nat) : Nat := rgnPage n 8 + 0x8B0
def DRC_REFRESH (n : Nat) : Nat := rgnPage n 8 + 0x8B4
def WNW_CFG (n : Nat) : Nat := rgnPage n 9 + 0x0
def WNW_CFG.EN : Fld := ⟨0, 1⟩
def WNW_CFG.UNCORR_DEF : Fld := ⟨1, 1⟩
def WNW_STAT (n : Nat) : Nat := rgnPage n 9 + 0x4
def WNW_STAT.READY : Fld := ⟨0, 1⟩
def WNW_STAT.REBUILD : Fld := ⟨1, 1⟩
def WNW_STAT.AUT_BAD : Fld := ⟨2, 1⟩
def WNW_STAT.DUP_FREED : Fld := ⟨3, 1⟩
def WNW_STAT.CLASSES : Fld := ⟨4, 7⟩
def WNW_STAT.ROWLOG : Fld := ⟨11, 3⟩
def WNW_STAT.RULE_BANKS : Fld := ⟨16, 3⟩
def WNW_STAT.AUT_BANKS : Fld := ⟨19, 4⟩
def WNW_DEFAULT0 (n : Nat) : Nat := rgnPage n 9 + 0x8
def WNW_DEFAULT0.ACT1 : Fld := ⟨0, 32⟩
def WNW_DEFAULT1 (n : Nat) : Nat := rgnPage n 9 + 0xC
def WNW_DEFAULT1.ACT2 : Fld := ⟨0, 32⟩
def WNW_DEFAULT2 (n : Nat) : Nat := rgnPage n 9 + 0x10
def WNW_DEFAULT2.ACT3 : Fld := ⟨0, 32⟩
def WNW_FREE (n : Nat) : Nat := rgnPage n 9 + 0x14
def WNW_FREE.FIRST : Fld := ⟨0, 14⟩
def WNW_FREE.NONE : Fld := ⟨14, 1⟩
def WNW_FREE.COUNT : Fld := ⟨16, 15⟩
def WNW_CMD_DATA (n i : Nat) : Nat := rgnPage n 9 + 0x20 + 0x4 * i
def WNW_CMD_DATA.WORD : Fld := ⟨0, 32⟩
def WNW_CMD (n : Nat) : Nat := rgnPage n 9 + 0x40
def WNW_CMD.OP : Fld := ⟨0, 4⟩
def WNW_CMD.ADDR : Fld := ⟨4, 14⟩
def WNW_CMD_STAT (n : Nat) : Nat := rgnPage n 9 + 0x44
def WNW_CMD_STAT.BUSY : Fld := ⟨0, 1⟩
def WNW_CMD_STAT.DONE : Fld := ⟨1, 1⟩
def WNW_CMD_STAT.OVERRUN : Fld := ⟨2, 1⟩
def WNW_CMD_STAT.RESULT : Fld := ⟨4, 4⟩
def WNW_CMD_STAT.MOVED : Fld := ⟨16, 16⟩
def WNW_SRC_CLASS (n i : Nat) : Nat := rgnPage n 9 + 0x50 + 0x4 * i
def WNW_SRC_CLASS.PORT : Fld := ⟨0, 32⟩
def WNW_SRC_CLASS4 (n : Nat) : Nat := rgnPage n 9 + 0x60
def WNW_SRC_CLASS4.HOST : Fld := ⟨0, 4⟩
def WNW_SRC_CLASS4.HOST_ETH : Fld := ⟨4, 4⟩
def WNW_SRC_CLASS4.ENG0 : Fld := ⟨8, 4⟩
def WNW_SRC_CLASS4.ENG1 : Fld := ⟨12, 4⟩
def WNW_XPROF (n i j : Nat) : Nat := rgnPage n 9 + 0x100 + 0x10 * i + 0x4 * j
def WNW_XPROF.EXT (i : Nat) : Fld := ⟨16 * i, 16⟩
def WNW_DEFAULT_HITS (n : Nat) : Nat := rgnPage n 9 + 0x200
def WNW_DISCARD (n : Nat) : Nat := rgnPage n 9 + 0x204
def WNW_NO_ENGINE (n : Nat) : Nat := rgnPage n 9 + 0x208
def WNW_UNCORR (n : Nat) : Nat := rgnPage n 9 + 0x20C
def WNW_XTRUNC (n : Nat) : Nat := rgnPage n 9 + 0x210
def WNW_ABSENT (n : Nat) : Nat := rgnPage n 9 + 0x214
def WNW_MOVES (n : Nat) : Nat := rgnPage n 9 + 0x218
def WNW_AUT_FAULT (n : Nat) : Nat := rgnPage n 9 + 0x21C
def POL_CMD_DATA (n i : Nat) : Nat := rgnPage n 9 + 0x400 + 0x4 * i
def POL_CMD_DATA.WORD : Fld := ⟨0, 32⟩
def POL_CMD (n : Nat) : Nat := rgnPage n 9 + 0x410
def POL_CMD.OP : Fld := ⟨0, 4⟩
def POL_CMD.INDEX : Fld := ⟨16, 16⟩
def POL_CMD_STAT (n : Nat) : Nat := rgnPage n 9 + 0x414
def POL_CMD_STAT.BUSY : Fld := ⟨0, 1⟩
def POL_CMD_STAT.DONE : Fld := ⟨1, 1⟩
def POL_CMD_STAT.OVERRUN : Fld := ⟨2, 1⟩
def POL_CMD_STAT.RESULT : Fld := ⟨4, 4⟩
def POL_RD_CBKT (n : Nat) : Nat := rgnPage n 9 + 0x418
def POL_RD_CBKT.BYTES : Fld := ⟨0, 23⟩
def POL_RD_XBKT (n : Nat) : Nat := rgnPage n 9 + 0x41C
def POL_RD_XBKT.BYTES : Fld := ⟨0, 23⟩
def POL_RED_DROP (n : Nat) : Nat := rgnPage n 9 + 0x440
def POL_UNCORR (n : Nat) : Nat := rgnPage n 9 + 0x444
def MIR_WAIT_DROP (n : Nat) : Nat := rgnPage n 9 + 0x448
def MIR_OMIT (n : Nat) : Nat := rgnPage n 9 + 0x44C
def MIR_COPIES (n : Nat) : Nat := rgnPage n 9 + 0x450
def PIPE_NOTREADY_OMIT (n : Nat) : Nat := rgnPage n 9 + 0x454
def CB_GENERATED (n : Nat) : Nat := rgnPage n 9 + 0x458
def CB_NO_RTAG (n : Nat) : Nat := rgnPage n 9 + 0x45C
def MIR_SESSION (n i : Nat) : Nat := rgnPage n 9 + 0x480 + 0x4 * i
def MIR_SESSION.DEST : Fld := ⟨0, 12⟩
def MIR_SESSION.QUEUE : Fld := ⟨12, 3⟩
def MIR_SESSION.SAMPLE : Fld := ⟨16, 8⟩
def MIR_SESSION.EN : Fld := ⟨31, 1⟩
def MIR_PORTSEL (n i : Nat) : Nat := rgnPage n 9 + 0x4A0 + 0x4 * i
def MIR_PORTSEL.SESSION (i : Nat) : Fld := ⟨4 * i, 3⟩
def VOTE_CFG (n : Nat) : Nat := rgnPage n 9 + 0x600
def VOTE_CFG.STRIKES : Fld := ⟨0, 4⟩
def VOTE_CFG.DOWN_LIMIT : Fld := ⟨4, 4⟩
def VOTE_CFG.SKEW : Fld := ⟨8, 8⟩
def VOTE_STAT (n : Nat) : Nat := rgnPage n 9 + 0x604
def VOTE_STAT.IN_SERVICE : Fld := ⟨0, 3⟩
def VOTE_STAT.VITAL_DOWN : Fld := ⟨3, 1⟩
def VOTE_STAT.TEST_FAIL : Fld := ⟨4, 3⟩
def VOTE_STAT.TESTING : Fld := ⟨7, 1⟩
def VOTE_STAT.STRIKE_A : Fld := ⟨8, 4⟩
def VOTE_STAT.STRIKE_B : Fld := ⟨12, 4⟩
def VOTE_STAT.STRIKE_C : Fld := ⟨16, 4⟩
def VOTE_STAT.QLEVEL : Fld := ⟨20, 9⟩
def VOTE_EVT (n : Nat) : Nat := rgnPage n 9 + 0x608
def VOTE_EVT.RETIRED : Fld := ⟨0, 1⟩
def VOTE_EVT.NO_MAJORITY : Fld := ⟨1, 1⟩
def VOTE_EVT.DISAGREE2 : Fld := ⟨2, 1⟩
def VOTE_EVT.VITAL_DOWN : Fld := ⟨3, 1⟩
def VOTE_EVT.TEST_FAIL : Fld := ⟨4, 1⟩
def VOTE_EVT.OVERRUN : Fld := ⟨5, 1⟩
def VOTE_EVT_EN (n : Nat) : Nat := rgnPage n 9 + 0x60C
def VOTE_EVT_EN.EN : Fld := ⟨0, 6⟩
def VOTE_LAST (n : Nat) : Nat := rgnPage n 9 + 0x610
def VOTE_LAST.ODD : Fld := ⟨0, 3⟩
def VOTE_LAST.KIND : Fld := ⟨3, 2⟩
def VOTE_LAST.FIELDS : Fld := ⟨16, 6⟩
def VOTE_RELEASED (n : Nat) : Nat := rgnPage n 9 + 0x640
def VOTE_ODD_A (n : Nat) : Nat := rgnPage n 9 + 0x644
def VOTE_ODD_B (n : Nat) : Nat := rgnPage n 9 + 0x648
def VOTE_ODD_C (n : Nat) : Nat := rgnPage n 9 + 0x64C
def VOTE_NO_MAJORITY (n : Nat) : Nat := rgnPage n 9 + 0x650
def VOTE_DISAGREE2 (n : Nat) : Nat := rgnPage n 9 + 0x654
def VOTE_OVERRUN (n : Nat) : Nat := rgnPage n 9 + 0x658
def VOTE_DOWN_DROP (n : Nat) : Nat := rgnPage n 9 + 0x65C
def ACC_CFG (n : Nat) : Nat := rgnPage n 9 + 0x800
def ACC_CFG.GAP_MS : Fld := ⟨0, 16⟩
def ACC_CFG.RETRY_US : Fld := ⟨16, 10⟩
def ACC_CFG.REPLAY_LOG : Fld := ⟨26, 1⟩
def ACC_STAT (n : Nat) : Nat := rgnPage n 9 + 0x804
def ACC_STAT.READY : Fld := ⟨0, 1⟩
def ACC_STAT.REPLAY : Fld := ⟨1, 1⟩
def ACC_STAT.GUARDING : Fld := ⟨2, 1⟩
def ACC_STAT.JBANKS : Fld := ⟨3, 5⟩
def ACC_STAT.GUARDED : Fld := ⟨8, 8⟩
def ACC_JRNL (n : Nat) : Nat := rgnPage n 9 + 0x808
def ACC_JRNL.USED : Fld := ⟨0, 17⟩
def ACC_JRNL_PEAK (n : Nat) : Nat := rgnPage n 9 + 0x80C
def ACC_JRNL_PEAK.PEAK : Fld := ⟨0, 17⟩
def ACC_STORE (n : Nat) : Nat := rgnPage n 9 + 0x818
def ACC_STORE.HELD : Fld := ⟨0, 15⟩
def ACC_EVT (n : Nat) : Nat := rgnPage n 9 + 0x810
def ACC_EVT.JRNL_FULL : Fld := ⟨0, 1⟩
def ACC_EVT.LOST : Fld := ⟨1, 1⟩
def ACC_EVT.GAP_SKIP : Fld := ⟨2, 1⟩
def ACC_EVT.WINDOW : Fld := ⟨3, 1⟩
def ACC_EVT.LANE_FAULT : Fld := ⟨4, 1⟩
def ACC_EVT.JRNL_LOST : Fld := ⟨5, 1⟩
def ACC_EVT.STORE_FULL : Fld := ⟨6, 1⟩
def ACC_EVT_EN (n : Nat) : Nat := rgnPage n 9 + 0x814
def ACC_EVT_EN.EN : Fld := ⟨0, 7⟩
def ACC_ACCEPTED (n : Nat) : Nat := rgnPage n 9 + 0x840
def ACC_JRNL_FULL (n : Nat) : Nat := rgnPage n 9 + 0x844
def ACC_RETIRE_TX (n : Nat) : Nat := rgnPage n 9 + 0x848
def ACC_RETIRE_DONE (n : Nat) : Nat := rgnPage n 9 + 0x84C
def ACC_RETIRE_UNDELIV (n : Nat) : Nat := rgnPage n 9 + 0x850
def ACC_RETIRE_ELIM (n : Nat) : Nat := rgnPage n 9 + 0x854
def ACC_RETIRE_INST (n : Nat) : Nat := rgnPage n 9 + 0x858
def ACC_RETIRE_PASSED (n : Nat) : Nat := rgnPage n 9 + 0x85C
def ACC_LOST (n : Nat) : Nat := rgnPage n 9 + 0x860
def ACC_REPLAYED (n : Nat) : Nat := rgnPage n 9 + 0x864
def ACC_RETRY (n : Nat) : Nat := rgnPage n 9 + 0x868
def ACC_DUP_DISCARD (n : Nat) : Nat := rgnPage n 9 + 0x86C
def ACC_GAP_HELD (n : Nat) : Nat := rgnPage n 9 + 0x870
def ACC_GAP_SKIP (n : Nat) : Nat := rgnPage n 9 + 0x874
def ACC_CPL_MISMATCH (n : Nat) : Nat := rgnPage n 9 + 0x878
def ACC_NACK_LOST (n : Nat) : Nat := rgnPage n 9 + 0x87C
def TSK_CFG (n : Nat) : Nat := rgnPage n 9 + 0xA00
def TSK_CFG.WDOG_US : Fld := ⟨0, 16⟩
def TSK_STAT (n : Nat) : Nat := rgnPage n 9 + 0xA04
def TSK_STAT.POOL_USED : Fld := ⟨0, 15⟩
def TSK_STAT.REORDER_HELD : Fld := ⟨16, 15⟩
def TSK_CMD (n : Nat) : Nat := rgnPage n 9 + 0xA08
def TSK_CMD.QUEUE : Fld := ⟨0, 8⟩
def TSK_CMD.OP : Fld := ⟨8, 2⟩
def TSK_ENQUEUED (n : Nat) : Nat := rgnPage n 9 + 0xA10
def TSK_DISPATCHED (n : Nat) : Nat := rgnPage n 9 + 0xA14
def TSK_COMPLETED (n : Nat) : Nat := rgnPage n 9 + 0xA18
def TSK_DROP_FULL (n : Nat) : Nat := rgnPage n 9 + 0xA1C
def TSK_CANCELLED (n : Nat) : Nat := rgnPage n 9 + 0xA20
def TSK_ABORTED (n : Nat) : Nat := rgnPage n 9 + 0xA24
def TSK_REDISPATCHED (n : Nat) : Nat := rgnPage n 9 + 0xA28
def TSK_RESTART_DROP (n : Nat) : Nat := rgnPage n 9 + 0xA2C
def TSK_SHED_DROP (n : Nat) : Nat := rgnPage n 9 + 0xA30
def TSK_REORDER_WAIT (n : Nat) : Nat := rgnPage n 9 + 0xA34
def PIPE_SLOT_RETIRED (n : Nat) : Nat := rgnPage n 9 + 0xC00
def PIPE_SLOT_WASTED (n : Nat) : Nat := rgnPage n 9 + 0xC04
def PIPE_SLOT_FRONT (n : Nat) : Nat := rgnPage n 9 + 0xC08
def PIPE_SLOT_BACK (n : Nat) : Nat := rgnPage n 9 + 0xC0C
def HST_CFG (n : Nat) : Nat := rgnPage n 10 + 0x0
def HST_CFG.MODE : Fld := ⟨0, 2⟩
def HST_CFG.COUNT : Fld := ⟨2, 7⟩
def HST_CFG.MASTER : Fld := ⟨9, 1⟩
def HST_STAT (n : Nat) : Nat := rgnPage n 10 + 0x4
def HST_STAT.READY : Fld := ⟨0, 1⟩
def HST_STAT.LINK_UP : Fld := ⟨1, 1⟩
def HST_STAT.SPEED : Fld := ⟨2, 3⟩
def HST_STAT.WIDTH : Fld := ⟨5, 3⟩
def HST_STAT.VF_ENABLE : Fld := ⟨8, 1⟩
def HST_STAT.NUM_VFS : Fld := ⟨9, 7⟩
def HST_STAT.PASID_EN : Fld := ⟨16, 1⟩
def HST_STAT.RESTART : Fld := ⟨17, 1⟩
def HST_STAT.SHED : Fld := ⟨18, 1⟩
def HST_EVT (n : Nat) : Nat := rgnPage n 10 + 0x8
def HST_EVT.LINK_DOWN : Fld := ⟨0, 1⟩
def HST_EVT.LINK_UP : Fld := ⟨1, 1⟩
def HST_EVT.PORT_RESET : Fld := ⟨2, 1⟩
def HST_EVT.DMA_ERR : Fld := ⟨3, 1⟩
def HST_EVT.ETH_LINK_UP : Fld := ⟨4, 1⟩
def HST_EVT.ETH_LINK_DOWN : Fld := ⟨5, 1⟩
def HST_EVT_EN (n : Nat) : Nat := rgnPage n 10 + 0xC
def HST_EVT_EN.EN : Fld := ⟨0, 6⟩
def HST_ETH_CFG (n : Nat) : Nat := rgnPage n 10 + 0x10
def HST_ETH_CFG.FEC : Fld := ⟨0, 1⟩
def HST_TIMING (n : Nat) : Nat := rgnPage n 10 + 0x14
def HST_TIMING.RX_WAIT_US : Fld := ⟨0, 16⟩
def HST_TIMING.TS_WAIT_US : Fld := ⟨16, 16⟩
def HST_CFG_RETRY (n : Nat) : Nat := rgnPage n 10 + 0x100
def HST_RX_NOMATCH (n : Nat) : Nat := rgnPage n 10 + 0x104
def HST_TX_SPOOF (n : Nat) : Nat := rgnPage n 10 + 0x108
def HST_STALE_CPL (n : Nat) : Nat := rgnPage n 10 + 0x10C
def HST_INST_RESETS (n : Nat) : Nat := rgnPage n 10 + 0x110
def HST_DMA_ERR (n : Nat) : Nat := rgnPage n 10 + 0x114
def HST_RESET_DROP (n : Nat) : Nat := rgnPage n 10 + 0x118
def HST_NOTREADY_DISCARD (n : Nat) : Nat := rgnPage n 10 + 0x11C
def INSTE_MAC_LO (n i j : Nat) : Nat := rgnPage n 10 + 0x400 + 0x40 * i + 0x8 * j
def INSTE_MAC_LO.ADDR : Fld := ⟨0, 32⟩
def INSTE_MAC_HI (n i j : Nat) : Nat := rgnPage n 10 + 0x404 + 0x40 * i + 0x8 * j
def INSTE_MAC_HI.ADDR : Fld := ⟨0, 16⟩
def INSTE_MAC_HI.VALID : Fld := ⟨16, 1⟩
def INSTE_FILT (n i : Nat) : Nat := rgnPage n 10 + 0x420 + 0x40 * i
def INSTE_FILT.BCAST : Fld := ⟨0, 1⟩
def INSTE_FILT.ALLMULTI : Fld := ⟨1, 1⟩
def INSTE_FILT.PROMISC : Fld := ⟨2, 1⟩
def INSTE_FILT.SA_CHECK : Fld := ⟨3, 1⟩
def INSTE_GRANT (n i : Nat) : Nat := rgnPage n 10 + 0x424 + 0x40 * i
def INSTE_GRANT.CNT : Fld := ⟨0, 1⟩
def INSTE_GRANT.DIRECT : Fld := ⟨1, 1⟩
def INSTE_GRANT.MSG : Fld := ⟨2, 1⟩
def INSTE_PASID (n i : Nat) : Nat := rgnPage n 10 + 0x428 + 0x40 * i
def INSTE_PASID.PASID : Fld := ⟨0, 20⟩
def INSTE_PASID.EN : Fld := ⟨20, 1⟩
def INSTE_MSGQ (n i : Nat) : Nat := rgnPage n 10 + 0x42C + 0x40 * i
def INSTE_MSGQ.QUEUE : Fld := ⟨0, 8⟩
def INST_ID (n i : Nat) : Nat := instPage n i + 0x0
def INST_ID.INSTANCE : Fld := ⟨0, 6⟩
def INST_ID.PORT : Fld := ⟨6, 2⟩
def INST_ID.MODE : Fld := ⟨8, 2⟩
def INST_ID.QP : Fld := ⟨10, 4⟩
def INST_CTL (n i : Nat) : Nat := instPage n i + 0x4
def INST_CTL.RESET : Fld := ⟨0, 1⟩
def INST_STAT (n i : Nat) : Nat := instPage n i + 0x8
def INST_STAT.STATE : Fld := ⟨0, 2⟩
def INST_STAT.MSG_BUSY : Fld := ⟨2, 1⟩
def INST_STAT.ERR_CAUSE : Fld := ⟨4, 4⟩
def INST_STAT.GEN : Fld := ⟨8, 8⟩
def INST_STAT.CNT_GRANT : Fld := ⟨16, 1⟩
def INST_EVT (n i : Nat) : Nat := instPage n i + 0xC
def INST_EVT.RESET_DONE : Fld := ⟨0, 1⟩
def INST_EVT.DMA_ERR : Fld := ⟨1, 1⟩
def INST_EVT.DESC_ERR : Fld := ⟨2, 1⟩
def INST_EVT.RESUMED : Fld := ⟨3, 1⟩
def INST_EVT_EN (n i : Nat) : Nat := instPage n i + 0x10
def INST_EVT_EN.EN : Fld := ⟨0, 4⟩
def INST_RX_QMAP (n i : Nat) : Nat := instPage n i + 0x14
def INST_RX_QMAP.QP (i : Nat) : Fld := ⟨3 * i, 3⟩
def INST_MSG (n i j : Nat) : Nat := instPage n i + 0x20 + 0x4 * j
def INST_MSG.BODY : Fld := ⟨0, 32⟩
def INST_MSG_CMD (n i : Nat) : Nat := instPage n i + 0x30
def INST_MSG_CMD.SEND : Fld := ⟨0, 1⟩
def INST_STALE_CPL (n i : Nat) : Nat := instPage n i + 0x40
def INST_DMA_ERR (n i : Nat) : Nat := instPage n i + 0x44
def INST_DESC_ERR (n i : Nat) : Nat := instPage n i + 0x48
def INST_MSG_REFUSED (n i : Nat) : Nat := instPage n i + 0x4C
def TXQ_BASE_LO (n i j : Nat) : Nat := instPage n i + 0x100 + 0x40 * j
def TXQ_BASE_LO.BASE : Fld := ⟨6, 26⟩
def TXQ_BASE_HI (n i j : Nat) : Nat := instPage n i + 0x104 + 0x40 * j
def TXQ_BASE_HI.BASE : Fld := ⟨0, 32⟩
def TXQ_CFG (n i j : Nat) : Nat := instPage n i + 0x108 + 0x40 * j
def TXQ_CFG.SIZE : Fld := ⟨0, 4⟩
def TXQ_CFG.EN : Fld := ⟨4, 1⟩
def TXQ_TAIL (n i j : Nat) : Nat := instPage n i + 0x10C + 0x40 * j
def TXQ_TAIL.TAIL : Fld := ⟨0, 12⟩
def TXQ_HEAD (n i j : Nat) : Nat := instPage n i + 0x110 + 0x40 * j
def TXQ_HEAD.HEAD : Fld := ⟨0, 12⟩
def RXQ_BASE_LO (n i j : Nat) : Nat := instPage n i + 0x114 + 0x40 * j
def RXQ_BASE_LO.BASE : Fld := ⟨6, 26⟩
def RXQ_BASE_HI (n i j : Nat) : Nat := instPage n i + 0x118 + 0x40 * j
def RXQ_BASE_HI.BASE : Fld := ⟨0, 32⟩
def RXQ_CFG (n i j : Nat) : Nat := instPage n i + 0x11C + 0x40 * j
def RXQ_CFG.SIZE : Fld := ⟨0, 4⟩
def RXQ_CFG.EN : Fld := ⟨4, 1⟩
def RXQ_CFG.BUF : Fld := ⟨8, 6⟩
def RXQ_TAIL (n i j : Nat) : Nat := instPage n i + 0x120 + 0x40 * j
def RXQ_TAIL.TAIL : Fld := ⟨0, 12⟩
def RXQ_HEAD (n i j : Nat) : Nat := instPage n i + 0x124 + 0x40 * j
def RXQ_HEAD.HEAD : Fld := ⟨0, 12⟩
def QP_IRQ (n i j : Nat) : Nat := instPage n i + 0x128 + 0x40 * j
def QP_IRQ.USEC : Fld := ⟨0, 10⟩
def QP_IRQ.COUNT : Fld := ⟨10, 8⟩
def QP_IRQ.EN : Fld := ⟨18, 1⟩
def QP_RX_FRAMES (n i j : Nat) : Nat := instPage n i + 0x300 + 0x20 * j
def QP_RX_BYTES (n i j : Nat) : Nat := instPage n i + 0x304 + 0x20 * j
def QP_RX_NODESC_DROP (n i j : Nat) : Nat := instPage n i + 0x308 + 0x20 * j
def QP_TX_FRAMES (n i j : Nat) : Nat := instPage n i + 0x30C + 0x20 * j
def QP_TX_BYTES (n i j : Nat) : Nat := instPage n i + 0x310 + 0x20 * j
def QP_TX_DISCARDED (n i j : Nat) : Nat := instPage n i + 0x314 + 0x20 * j
def SCH_PORT (n i : Nat) : Nat := spWord 69 n + 0x0 + 0x100 * i
def SCH_PORT.OVHD : Fld := ⟨0, 8⟩
def SCH_PORT.GUARD_EN : Fld := ⟨8, 1⟩
def SCH_PORT.CB_ENCODE : Fld := ⟨9, 1⟩
def SCH_PORT.CB_DECODE : Fld := ⟨10, 1⟩
def SCH_PSHAPE (n i : Nat) : Nat := spWord 69 n + 0x4 + 0x100 * i
def SCH_PSHAPE.RATE : Fld := ⟨0, 22⟩
def SCH_PBURST (n i : Nat) : Nat := spWord 69 n + 0x8 + 0x100 * i
def SCH_PBURST.BURST : Fld := ⟨0, 16⟩
def SCH_FLUSH (n i : Nat) : Nat := spWord 69 n + 0xC + 0x100 * i
def SCH_FLUSH.QUEUES : Fld := ⟨0, 8⟩
def SCH_CQMAP (n i : Nat) : Nat := spWord 69 n + 0x10 + 0x100 * i
def SCH_CQMAP.QUEUE (i : Nat) : Fld := ⟨3 * i, 3⟩
def SCH_PSTAT (n i : Nat) : Nat := spWord 69 n + 0x14 + 0x100 * i
def SCH_PSTAT.NONEMPTY : Fld := ⟨0, 8⟩
def SCH_PSTAT.GATES : Fld := ⟨8, 8⟩
def SCH_PSTAT.ELIGIBLE : Fld := ⟨16, 8⟩
def SCH_PSTAT.RUNNING : Fld := ⟨24, 1⟩
def SCH_PSTAT.BANK : Fld := ⟨25, 1⟩
def SCH_PSTAT.ARMED : Fld := ⟨26, 1⟩
def SCH_PSTAT.BADCFG : Fld := ⟨27, 1⟩
def SCH_PSTAT.HELD : Fld := ⟨28, 1⟩
def G_CTRL (n i : Nat) : Nat := spWord 69 n + 0x18 + 0x100 * i
def G_CTRL.EN : Fld := ⟨0, 1⟩
def G_CTRL.AXIS : Fld := ⟨1, 3⟩
def G_CTRL.ARM : Fld := ⟨4, 1⟩
def G_CTRL.IDLE : Fld := ⟨8, 8⟩
def Q_RATE (n i j : Nat) : Nat := spWord 69 n + 0x20 + 0x100 * i + 0x10 * j
def Q_RATE.RATE : Fld := ⟨0, 22⟩
def Q_PARAM (n i j : Nat) : Nat := spWord 69 n + 0x24 + 0x100 * i + 0x10 * j
def Q_PARAM.BURST : Fld := ⟨0, 16⟩
def Q_PARAM.WEIGHT : Fld := ⟨16, 8⟩
def Q_ECN (n i j : Nat) : Nat := spWord 69 n + 0x28 + 0x100 * i + 0x10 * j
def Q_ECN.TH_KIB : Fld := ⟨0, 16⟩
def Q_ECN.EN : Fld := ⟨16, 1⟩
def Q_STAT (n i j : Nat) : Nat := spWord 69 n + 0x2C + 0x100 * i + 0x10 * j
def Q_STAT.FENCED : Fld := ⟨0, 1⟩
def Q_STAT.WAIT_RETURN : Fld := ⟨1, 1⟩
def Q_STAT.SHAPED : Fld := ⟨2, 1⟩
def Q_STAT.ACTIVE : Fld := ⟨3, 1⟩
def GT_BASE (n i j : Nat) : Nat := spWord 70 n + 0x0 + 0x800 * i + 0x400 * j
def GT_BASE.VALUE : Fld := ⟨0, 32⟩
def GT_CYCLE (n i j : Nat) : Nat := spWord 70 n + 0x4 + 0x800 * i + 0x400 * j
def GT_CYCLE.UNITS : Fld := ⟨0, 32⟩
def GT_LEN (n i j : Nat) : Nat := spWord 70 n + 0x8 + 0x800 * i + 0x400 * j
def GT_LEN.ENTRIES : Fld := ⟨0, 7⟩
def GT_DUR (n i j e : Nat) : Nat := spWord 70 n + 0x100 + 0x800 * i + 0x400 * j + 0x8 * e
def GT_DUR.UNITS : Fld := ⟨0, 32⟩
def GT_GATES (n i j e : Nat) : Nat := spWord 70 n + 0x104 + 0x800 * i + 0x400 * j + 0x8 * e
def GT_GATES.OPEN : Fld := ⟨0, 8⟩

end Sys2Proof.Machine.R
end

