-- ==== Sys2Proof/Machine/Flags.lean ====
section
/-! DEFINITION. Bit fields of words and numbers (R15), serial comparison, sign extension, byte order: the helpers every
unit uses. -/

namespace Sys2Proof

/-- The value of a field of a word. -/
def Fld.get (f : Fld) (w : Word) : Nat := w.toNat / 2 ^ f.lo % 2 ^ f.width

/-- The word with a field replaced by the low bits of a number. -/
def Fld.put (f : Fld) (w : Word) (v : Nat) : Word :=
  BitVec.ofNat 32 (w.toNat - f.get w * 2 ^ f.lo + v % 2 ^ f.width * 2 ^ f.lo)

end Sys2Proof

namespace Sys2Proof.Machine

/-- Bits [lo+width-1:lo] of a number. -/
def bits (n lo width : Nat) : Nat := n / 2 ^ lo % 2 ^ width

/-- A truth value as a bit. -/
def b2n (b : Bool) : Nat := if b then 1 else 0

/-- A number with bit i set or cleared. -/
def setBit (n i : Nat) (b : Bool) : Nat :=
  if n.testBit i then (if b then n else n - 2 ^ i) else (if b then n + 2 ^ i else n)

/-- Two's complement reading of the low `w` bits. -/
def signed (w n : Nat) : Int :=
  let m := n % 2 ^ w
  if m < 2 ^ (w - 1) then (m : Int) else (m : Int) - (2 ^ w : Nat)

/-- An integer modulo 2^w. -/
def wrapTo (w : Nat) (i : Int) : Nat := (i % (2 ^ w : Nat)).toNat

/-- seq_after of chapter 0: a is later than b in serial arithmetic of w bits. -/
def seqAfter (w a b : Nat) : Bool :=
  let d := (a + 2 ^ w - b % 2 ^ w) % 2 ^ w
  d != 0 && decide (d < 2 ^ (w - 1))

/-- The number of ones among the low `n` bits. -/
def popCount (n v : Nat) : Nat := ((List.range n).filter (fun i => v.testBit i)).length

/-- Byte k of a list, zero beyond its end. -/
def byteAt (l : List Byte) (k : Nat) : Nat := (l.getD k 0).toNat

/-- Big-endian number of n bytes from position k (R15: multi-byte values in frames). -/
def beAt (l : List Byte) (k n : Nat) : Nat :=
  (List.range n).foldl (fun acc i => acc * 256 + byteAt l (k + i)) 0

/-- Little-endian number of n bytes from position k (R15: multi-byte values in registers and images). -/
def leAt (l : List Byte) (k n : Nat) : Nat :=
  (List.range n).foldr (fun i acc => acc * 256 + byteAt l (k + i)) 0

/-- n bytes, little-endian. -/
def leBytes (n v : Nat) : List Byte := (List.range n).map (fun i => BitVec.ofNat 8 (v / 256 ^ i))

/-- n bytes, big-endian. -/
def beBytes (n v : Nat) : List Byte := (leBytes n v).reverse

/-- Replace element k of a list (no change beyond its end). -/
def setAt {α : Type} (l : List α) (k : Nat) (v : α) : List α := l.set k v

/-- Change element k of a list. -/
def modAt {α : Type} (l : List α) (k : Nat) (g : α → α) : List α := l.modify k g

/-- One step of the reflected CRC-32 of polynomial `poly` over the bits of a byte already folded in. -/
def crcBits (poly : Nat) : Nat → Nat → Nat
  | 0, c => c
  | k + 1, c => crcBits poly k (if c % 2 = 1 then (c / 2) ^^^ poly else c / 2)

/-- CRC over bytes, reflected, initial value all ones, final complement: CRC-32C with 0x82F63B78 (Castagnoli), the
Ethernet FCS with 0xEDB88320. -/
def crc32 (poly : Nat) (l : List Byte) : Nat :=
  (l.foldl (fun c b => crcBits poly 8 (c ^^^ b.toNat)) 0xFFFFFFFF) ^^^ 0xFFFFFFFF

/-- CRC-32C (R74, R621). -/
def crc32c (l : List Byte) : Nat := crc32 0x82F63B78 l

/-- The Ethernet frame check sequence. -/
def fcs32 (l : List Byte) : Nat := crc32 0xEDB88320 l

end Sys2Proof.Machine
end

