-- ==== Sys2Proof/Config.lean ====
section
/-! DEFINITION. What an implementation fixes and the spec leaves open: the free values. A constant here has no body, so
no proof can see its value. -/

namespace Sys2Proof.Config

/-- The free values of the model: values the spec leaves undefined after a step that goes on. The n-th free value the
machine has drawn is `freeValue n` (the counter is State's own field `free`). -/
opaque freeValue : Nat → BitVec 32

/-- Undefined memory contents: word w of memory m (a memory the spec says holds undefined data). -/
opaque undefinedWord : Nat → Nat → BitVec 32

/-- Free truth values: the n-th yes-or-no outcome the spec leaves open. -/
opaque freeBool : Nat → Bool

/-- The status word of a TXDONE task (Table 11-3), by whether the frame was sent with an error (R144): the spec gives no codes. -/
opaque txStatus : Bool → BitVec 32

/-- Drahan's PCI vendor identifier (R522), which the spec does not give. -/
opaque pciVendor : BitVec 16

end Sys2Proof.Config
end

