-- ==== Sys2Proof/Machine/PartsBase.lean ====
section
/-! DEFINITION. The data the block's state is made of, part 1: sparse maps, chip state, timers, event log, restart
histories, time bases and axes. Plain data throughout. -/

namespace Sys2Proof.Machine

/-- A sparse map from numbers to values. An unlisted key holds its default; the canonical form lists keys in rising
order and never lists a default (`Map.wf` in Machine/Ops.lean). -/
abbrev NMap (α : Type) := List (Nat × α)

/-- Chip states of Table 0-5 (R5). -/
inductive ChipState where
  | off | startCold | startWarm | service | recovery | test
  | shed1 | shed2 | shed3 | shed4 | shed5 | held
deriving DecidableEq, Repr

/-- What runs against the core clock: one kind per limit the spec sets. -/
inductive TimerKind where
  | containedBound | regionBound | relayoutDrain | holdUp | holdDown | i2cStretch | tbWatch | odoStill | schedGap
  | learnHold | holdMax | recoveryReset | dramRefresh | dramTemp | dramZq | dramPowerDown | dramSelfRefresh
  | dramTracking | dramRead | gapSkip | retry | taskWatchdog | supWatchdog | strikeClear | disagreeClear
  | abdGap | abdSilence | keepalive | helloResend | renew | ownLease | view | claimResend | compatStatus
  | compatActive | compatDual | compatYield | resetSafe | dmaTimeout | tsWait | rxWait | msixModeration | startLimit
  | failClear | sagLadder | shedDwell | heldExit | dumpMax | indWait
deriving DecidableEq, Repr

/-- A timer: its kind and the unit it belongs to. -/
structure TimerId where
  kind : TimerKind
  a : Nat
  b : Nat
deriving DecidableEq, Repr

/-- One entry of the chip event log (Table 15-5). -/
structure LogEntry where
  code : Nat
  state : ChipState
  region : Nat
  block : Nat
  tbValid : Bool
  seq : Nat
  time : Nat
  data : Nat
deriving DecidableEq, Repr

/-- An entry raised and not yet in the log (R618): its fields, and the clock in which it arose. -/
structure LogItem where
  code : Nat
  region : Nat
  block : Nat
  data : Nat
  clock : Nat
deriving DecidableEq, Repr

/-- The chip event log (R616 to R620): entries oldest first, the intake and the next SEQ. -/
structure EventLog where
  entries : List LogEntry
  intake : List LogItem
  nextSeq : Nat
deriving DecidableEq, Repr

/-- What the escalation rules remember: contained restarts per block with their clocks (R52), region-fatal events per
region with their clocks (R53), the last CORRECTED entry per block and the events suppressed since (R595). Block keys are
16 n + k for block k of region n. -/
structure ErrHistory where
  contained : List (Nat × Nat)
  regionFatal : List (Nat × Nat)
  corrLast : NMap Nat
  corrSuppressed : NMap Nat
deriving DecidableEq, Repr

/-- A time base (R168): NS.FRAC as one 64-bit number of 2^-32 ns, and the nanoseconds it has advanced in all, which the
positions of its users follow (R192). -/
structure TimeBase where
  value : Nat
  acc : Int
deriving DecidableEq, Repr

/-- The MAINS axis (R181 to R188): units advanced in all, progress within the unit (in 65,536ths of PERIOD), whether
the axis holds at phase 65,535 and for how long, the last edge, the last usable intervals (newest first), the pending
PERIOD, the consecutive misses, and whether the next cycle begins in the following clock (R183). -/
structure Mains where
  acc : Int
  value : Nat
  progress : Nat
  holding : Bool
  lastEdge : Option Nat
  lastCycleEdge : Option Nat
  intervals : List Nat
  nextPeriod : Nat
  misses : Nat
  beginNext : Bool
deriving DecidableEq, Repr

/-- The odometer (R189 to R191): net pulses in all, which its users follow, and the 32-bit position. -/
structure Odo where
  acc : Int
  value : Nat
deriving DecidableEq, Repr

/-- A pulse generator (R200) or schedule slot (R205): the axis reading its position counts from; whether the axis has
reached PO_START; whether the output is active or the window open by position; whether a fallback window is open and the
targets still owed a unit of work in it (R207); and the clock of its last opening or of its enabling. -/
structure AxisUser where
  origin : Int
  started : Bool
  active : Bool
  fallback : Bool
  owed : Nat
  gapFrom : Nat
deriving DecidableEq, Repr

/-- One capture (R202). -/
structure CaptureEntry where
  tb : List Nat
  mains : Nat
  odo : Nat
  rising : Bool
deriving DecidableEq, Repr

/-- A write that waits for the time page, which takes one in a clock (R175): the clock it arrived in, its master's place in the
order, its register and its word. -/
structure TimeWrite where
  clock : Nat
  rank : Nat
  addr : Nat
  value : Word
deriving DecidableEq, Repr

/-- The time page's state behind its registers; `counting` says that the fuse-read step has begun (R180), `lastSnap` is the
clock of the last snapshot (R612), `writes` the writes that wait (R175), `pins` the levels of PULSE_OUT (R200), `passes` the
channels for which a kind 2 window has just opened (R205). -/
structure TimePart where
  counting : Bool
  lastSnap : Option Nat
  tb : NMap TimeBase
  mains : Mains
  odo : Odo
  pulse : NMap AxisUser
  slot : NMap AxisUser
  capture : NMap (List CaptureEntry)
  writes : List TimeWrite
  pins : Nat
  passes : Nat
deriving DecidableEq, Repr

/-- An access to the indirect pair that waits for BUSY to clear (R659): a write of IND_CTL, IND_ADDR or IND_DATA, or a read of
IND_DATA with, for one that came over the Floor, the source, tag and generation its answer repeats. -/
inductive IndAccess where
  | ctl (v : Word) | addr (v : Word) | write (v : Word) | read (reply : Option (Nat × Nat × Nat))
deriving DecidableEq, Repr

/-- One master's context of the indirect pair (R654): its registers, the read buffer, whether a prefetch (`fetching`) or a
write of a word (`writing`) is in progress, and the accesses that wait on BUSY (R659), in the order they arrived. -/
structure IndContext where
  ctl : Word
  addr : Word
  buffer : Word
  busy : Bool
  fetching : Bool
  writing : Option Word
  overrun : Bool
  early : Bool
  waiting : List IndAccess
deriving DecidableEq, Repr

/-- A snapshot buffer (Table 15-3). -/
structure Snapshot where
  tb : List Nat
  mains : Nat
  odo : Nat
  number : Nat
  cells : List (Nat × Nat)
deriving DecidableEq, Repr

/-- The maintenance UART's FIFOs (R633), oldest byte first, and the byte on its way out. -/
structure Uart where
  rx : List Byte
  tx : List Byte
  sending : Option Byte
deriving DecidableEq, Repr

/-- A section of the fatal dump (Table 15-8): its TYPE, its words and whether it is complete. -/
structure DumpSection where
  type : Nat
  words : List Word
  complete : Bool
deriving DecidableEq, Repr

/-- The fatal dump (Table 15-7): the header's fields and the sections written; `since` is the clock of the entry into RECOVERY,
`failStep` the step of a start that the event ended (R602), `area` the words of the on-chip retention area. -/
structure Dump where
  active : Bool
  since : Nat
  duringStart : Bool
  seq : Nat
  cause : Nat
  prevState : ChipState
  onChip : Bool
  complete : Bool
  cold : Bool
  rom : Bool
  truncated : Bool
  second : Bool
  length : Nat
  errUnit : Nat
  errAddr : Nat
  imageSeq : Nat
  chipTag : Nat
  rgnTag : List Nat
  gen : Word
  tb : List Nat
  tbValid : Nat
  mains : Nat
  odo : Nat
  strStat : Word
  dumpUs : Nat
  failStep : Nat
  sections : List DumpSection
  area : List Word
deriving DecidableEq, Repr

/-- An error detected in this clock and not yet handled (R593): its severity with its unit, and the DATA its record carries; a
corrected one names the word to correct, if it is one of a memory. The errors of one clock are handled together as it ends
(R9; Machine/Settle.lean). -/
inductive Raised where
  | corrected (n k : Nat) (word : Option Nat)
  | contained (n k cell addr : Nat)
  | regionFatal (n cell addr : Nat)
  | chipFatal (cause unit addr : Nat)
deriving DecidableEq, Repr

/-- A cause for a change of the chip state that arose in this clock and is ranked as the clock ends (R6): a stage entered, a
stage left for, and TEST with whether balls may be driven. -/
inductive Cause where
  | deeper (stage : Nat)
  | shallower (stage : Nat)
  | test (drives : Bool)
deriving DecidableEq, Repr

/-- An update of the Granary that takes its turn among those of its clock (R307): the next decision charge and the next commit of a
region, the landing charge of a frame, the next return from bales of a region. -/
inductive GranaryTurn where
  | decision (n : Nat)
  | commit (n : Nat)
  | landing (id : Nat)
  | ret (n : Nat)
deriving DecidableEq, Repr

/-- What comes to the lease in a clock and applies at its end (R512): the expiry of the view or of the own lease, the link's silence or its
last lane's loss, and a CLAIM of a serial number. -/
inductive TwinTurn where
  | view | own | silence | lost
  | claim (serial : Nat)
deriving DecidableEq, Repr

/-- What comes to a PCIe host port in a clock and applies at its end (R531, R534): a reset of an instance, the functions that exist after
an enabling, and the end of a slot's wait for its timestamp. -/
inductive HostTurn where
  | reset (n i : Nat)
  | enable (n : Nat)
  | stampWait (n i q slot : Nat)
deriving DecidableEq, Repr

/-- What this clock holds: the bits that hardware has set (R22) and those of RW and RWL fields that software has written
(R23), each as address and mask, the causes for a change of state that wait for its end (R6), the captures taken by input
(R204), the net pulses the odometer has counted (R190), the Granary's updates that take their turn at its end (R307), the region of
each release applied (R310), the accounts whose MIN was written, by region, source and class (R308), the policers written, by region and
index (R350), the gaps whose limit expires, by egress region and held ENQ (R423), the walks that end (R435), what comes to the lease
(R512), the votes due by region with what changes each channel's record (R492), what comes to the host ports (R534), the instances whose event
vector has sent its message (R549), that have posted a message (R547), and whose reads have completed (R534), by port and
instance, the ports whose shedding marks were written (R587), whether EOI was
written with the chip summary at 1 and whether its message was sent (R604, R605), whether a snapshot falls in it (R612), and the writes of
registers by address and master (R642). -/
structure ClockPart where
  hwSet : List (Nat × Nat)
  swSet : List (Nat × Nat)
  causes : List Cause
  captured : List (Nat × CaptureEntry)
  odoSteps : Int
  granary : List GranaryTurn
  released : List Nat
  minima : List (Nat × Nat × Nat)
  polWrites : List (Nat × Nat)
  gaps : List (Nat × Nat)
  walkEnds : List Nat
  twin : List TwinTurn
  votes : List (Nat × List (Option Nat))
  host : List HostTurn
  vectored : List (Nat × Nat)
  posted : List (Nat × Nat)
  completed : List (Nat × Nat)
  marks : List Nat
  eoi : Bool
  messaged : Bool
  snap : Bool
  writers : List (Nat × Master × Word)
deriving DecidableEq, Repr

/-- The chip state machine's own state: the state (R5), the one before it and the clock of the last change. -/
structure ChipPart where
  state : ChipState
  prev : ChipState
  since : Nat
  recoveryImage : Bool
  testFrom : ChipState
  laneStep : Bool
deriving DecidableEq, Repr

/-- What leaves the block in a clock: the effects a rule puts outside the block's own state. -/
inductive OutEvent where
  | msix (hostPort function entry : Nat)
  | frame (port : Nat) (bytes : List Byte) (fcsGood : Bool)
  | remoteFault (port : Nat) (on : Bool)
  | mdio (block : Nat) (preamble : Bool) (div st op phy reg data : Nat)
  | i2c (block speed addr : Nat) (written : List Byte) (rlen : Nat)
  | abaide (lane : Nat) (type : Nat) (body : List Nat)
  | uart (byte : Byte)
  | hostRead (hostPort inst : Nat) (pasid : Option Nat) (addr len : Nat)
  | hostWrite (hostPort inst : Nat) (pasid : Option Nat) (addr : Nat) (bytes : List Byte)
  | cfgCompletion (hostPort : Nat) (retry : Bool) (value : Nat)
  | readData (master : Nat) (value : Word)
  | silo (channel burst : Nat) (data : Option Nat)
  | pulse (output : Nat) (high : Bool)
deriving DecidableEq, Repr

end Sys2Proof.Machine
end

