-- ==== Sys2Proof/Machine/PartsLoader.lean ====
section
/-! DEFINITION. The data the block's state is made of, part 2: fuses, flash, the retained store and the layout in force
(chapter 2). -/

namespace Sys2Proof.Machine

/-- One fuse key slot (Table 16-8): the twelve hash words, PROGRAMMED and REVOKED. -/
structure KeySlot where
  hash : List Word
  programmed : Bool
  revoked : Bool
deriving DecidableEq, Repr

/-- The fuses: key slots, the 64 security-version fuses, the factory identity (Table 16-10) and the factory calibration
words (addresses 0x200 to 0x3FC of Table 16-8, by word number). -/
structure Fuses where
  keys : List KeySlot
  svn : BitVec 64
  serial : BitVec 64
  rev : Byte
  grade : Byte
  cal : NMap Word
deriving DecidableEq, Repr

/-- What the attached flash declares in its SFDP table (R68, Table 2-2): whether the signature is valid, which of the
modes 1-1-4 and 1-1-2 it declares, the maximum clock it declares in MHz, its density in bytes, its smallest erase unit in
bytes, and the method that its quad-enable requirements field names. -/
structure Sfdp where
  valid : Bool
  mode114 : Bool
  mode112 : Bool
  maxMhz : Nat
  density : Nat
  eraseUnit : Nat
  quadMethod : Nat
deriving DecidableEq, Repr

/-- The layout of one region, from its effective sections (Tables 2-9, 2-10, 2-12). -/
structure RegionLayout where
  pbMode : List Nat
  pbFec : List Nat
  pbLanes : List Nat
  backbone : Nat
  bankOwner : List Nat
  bankIndex : List Nat
  bufMode : Nat
  pools : Nat
  poolGrains : List Nat
  classPool : List Nat
  balesOwn : Nat
  balesMirror : Nat
  instMode : Nat
  instCount : Nat
  qp : List Nat
  engFw : Bool
deriving DecidableEq, Repr

/-- The layout in force, from the chip sections (Table 2-8) and each region's. -/
structure Layout where
  regions : Nat
  silo : Bool
  chMib : List Nat
  masterPort : Nat
  masterInst : Nat
  liveChip : Nat
  liveRgn : List Nat
  guarded : Nat
  held : Nat
  sheddable : Nat
  vitalPort : Nat
  keepEng : List Nat
  rgn : List RegionLayout
deriving DecidableEq, Repr

/-- One slot of the retained store: the bytes read into it and the copy they came from. -/
structure StoreSlot where
  bytes : List Byte
  copy : FlashCopy
deriving DecidableEq, Repr

/-- A flash operation of host software (R663): which of read, program and erase, for which master, its address, its
word, and whether it waits for the loader's read (R73). -/
structure FlashOp where
  kind : Nat
  master : Nat
  addr : Nat
  word : Word
  started : Bool
deriving DecidableEq, Repr

/-- The loader (chapter 2): the retained store with the bit that names the RUNNING slot (false: slot 0), the retained
layout tags, the copies still to be tried at this start, the copy a VERIFY reads, the region a re-layout drains or
restarts, whether the STAGED slot holds an accepted candidate, the flash operations waiting or under way, the read mode in
use, by its command and its clock in MHz (Table 2-2), and the method by which quad enable has been set in the flash (R68). -/
structure LoaderPart where
  slot0 : StoreSlot
  slot1 : StoreSlot
  runningOne : Bool
  chipTag : Word
  rgnTag : List Word
  toTry : List FlashCopy
  reading : Bool
  verifying : Option FlashCopy
  candidate : Bool
  draining : Option Nat
  relaying : Option Nat
  layout : Layout
  applied : Bool
  flashOps : List FlashOp
  readMode : Nat × Nat
  quadSet : Option Nat
deriving DecidableEq, Repr

end Sys2Proof.Machine
end

