-- ==== Sys2Proof/Machine/PartsFrame.lean ====
section
/-! DEFINITION. The data the block's state is made of, part 3: frames on their way through a region (chapters 3, 7, 8, 10):
landing frames, decisions, grains, frame records, accounts, egress queues, spill runs, the admission journal, lanes and
the reorder store. Maps over a region's objects use the key 2^24 x region + number. -/

namespace Sys2Proof.Machine

/-- Where a frame or descriptor came from: a network or Ethernet host port, an instance of a PCIe host port, or an
engine. The account of Table 7-3 follows from it. -/
inductive Origin where
  | port (p : Nat) | host (n inst : Nat) | engine (e : Nat)
deriving DecidableEq, Repr

/-- One target of a frame (Table 6-2): its destination code, the queue the rule or session names, whether it is a mirror
copy, for a guarded frame the journal entry reserved for it, and what the egress side does with the tag (R262: 0 leaves it,
1 removes it, 2 sends the frame tagged). -/
structure Target where
  dest : Nat
  queue : Option Nat
  mirror : Bool
  entry : Option Nat
  tagAct : Nat
deriving DecidableEq, Repr

/-- What the pipeline decided about a frame and carries with it: class and colour, the winning rule's pattern and TAG, the
extracted key and XTRUNC (R231, R232), the network header (R230), destination address, whether a tag stands at bytes 12 to
15, VID and priority (PCP and DEI), whether the policer marks DEI (R370), the stream entry that generates (R371, R372), the stream entry and number that recovery judges (R374), the queue its
rule or SEND names, the targets that remain, and the engine task queue with whether the frame is a redirect (Table 5-4). -/
structure Decision where
  cls : Nat
  colour : Nat
  pattern : Nat
  tag : Nat
  key : List Nat
  xtrunc : Bool
  l3 : Nat
  l3base : Nat
  dscpEcn : Option (Nat × Nat)
  da : List Byte
  outerTag : Bool
  vid : Nat
  prio : Nat
  deiMark : Bool
  generate : Option Nat
  recover : Option (Nat × Nat)
  namedQueue : Option Nat
  targets : List Target
  engineQueue : Option Nat
  redirect : Bool
deriving DecidableEq, Repr

/-- Who asked for a transmit timestamp (R150): a transmit ring's slot of an instance with its generation, or an engine's
SEND (R456), by the task queue that receives the TXDONE task, the TAG it carries and the instance whose task sent it. -/
inductive TsOwner where
  | ring (n inst qp slot gen : Nat)
  | task (n queue tag : Nat) (poster : Option Nat)
deriving DecidableEq, Repr

/-- What returns to the owner of a transmit timestamp: the timestamp, or none where the transmission was cut (R146), and whether
the frame was sent with an error (R144). -/
structure TsNews where
  owner : TsOwner
  stamp : Option Nat
  error : Bool
deriving DecidableEq, Repr

/-- A request for a transmit timestamp: the time base and the owner. -/
structure TsRequest where
  base : Nat
  owner : TsOwner
deriving DecidableEq, Repr

/-- The transmit ring slot that hears of a host frame's acceptance or discard (R539), with the instance generation. -/
structure TxNotice where
  n : Nat
  inst : Nat
  qp : Nat
  slot : Nat
  gen : Nat
deriving DecidableEq, Repr

/-- A decision channel's record for a frame (Table 12-1). -/
structure VoteRecord where
  outcome : Nat
  cause : Nat
  vid : Nat
  targets : Nat
  engQ : Nat
  ichk : Nat
deriving DecidableEq, Repr

/-- Where a landing frame stands on its way to acceptance: no head window offered yet, waiting at the pipeline input, in
the TC6 decision queue, decided, and charged to its class (R304); `gone` is one that the pipeline or a restart has discarded
while its port still receives it: it holds nothing and waits for its one outcome (R137). -/
inductive LandPhase where
  | landing | offered | voting | decided | charged | gone
deriving DecidableEq, Repr

/-- A frame that has begun and is not yet accepted: an entry of the landing table (R302, R332). `need` is the charge in
grains, `waiting` says that the landing charge is not placed (R303), `pool` and `minGr` are the charge in force, of class
`chargeCls`; `cutAt` is the clock of the fault that ended it (R140), `begunAt` that of its first byte, `looped` its bytes where it
comes over the port's own loop, `hash` the group-address filter it was judged by, once that is written (R142); `pre` is its decision and `vote` the record the decision channels compute for a TC6 frame; `direct` the DEST and
QUEUE of a SEND with DIRECT (R456). -/
structure Landing where
  id : Nat
  origin : Origin
  region : Nat
  src : Nat
  readyAtBegin : Bool
  maxLen : Nat
  cutAt : Option Nat
  begunAt : Nat
  looped : Option (List Byte)
  hash : Option (List Word)
  fifoFull : Bool
  stamps : List (Nat × Nat)
  need : Nat
  waiting : Bool
  waitCounted : Bool
  chargeCls : Nat
  pool : Nat
  minGr : Nat
  grains : List Nat
  head : List Byte
  ended : Bool
  bytes : List Byte
  phase : LandPhase
  pre : Option Decision
  vote : Option VoteRecord
  computeFcs : Bool
  tsReq : Option TsRequest
  direct : Option (Nat × Option Nat)
  notice : Option TxNotice
deriving DecidableEq, Repr

/-- A grain: its state bit (R292), link word (Table 7-1), bytes, and whether its memory shows an uncorrectable error. -/
structure Grain where
  held : Bool
  next : Nat
  last : Bool
  headBit : Bool
  data : List Byte
  bad : Bool
deriving DecidableEq, Repr

/-- A frame record (Table 7-2); `entries` says whether the journal owner is among its owners, `forwarded` counts the copies beyond
the first that stand for the engine's owner after FWD (R309). -/
structure FrameRec where
  ref : Nat
  pool : Nat
  grains : Nat
  minGr : Nat
  src : Nat
  cls : Nat
  length : Nat
  gen : Nat
  guarded : Bool
  cong : Bool
  committed : Bool
  entries : Nat
  forwarded : Nat
deriving DecidableEq, Repr

/-- An account (R301): MIN_USED and SHARED_USED. -/
structure Account where
  minUsed : Nat
  shared : Nat
deriving DecidableEq, Repr

/-- A pool's use: grains charged, of which shared. -/
structure PoolUse where
  charged : Nat
  shared : Nat
deriving DecidableEq, Repr

/-- A free ring with its cache (R293, R294), oldest first: the ring holds the numbers of `front`, then every number of the
ring from the `next`-th on, then those of `back`; `fresh` holds what was released in this clock, which enters the cache at its
end (R296). -/
structure FreeRing where
  front : List Nat
  next : Nat
  back : List Nat
  cache : List Nat
  fresh : List Nat
deriving DecidableEq, Repr

/-- Where the bytes of a queued frame are: in grains of the region that owns them, on the way to bales (R322), in bales, or
in grains of the egress region after a return (R323). -/
inductive Tier where
  | grains | spilling | bales | returned
deriving DecidableEq, Repr

/-- A descriptor: in an ENQ, an egress queue, a spill run, a mirror list, the reorder store or a host queue (R414, R417,
Table 7-7). `owner` is the region whose grains hold the frame; `at_` orders a port's frames by arrival; `tx` says that a
READ for it has been served (R313); `data` holds what has arrived of a frame being spilled; `primary` and
`partner` say that the primary write is complete and that the partner has answered (R322); `bales` and `mbales` are the bales
of the own and the mirror range that hold its bytes, `spillAt` and `mirrorAt` where it stands in the two streams, `reread` that
what was asked for it was refused and is to be asked again (R48); `queuedAt` is the clock it entered its queue (R315, R328). -/
structure Descr where
  uid : Nat
  ingress : Nat
  owner : Nat
  head : Nat
  grains : Nat
  length : Nat
  cls : Nat
  guarded : Bool
  cong : Bool
  seq : Nat
  entry : Nat
  gen : Nat
  src : Nat
  origin : Origin
  target : Target
  dec : Decision
  stamps : List (Nat × Nat)
  commitTime : Nat
  computeFcs : Bool
  tsReq : Option TsRequest
  rtag : Option Nat
  sync : Bool
  replay : Bool
  spilledEntry : Bool
  mirrorList : Bool
  tier : Tier
  at_ : Nat
  tx : Bool
  data : List Byte
  primary : Bool
  partner : Bool
  bales : List Nat
  mbales : List Nat
  lateCounted : Bool
  guardCounted : Bool
  lost : Bool
  badA : Bool
  badB : Bool
  queuedAt : Nat
  spillAt : Nat
  mirrorAt : Nat
  reread : Bool
deriving DecidableEq, Repr

/-- An egress queue: its frames in sequence order (R319), its tag and eligibility (R358), its shaper bucket (R359) with the
clock it was brought up to, and the bytes and bales of its run's stream and of the stream's mirror (R318, R322). -/
structure EQueue where
  frames : List Descr
  tag : Nat
  wasEligible : Bool
  bucket : Int
  bucketAt : Nat
  stream : Nat
  chain : List Nat
  mstream : Nat
  mchain : List Nat
deriving DecidableEq, Repr

/-- A port's scheduler state (R358, R359) and the frame its MAC is sending: its queue and identity, the bytes that have
arrived for it, the READs outstanding, whether ECN is to be set to CE (R368), whether a word of it was uncorrectable,
whether its queue's gate closed meanwhile (R367), the next arrival number of the port, the number of the send, which its READs
carry (R146), and the timestamp captured at its start (R150). -/
structure EPort where
  v : Nat
  bucket : Int
  bucketAt : Nat
  sending : Option (Nat × Nat)
  bytes : List Byte
  readsLeft : Nat
  ce : Bool
  bad : Bool
  gateClosed : Bool
  arrivals : Nat
  sends : Nat
  stamp : Option Nat
deriving DecidableEq, Repr

/-- A gate table's run state (R197 to R199, R363): the active bank and the axis reading its position counts from, the
axis reading at which the armed switch takes place, and the gate states last put in force (Table 8-4). -/
structure GateRun where
  active : Option Nat
  origin : Int
  armed : Option Int
  mask : Nat
deriving DecidableEq, Repr

/-- The bales of a channel: the free rings of the own and the mirror range, and bales whose read fails (R326). -/
structure BaleStore where
  own : FreeRing
  mirror : FreeRing
  bad : List Nat
deriving DecidableEq, Repr

/-- A topology hold of a region (R327): whether it runs, since when, whether it releases, and how long the last one lasted. -/
structure Hold where
  active : Bool
  since : Nat
  releasing : Bool
  lasted : Nat
deriving DecidableEq, Repr

/-- A journal entry copy's STATE (Table 10-2). -/
inductive JState where
  | free | reserved | sent | resend | spilled | holding | lost
deriving DecidableEq, Repr

/-- A journal entry (Table 10-2): one content for both copies, whether either copy is uncorrectable, and the descriptor
a replay sends again (R429). -/
structure JEntry where
  state : JState
  cls : Nat
  src : Nat
  head : Nat
  seq : Nat
  dest : Nat
  commitGen : Nat
  length : Nat
  first : Nat
  pending : Nat
  badA : Bool
  badB : Bool
  descr : Option Descr
deriving DecidableEq, Repr

/-- A lane counter of an ingress region (R418) or a lane state of an egress region (R420), with the health of its two
copies; `sync` marks that the lane's next ENQ carries SYNC (R434), `takeNext` that the next ENQ's number is taken (R692). -/
structure Lane where
  next : Nat
  done : Nat
  badA : Bool
  badB : Bool
  sync : Bool
  takeNext : Bool
deriving DecidableEq, Repr

/-- An ENQ held in the reorder store (R422) and the clock it arrived. -/
structure HeldEnq where
  ingress : Nat
  descr : Descr
  since : Nat
deriving DecidableEq, Repr

/-- A replay walk of an ingress region (R430, R431): its scope (a region, or all), whether it has started, the next entry,
the entries that were unretired when it began, the ENQs sent, and whether it is to start again (R432). -/
structure Walk where
  toward : Option Nat
  started : Bool
  index : Nat
  pending : List Nat
  sent : Nat
  again : Bool
deriving DecidableEq, Repr

/-- A frame held for a PCIe host port (R544 to R546): the recipients that have not yet taken or lost it, as instance and
queue pair, the bytes READ for it and the READs outstanding, whether some recipient has taken it, and whether its READs were refused and are to
be issued again (R48). -/
structure HostFrame where
  descr : Descr
  recipients : List (Nat × Nat)
  since : Nat
  bytes : List Byte
  readsLeft : Nat
  handed : Bool
  reread : Bool
deriving DecidableEq, Repr

/-- A policer's buckets (R347): committed and excess in micro-bytes, the clock of the last use, and whether they are to be full when
they are next used: after a start or a restart (R378), or an error in them (R351). -/
structure Policer where
  tc : Nat
  tx : Nat
  last : Nat
  full : Bool
deriving DecidableEq, Repr

/-- Recovery and generation state of a stream entry (R372, R375). -/
structure StreamState where
  genNext : Nat
  last : Nat
  hist : Nat
  takeAny : Bool
  lastAccept : Nat
deriving DecidableEq, Repr

/-- What a READ's data is for (R41): a port's transmission, a frame on its way to bales or to the mirror stream, a frame
handed to a host instance, a register read of a master. -/
inductive SinkUse where
  | port (p send : Nat)
  | spill (q uid : Nat)
  | mirror (q uid : Nat)
  | host (uid : Nat)
  | engineReg (e t rd : Nat)
deriving DecidableEq, Repr

/-- Statuses of a completion: Table 10-4 for guarded frames, the kinds of R311 for the others, among them a transmission with an
error (R144). -/
inductive CplStatus where
  | transmit | undeliverable | inst | eliminated | spill | done | passed | retry | discard | pushOut | aging | transmitError
deriving DecidableEq, Repr

/-- Floor message types (Table 1-7) with what each carries. -/
inductive FloorBody where
  | enq (d : Descr)
  | read (grain : Nat)
  | regr (m : Master) (off : Word)
  | regw (m : Master) (off : Word) (v : Word)
  | data (bytes : List Byte) (bad : Bool)
  | cplGuarded (entry : Option Nat) (seq dest cls : Nat) (status : CplStatus)
  | cplOwner (head : Nat) (status : CplStatus)
  | cplMirror (uid q : Nat)
  | cplBales (uid dest : Nat) (bales : List Nat)
  | cplReg (v : Option Word)
  | nack (of : Nat) (d : Option Descr)
deriving DecidableEq, Repr

/-- A Floor message: ports (4 is the chip port), type, tag, generation of the originating region and body. -/
structure FloorMsg where
  src : Nat
  dst : Nat
  origin : Nat
  gen : Nat
  tag : Nat
  body : FloorBody
deriving DecidableEq, Repr

/-- An outstanding request of a block: the space it has reserved for the response (R41), and whether its tag is void
(R46). -/
structure Sink where
  block : Nat
  use : SinkUse
  void : Bool
deriving DecidableEq, Repr

/-- A message that waits for its region's arbiter, with the block and the cell of the block that send it (R32, R34). -/
structure FloorWait where
  block : Nat
  cell : Nat
  msg : FloorMsg
deriving DecidableEq, Repr

/-- A request that waits for a tag to reserve space under (R41). -/
structure FloorStall where
  block : Nat
  cell : Nat
  use : SinkUse
  dst : Nat
  body : FloorBody
deriving DecidableEq, Repr

/-- The Floor (chapter 1). `req` and `rsp` hold the messages in flight per source and destination, in the order granted (R40);
`sinks` the outstanding requests by port and tag (R41, R46), `nextTag` the next tag of each port, `failures` the successive
failures per path (R51), `stalled` the requests that wait for a tag. The arbiters: `wait` holds the messages that wait for a
region's arbiter, by port and channel, `cellPtr` the pointer of each block's arbiter (R32), `allow` the allowances of the
blocks 4 to 9 in the round (R34), `blockPtr` where the round robin among blocks goes on; `outq` what waits per path and
channel for the chip arbiter, `srcPtr` its round robin per destination port and channel (R37), and `lanes` the clock until
which a port's data lane is taken in each direction (R38, R39). -/
structure FloorPart where
  req : NMap (List FloorMsg)
  rsp : NMap (List FloorMsg)
  sinks : NMap (Option Sink)
  nextTag : NMap Nat
  failures : NMap Nat
  stalled : NMap (List FloorStall)
  wait : NMap (List FloorWait)
  cellPtr : NMap Nat
  allow : NMap (List Nat)
  blockPtr : NMap Nat
  outq : NMap (List FloorMsg)
  srcPtr : NMap Nat
  lanes : NMap Nat
deriving DecidableEq, Repr

/-- A copy of an admitted frame that waits for a pipeline slot (R59): one towards a port, or the engine copy of DISP 2 towards a
task queue (Table 5-4). -/
inductive Copy where
  | port (x : Descr)
  | engine (queue : Nat) (x : Descr)
deriving DecidableEq, Repr

/-- The frame path of all regions. `uids` and `ids` number descriptors and landing frames; `copies` holds the
additional copies that wait for a pipeline slot (R59), `mirrorWait` mirror copies with the clock they began to wait (R60),
`enqWait` new ENQs that wait for a replay walk (R432); `votes` is the TC6 decision queue (R62); `busy` has a bit per region
whose pipeline slot of this clock was taken (R614), `background` the clock of the last background grant of each bank cell, by
112 n + bank (R30); `toRecover` the frames subject to recovery whose ENQs came in this clock, with the region (R375); `arrivals` the ENQs and CPLs
that came in this clock, judged at its end (R435); `hostRx` holds
the frames for each PCIe host port in the order their ENQs arrived, `tsBack` the transmit timestamps on their way back to
their requesters, or the news that there is none (R150, R539), `heard` the news of
host frames accepted or discarded (R539), `turn` the group of sources whose new frame the arbiter of each region took last. -/
structure FramePart where
  nextId : Nat
  landing : List Landing
  grains : NMap Grain
  rings : NMap FreeRing
  records : NMap FrameRec
  accounts : NMap Account
  pools : NMap PoolUse
  reserveUsed : NMap Nat
  queues : NMap EQueue
  ports : NMap EPort
  gates : NMap GateRun
  bales : NMap BaleStore
  mirrorList : NMap (List Descr)
  hold : NMap Hold
  journal : NMap JEntry
  laneNext : NMap Lane
  laneEgress : NMap Lane
  store : NMap (List HeldEnq)
  walks : NMap (List Walk)
  releases : NMap (List Nat)
  policers : NMap Policer
  toRecover : List (Nat × Descr)
  arrivals : List FloorMsg
  streams : NMap StreamState
  mirrorCount : NMap Nat
  copies : NMap (List Copy)
  mirrorWait : NMap (List (Nat × Descr))
  enqWait : NMap (List Descr)
  hostRx : NMap (List HostFrame)
  tsBack : List TsNews
  heard : List (TxNotice × Bool)
  votes : NMap (List Nat)
  turn : NMap Nat
  busy : Nat
  background : NMap Nat
deriving DecidableEq, Repr

end Sys2Proof.Machine
end

