-- ==== Sys2Proof/Machine/PartsTables.lean ====
section
/-! DEFINITION. The data the block's state is made of, part 4: Winnow's and the table block's commands, learning, the
Gleaner and spare banks (chapters 5 and 6). The memories themselves are words of the indirect spaces. -/

namespace Sys2Proof.Machine

/-- One step of a Winnow command (R237, R240): each takes effect in one clock. -/
inductive WnwStep where
  | invalidate (a : Nat)
  | write (a : Nat)
  | validate (a : Nat)
  | free (a : Nat)
  | copy (s d : Nat)
  | point (s d : Nat)
  | release (s : Nat)
  | settle (d : Nat)
deriving DecidableEq, Repr

/-- A Winnow command in progress: the staged words (R234), the steps still to run, the clock before which the next may
not run (the waits of R237 and R240), the entries moved, the result it will end with, and the pattern whose valid bit an
invalidate cleared (R239). -/
structure WnwCmd where
  op : Nat
  addr : Nat
  words : List Word
  steps : List WnwStep
  notBefore : Nat
  moved : Nat
  result : Nat
  absent : Option Nat
deriving DecidableEq, Repr

/-- Winnow in one region: the command in progress and the one that ended it if aborted, whether a WINNOW section is
effective. -/
structure WinnowPart where
  cmd : Option WnwCmd
  effective : Bool
deriving DecidableEq, Repr

/-- A table command on a channel with the key, data and delta registers of the clock of its write (R269). -/
structure TblCmd where
  chan : Nat
  op : Nat
  keyLo : Nat
  keyHi : Nat
  data : List Nat
  delta : Nat
deriving DecidableEq, Repr

/-- A learn notification (Table 6-4). -/
structure Learn where
  kind : Nat
  mac : Nat
  fid : Nat
  port : Nat
  oldDest : Nat
  loc : Nat
  gen : Nat
deriving DecidableEq, Repr

/-- Where an address entry stands (R253, R255). -/
inductive Slot where
  | bucket (h i y : Nat) | stash (k : Nat)
deriving DecidableEq, Repr

/-- An address entry with its full key. -/
structure Entry where
  key : Nat
  valid : Bool
  isStatic : Bool
  hit : Bool
  age : Bool
  dest : Nat
deriving DecidableEq, Repr

/-- A relocation in progress (R272): the copies still to be written, from the far end of the path, as their entries were read at
the search; the copies made; and the slot that the new key takes. -/
structure TblPlan where
  moves : List (Slot × Entry)
  made : Nat
  slot : Slot
deriving DecidableEq, Repr

/-- The table block of one region: pending and running commands, the channel served last, the victim pointer (R271), the
learn filter with entry clocks (R265), the learn queue (R266), and the Gleaner: pass number, bursts walked in this pass,
start of the pass, whether a window opened since, accumulators, unsettled segments, mismatch FIFO, whether a verification
pass runs (R287); and spare banks: uncorrectable words and corrected errors per bank in this pass, the bank being copied
with its spare, the banks that fail meanwhile, the banks retired with the spares that replace them, and the words already
counted (R276); and the running command's relocation (R272). -/
structure TablePart where
  pending : List TblCmd
  running : Option TblCmd
  served : Nat
  victim : Nat
  filter : List (Nat × Nat)
  learn : List Learn
  pass : Nat
  burst : Nat
  inPass : Bool
  passStart : Nat
  windowSince : Bool
  acc : NMap Word
  unsettled : List Nat
  mismatch : List (Nat × Nat)
  verifying : Bool
  uncorrWords : NMap (List Nat)
  corrCount : NMap Nat
  copying : Option (Nat × Nat)
  failing : List Nat
  retired : List (Nat × Nat)
  counted : List Nat
  plan : Option TblPlan
deriving DecidableEq, Repr

/-- The I2C command in progress of a port block (R157): bytes to write and to read. -/
structure I2cCmd where
  wlen : Nat
  rlen : Nat
deriving DecidableEq, Repr

/-- The management masters of the port blocks: whether an MDIO frame in progress is a read (1: not, 2: a read), and the I2C
transaction in progress; `refLost` has a bit per port block whose reference is absent (R123), 16 and 17 for H4 and H5;
`faultTx` a bit per port that transmits remote fault ordered sets (R136); `looped` the frames on the near-end loop of a port's
lanes (Table 3-9), oldest first. -/
structure MgmtPart where
  refLost : Nat
  mdio : NMap Nat
  i2c : NMap (Option I2cCmd)
  faultTx : Nat
  looped : NMap (List (List Byte))
deriving DecidableEq, Repr

/-- Winnow and table blocks of all regions. -/
structure TablesPart where
  wnw : NMap WinnowPart
  tbl : NMap TablePart
deriving DecidableEq, Repr

end Sys2Proof.Machine
end

