-- ==== Sys2Proof/Machine/PartsUnits.lean ====
section
/-! DEFINITION. The data the block's state is made of, part 5: the Silo's controllers (chapter 9). -/

namespace Sys2Proof.Machine

/-- A burst in a controller's read queue or on its way from the DRAM, or one that waits for a place (R388): its number, the
clock it arrived, whether the chip port asked for it, and, once issued, what the DRAM held. -/
structure DramRead where
  burst : Nat
  since : Nat
  chip : Bool
  data : Option Nat
deriving DecidableEq, Repr

/-- A burst in a controller's write queue. -/
structure DramWrite where
  burst : Nat
  data : Nat
  since : Nat
deriving DecidableEq, Repr

/-- Why a channel trains (Table 9-3). -/
inductive Training where
  | none | saved | full | warmCheck | requalify
deriving DecidableEq, Repr

/-- Why a channel is in self-refresh (R397, Table 9-4). -/
inductive SelfRefresh where
  | none | idle | shed | reset
deriving DecidableEq, Repr

/-- The controller of a Silo channel: the DRAM's data bursts (512-bit numbers; a burst not listed has not been written),
queues in order of arrival, reads issued, requests that wait for a full queue, open rows by bank, refreshes owed, clocks of
the latest uncorrectable bursts (R403), training, self-refresh with its start, whether the pass that runs is a check
(R400), the clock of the last ZQ latch (R383), and the die temperature at the last training that ended well, for the user calibration
(Table 14-9). -/
structure DramPart where
  array : NMap Nat
  readQ : List DramRead
  writeQ : List DramWrite
  issued : List DramRead
  waitRead : List DramRead
  waitWrite : List DramWrite
  openRow : NMap Nat
  owed : Nat
  uncorr : List Nat
  training : Training
  sleep : SelfRefresh
  sleepSince : Nat
  check : Bool
  zqAt : Nat
  trainTemp : Nat
deriving DecidableEq, Repr

end Sys2Proof.Machine
end

