-- ==== Sys2Proof/Machine/PartsEngine.lean ====
section
/-! DEFINITION. The data the block's state is made of, part 6: tasks, threads, the block data cache and its directory, the
Loft (chapter 11), the decision channels, the Abaide link and the lease (chapter 12), the PCIe host ports (chapter 13). -/

namespace Sys2Proof.Machine

/-- An output a task has staged (R449): a SEND with its address, control word and FN, or a disposition. -/
inductive Output where
  | send (addr ctl fn : Nat)
  | fwd (dest queue : Nat)
  | drop
deriving DecidableEq, Repr

/-- Where a task stands: queued, dispatched to an engine's thread, or completed by an engine and waiting for an earlier
ticket (R450). -/
inductive TaskPhase where
  | queued | running (e t : Nat) | finished (e : Nat)
deriving DecidableEq, Repr

/-- A task (Table 11-3): its queue (none for BOOT), ticket, words 1 to 15 of its record, the frame owner it carries with the
descriptor of that frame, and the instance that posted it or for which it was sent (R453). -/
structure Task where
  id : Nat
  kind : Nat
  queue : Option Nat
  ticket : Nat
  cause : Nat
  words : List Nat
  frame : Option Descr
  poster : Option Nat
  phase : TaskPhase
  outputs : List Output
  cancelled : Bool
deriving DecidableEq, Repr

/-- The task unit of a region: its tasks in order of entry, the next ticket of each queue, and the queue served last for
each PRIO (R448). -/
structure TaskPart where
  tasks : List Task
  tickets : NMap Nat
  served : NMap Nat
deriving DecidableEq, Repr

/-- Thread states of Table 11-1; an engine halted by ENG_CTL or by shedding halts all its threads, whatever they hold. -/
inductive ThreadState where
  | idle | ready | wait | halt
deriving DecidableEq, Repr

/-- What a waiting thread waits for: a line of the data cache, for a load or for a store, the answer of a register window, or the
Loft. -/
inductive Wait where
  | line (l : Nat) (own : Bool)
  | window
  | loft
deriving DecidableEq, Repr

/-- A thread: general registers and scratch words written since dispatch (others hold the free values from `base` on), its
return stack (top first) and what it waits for. -/
structure Thread where
  state : ThreadState
  task : Option Nat
  pc : Nat
  base : Nat
  regs : NMap Word
  scratch : NMap Word
  stack : List Nat
  waits : Option Wait
deriving DecidableEq, Repr

/-- A line in an engine's line buffer: whether the engine owns it, and its 16 words. -/
structure HeldLine where
  line : Nat
  owned : Bool
  words : List Word
deriving DecidableEq, Repr

/-- A directory entry (R460): the owning engine of the block, or the set of sharers. -/
structure DirLine where
  owner : Option Nat
  sharers : Nat
deriving DecidableEq, Repr

/-- A request at the directory: engine, line, whether for ownership, and the clock it arrived. -/
structure DirReq where
  eng : Nat
  line : Nat
  own : Bool
  since : Nat
deriving DecidableEq, Repr

/-- A record of a region's mirror queue (R471). -/
structure LoftRec where
  slot : Nat
  seq : Nat
  length : Nat
  data : List Byte
deriving DecidableEq, Repr

/-- What comes to a task unit in a clock and takes its turn at its end (R447, R452, R453, R478): a DONE of a thread with its task, an
expiry of a watchdog, a task made ready for a queue, the learn queue's head, the cancellation of a queue's tasks or of those an instance
posted, and a dispatch. -/
inductive TaskTurn where
  | done (e t : Nat) (id : Option Nat)
  | expiry (e t : Nat)
  | enter (n q : Nat) (t : Task)
  | learn (n : Nat)
  | flush (n q : Nat)
  | posted (n inst : Nat)
  | dispatch (n : Nat)
deriving DecidableEq, Repr

/-- An operation on a Loft slot of this clock (R466): a configuration write of a word, an LFPUT or LFGET of a thread, a mirrored
update. -/
inductive LoftTurn where
  | config (n s w : Nat) (v : Word)
  | put (e t : Nat)
  | twin (n : Nat) (r : LoftRec)
  | get (e t : Nat)
deriving DecidableEq, Repr

/-- Packet engines, supervisor core and Loft: task units by region, threads by 8 x engine + thread (512 is the supervisor),
line buffers by engine, directory entries by 2048 x block + line, requests by engine block, the engines that have issued in
this clock with the thread each issued from last (R444), the clock LOFT_US counts from, mirror queues and the slots operated on in this
clock by region, and what the task units and the Loft do at its end. -/
structure EnginePart where
  tasks : NMap TaskPart
  threads : NMap Thread
  buffers : NMap (List HeldLine)
  dir : NMap DirLine
  requests : NMap (List DirReq)
  issued : Nat
  loftZero : Nat
  mirrorQ : NMap (List LoftRec)
  loftBusy : NMap (List Nat)
  last : NMap Nat
  turns : List TaskTurn
  loftTurns : List LoftTurn
deriving DecidableEq, Repr

/-- A voter's count of disagreements in 2-of-2 (R490), beside its registers. -/
structure VoterPart where
  disagree : Nat
deriving DecidableEq, Repr

/-- An Abaide frame to be sent (Table 12-3): TYPE, region and payload words. -/
structure AbdFrame where
  type : Nat
  region : Nat
  payload : List Nat
deriving DecidableEq, Repr

/-- The Abaide link: frames queued in order of arrival, the frame in transmission, the next LINK_SEQ, the region whose LOFT
frame left last, the highest LINK_SEQ accepted since the link was last out of service, the numbers below it that are missing
and those given up (R495), and whether a HELLO has been accepted since then (R496). -/
structure AbaidePart where
  queue : List AbdFrame
  sending : Option AbdFrame
  nextSeq : Nat
  loftLast : Nat
  high : Option Nat
  missing : List Nat
  lost : List Nat
  hello : Bool
deriving DecidableEq, Repr

/-- The lease beside its registers: the clocks of the last CLAIM or direct entry, of the last RENEW sent and of the last one
acknowledged, the last four RENEWs with the clocks they were sent, whether the device left ACTIVE under R504 with the link
out of service since (R506), whether a yield in compatibility mode waits (R514), and the clocks with DUAL at 1 since
TWN_DUAL_MS last counted. -/
structure LeasePart where
  claimAt : Nat
  lastSent : Nat
  lastAcked : Nat
  renews : List (Nat × Nat)
  barred : Bool
  yielding : Bool
  dual : Nat
deriving DecidableEq, Repr

/-- Voters by region, the Abaide link and the lease. -/
structure TwinPart where
  voters : NMap VoterPart
  link : AbaidePart
  lease : LeasePart
deriving DecidableEq, Repr

/-- Where a transmit ring's slot stands: to be read again after a restart (R554), read and waiting for its turn, waiting for
its landing charge or its frame's read, in the pipeline, accepted and waiting for a timestamp, or ready for its write-back
with a STATUS of Table 13-6 and a timestamp. -/
inductive TxPhase where
  | again | turn | reading | entered | stamp | ready (status : Nat) (ts : Option Nat)
deriving DecidableEq, Repr

/-- A slot of a transmit ring between its descriptor's read and its write-back (Table 13-5). -/
structure TxSlot where
  slot : Nat
  addr : Nat
  length : Nat
  tsReq : Bool
  tb : Nat
  direct : Option (Nat × Nat)
  cookie : Nat
  phase : TxPhase
deriving DecidableEq, Repr

/-- A transmit ring beside its registers: its slots without a write-back, oldest first, the next slot to be read, and
whether a descriptor read is outstanding. -/
structure TxRing where
  slots : List TxSlot
  next : Nat
  fetching : Bool
deriving DecidableEq, Repr

/-- The frame a PCIe host port has in hand (R538): its ring and slot and its landing frame. -/
structure TxHand where
  inst : Nat
  qp : Nat
  slot : Nat
  landing : Nat
deriving DecidableEq, Repr

/-- The PCIe host ports: transmit rings and write-backs not yet reported (R548) by 8 x (64 x port + instance) + queue pair,
the frame in hand and the ring served last by port, the same for receive (instance, queue pair and frame, R546), MSI-X entries unmasked and entries pending (R548) by
2^16 x port + 1024 x function + entry. -/
structure HostPart where
  rings : NMap TxRing
  unreported : NMap Nat
  hand : NMap (Option TxHand)
  turn : NMap Nat
  rxHand : NMap (Option (Nat × Nat × Nat))
  rxTurn : NMap Nat
  unmasked : List Nat
  pendingBits : List Nat
deriving DecidableEq, Repr

end Sys2Proof.Machine
end

