-- ==== Sys2Proof/Machine/PartsStart.lean ====
section
/-! DEFINITION. The data the block's state is made of, part 7: the start in progress, calibration, supply monitors and
shedding (chapter 14). -/

namespace Sys2Proof.Machine

/-- A start (R561, R562) and what lasts beyond it. `edge` is the clock of the start edge, `step` the step of Table 14-1 in
progress among 1 to 5, 6 once the later steps run side by side, 0 while no start runs; `done` says per region which of steps
8 and 9 has ended; `calDone` has a bit per port block (16 and 17 for H4 and H5) whose step 6 has ended; `kind` and `cause` are
those of STR_STAT; `clearCustody` says that step 9 clears custody (R591); `coldRegions` are initialised as at a cold start in
a warm one (R104); `accepted` says that a frame has been accepted since the edge; `testedOff` are units that memory BIST has
taken out: 16 n + k for block k of region n, and `downRegions` the regions it left DOWN (R564); `lostGrainBanks` buffer bank
cells taken out, 64 n + bank; `userCal` is the copy of the user calibration used at the last cold start; `saving` the copy
being saved with its offset in flash (R579); `drove` says that a ball-driving instruction was loaded in TEST (R687). -/
structure StartPart where
  edge : Nat
  step : Nat
  done : NMap Nat
  calDone : Nat
  clearCustody : Bool
  coldRegions : Nat
  accepted : Bool
  testedOff : List Nat
  downRegions : Nat
  lostGrainBanks : List Nat
  userCal : Option (List Byte)
  saving : Option (Nat × List Byte)
  drove : Bool
deriving DecidableEq, Repr

/-- The supply side (R569, R582, R583, R676, R677): RESET_N recognised low with the clock of its falling edge; SAG_N
recognised low and the deepest stage its ladder has reached; the stage each rail's monitor requests, by rail; the stage the
thermal monitor requests; whether HELD was entered from SHED-5 (R590); and the deepest stage left whose exit actions have yet to begin, 0
for none (R588); and whether VDD_SRAM has lost what its memories held since the last cold start (R623). -/
structure SupplyPart where
  resetLow : Bool
  resetAt : Nat
  sag : Bool
  ladder : Nat
  rails : NMap Nat
  thermal : Nat
  fromShed5 : Bool
  exiting : Nat
  sramLost : Bool
deriving DecidableEq, Repr

end Sys2Proof.Machine
end

