-- ==== Sys2Proof/Machine/PartsInit.lean ====
section
/-! DEFINITION. The parts of the state with nothing in them, as they stand when power comes up. -/

namespace Sys2Proof.Machine

/-- The empty layout of a region: what holds before an image is applied. -/
def RegionLayout.none_ : RegionLayout :=
  { pbMode := [0, 0, 0, 0], pbFec := [0, 0, 0, 0], pbLanes := [0, 0, 0, 0], backbone := 0, bankOwner := [], bankIndex := [],
    bufMode := 0, pools := 0, poolGrains := [], classPool := [], balesOwn := 0, balesMirror := 0, instMode := 0,
    instCount := 0, qp := [], engFw := false }

/-- The layout before an image is applied. -/
def Layout.none_ : Layout :=
  { regions := 0, silo := false, chMib := [0, 0, 0, 0], masterPort := 0, masterInst := 0, liveChip := 0,
    liveRgn := [0, 0, 0, 0], guarded := 0, held := 0, sheddable := 0, vitalPort := 0, keepEng := [],
    rgn := [RegionLayout.none_, RegionLayout.none_, RegionLayout.none_, RegionLayout.none_] }

/-- The loader with nothing read. -/
def LoaderPart.init : LoaderPart :=
  { slot0 := ⟨[], .a⟩, slot1 := ⟨[], .a⟩, runningOne := false, chipTag := 0, rgnTag := [0, 0, 0, 0], toTry := [],
    reading := false, verifying := none, candidate := false, draining := none, relaying := none, layout := Layout.none_,
    applied := false, flashOps := [], readMode := (0x13, 25), quadSet := none }

/-- A clock in which nothing has happened. -/
def ClockPart.init : ClockPart :=
  { hwSet := [], swSet := [], causes := [], captured := [], odoSteps := 0, granary := [], released := [], minima := [],
    polWrites := [], gaps := [], walkEnds := [], twin := [], votes := [], host := [], vectored := [], posted := [], completed := [], marks := [], eoi := false, messaged := false,
    snap := false, writers := [] }

/-- The Floor with no message in flight. -/
def FloorPart.init : FloorPart := 
  { req := [], rsp := [], sinks := [], nextTag := [], failures := [], stalled := [], wait := [], cellPtr := [], allow := [],
    blockPtr := [], outq := [], srcPtr := [], lanes := [] }

/-- The frame path with no frame in it. -/
def FramePart.init : FramePart :=
  { nextId := 0, landing := [], grains := [], rings := [], records := [], accounts := [], pools := [], reserveUsed := [],
    queues := [], ports := [], gates := [], bales := [], mirrorList := [], hold := [], journal := [], laneNext := [],
    laneEgress := [], store := [], walks := [], releases := [], policers := [], toRecover := [], arrivals := [], streams := [], mirrorCount := [],
    copies := [], mirrorWait := [], enqWait := [], hostRx := [], tsBack := [], heard := [], votes := [], turn := [],
    busy := 0, background := [] }

/-- Engines and Loft at rest. -/
def EnginePart.init : EnginePart :=
  { tasks := [], threads := [], buffers := [], dir := [], requests := [], issued := 0, loftZero := 0, mirrorQ := [],
    loftBusy := [], last := [], turns := [], loftTurns := [] }

/-- The twin unit at rest. -/
def TwinPart.init : TwinPart :=
  { voters := [],
    link := { queue := [], sending := none, nextSeq := 0, loftLast := 3, high := none, missing := [], lost := [], hello := false },
    lease := { claimAt := 0, lastSent := 0, lastAcked := 0, renews := [], barred := false, yielding := false, dual := 0 } }

/-- The host ports at rest. -/
def HostPart.init : HostPart :=
  { rings := [], unreported := [], hand := [], turn := [], rxHand := [], rxTurn := [], unmasked := [], pendingBits := [] }

/-- The time elements at 0 (R180, Table 4-6). -/
def TimePart.init (counting : Bool) : TimePart :=
  { counting := counting, lastSnap := none, tb := [], mains := ⟨0, 0, 0, false, none, none, [], 0, 0, false⟩, odo := ⟨0, 0⟩,
    pulse := [], slot := [], capture := [], writes := [], pins := 0, passes := 0 }

/-- A start in progress at step `step` since clock `edge`. -/
def StartPart.at (edge step : Nat) : StartPart :=
  { edge := edge, step := step, done := [], calDone := 0, clearCustody := false, coldRegions := 0, accepted := false,
    testedOff := [], downRegions := 0, lostGrainBanks := [], userCal := none, saving := none, drove := false }

/-- The supply pins at rest: RESET_N and SAG_N high, no monitor asks for a stage. -/
def SupplyPart.init : SupplyPart :=
  { resetLow := false, resetAt := 0, sag := false, ladder := 0, rails := [], thermal := 0, fromShed5 := false, exiting := 0, sramLost := false }

/-- No fatal dump is held. -/
def Dump.none_ : Dump :=
  { active := false, since := 0, duringStart := false, seq := 0, cause := 0, prevState := .off, onChip := false,
    complete := false, cold := false, rom := false, truncated := false, second := false, length := 0, errUnit := 0,
    errAddr := 0, imageSeq := 0, chipTag := 0, rgnTag := [], gen := 0, tb := [], tbValid := 0, mains := 0, odo := 0,
    strStat := 0, dumpUs := 0, failStep := 0, sections := [], area := [] }

/-- A snapshot buffer before its first snapshot. -/
def Snapshot.none_ : Snapshot := { tb := [], mains := 0, odo := 0, number := 0, cells := [] }

/-- The event log with no entry. -/
def EventLog.init : EventLog := { entries := [], intake := [], nextSeq := 0 }

/-- No restart and no event remembered. -/
def ErrHistory.init : ErrHistory := { contained := [], regionFatal := [], corrLast := [], corrSuppressed := [] }

/-- No management access in progress, every reference present. -/
def MgmtPart.init : MgmtPart := { refLost := 0, mdio := [], i2c := [], faultTx := 0, looped := [] }

end Sys2Proof.Machine
end

