-- ==== Sys2Proof/Machine/State.lean ====
section
/-! DEFINITION. The state of the block: everything the spec gives it, as plain data, and the state right after reset. -/

namespace Sys2Proof.Machine

/-- The parts of the device: everything it holds but its fuses, its flash and the command queue. Register words are held in
`regs` by their addresses; a word not listed holds its Cold value. -/
structure DevCore where
  /-- Core clocks since power came up. -/
  now : Nat
  /-- How many free values have been drawn (the model's own field). -/
  free : Nat
  regs : NMap Word
  /-- Counter control words (R607 to R610) by internal counter address: bit 0 OVF, bit 1 CHAIN. -/
  cellCtl : NMap Word
  /-- Per-master latches (R644) by 2^40 x master + address. -/
  latches : NMap Word
  ind : NMap IndContext
  timers : List (TimerId × Nat)
  chip : ChipPart
  log : EventLog
  err : ErrHistory
  raised : List Raised
  clk : ClockPart
  snap : List Snapshot
  /-- SUP_MBOX_OUT has been written and not yet read (Table 15-2). -/
  mboxOut : Bool
  uart : Uart
  dump : Dump
  time : TimePart
  loader : LoaderPart
  floor : FloorPart
  frame : FramePart
  tables : TablesPart
  mgmt : MgmtPart
  dram : NMap DramPart
  engine : EnginePart
  twin : TwinPart
  host : HostPart
  start : StartPart
  supply : SupplyPart
  /-- Words of ECC memories that hold an error, by key: 1 a single-bit error, 2 an uncorrectable one. -/
  faults : NMap Nat
  out : List OutEvent
deriving DecidableEq, Repr

/-- The device: its parts now, and as they stood when this clock began, which is what the rules on one clock's events read
(R24, R152, R204, R258, R307). -/
structure Dev extends DevCore where
  before : DevCore
deriving DecidableEq, Repr

/-- The device as it stood when this clock began. -/
def Dev.was (d : Dev) : Dev := { toDevCore := d.before, before := d.before }

/-- The state of the block. -/
structure State where
  /-- The commands that wait, first in first out. -/
  pending : List Instr
  fuses : Fuses
  /-- The flash device on the SPI balls: bytes by address, an unlisted byte reads 0xFF. -/
  flash : List Host.Cell
  sfdp : Sfdp
  dev : Dev
deriving DecidableEq, Repr

/-! ## Reset -/

/-- The register words that differ from their Cold values when power comes up: no region runs, and the network references
are present. -/
def initialRegs : NMap Word :=
  [0, 1, 2, 3].flatMap (fun n => (R.RGN_STAT n, 2#32) :: [0, 1, 2, 3].map (fun j => (R.PB_STAT (4 * n + j), 1#32)))

/-- The device without supplies (chip state OFF). -/
def DevCore.initial : DevCore :=
  { now := 0, free := 0, regs := initialRegs, cellCtl := [], latches := [], ind := [], timers := [],
    chip := { state := .off, prev := .off, since := 0, recoveryImage := false, testFrom := .off, laneStep := false },
    log := EventLog.init, err := ErrHistory.init, raised := [], clk := ClockPart.init, snap := [Snapshot.none_, Snapshot.none_], mboxOut := false, uart := { rx := [], tx := [], sending := none },
    dump := Dump.none_, time := TimePart.init false, loader := LoaderPart.init, floor := FloorPart.init,
    frame := FramePart.init, tables := { wnw := [], tbl := [] }, mgmt := MgmtPart.init, dram := [],
    engine := EnginePart.init, twin := TwinPart.init, host := HostPart.init, start := StartPart.at 0 0,
    supply := SupplyPart.init, faults := [], out := [] }

/-- The device without supplies, no command having run in this clock. -/
def Dev.initial : Dev := { toDevCore := DevCore.initial, before := DevCore.initial }

/-- The fuses of a part that has no key, no version and no calibration blown (DESIGN CHOICE, log 2). -/
def Fuses.blank : Fuses :=
  { keys := [⟨List.replicate 12 0, false, false⟩, ⟨List.replicate 12 0, false, false⟩, ⟨List.replicate 12 0, false, false⟩,
      ⟨List.replicate 12 0, false, false⟩],
    svn := 0, serial := 0, rev := 0, grade := 0, cal := [] }

/-- The device right after the internal power-on reset: START-COLD with its second step in progress (R558, R562), the time
bases counting from 0 (R180), the change of state on its way to the log, 4,000 ms for the start (Table 14-5). -/
def DevCore.reset : DevCore :=
  { DevCore.initial with
    regs := (R.CAL_STAT, 0x200#32) :: (R.STR_COLD_CNT, 1#32) :: initialRegs,
    timers := [(⟨.startLimit, 0, 0⟩, 4000000000)],
    chip := { DevCore.initial.chip with state := .startCold },
    log := { EventLog.init with intake := [⟨0x0008, 0, 0xF, 16, 0⟩] },
    time := TimePart.init true,
    start := StartPart.at 0 2 }

/-- The state right after the internal power-on reset; fuses and flash blank (DESIGN CHOICE, log 2). -/
def State.reset : State :=
  { pending := [], fuses := Fuses.blank, flash := [],
    sfdp := { valid := true, mode114 := true, mode112 := true, maxMhz := 100, density := 0x2000000, eraseUnit := 4096, quadMethod := 0 },
    dev := { toDevCore := DevCore.reset, before := DevCore.reset } }

/-- A command stops with a fault. No command of this block does: the spec gives every row an effect. -/
inductive Fault where
  /-- Not raised by any meaning; kept so that the interface has a type (safe). -/
  | none_
deriving DecidableEq, Repr

/-- A command has no meaning. -/
inductive Refusal where
  /-- A row not modelled yet, by its mnemonic (safe). -/
  | notModelled (mnemonic : String)
deriving DecidableEq, Repr

end Sys2Proof.Machine
end

