-- ==== Sys2Proof/Machine/Ops.lean ====
section
/-! DEFINITION. The named operations over the state that every unit shares: sparse maps, register words and their
fields, counter cells, timers, free values, the chip event log, errors raised, privilege and the path of a register
access (chapters 0, 1, 15, 16). -/

namespace Sys2Proof.Machine

/-! ## Sparse maps -/

/-- The value of a key; an unlisted key holds `dflt k`. -/
def Map.get {α : Type} (dflt : Nat → α) (m : NMap α) (k : Nat) : α :=
  match m with
  | [] => dflt k
  | (k', v) :: rest => if k = k' then v else Map.get dflt rest k

/-- List a key with a value, keeping rising order. -/
def Map.ins {α : Type} (m : NMap α) (k : Nat) (v : α) : NMap α :=
  match m with
  | [] => [(k, v)]
  | (k', v') :: rest =>
    if k = k' then (k, v) :: rest
    else if k < k' then (k, v) :: (k', v') :: rest
    else (k', v') :: Map.ins rest k v

/-- Remove a key. -/
def Map.del {α : Type} (m : NMap α) (k : Nat) : NMap α := m.filter (fun x => x.1 ≠ k)

/-- Write a key: the default removes the entry, so that equal maps are equal data. -/
def Map.put {α : Type} [DecidableEq α] (dflt : Nat → α) (m : NMap α) (k : Nat) (v : α) : NMap α :=
  if v = dflt k then Map.del m k else Map.ins m k v

/-- The canonical form: keys strictly rising, no listed default. -/
def Map.wf {α : Type} [DecidableEq α] (dflt : Nat → α) (m : NMap α) : Bool :=
  match m with
  | [] => true
  | [(k, v)] => v != dflt k
  | (k, v) :: (k', v') :: rest => decide (k < k') && (v != dflt k) && Map.wf dflt ((k', v') :: rest)

/-! ## The register space -/

/-- The decode mask of chip page k (Table 16-2). -/
def chipMask (k : Nat) : Nat :=
  [0x1C, 0x1C, 0x3C, 0xC, 0x1C, 0x1C, 0x7FC, 0x7C, 0xC, 0xFC, 0x7C, 0x3C, 0x3C, 0x7C, 0x1C, 0x1C].getD k 0

/-- The decode mask of page k of a region (Table 16-3). -/
def rgnMask (k : Nat) : Nat :=
  [0xC, 0xFFC, 0xFFC, 0xFFC, 0xFFC, 0x3FC, 0x3FC, 0x3FC, 0x1FFC, 0x3FFC, 0x1FFC].getD k 0

/-- Whether a register row has a place at byte position `pos` of its page. -/
def RegDesc.covers (r : RegDesc) (pos : Nat) : Bool :=
  if pos < r.off then false
  else
    let q := (pos - r.off) / r.s1
    let rem := (pos - r.off) % r.s1
    if r.n2 ≤ 1 then decide (q < r.n1) && rem == 0
    else if r.n1 ≤ 1 then (pos - r.off) % r.s2 == 0 && decide ((pos - r.off) / r.s2 < r.n2)
    else decide (q < r.n1) && rem % r.s2 == 0 && decide (rem / r.s2 < r.n2)

/-- The row of the map of a word address, if the address holds a register. -/
def regAt (a : Nat) : Option RegDesc :=
  if a < 0x100000 then (chipMap (a / 0x10000)).find? (·.covers (a % 0x10000))
  else if a < 0x01000000 then none
  else if a < 0x05000000 then (rgnMap (a / 0x10000 % 0x100)).find? (·.covers (a % 0x10000))
  else if a < 0x100000000 then none
  else if a < 0x200000000 then mapInstance.find? (·.covers (a % 0x10000))
  else
    let x := a - 0x200000000
    (spaceMap (x / 0x04000000)).find? (·.covers (x % 0x01000000))

/-- The register a master's offset reaches (R635, R636, R650, R651): its word address, or none where the position is
reserved (R639). -/
def decodeOffset (off : Nat) : Option Nat :=
  let off := if 0x800000 ≤ off ∧ off < 0x1000000 then off - 0x800000 + 0x04000000 else off
  let page := off / 0x10000
  if off < 0x100000 then
    let a := chipPage page + (off % 0x10000 &&& chipMask page)
    if (regAt a).isSome then some a else none
  else if 0x01000000 ≤ off ∧ off < 0x05000000 ∧ page % 0x100 ≤ 10 then
    let a := page * 0x10000 + (off % 0x10000 &&& rgnMask (page % 0x100))
    if (regAt a).isSome then some a else none
  else none

/-- The region of a register address, for a register of a region. -/
def regionOf (a : Nat) : Option Nat :=
  if 0x01000000 ≤ a ∧ a < 0x05000000 then some (a / 0x01000000 - 1) else none

/-- The number a Cold entry gives; `img`, `fuse` and `hw` entries are zero until the start writes them. -/
def coldNum : StartVal → Nat
  | .num n => n
  | _ => 0

/-- The Cold value of a register word (R20). -/
def coldWord (a : Nat) : Word :=
  match regAt a with
  | none => 0
  | some r => BitVec.ofNat 32 (r.fields.foldl (fun acc f => acc + coldNum f.cold % 2 ^ f.fld.width * 2 ^ f.fld.lo) 0)

/-- The word held at an address. -/
def Dev.rd (d : Dev) (a : Nat) : Word := Map.get coldWord d.regs a

/-- Replace the word held at an address. -/
def Dev.wr (d : Dev) (a : Nat) (v : Word) : Dev := { d with regs := Map.put coldWord d.regs a v }

/-- A field of a register. -/
def Dev.fget (d : Dev) (a : Nat) (f : Fld) : Nat := f.get (d.rd a)

/-- A one-bit field of a register. -/
def Dev.flag (d : Dev) (a : Nat) (f : Fld) : Bool := d.fget a f == 1

/-- Set a field of a register. -/
def Dev.fset (d : Dev) (a : Nat) (f : Fld) (v : Nat) : Dev := d.wr a (f.put (d.rd a) v)

/-- The bits that a list of address and mask gives for an address. -/
def maskAt (l : List (Nat × Nat)) (a : Nat) : Nat := l.foldl (fun m x => if x.1 = a then Nat.lor m x.2 else m) 0

/-- Hardware sets a bit of a register in this clock, or clears it (R22). -/
def Dev.notedSet (d : Dev) (a bit : Nat) (b : Bool) : Dev :=
  { d with clk := { d.clk with hwSet := if b then (a, 2 ^ bit) :: d.clk.hwSet else d.clk.hwSet } }

/-- Set a one-bit field. -/
def Dev.setFlag (d : Dev) (a : Nat) (f : Fld) (b : Bool) : Dev :=
  (d.notedSet a f.lo b).fset a f (b2n b)

/-- Set bit i of a field of event or mark bits. -/
def Dev.setFieldBit (d : Dev) (a : Nat) (f : Fld) (i : Nat) (b : Bool) : Dev :=
  (d.notedSet a (f.lo + i) b).fset a f (setBit (d.fget a f) i b)

/-- Hardware changes a word that software may write as well: the bits that software has written in this clock stay as it
wrote them (R23). -/
def Dev.hwWr (d : Dev) (a : Nat) (v : Word) : Dev :=
  let m := BitVec.ofNat 32 (maskAt d.clk.swSet a)
  d.wr a ((v &&& ~~~m) ||| (d.rd a &&& m))

/-- The same for one field. -/
def Dev.hwPut (d : Dev) (a : Nat) (f : Fld) (v : Nat) : Dev := d.hwWr a (f.put (d.rd a) v)

/-- Add to a field that saturates at its largest value. -/
def Dev.saturatingAdd (d : Dev) (a : Nat) (f : Fld) (k : Nat) : Dev :=
  d.fset a f (min (2 ^ f.width - 1) (d.fget a f + k))

/-! ## Conditionals and repetition over device states -/

/-- Apply a change when a condition holds. -/
def Dev.when (d : Dev) (c : Bool) (g : Dev → Dev) : Dev := if c then g d else d

/-- Apply a change for each element of a list, in order. -/
def Dev.each {α : Type} (d : Dev) (l : List α) (g : α → Dev → Dev) : Dev := l.foldl (fun d x => g x d) d

/-! ## Free values -/

/-- Draw a free word: a value the spec leaves undefined. -/
def Dev.fresh (d : Dev) : Word × Dev := (Config.freeValue d.free, { d with free := d.free + 1 })

/-- Draw a free truth value. -/
def Dev.freshBool (d : Dev) : Bool × Dev := (Config.freeBool d.free, { d with free := d.free + 1 })

/-! ## Outputs -/

/-- Note what leaves the block in this clock. -/
def Dev.emit (d : Dev) (e : OutEvent) : Dev := { d with out := d.out ++ [e] }

/-! ## Timers -/

/-- Arm a timer to fall due `n` clocks from now (a timer already armed is armed anew). -/
def Dev.arm (d : Dev) (t : TimerId) (n : Nat) : Dev :=
  { d with timers := (d.timers.filter (fun x => x.1 ≠ t)) ++ [(t, d.now + n)] }

/-- Disarm a timer. -/
def Dev.disarm (d : Dev) (t : TimerId) : Dev := { d with timers := d.timers.filter (fun x => x.1 ≠ t) }

/-- The clock a timer falls due, if it is armed. -/
def Dev.deadline (d : Dev) (t : TimerId) : Option Nat := (d.timers.find? (fun x => x.1 = t)).map (·.2)

/-- Whether a timer is armed. -/
def Dev.armed (d : Dev) (t : TimerId) : Bool := (d.deadline t).isSome

/-- Whether the command that a limit has passed may act: the limit is running. The command is itself the event that the
time has passed; the model does not hold it against its own count of clocks (DESIGN CHOICE). -/
def Dev.due (d : Dev) (t : TimerId) : Bool := d.armed t

/-- A limit that has not been set anew in this clock: what sets it comes before its expiry (R512). -/
def Dev.stillDue (d : Dev) (t : TimerId) : Bool := d.due t && d.deadline t == d.was.deadline t

/-- Clocks in a microsecond and in a millisecond (core clock of 1.000 GHz, Table 0-1). -/
def us : Nat := 1000
def ms : Nat := 1000000

/-! ## Chip states -/

/-- The code of a chip state (Table 0-5, R5). -/
def ChipState.code : ChipState → Nat
  | .off => 0 | .startCold => 1 | .startWarm => 2 | .service => 3 | .recovery => 4 | .test => 5
  | .shed1 => 9 | .shed2 => 10 | .shed3 => 11 | .shed4 => 12 | .shed5 => 13 | .held => 14

/-- The shedding stage of a chip state: 0 outside the shedding states. -/
def ChipState.stage : ChipState → Nat
  | .shed1 => 1 | .shed2 => 2 | .shed3 => 3 | .shed4 => 4 | .shed5 => 5 | _ => 0

/-- Performance counters count except in SHED-2 to SHED-4 (R586). -/
def ChipState.perfRuns (c : ChipState) : Bool := !(decide (2 ≤ c.stage) && decide (c.stage ≤ 4))

/-- A state in which frames are forwarded: SERVICE or SHED-1 to SHED-4. -/
def ChipState.serving (c : ChipState) : Bool := c == .service || (decide (1 ≤ c.stage) && decide (c.stage ≤ 4))

/-- A START state. -/
def ChipState.starting (c : ChipState) : Bool := c == .startCold || c == .startWarm

/-! ## Regions -/

/-- Region n is enabled by PARTITION (R82). -/
def Dev.regionEnabled (d : Dev) (n : Nat) : Bool := d.loader.layout.regions.testBit n && decide (n < 4)

/-- Region n is in region restart (RGN_STAT.STATE 0b01). -/
def Dev.inRestart (d : Dev) (n : Nat) : Bool := d.fget (R.RGN_STAT n) R.RGN_STAT.STATE == 1

/-- Region n runs (RGN_STAT.STATE 0b00). -/
def Dev.regionRuns (d : Dev) (n : Nat) : Bool := d.fget (R.RGN_STAT n) R.RGN_STAT.STATE == 0

/-- Block k of region n is in contained restart. -/
def Dev.blockInRestart (d : Dev) (n k : Nat) : Bool :=
  (d.fget (R.RGN_STAT n) R.RGN_STAT.BLOCK_RESTART).testBit k

/-- Block k of region n works: its region runs and the block is not in restart. -/
def Dev.blockUp (d : Dev) (n k : Nat) : Bool := d.regionRuns n && !d.blockInRestart n k

/-- The current generation of region n (FLR_GEN, R11). -/
def Dev.regionGen (d : Dev) (n : Nat) : Nat := bits (d.rd R.FLR_GEN).toNat (8 * n) 8

/-- The state by which units run: TEST lets every unit run on as in the state from which it was entered (R687). -/
def Dev.runState (d : Dev) : ChipState := if d.chip.state = .test then d.chip.testFrom else d.chip.state

/-- The deepest stage whose entry actions hold: the stage in force, or one left whose exit actions have yet to begin (R588). -/
def Dev.stageActs (d : Dev) : Nat := max d.runState.stage d.supply.exiting

/-- Advance the generation of region n by 1, modulo 256 (R11). -/
def Dev.advanceGen (d : Dev) (n : Nat) : Dev := d.fset R.FLR_GEN ⟨8 * n, 8⟩ (d.regionGen n + 1)

/-- The region of a port and its number there: H4 lies in region 1 and H5 in region 3, as number 32 (R552). -/
def portRegion (p : Nat) : Nat := if p < 128 then p / 32 else if p = 132 then 1 else 3

/-- The port's number within its region: 0 to 31, 32 for the Ethernet host port. -/
def portLocal (p : Nat) : Nat := if p < 128 then p % 32 else 32

/-! ## Counter cells (R607 to R611) -/

/-- Whether a word address holds a counter cell. -/
def isCell (a : Nat) : Bool :=
  match regAt a with
  | some r => r.kind == .cell
  | none =>
    let x := a - 0x200000000
    let code := x / 0x04000000
    let off := x % 0x01000000
    decide (0x200000000 ≤ a) && ((code == 0x47 && decide (off < 0x1080 ∨ 0x1400 ≤ off ∧ off < 0x1610))
      || (code == 0x60 && decide (off < 0x100000 ∧ off % 16 < 12))
      || (code == 0x62 && decide (off < 0x2000 ∧ 12 ≤ off % 32 ∧ off % 32 < 28))
      || (code == 0x23 && decide (off < 0x10000)))

/-- The cells of the hit space do not chain (R610). -/
def isHitCell (a : Nat) : Bool := decide (0x200000000 ≤ a) && (a - 0x200000000) / 0x04000000 == 0x23

/-- CHAINABLE of the cell at `a` (R609, R610). -/
def chainable (a : Nat) : Bool := a % 8 == 0 && isCell a && isCell (a + 4) && !isHitCell a

/-- The cell at `a` is the lower cell of a chained pair; a write of CHAIN counts from the next clock (R609). -/
def Dev.chained (d : Dev) (a : Nat) : Bool := chainable a && (Map.get (fun _ => 0) d.before.cellCtl a).getLsbD 1

/-- The cell at `a` is the upper cell of a chained pair (CHAINED_UP). -/
def Dev.chainedUp (d : Dev) (a : Nat) : Bool := a % 8 == 4 && d.chained (a - 4)

/-- The key by which a clock's set bits name the control word of a cell. -/
def ctlKey (a : Nat) : Nat := 2 ^ 60 + a

/-- Set OVF of the cell at `a` (R608). -/
def Dev.setOvf (d : Dev) (a : Nat) : Dev :=
  { d with
    cellCtl := Map.put (fun _ => 0) d.cellCtl a ((Map.get (fun _ => 0) d.cellCtl a) ||| 1#32)
    clk := { d.clk with hwSet := (ctlKey a, 1) :: d.clk.hwSet } }

/-- A counter cell counts `k` events (R607): it wraps modulo 2^32 and sets OVF (R608); the lower cell of a chained pair
carries into the upper, whose own event is not counted (R609). -/
def Dev.bump (d : Dev) (a : Nat) (k : Nat := 1) : Dev :=
  if d.chainedUp a || k == 0 then d
  else
    let s := (d.rd a).toNat + k
    let carry := s / 2 ^ 32
    let d := d.wr a (BitVec.ofNat 32 s)
    if carry = 0 then d
    else if d.chained a then
      let u := (d.rd (a + 4)).toNat + carry
      let d := d.wr (a + 4) (BitVec.ofNat 32 u)
      if u < 2 ^ 32 then d else d.setOvf a
    else d.setOvf a

/-- A performance counter counts: it stops in SHED-2 to SHED-4 (R586). -/
def Dev.bumpPerf (d : Dev) (a : Nat) (k : Nat := 1) : Dev := if d.runState.perfRuns then d.bump a k else d

/-! ## The chip event log (R616 to R620) -/

/-- Raise a log entry (R618): it enters the intake of 64, or is dropped and counted. -/
def Dev.logEntry (d : Dev) (code region block data : Nat) : Dev :=
  if d.log.intake.length < 64 then
    { d with log := { d.log with intake := d.log.intake ++ [⟨code, region, block, data, d.now⟩] } }
  else d.bump R.LOG_DROPPED

/-- A chip-level log entry (BLOCK 0xF). -/
def Dev.logChip (d : Dev) (code data : Nat) : Dev := d.logEntry code 0 0xF data

/-! ## Errors raised (R593) -/

/-- Note an error, to be handled as the clock ends. -/
def Dev.raise (d : Dev) (r : Raised) : Dev := { d with raised := d.raised ++ [r] }

/-- An event is raised to a higher severity (R594): counted, with an ESCALATED entry that names both severities, coded 0 to 3
in the order of Table 0-6, and the rule. -/
def Dev.escalation (d : Dev) (n k low high rule : Nat) : Dev :=
  (d.bump R.ERR_ESCALATED).logEntry 0x0006 n k (low + 16 * high + 256 * rule)

/-- A contained error of block k of region n. -/
def Dev.contained (d : Dev) (n k : Nat) (cell addr : Nat := 0) : Dev := d.raise (.contained n k cell addr)

/-- A corrected error of block k of region n: counted (R9), and handled as the clock ends. -/
def Dev.corrected (d : Dev) (n k : Nat) (word : Option Nat) : Dev := (d.bump R.ERR_CORRECTED).raise (.corrected n k word)

/-- The log entry of a corrected error (R595): at most one a second per block, with LOG_CFG.CORR at 1. -/
def Dev.logCorrected (d : Dev) (n k : Nat) : Dev :=
  if d.flag R.LOG_CFG R.LOG_CFG.CORR then
    let key := 16 * n + k
    let last := Map.get (fun _ => 0) d.err.corrLast key
    if last ≠ 0 ∧ d.now < last + 1000 * ms then
      let c := Map.get (fun _ => 0) d.err.corrSuppressed key
      { d with err := { d.err with corrSuppressed := Map.put (fun _ => 0) d.err.corrSuppressed key (c + 1) } }
        |>.bump R.LOG_CORR_SUPPRESSED
    else
      let c := Map.get (fun _ => 0) d.err.corrSuppressed key
      let d := d.logEntry 0x0001 n k (c % 2 ^ 16)
      { d with err := { d.err with
          corrLast := Map.put (fun _ => 0) d.err.corrLast key (max 1 d.now),
          corrSuppressed := Map.put (fun _ => 0) d.err.corrSuppressed key 0 } }
  else d

/-! ## Masters, privilege and live groups -/

/-- The identity of a master (Table 16-4). -/
def masterId : Master → Nat
  | .pf h => h.val
  | .pe e => 0x10 + e.val
  | .supervisor => 0x50
  | .jtag => 0x51

/-- Whether a packet engine's access to a register counts as privileged (R176, R459). -/
def Dev.pePrivileged (d : Dev) (e a : Nat) : Bool :=
  let n := e / 16
  let t := (a - R.TB_NS 0) / 0x40
  (decide (R.TB_NS 0 ≤ a ∧ a < R.TB_NS 0 + 4 * 0x40) &&
      (d.fget (R.TB_CFG t) R.TB_CFG.OWNER == e && d.flag (R.TB_CFG t) R.TB_CFG.OWNER_EN))
    || (match regionOf a with
        | some r =>
          let pos := a % 0x10000
          let page := a / 0x10000 % 0x100
          (page == 7 && decide (0x080 ≤ pos ∧ pos < 0x180))
            || (r == n && page == 8 && (a == R.GRN_HOLD_CMD n || a == R.GRN_HOLD_FLUSH n))
            || (r == n && page == 5 + e / 8 % 2)
            || (r == n && page == 9 && decide (0xA00 ≤ pos ∧ pos < 0xC00))
            || (r == n && page == 7 && decide (0x380 ≤ pos ∧ pos < 0x400))
        | none => false)

/-- Whether an access of a master to a register is privileged, in the clock it reaches the register (R645, R528). -/
def Dev.privileged (d : Dev) (m : Master) (a : Nat) : Bool :=
  match m with
  | .pf h => (d.loader.layout.masterPort == h.val && d.loader.layout.masterInst == 0)
      || (a / 0x10000 == 0x100 * (h.val + 1) + 10 && decide (0x1000 ≤ a % 0x10000 ∧ a % 0x10000 < 0x1800))
  | .pe e => d.pePrivileged e.val a
  | .supervisor => true
  | .jtag => d.chip.state == .test

/-- Whether a live group is live for a register address (R92). -/
def Dev.groupLive (d : Dev) (g : LiveGroup) (a : Nat) : Bool :=
  match g with
  | .none => true
  | .chip k => d.loader.layout.liveChip.testBit k
  | .rgn k =>
    let n := if a < 0x200000000 then a / 0x01000000 - 1 else (a - 0x200000000) / 0x01000000 % 4
    (d.loader.layout.liveRgn.getD n 0).testBit k

/-- PCIe host port n is powered: its region is enabled, which no image has yet said in step 1 to 3 of a start (R82), or the built-in
recovery image runs with H0 (R649). -/
def Dev.hostPowered (d : Dev) (n : Nat) : Bool :=
  d.regionEnabled n || !d.loader.applied || (d.chip.recoveryImage && n == 0)

/-- Whether the chip answers register accesses of a master at all (R649): no master runs in HELD but for BAR0, which
answers nothing; JTAG has access in TEST only, where the others keep the access they had before; a PCIe port that is not
ready in START-COLD serves nothing. -/
def Dev.masterServed (d : Dev) (m : Master) : Bool :=
  let st := if d.chip.state = .test then d.chip.testFrom else d.chip.state
  match m with
  | .pf h => d.hostPowered h.val && st != .held && st != .off && !(st == .startCold && !d.flag (R.HST_STAT h.val) R.HST_STAT.READY)
  | .jtag => d.chip.state == .test
  | _ => st != .held && st != .off

/-- Region n is in region restart, as against a start in which it is not yet in RUN. -/
def Dev.restarting (d : Dev) (n : Nat) : Bool := d.armed ⟨.regionBound, n, 0⟩

/-- Whether the region of a register lets the access through (R49, R82): the region control page always does; a region left
DOWN lets nothing else through, and the built-in recovery image has rules of its own. -/
def Dev.regionServes (d : Dev) (a : Nat) : Bool :=
  match regionOf a with
  | none => true
  | some n => a / 0x10000 % 0x100 == 0 || d.chip.recoveryImage
      || (d.regionEnabled n && d.fget (R.RGN_STAT n) R.RGN_STAT.STATE != 2 && !d.restarting n)

/-- While the built-in recovery image runs, H0's BAR0 reaches the chip pages and two pages of region 0 (R649). -/
def Dev.recoveryServes (d : Dev) (a : Nat) : Bool :=
  !d.chip.recoveryImage || a < 0x100000 || a / 0x10000 == 0x100 || a / 0x10000 == 0x10A

/-- Judge one register write on its way (R639, R640, R646, R647, R649, R49): the state with the refusal recorded, and
the register reached when the write is to be performed. -/
def Dev.judgeWrite (d : Dev) (m : Master) (off : Nat) (be : Nat) : Dev × Option Nat :=
  if !d.masterServed m then (d, none)
  else if be ≠ 15 then (d.bump R.REG_PARTIAL_WR, none)
  else
    match decodeOffset off with
    | none => (d, none)
    | some a =>
      if !d.recoveryServes a || !d.regionServes a then (d, none)
      else if a / 0x10000 == 3 then (d, some a)
      else if d.privileged m a then (d, some a)
      else (d.bump R.REG_UNPRIV, none)

/-- One field of a word under a software write (Table 0-8); `set` holds the bits that hardware sets in the same clock, which a
write of 1 does not clear (R22). -/
def applyField (live : Bool) (set : Nat) (f : FieldDesc) (old v : Word) : Word :=
  match f.access with
  | .rw => f.fld.put old (f.fld.get v)
  | .rwl => if live then f.fld.put old (f.fld.get v) else old
  | .w1c => f.fld.put old (Nat.land (f.fld.get old)
      (Nat.lor (Nat.xor (2 ^ f.fld.width - 1) (f.fld.get v)) (bits set f.fld.lo f.fld.width)))
  | _ => old

/-- The bits of a word that a software write sets: its RW fields, and its RWL fields whose group is live. -/
def Dev.writtenMask (d : Dev) (a : Nat) (r : RegDesc) : Nat :=
  r.fields.foldl (fun m f =>
    if f.access == .rw || (f.access == .rwl && d.groupLive f.group a) then Nat.lor m ((2 ^ f.fld.width - 1) * 2 ^ f.fld.lo)
    else m) 0

/-- A word under a software write: every field by its access code; RWL fields only where their group is live (R92). -/
def Dev.storeWord (d : Dev) (a : Nat) (r : RegDesc) (v : Word) : Dev :=
  let w := r.fields.foldl (fun w f => applyField (d.groupLive f.group a) (maskAt d.clk.hwSet a) f w v) (d.rd a)
  let d : Dev := { d.wr a w with clk := { d.clk with swSet := (a, d.writtenMask a r) :: d.clk.swSet } }
  if r.fields.any (fun f => (f.access == .rwl || f.access == .wo || f.access == .w1s) && f.group != .none
      && !d.groupLive f.group a) then d.bump R.LDR_LIVE_IGN
  else d

end Sys2Proof.Machine
end

