-- ==== Sys2Proof/Machine/Operands.lean ====
section
/-! DEFINITION. What commands name and how the model finds it: the layout of a region, the banks of its tables, the words
of the indirect spaces, the lanes of a port, and the accounts of origins (Tables 2-9 to 2-12, 3-2, 7-3, 16-7). -/

namespace Sys2Proof.Machine

/-- The layout of region n. -/
def Dev.rl (d : Dev) (n : Nat) : RegionLayout := d.loader.layout.rgn.getD n RegionLayout.none_

/-- Class c is guarded (CLASSMAP.GUARDED). -/
def Dev.guardedClass (d : Dev) (c : Nat) : Bool := d.loader.layout.guarded.testBit c

/-- Class c is held during a topology hold (CLASSMAP.HELD). -/
def Dev.heldClass (d : Dev) (c : Nat) : Bool := d.loader.layout.held.testBit c

/-- The bank cells a region's CARVE gives to an owner. -/
def Dev.banksOf (d : Dev) (n owner : Nat) : List Nat :=
  (List.range 64).filter (fun b => (d.rl n).bankOwner.getD b 0xF == owner)

/-- How many banks an owner has. -/
def Dev.bankCount (d : Dev) (n owner : Nat) : Nat := (d.banksOf n owner).length

/-- The bank cell that holds INDEX i of an owner; a retired bank is served by its spare, and that one, once retired, by its own
(R284). -/
def Dev.bankAt (d : Dev) (n owner i : Nat) : Nat :=
  let b := ((d.banksOf n owner).find? (fun b => (d.rl n).bankIndex.getD b 0 == i)).getD 0
  match (d.tables.tbl.find? (fun x => x.1 = n)) with
  | some (_, t) => t.retired.foldl (fun b x => if x.1 = b then x.2 else b) b
  | none => b

/-! ## Words of the indirect spaces -/

/-- Word w of rule entry a (Table 5-19). -/
def ruleKey (n a w : Nat) : Nat := spWord 0x20 n + 32 * a + 4 * w
/-- Word w of the automaton memory. -/
def autKey (n w : Nat) : Nat := spWord 0x21 n + 4 * w
/-- The pattern map word of a pattern. -/
def patKey (n p : Nat) : Nat := spWord 0x22 n + 4 * p
/-- The pattern counter of a pattern. -/
def hitKey (n p : Nat) : Nat := spWord 0x23 n + 4 * p
/-- Word w of the FDB entry at half h, bucket i, way y, for m banks (R253). -/
def fdbKey (n m h i y w : Nat) : Nat :=
  spWord 0x30 n + 0x20000 * (2 * (i % (m / 2)) + h) + 8 * (i / (m / 2) * 4 + y) + 4 * w
/-- Word w of stash entry i. -/
def stashKey (n i w : Nat) : Nat := spWord 0x31 n + 16 * i + 4 * w
/-- Word w of the VLAN entry of a VID. -/
def vlanKey (n v w : Nat) : Nat := spWord 0x32 n + 8 * v + 4 * w
/-- Word w of a group. -/
def groupKey (n g w : Nat) : Nat := spWord 0x33 n + 32 * g + 4 * w
/-- A shadow word. -/
def shadowKey (n w : Nat) : Nat := spWord 0x34 n + 4 * w
/-- Word w of a policer configuration. -/
def polKey (n i w : Nat) : Nat := spWord 0x35 n + 16 * i + 4 * w
/-- The minima word of account (s, c). -/
def minKey (n s c : Nat) : Nat := spWord 0x40 n + 4 * (8 * s + c)
/-- Policer counter k of a policer (Table 8-14). -/
def polCntKey (n i k : Nat) : Nat := spWord 0x60 n + 16 * i + 4 * k
/-- Egress counter k of queue q (Table 8-14). -/
def qCntKey (n q k : Nat) : Nat := spWord 0x47 n + 16 * q + 4 * k
/-- Port counter k of local port j (Table 8-14). -/
def pCntKey (n j k : Nat) : Nat := spWord 0x47 n + 0x1400 + 16 * j + 4 * k
/-- Word w of a stream entry. -/
def streamKey (n j w : Nat) : Nat := spWord 0x61 n + 16 * j + 4 * w

/-- The memories whose 8-byte words carry one code each (chapter 6): the table banks of every owner, the stash, the VLAN and group
tables, the policer configurations and the shadow store. -/
def pairedSpaces : List Nat := [0x20, 0x21, 0x30, 0x31, 0x32, 0x33, 0x34, 0x35, 0x63, 0x71]

/-- The word with a code of its own that a key lies in. -/
def eccKey (k : Nat) : Nat :=
  if decide (0x200000000 ≤ k) && pairedSpaces.contains ((k - 0x200000000) / 0x04000000) then k / 8 * 8 else k

/-- The health of a memory word: 0 clean, 1 a single-bit error, 2 uncorrectable. -/
def Dev.fault (d : Dev) (k : Nat) : Nat := Map.get (fun _ => 0) d.faults (eccKey k)

/-- Mark the health of a memory word. -/
def Dev.setFault (d : Dev) (k v : Nat) : Dev := { d with faults := Map.put (fun _ => 0) d.faults (eccKey k) v }

/-- Write a memory word: the new code word is clean. -/
def Dev.wrMem (d : Dev) (k : Nat) (v : Word) : Dev := (d.wr k v).setFault k 0

/-- The words of a region's space that are listed, with their byte addresses in the space. -/
def Dev.spaceWords (d : Dev) (code n : Nat) : List (Nat × Word) :=
  (d.regs.filter (fun x => decide (spWord code n ≤ x.1 ∧ x.1 < spWord code n + 0x01000000))).map
    (fun x => (x.1 - spWord code n, x.2))

/-! ## Region parts -/

/-- A region's Winnow with nothing in progress. -/
def WinnowPart.init : WinnowPart := { cmd := none, effective := false }

/-- A region's table block after a restart: no command, empty filter and queue. -/
def TablePart.init : TablePart :=
  { pending := [], running := none, served := 3, victim := 0, filter := [], learn := [], pass := 0, burst := 0, inPass := false,
    passStart := 0, windowSince := false, acc := [], unsettled := [], mismatch := [], verifying := false, uncorrWords := [],
    corrCount := [], copying := none, failing := [], retired := [], counted := [], plan := none }

def Dev.wnw (d : Dev) (n : Nat) : WinnowPart := Map.get (fun _ => WinnowPart.init) d.tables.wnw n

def Dev.setWnw (d : Dev) (n : Nat) (w : WinnowPart) : Dev :=
  { d with tables := { d.tables with wnw := Map.put (fun _ => WinnowPart.init) d.tables.wnw n w } }

def Dev.tbl (d : Dev) (n : Nat) : TablePart := Map.get (fun _ => TablePart.init) d.tables.tbl n

def Dev.setTbl (d : Dev) (n : Nat) (t : TablePart) : Dev :=
  { d with tables := { d.tables with tbl := Map.put (fun _ => TablePart.init) d.tables.tbl n t } }

def Dev.modTbl (d : Dev) (n : Nat) (g : TablePart → TablePart) : Dev := d.setTbl n (g (d.tbl n))

/-- Background requests have been served at bank cells of region n, numbered 0 to 63 in the table block and from 64 on in the
buffer block (R30). -/
def Dev.backgroundServed (d : Dev) (n : Nat) (banks : List Nat) : Dev :=
  { d with frame := { d.frame with background := banks.foldl (fun m b => Map.put (fun _ => 0) m (112 * n + b) d.now) d.frame.background } }

/-- The bank cells that serve an owner. -/
def Dev.ownerBanks (d : Dev) (n owner : Nat) : List Nat := (List.range (d.bankCount n owner)).map (fun i => d.bankAt n owner i)

/-- The table memories of region n answer: neither block 6 nor block 8 restarts (R245, R288). -/
def Dev.tablesUp (d : Dev) (n : Nat) : Bool := d.regionRuns n && !d.blockInRestart n 6 && !d.blockInRestart n 8

/-! ## Errors in table memories -/

/-- The table that a word of a banked space belongs to and the INDEX of its bank (R253, Table 2-12): owner and INDEX. -/
def bankedSpace (code off : Nat) : Option (Nat × Nat) :=
  let i := off / 0x20000
  if code = 0x30 then some (1, i) else if code = 0x20 then some (2, i) else if code = 0x21 then some (3, i)
  else if code = 0x71 then some (4, i) else if code = 0x63 then some (5, i) else none

/-- The bank cell that holds the word of a key in region n, if the key lies in a banked space. -/
def Dev.bankOfKey (d : Dev) (n key : Nat) : Option Nat :=
  let x := key - 0x200000000
  (bankedSpace (x / 0x04000000) (x % 0x01000000)).map (fun oi => d.bankAt n oi.1 oi.2)

/-- A failing bank starts its copy to the lowest-numbered spare bank not yet in use (R284). -/
def Dev.spareStart (d : Dev) (n b : Nat) : Dev :=
  let t := d.tbl n
  match (d.banksOf n 0).find? (fun s => !t.retired.any (fun x => x.2 == s)) with
  | none => d.setFlag (R.TBL_SPARE_STAT n) R.TBL_SPARE_STAT.NONE_LEFT true
  | some s => (d.setTbl n { t with copying := some (b, s) }).setFlag (R.TBL_SPARE_STAT n) R.TBL_SPARE_STAT.COPYING true

/-- A bank becomes failing (R284): its copy starts, or waits for the one in progress. -/
def Dev.spareFailing (d : Dev) (n b : Nat) : Dev :=
  let t := d.tbl n
  if t.retired.any (fun x => x.1 == b) || t.copying.any (fun x => x.1 == b) || t.failing.contains b then d
  else if t.copying.isSome then d.setTbl n { t with failing := t.failing ++ [b] }
  else d.spareStart n b

/-- A single-bit error found in a table word (R275): corrected in place and counted, once for the reads of one clock; a bank with more than SPARE_CE of
them in a pass fails (R284). -/
def Dev.tableCorrected (d : Dev) (n key : Nat) : Dev :=
  let key := eccKey key
  if d.raised.contains (.corrected n 6 (some key)) then d
  else
  let d := (d.bump (R.TBL_CORR n)).corrected n 6 (some key)
  match d.bankOfKey n key with
  | none => d
  | some b =>
    let t := d.tbl n
    let c := Map.get (fun _ => 0) t.corrCount b + 1
    let d := d.setTbl n { t with corrCount := Map.put (fun _ => 0) t.corrCount b c }
    let lim := d.fget (R.TBL_GLN_CFG n) R.TBL_GLN_CFG.SPARE_CE
    if lim ≠ 0 ∧ lim < c then d.spareFailing n b else d

/-- An uncorrectable table word is found (R276): counted once, contained, and two different words of one bank in a pass
make the bank fail (R284). -/
def Dev.tableUncorr (d : Dev) (n key : Nat) : Dev :=
  let key := eccKey key
  let t := d.tbl n
  let known := t.counted.filter (fun k => d.fault k == 2)
  if known.contains key then d
  else
    let d := (d.setTbl n { t with counted := known ++ [key] }).bump (R.TBL_UNCORR n)
    let d := d.contained n 6 ((d.bankOfKey n key).getD 0) (key % 0x10000)
    match d.bankOfKey n key with
    | none => d
    | some b =>
      let t := d.tbl n
      let ws := Map.get (fun _ => []) t.uncorrWords b
      let ws := if ws.contains key then ws else ws ++ [key]
      let d := d.setTbl n { t with uncorrWords := Map.put (fun _ => []) t.uncorrWords b ws }
      if 2 ≤ ws.length then d.spareFailing n b else d

/-- Access a table word: a single-bit error is corrected, an uncorrectable one is reported. Answers whether the word can
be used. -/
def Dev.touch (d : Dev) (n key : Nat) : Bool × Dev :=
  match d.fault key with
  | 0 => (true, d)
  | 1 => (true, d.tableCorrected n key)
  | _ => (false, d.tableUncorr n key)

/-- Access several table words. -/
def Dev.touchAll (d : Dev) (n : Nat) (keys : List Nat) : Bool × Dev :=
  keys.foldl (fun acc k => let r := acc.2.touch n k; (acc.1 && r.1, r.2)) (true, d)

/-! ## Ports -/

/-- Mode, FEC and enabled lanes of a port block (Table 2-9). -/
def Dev.pbMode (d : Dev) (b : Nat) : Nat := (d.rl (b / 4)).pbMode.getD (b % 4) 0
def Dev.pbFec (d : Dev) (b : Nat) : Nat := (d.rl (b / 4)).pbFec.getD (b % 4) 0
def Dev.pbLanes (d : Dev) (b : Nat) : Nat := (d.rl (b / 4)).pbLanes.getD (b % 4) 0

/-- The lanes of the block a MAC cell uses in a mode (Table 3-2). -/
def cellLanes (mode lanes k : Nat) : List Nat :=
  if mode = 0 then []
  else if mode ≤ 5 then (if k < 4 && lanes.testBit k then [k] else [])
  else if mode = 6 then
    if k = 0 && lanes.testBit 0 then [0, 1] else if k = 2 && lanes.testBit 2 then [2, 3] else []
  else if mode ≤ 8 then (if k = 0 && lanes == 15 then [0, 1, 2, 3] else [])
  else if mode ≤ 10 then
    match ((List.range 4).filter (fun j => lanes.testBit j))[k / 4]? with
    | some j => [j]
    | none => []
  else []

/-- The lanes (by global lane number) of a port: 66 and 67 are the lanes of H4 and H5. -/
def Dev.portLanes (d : Dev) (p : Nat) : List Nat :=
  if p < 128 then (cellLanes (d.pbMode (p / 8)) (d.pbLanes (p / 8)) (p % 8)).map (fun j => 4 * (p / 8) + j)
  else if p = 132 then [66] else if p = 133 then [67] else []

/-- The port's MAC cell is used by its block's mode (R125). -/
def Dev.portPresent (d : Dev) (p : Nat) : Bool := !(d.portLanes p).isEmpty

/-- The ports that use a lane of a block. -/
def Dev.lanePorts (d : Dev) (l : Nat) : List Nat :=
  if l < 64 then ((List.range 8).map (fun k => 8 * (l / 4) + k)).filter (fun p => (d.portLanes p).contains l)
  else if l = 66 then [132] else [133]

/-- The block index of a port's block within its region (Table 1-4); the Ethernet host ports lie in the host block. -/
def portBlockIndex (p : Nat) : Nat := if p < 128 then p / 8 % 4 else 9

/-- The source account of an origin in its region (Table 7-3). -/
def Origin.account : Origin → Nat
  | .port p => if p < 128 then p % 32 else 33
  | .host _ _ => 32
  | .engine e => 34 + e / 8 % 2

/-- The region of an origin. -/
def Origin.region : Origin → Nat
  | .port p => portRegion p
  | .host n _ => n
  | .engine e => e / 16

/-- The destination code of an origin, for network and host ports (Table 6-2). -/
def Origin.destCode : Origin → Option Nat
  | .port p => some p
  | .host n _ => some (128 + n)
  | .engine _ => none

/-- The region a destination code of a port lies in (Table 6-2: 128 to 133 are H0 to H5). -/
def destRegion (dest : Nat) : Nat :=
  if dest < 128 then dest / 32 else if dest < 132 then dest - 128 else if dest = 132 then 1 else 3

/-- The destination index within its region: 0 to 31, 32 for Hn, 33 for H4 or H5 (Table 10-14). -/
def destLocal (dest : Nat) : Nat := if dest < 128 then dest % 32 else if dest < 132 then 32 else 33

/-- The key of number i of region n in a map over a region's objects. -/
def rkey (n i : Nat) : Nat := 0x1000000 * n + i

/-! ## The admission journal's entries (R415) -/

def JEntry.init : JEntry :=
  { state := .free, cls := 0, src := 0, head := 0, seq := 0, dest := 0, commitGen := 0, length := 0, first := 0, pending := 0,
    badA := false, badB := false, descr := none }

/-- Entry i of region n's journal as stored. -/
def Dev.jentry (d : Dev) (n i : Nat) : JEntry := Map.get (fun _ => JEntry.init) d.frame.journal (rkey n i)
def Dev.setJentry (d : Dev) (n i : Nat) (x : JEntry) : Dev :=
  { d with frame := { d.frame with journal := Map.put (fun _ => JEntry.init) d.frame.journal (rkey n i) x } }

/-- An access to an entry: one bad copy is restored from the other; both bad make the entry LOST (R415). -/
def Dev.accessEntry (d : Dev) (n i : Nat) : Dev :=
  let x := d.jentry n i
  if x.badA && x.badB then
    (d.setJentry n i { JEntry.init with state := .lost }).setFlag (R.ACC_EVT n) R.ACC_EVT.JRNL_LOST true
  else if x.badA || x.badB then d.setJentry n i { x with badA := false, badB := false }
  else d

end Sys2Proof.Machine
end

