-- ==== Sys2Proof/Machine/Axes.lean ====
section
/-! DEFINITION. The six phase axes, the positions of their users, snapshots, and the windows for background work
(chapter 4; R612, R613). -/

namespace Sys2Proof.Machine

/-! ## Axis values (Table 4-1) -/

/-- Time base t. -/
def Dev.tbase (d : Dev) (t : Nat) : TimeBase := Map.get (fun _ => ⟨0, 0⟩) d.time.tb t

def Dev.setTbase (d : Dev) (t : Nat) (b : TimeBase) : Dev :=
  { d with time := { d.time with tb := Map.put (fun _ => ⟨0, 0⟩) d.time.tb t b } }

/-- NS of a time base. -/
def TimeBase.ns (b : TimeBase) : Nat := b.value / 2 ^ 32 % 2 ^ 32

/-- FRAC of a time base. -/
def TimeBase.frac (b : TimeBase) : Nat := b.value % 2 ^ 32

/-- TB0 to TB3 in one clock. -/
def Dev.tbAll (d : Dev) : List Nat := [0, 1, 2, 3].map (fun t => (d.tbase t).ns)

/-- The 32-bit value of an axis. -/
def Dev.axisValue (d : Dev) (ax : Nat) : Nat :=
  if ax < 4 then (d.tbase ax).ns else if ax = 4 then d.time.mains.value else d.time.odo.value

/-- The units an axis has advanced in all: what positions follow (R192). -/
def Dev.axisAcc (d : Dev) (ax : Nat) : Int :=
  if ax < 4 then (d.tbase ax).acc else if ax = 4 then d.time.mains.acc else d.time.odo.acc

/-- Cycle limits (Table 4-3, R196). -/
def cycleOk (ax c : Nat) : Bool :=
  if ax < 4 then decide (1000 ≤ c ∧ c ≤ 1000000000)
  else if ax = 4 then decide (65536 ≤ c ∧ c ≤ 65536 * 256) && c % 65536 == 0
  else if ax = 5 then decide (1 ≤ c ∧ c ≤ 2147483647)
  else false

/-- The axis reading a user's position counts from, as at enabling (R192). -/
def Dev.originFor (d : Dev) (ax base : Nat) : Int := d.axisAcc ax - signed 32 (d.axisValue ax + 2 ^ 32 - base)

/-- A user's position: 0 to C - 1 (R192). -/
def Dev.position (d : Dev) (ax : Nat) (origin : Int) (c : Nat) : Nat := ((d.axisAcc ax - origin) % (c : Int)).toNat

/-- A time base that is not VALID makes its pulse outputs and schedule slots inactive (R195). -/
def Dev.axisValid (d : Dev) (ax : Nat) : Bool := decide (4 ≤ ax) || d.flag (R.TB_STAT ax) R.TB_STAT.VALID

/-- Users are fed in every state but OFF and HELD (Table 4-6). -/
def Dev.usersRun (d : Dev) : Bool := d.chip.state != .held && d.chip.state != .off

/-! ## Holdover (R177) -/

/-- HOLDOVER is set, and counted when it changes from 0 to 1. -/
def Dev.holdover (d : Dev) (t : Nat) : Dev :=
  if d.flag (R.TB_STAT t) R.TB_STAT.HOLDOVER then d
  else (d.setFlag (R.TB_STAT t) R.TB_STAT.HOLDOVER true).bump (R.TB_HOLD_CNT t)

/-- The owner engines in `stops` stop: their time bases enter holdover. -/
def Dev.enginesStop (d : Dev) (stops : Nat → Bool) : Dev :=
  d.each [0, 1, 2, 3] (fun t d =>
    if d.flag (R.TB_CFG t) R.TB_CFG.OWNER_EN && stops (d.fget (R.TB_CFG t) R.TB_CFG.OWNER) then d.holdover t else d)

/-- Arm the rate watchdog of a time base. -/
def Dev.armHoldWatch (d : Dev) (t : Nat) : Dev :=
  let h := d.fget (R.TB_CFG t) R.TB_CFG.HOLD_10MS
  if h = 0 then d.disarm ⟨.tbWatch, t, 0⟩ else d.arm ⟨.tbWatch, t, 0⟩ (h * 10 * ms)

/-! ## Snapshots (R612, R613) -/

/-- The cell a counter address names, if it names one. -/
def counterCell (a : Nat) : Option Nat :=
  if a < 2 ^ 31 then
    match (if a < 2 ^ 26 then decodeOffset a else none) with
    | some k => if isCell k then some k else none
    | none => none
  else
    let k := spWord (bits a 20 8) (bits a 28 2) + bits a 0 20
    if a < 2 ^ 31 + 2 ^ 30 ∧ isCell k then some k else none

/-- The two words a list entry yields. -/
def Dev.snapCell (d : Dev) (a : Nat) : Nat × Nat :=
  match counterCell a with
  | none => (0, 0)
  | some k => ((d.rd k).toNat, if d.chained k then (d.rd (k + 4)).toNat else 0)

/-- The list entries captured: SNAP_CFG.LEN, above 256 as 256. -/
def Dev.snapLen (d : Dev) : Nat := min 256 (d.fget R.SNAP_CFG R.SNAP_CFG.LEN)

/-- A snapshot falls in this clock (R612): those of one clock make one, taken as it ends, after every HOLD of the clock (R613). -/
def Dev.snapshot (d : Dev) : Dev := { d with clk := { d.clk with snap := true } }

/-- The snapshot of a clock is taken: all axes as they stand in it and the listed cells, into the buffer R613 names. -/
def Dev.snapEnd (d : Dev) : Dev :=
  if !d.clk.snap then d
  else
    let d : Dev := { d with clk := { d.clk with snap := false } }
    let held := d.flag R.SNAP_STAT R.SNAP_STAT.HELD_VALID
    let buf := if held then 1 - d.fget R.SNAP_STAT R.SNAP_STAT.HELD else 1 - d.fget R.SNAP_STAT R.SNAP_STAT.LATEST
    let d := (d.bump R.SNAP_TAKEN).fset R.SNAP_STAT R.SNAP_STAT.LATEST buf
    let s : Snapshot :=
      { tb := d.was.tbAll, mains := d.was.time.mains.value, odo := d.was.time.odo.value, number := (d.rd R.SNAP_TAKEN).toNat,
        cells := (List.range d.snapLen).map (fun i => d.snapCell (d.rd (spWord 0x06 0 + 4 * i)).toNat) }
    { d with snap := setAt d.snap buf s, time := { d.time with lastSnap := some d.now } }

/-- SNAP_CMD.HOLD: the buffer that LATEST names is held. -/
def Dev.snapHold (d : Dev) : Dev :=
  (d.setFlag R.SNAP_STAT R.SNAP_STAT.HELD_VALID true).fset R.SNAP_STAT R.SNAP_STAT.HELD
    (d.fget R.SNAP_STAT R.SNAP_STAT.LATEST)

/-- SNAP_CMD.RELEASE: the hold ends. -/
def Dev.snapRelease (d : Dev) : Dev := d.setFlag R.SNAP_STAT R.SNAP_STAT.HELD_VALID false

/-! ## Schedule slots (R205 to R210) -/

def AxisUser.init : AxisUser := { origin := 0, started := false, active := false, fallback := false, owed := 0, gapFrom := 0 }

/-- Slot s. -/
def Dev.slotUser (d : Dev) (s : Nat) : AxisUser := Map.get (fun _ => AxisUser.init) d.time.slot s

def Dev.setSlotUser (d : Dev) (s : Nat) (u : AxisUser) : Dev :=
  { d with time := { d.time with slot := Map.put (fun _ => AxisUser.init) d.time.slot s u } }

/-- KIND of a slot: 5 to 7 act as 0 (Table 4-4). -/
def Dev.slotKind (d : Dev) (s : Nat) : Nat :=
  let k := d.fget (R.SCH_CFG s) R.SCH_CFG.KIND
  if 5 ≤ k then 0 else k

def Dev.slotAxis (d : Dev) (s : Nat) : Nat := d.fget (R.SCH_CFG s) R.SCH_CFG.AXIS
def Dev.slotCycle (d : Dev) (s : Nat) : Nat := (d.rd (R.SCH_CYCLE s)).toNat
def Dev.slotOn (d : Dev) (s : Nat) : Bool := d.flag (R.SCH_CFG s) R.SCH_CFG.EN && d.slotKind s != 0

/-- BADCFG of an enabled slot (R167, R196). -/
def Dev.slotBad (d : Dev) (s : Nat) : Bool := d.slotOn s && !cycleOk (d.slotAxis s) (d.slotCycle s)

/-- Whether a position lies in the window (R205, R210). -/
def Dev.inWindow (d : Dev) (s pos : Nat) : Bool :=
  let c := d.slotCycle s
  let len := (d.rd (R.SCH_LEN s)).toNat
  let op := (d.rd (R.SCH_OPEN s)).toNat
  if len = 0 then false else if c ≤ len then true else decide ((pos + c - op % c) % c < len)

/-- Whether the slot's window is open at its position now. -/
def Dev.windowNow (d : Dev) (s : Nat) : Bool :=
  d.slotOn s && !d.slotBad s && d.usersRun && d.axisValid (d.slotAxis s)
    && d.inWindow s (d.position (d.slotAxis s) (d.slotUser s).origin (d.slotCycle s))

/-- The targets a slot names that exist. -/
def Dev.slotTargets (d : Dev) (s : Nat) : Nat :=
  let t := d.fget (R.SCH_CFG s) R.SCH_CFG.TARGET
  (List.range 4).foldl (fun acc n => if t.testBit n && d.regionEnabled n then acc + 2 ^ n else acc) 0

/-- SCH_STAT.OPEN follows the window and the fallback window; BADCFG the configuration. -/
def Dev.refreshSlotStat (d : Dev) (s : Nat) : Dev :=
  let u := d.slotUser s
  (d.setFlag (R.SCH_STAT s) R.SCH_STAT.OPEN (u.active || u.fallback)).setFlag (R.SCH_STAT s) R.SCH_STAT.BADCFG (d.slotBad s)

/-- Arm the gap limit of a slot, which counts from its last opening or its enabling: MAXGAP_MS of 0 sets none (R207). -/
def Dev.armGap (d : Dev) (s : Nat) : Dev :=
  let g := d.fget (R.SCH_CFG s) R.SCH_CFG.MAXGAP_MS
  if g = 0 || !d.slotOn s then d.disarm ⟨.schedGap, s, 0⟩
  else d.arm ⟨.schedGap, s, 0⟩ ((d.slotUser s).gapFrom + g * ms - d.now)

/-- The gap limit of a slot starts anew. -/
def Dev.restartGap (d : Dev) (s : Nat) : Dev := (d.setSlotUser s { d.slotUser s with gapFrom := d.now }).armGap s

/-- An ordinary opening: counted, the gap limit starts anew, a kind 4 slot takes a snapshot (R209), and a kind 1 slot
allows its regions a new Gleaner pass (R278). -/
def Dev.countOpening (d : Dev) (s : Nat) : Dev :=
  let d := (d.bump (R.SCH_OPENS s)).restartGap s
  if d.slotKind s = 4 then d.snapshot
  else if d.slotKind s = 1 then
    d.each [0, 1, 2, 3] (fun n d => if (d.slotTargets s).testBit n then d.modTbl n (fun t => { t with windowSince := true })
      else d)
  else d

/-- A window or a fallback window of kind 2 opens: its channels start a pass (R205, R401). -/
def Dev.passesOpen (d : Dev) (s : Nat) : Dev :=
  if d.slotKind s = 2 then { d with time := { d.time with passes := Nat.lor d.time.passes (d.slotTargets s) } } else d

/-- SCHEDULE_WINDOW_OPEN: the window opens when the position has entered it. -/
def Dev.slotOpen (d : Dev) (s : Nat) : Dev :=
  let u := d.slotUser s
  if u.active || !d.windowNow s then d
  else (((d.setSlotUser s { u with active := true }).refreshSlotStat s).countOpening s).passesOpen s

/-- A fallback window whose work is done for every target. -/
def AxisUser.fallbackDone (u : AxisUser) : Bool := u.fallback && u.owed == 0

/-- SCHEDULE_WINDOW_CLOSE: the window closes when the position has left it, a fallback window once its work is done. -/
def Dev.slotClose (d : Dev) (s : Nat) : Dev :=
  let u := d.slotUser s
  let u := if u.active && !d.windowNow s then { u with active := false } else u
  let u := if u.fallbackDone then { u with fallback := false } else u
  (d.setSlotUser s u).refreshSlotStat s

/-- SCHEDULE_FALLBACK_WINDOW (R207). -/
def Dev.slotFallback (d : Dev) (s : Nat) : Dev :=
  if !d.due ⟨.schedGap, s, 0⟩ || !d.slotOn s || !d.usersRun || d.windowNow s then d
  else
    let u := d.slotUser s
    let owed := if d.slotKind s = 4 then 0 else d.slotTargets s
    let d := d.setSlotUser s { u with fallback := true, owed := owed }
    let d := ((d.setFlag (R.SCH_STAT s) R.SCH_STAT.LATE true).bump (R.SCH_LATE s)).restartGap s
    let d := (d.refreshSlotStat s).passesOpen s
    if d.slotKind s = 4 then d.snapshot
    else if d.slotKind s = 1 then
      d.each [0, 1, 2, 3] (fun n d => if owed.testBit n then d.modTbl n (fun t => { t with windowSince := true }) else d)
    else d

/-- One unit of work of a kind has completed for a target: fallback windows owe it no more. -/
def Dev.workDone (d : Dev) (kind target : Nat) : Dev :=
  d.each (List.range 8) (fun s d =>
    let u := d.slotUser s
    if u.fallback && d.slotKind s == kind then d.setSlotUser s { u with owed := setBit u.owed target false } else d)

/-- The enabled slots of one kind that name a target. -/
def Dev.slotsNaming (d : Dev) (kind target : Nat) : List Nat :=
  (List.range 8).filter (fun s =>
    d.slotOn s && d.slotKind s == kind && (d.fget (R.SCH_CFG s) R.SCH_CFG.TARGET).testBit target)

/-- Work of a kind may start for a target: an open window names it, or no enabled slot of the kind does (R205, R206). -/
def Dev.workAllowed (d : Dev) (kind target : Nat) : Bool :=
  let named := d.slotsNaming kind target
  named.isEmpty || named.any (fun s => d.flag (R.SCH_STAT s) R.SCH_STAT.OPEN)

/-- Enabling a slot: its position starts under R192 and its gap limit runs. -/
def Dev.enableSlot (d : Dev) (s : Nat) : Dev :=
  let d := d.setSlotUser s
    { AxisUser.init with origin := d.originFor (d.slotAxis s) (d.rd (R.SCH_BASE s)).toNat, gapFrom := d.now }
  (d.refreshSlotStat s).armGap s

/-- Disabling a slot closes its window. -/
def Dev.disableSlot (d : Dev) (s : Nat) : Dev :=
  ((d.setSlotUser s AxisUser.init).refreshSlotStat s).disarm ⟨.schedGap, s, 0⟩

/-! ## Pulse outputs (R200, R201) -/

/-- Generator j. -/
def Dev.pulseUser (d : Dev) (j : Nat) : AxisUser := Map.get (fun _ => AxisUser.init) d.time.pulse j

def Dev.setPulseUser (d : Dev) (j : Nat) (u : AxisUser) : Dev :=
  { d with time := { d.time with pulse := Map.put (fun _ => AxisUser.init) d.time.pulse j u } }

def Dev.pulseAxis (d : Dev) (j : Nat) : Nat := d.fget (R.PO_CFG j) R.PO_CFG.AXIS
def Dev.pulsePeriod (d : Dev) (j : Nat) : Nat := (d.rd (R.PO_PERIOD j)).toNat
def Dev.pulseOn (d : Dev) (j : Nat) : Bool := d.flag (R.PO_CFG j) R.PO_CFG.EN

/-- BADCFG of an enabled generator (R167, R196). -/
def Dev.pulseBad (d : Dev) (j : Nat) : Bool := d.pulseOn j && !cycleOk (d.pulseAxis j) (d.pulsePeriod j)

/-- The level of PULSE_OUT[j]: that of its output, active or not, under POL (R200). -/
def Dev.pulsePin (d : Dev) (j : Nat) : Dev :=
  let high := (d.pulseUser j).active != d.flag (R.PO_CFG j) R.PO_CFG.POL
  if d.time.pins.testBit j == high then d
  else ({ d with time := { d.time with pins := setBit d.time.pins j high } } : Dev).emit (.pulse j high)

/-- PULSE_OUTPUT_EDGE: the generator's output follows its position (R194, R200). -/
def Dev.pulseRefresh (d : Dev) (j : Nat) : Dev :=
  let u := d.pulseUser j
  let ax := d.pulseAxis j
  let ok := d.pulseOn j && !d.pulseBad j && d.usersRun && d.axisValid ax
  let started := d.pulseOn j && (u.started || ax == 5 || decide (u.origin ≤ d.axisAcc ax))
  let running := ok && started
  let width := (d.rd (R.PO_WIDTH j)).toNat
  let active := running && width != 0 && decide (d.position ax u.origin (d.pulsePeriod j) < width)
  let d := d.setPulseUser j { u with started := started, active := active }
  let d := ((d.setFlag (R.PO_STAT j) R.PO_STAT.LEVEL active).setFlag (R.PO_STAT j) R.PO_STAT.RUNNING running).setFlag
    (R.PO_STAT j) R.PO_STAT.BADCFG (d.pulseBad j)
  (if active && !u.active then d.bump (R.PO_EDGES j) else d).pulsePin j

/-- Enabling a generator. -/
def Dev.enablePulse (d : Dev) (j : Nat) : Dev :=
  (d.setPulseUser j { AxisUser.init with origin := d.originFor (d.pulseAxis j) (d.rd (R.PO_START j)).toNat }).pulseRefresh j

/-! ## Gate cadence tables (R197 to R199, R363, R364) -/

def GateRun.init : GateRun := { active := none, origin := 0, armed := none, mask := 0 }

/-- The gate table of port p (0 to 127). -/
def Dev.gate (d : Dev) (p : Nat) : GateRun := Map.get (fun _ => GateRun.init) d.frame.gates p

def Dev.setGate (d : Dev) (p : Nat) (g : GateRun) : Dev :=
  { d with frame := { d.frame with gates := Map.put (fun _ => GateRun.init) d.frame.gates p g } }

def Dev.gateOn (d : Dev) (p : Nat) : Bool := d.flag (R.G_CTRL (p / 32) (p % 32)) R.G_CTRL.EN
def Dev.gateAxis (d : Dev) (p : Nat) : Nat := d.fget (R.G_CTRL (p / 32) (p % 32)) R.G_CTRL.AXIS
def Dev.gateBase (d : Dev) (p b : Nat) : Nat := (d.rd (R.GT_BASE (p / 32) (p % 32) b)).toNat
def Dev.gateCycle (d : Dev) (p b : Nat) : Nat := (d.rd (R.GT_CYCLE (p / 32) (p % 32) b)).toNat
def Dev.gateLen (d : Dev) (p b : Nat) : Nat := d.fget (R.GT_LEN (p / 32) (p % 32) b) R.GT_LEN.ENTRIES
def Dev.gateDur (d : Dev) (p b e : Nat) : Nat := (d.rd (R.GT_DUR (p / 32) (p % 32) b e)).toNat
def Dev.gateOpenMask (d : Dev) (p b e : Nat) : Nat := d.fget (R.GT_GATES (p / 32) (p % 32) b e) R.GT_GATES.OPEN

/-- The bank that is not active: before any switch, bank 0. -/
def GateRun.pendingBank (g : GateRun) : Nat := match g.active with | some b => 1 - b | none => 0

/-- BADCFG of a bank (R364). -/
def Dev.bankBad (d : Dev) (p b : Nat) : Bool :=
  !cycleOk (d.gateAxis p) (d.gateCycle p b) || d.gateLen p b == 0 || decide (64 < d.gateLen p b)
    || (List.range (d.gateLen p b)).all (fun e => d.gateDur p b e == 0)

/-- The entry in force at a position (R197): the first whose cumulative duration exceeds it, else the last of non-zero
duration. -/
def Dev.entryAt (d : Dev) (p b pos : Nat) : Nat :=
  let r := (List.range (d.gateLen p b)).foldl (fun (acc : Nat × Option Nat × Nat) e =>
    let du := d.gateDur p b e
    let sum := acc.1 + du
    (sum, (match acc.2.1 with | some x => some x | none => if pos < sum then some e else none),
      if du = 0 then acc.2.2 else e)) (0, none, 0)
  r.2.1.getD r.2.2

/-- The axis reading at which an arming takes its switch (R198). -/
def Dev.armTarget (d : Dev) (p b : Nat) : Int :=
  let ax := d.gateAxis p
  if ax = 5 then d.axisAcc ax
  else
    let since := signed 32 (d.axisValue ax + 2 ^ 32 - d.gateBase p b)
    let c : Int := d.gateCycle p b
    if since ≤ 0 then d.axisAcc ax - since else d.axisAcc ax + ((c - since % c) % c)

/-- G_CTRL.ARM (R364): a pending bank that is BADCFG is not armed. -/
def Dev.gateArm (d : Dev) (p : Nat) : Dev :=
  let g := d.gate p
  let b := g.pendingBank
  let st := R.SCH_PSTAT (p / 32) (p % 32)
  if d.bankBad p b then d.setFlag st R.SCH_PSTAT.BADCFG true
  else (d.setGate p { g with armed := some (d.armTarget p b) }).setFlag st R.SCH_PSTAT.BADCFG false

/-- CADENCE_SWITCH: the axis has reached S and the pending bank becomes active (R198, R199). -/
def Dev.gateSwitch (d : Dev) (p : Nat) : Dev :=
  let g := d.gate p
  match g.armed with
  | none => d
  | some t =>
    if d.gateOn p && decide (t ≤ d.axisAcc (d.gateAxis p)) then
      let b := g.pendingBank
      let o := if d.gateAxis p = 5 then d.originFor 5 (d.gateBase p b) else t
      d.setGate p { g with active := some b, armed := none, origin := o }
    else d

/-- Position of a running table. -/
def Dev.gatePos (d : Dev) (p b : Nat) : Nat := d.position (d.gateAxis p) (d.gate p).origin (d.gateCycle p b)

/-! ## An axis that moves -/

/-- A SET recomputes the positions of the axis's users as at enabling (R193); a switch armed on it keeps its place S. -/
def Dev.reanchor (d : Dev) (ax : Nat) : Dev :=
  let d := d.each (List.range 4) (fun j d => if d.pulseOn j && d.pulseAxis j == ax then
    d.setPulseUser j { d.pulseUser j with origin := d.originFor ax (d.rd (R.PO_START j)).toNat } else d)
  let d := d.each (List.range 8) (fun s d => if d.slotOn s && d.slotAxis s == ax then
    d.setSlotUser s { d.slotUser s with origin := d.originFor ax (d.rd (R.SCH_BASE s)).toNat } else d)
  d.each (d.frame.gates.map (·.1)) (fun p d => if d.gateAxis p == ax then
    match (d.gate p).active with
    | some b => d.setGate p { d.gate p with origin := d.originFor ax (d.gateBase p b) }
    | none => d
    else d)

/-- The outputs, windows and switches of an axis's users take the values of its new place (R194, R199). -/
def Dev.refreshAxis (d : Dev) (ax : Nat) : Dev :=
  let d := d.each (List.range 4) (fun j d => if d.pulseOn j && d.pulseAxis j == ax then d.pulseRefresh j else d)
  let d := d.each (List.range 8) (fun s d => if d.slotOn s && d.slotAxis s == ax then (d.slotOpen s).slotClose s else d)
  d.each (d.frame.gates.map (·.1)) (fun p d => if d.gateAxis p == ax then d.gateSwitch p else d)

end Sys2Proof.Machine
end

