-- ==== Sys2Proof/Machine/Ports.lean ====
section
/-! DEFINITION. Ports and their lanes: link states and readiness, the receive checks, MDIO and I2C (chapter 3). -/

namespace Sys2Proof.Machine

/-! ## What a port is made of -/

/-- The port marks of a shedding register, which take effect from the clock after a write (R587). -/
def Dev.portMark (d : Dev) (reg : Nat → Nat) (p : Nat) : Bool := (d.was.rd (reg (p / 32))).getLsbD (p % 32)

/-- A shedding stage takes the port down (R164, Table 14-11, Table 13-8). -/
def Dev.portShed (d : Dev) (p : Nat) : Bool :=
  let s := d.stageActs
  if p < 128 then (decide (1 ≤ s) && d.portMark R.PWR_SHEDDABLE p) || (decide (4 ≤ s) && !d.portMark R.PWR_VITAL p)
  else decide (3 ≤ s)

/-- A lane's generator runs: GEN 1 to 5 (R165). -/
def Dev.prbsGen (d : Dev) (l : Nat) : Bool :=
  let g := d.fget (R.LN_PRBS l) R.LN_PRBS.GEN
  decide (1 ≤ g ∧ g ≤ 5)

/-- The region of a port's block and the block. -/
def Dev.portBlockUp (d : Dev) (p : Nat) : Bool :=
  !d.blockInRestart (portRegion p) (portBlockIndex p)
    && !d.start.testedOff.contains (16 * portRegion p + portBlockIndex p)
    && d.fget (R.RGN_STAT (portRegion p)) R.RGN_STAT.STATE != 2

/-- Nothing of Table 3-4 keeps the port in DISABLED. -/
def Dev.portEnabled (d : Dev) (p : Nat) : Bool :=
  d.portPresent p && d.flag (R.MAC_CFG p) R.MAC_CFG.EN && !d.portShed p && d.portBlockUp p
    && (d.portLanes p).all (fun l => !d.prbsGen l)

/-- The network reference of a port's block is present (R121, R551: H4 and H5 are references 16 and 17). -/
def refIndex (p : Nat) : Nat := if p < 128 then p / 8 else if p = 132 then 16 else 17
def Dev.refPresent (d : Dev) (b : Nat) : Bool := !d.mgmt.refLost.testBit b

/-- LSTATE (Table 3-4): 0 DISABLED, 1 CAL, 2 WAIT_SIGNAL, 3 LOCK, 4 ALIGN, 5 HOLD_UP, 6 UP, 7 HOLD_DOWN. -/
def Dev.lstate (d : Dev) (p : Nat) : Nat := d.fget (R.MAC_STAT p) R.MAC_STAT.LSTATE
def Dev.setLstate (d : Dev) (p s : Nat) : Dev := d.fset (R.MAC_STAT p) R.MAC_STAT.LSTATE s

/-- The region drains for a re-layout (R113). -/
def Dev.drainingRegion (d : Dev) (n : Nat) : Bool := d.loader.draining == some n

/-- The conditions of readiness (R134). -/
def Dev.computeReady (d : Dev) (p : Nat) : Bool :=
  decide (6 ≤ d.lstate p) && d.flag (R.MAC_CFG p) R.MAC_CFG.EN && d.regionRuns (portRegion p)
    && d.regionEnabled (portRegion p) && !d.drainingRegion (portRegion p) && d.chip.state.serving

/-- MAC_STAT.READY and the port's bit in PB_STAT.READY follow R134. -/
def Dev.refreshReady (d : Dev) (p : Nat) : Dev :=
  let r := d.computeReady p
  let d := d.setFlag (R.MAC_STAT p) R.MAC_STAT.READY r
  if p < 128 then d.setFieldBit (R.PB_STAT (p / 8)) R.PB_STAT.READY (p % 8) r else d

/-- The port is ready. -/
def Dev.portReady (d : Dev) (p : Nat) : Bool := d.flag (R.MAC_STAT p) R.MAC_STAT.READY

/-- All ports. -/
def allPorts : List Nat := List.range 128 ++ [132, 133]

/-- The ports of region n. -/
def regionPorts (n : Nat) : List Nat :=
  (List.range 32).map (32 * n + ·) ++ (if n = 1 then [132] else if n = 3 then [133] else [])

/-- The ports of block k (0 to 3 port blocks, 9 the host block) of region n. -/
def blockPorts (n k : Nat) : List Nat :=
  if k < 4 then (List.range 8).map (fun i => 8 * (4 * n + k) + i)
  else if k = 9 then (if n = 1 then [132] else if n = 3 then [133] else []) else []

/-! ## Lanes -/

/-- A lane loses signal: counted, and its lock with it. -/
def Dev.loseSync (d : Dev) (l : Nat) : Dev :=
  if d.flag (R.LN_STAT l) R.LN_STAT.SYNC then
    ((d.setFlag (R.LN_STAT l) R.LN_STAT.SYNC false).setFlag (R.LN_STAT l) R.LN_STAT.CDR_LOCK false).bump (R.LN_SYNC_LOSS l)
  else d.setFlag (R.LN_STAT l) R.LN_STAT.CDR_LOCK false

def Dev.loseSignal (d : Dev) (l : Nat) : Dev :=
  let d := if d.flag (R.LN_STAT l) R.LN_STAT.SIGNAL then
      (d.setFlag (R.LN_STAT l) R.LN_STAT.SIGNAL false).bump (R.LN_SIG_LOSS l) else d
  d.loseSync l

/-- A lane loses what it had recovered, without a loss on the line being counted. -/
def Dev.clearLane (d : Dev) (l : Nat) : Dev :=
  let w := d.rd (R.LN_STAT l)
  let w := R.LN_STAT.CAL_DONE.put (R.LN_STAT.SYNC.put (R.LN_STAT.CDR_LOCK.put (R.LN_STAT.SIGNAL.put w 0) 0) 0) 0
  (d.wr (R.LN_STAT l) w).setFlag (R.LN_RXEQ l) R.LN_RXEQ.ADAPTED false

/-- The lanes of the port lose what they had recovered. -/
def Dev.clearLanes (d : Dev) (p : Nat) : Dev := d.each (d.portLanes p) (fun l d => d.clearLane l)

/-- A lane holds no lock: its generator runs, or every port that uses it is shed, in a block that is down, or unused. A lane that
subports share stays up for those that go on (R163 to R165). -/
def Dev.laneOff (d : Dev) (l : Nat) : Bool :=
  d.prbsGen l || (d.lanePorts l).all (fun p => d.portShed p || !d.portBlockUp p || !d.portPresent p)

/-- The lanes of port p that no other port beyond CAL uses. -/
def Dev.soleLanes (d : Dev) (p : Nat) : List Nat :=
  (d.portLanes p).filter (fun l => (d.lanePorts l).all (fun q => q == p || decide (d.lstate q ≤ 1)))

/-- Alignment, FEC lock, speed and fault bits of the port are gone. -/
def Dev.clearAlign (d : Dev) (p : Nat) : Dev :=
  let a := R.MAC_STAT p
  ((((d.setFlag a R.MAC_STAT.ALIGNED false).setFlag a R.MAC_STAT.FEC_LOCK false).fset a R.MAC_STAT.SPEED 0).setFlag a
    R.MAC_STAT.LOCAL_FAULT false).setFlag a R.MAC_STAT.REMOTE_FAULT false

/-- The frame in reception at a port is ended by a fault (outcome 3 of Table 3-6), unless its last byte comes in this clock
(R140). -/
def Dev.cutReception (d : Dev) (p : Nat) : Dev :=
  { d with frame := { d.frame with landing := d.frame.landing.map (fun l =>
      if l.origin = .port p ∧ !l.ended ∧ l.cutAt = none then { l with cutAt := some d.now } else l) } }

/-- The lanes of port p that hold no lock lose it, and a frame in reception over them with it. -/
def Dev.dropOffLanes (d : Dev) (p : Nat) : Dev :=
  let off := (d.portLanes p).filter (fun l => d.laneOff l)
  if off.isEmpty then d else (d.each off (fun l d => d.clearLane l)).cutReception p

/-- The mode of a port: H4 and H5 are in 10G mode (R551). -/
def Dev.portMode (d : Dev) (p : Nat) : Nat := if p < 128 then d.pbMode (p / 8) else 4

/-- Link fault signalling: the BASE-R modes of 10G and faster (Table 3-3). -/
def Dev.faultSignalling (d : Dev) (p : Nat) : Bool := decide (4 ≤ d.portMode p ∧ d.portMode p ≤ 8)

/-- Port p transmits remote fault ordered sets, or no longer does (R136). -/
def Dev.faultTx (d : Dev) (p : Nat) (on : Bool) : Dev :=
  if d.mgmt.faultTx.testBit p == on then d
  else
    let d : Dev := { d with mgmt := { d.mgmt with faultTx := setBit d.mgmt.faultTx p on } }
    d.emit (.remoteFault p on)

/-! ## Link states (Table 3-4) -/

/-- DISABLED: `laneOff` where the lanes lose lock with it (R135). -/
def Dev.portDisable (d : Dev) (p : Nat) (laneOff : Bool) : Dev :=
  let d := ((d.setLstate p 0).disarm ⟨.holdUp, p, 0⟩).disarm ⟨.holdDown, p, 0⟩
  let d := (d.clearAlign p).faultTx p false
  let d := if laneOff then (d.clearLanes p).cutReception p else d
  d.refreshReady p

/-- CAL: bring-up begins; a lane that another subport uses stays as it is. -/
def Dev.portCal (d : Dev) (p : Nat) : Dev :=
  let d := ((d.setLstate p 1).disarm ⟨.holdUp, p, 0⟩).disarm ⟨.holdDown, p, 0⟩
  let d := (d.clearAlign p).faultTx p false
  ((d.each (d.soleLanes p) (fun l d => d.clearLane l)).cutReception p).refreshReady p

/-- WAIT_SIGNAL. -/
def Dev.portWait (d : Dev) (p : Nat) : Dev :=
  let d := ((d.setLstate p 2).disarm ⟨.holdUp, p, 0⟩).disarm ⟨.holdDown, p, 0⟩
  ((d.clearAlign p).cutReception p).refreshReady p

/-- The records of a port that passes through DOWN (R131; H4 and H5 report in HST_EVT). -/
def Dev.portDownRecords (d : Dev) (p : Nat) : Dev :=
  let d := d.bump (R.MAC_LINK_DOWN p)
  let d := if p < 128 then d.setFieldBit (R.PB_EVT (p / 8)) R.PB_EVT.LINK_DOWN (p % 8) true
    else d.setFlag (R.HST_EVT (portRegion p)) R.HST_EVT.ETH_LINK_DOWN true
  d.setFlag (R.MAC_STAT p) R.MAC_STAT.READY false

/-- The port follows what enables it: from DISABLED to CAL, or into DISABLED; its lanes that hold no lock lose it. -/
def Dev.refreshEnabled (d : Dev) (p : Nat) : Dev :=
  if d.portEnabled p then (if d.lstate p = 0 && d.chip.laneStep then d.portCal p else d.refreshReady p)
  else
    let d := d.dropOffLanes p
    if d.lstate p = 0 then d.refreshReady p else d.portDisable p false

/-- REFCLK_LOST (R123). -/
def Dev.refLost (d : Dev) (b : Nat) : Dev :=
  let d := { d with mgmt := { d.mgmt with refLost := setBit d.mgmt.refLost b true } }
  let d := if b < 16 then (d.setFlag (R.PB_EVT b) R.PB_EVT.REFCLK_LOST true).setFlag (R.PB_STAT b) R.PB_STAT.REFCLK_OK false
    else d
  d.each (allPorts.filter (fun p => refIndex p == b)) (fun p d =>
    if 6 ≤ d.lstate p then (d.portDownRecords p).portCal p
    else if 1 ≤ d.lstate p then d.portCal p else d)

/-- REFCLK_RETURN (R123): every enabled port of the block runs bring-up from CAL, where it stands. -/
def Dev.refReturn (d : Dev) (b : Nat) : Dev :=
  let d := { d with mgmt := { d.mgmt with refLost := setBit d.mgmt.refLost b false } }
  if b < 16 then d.setFlag (R.PB_STAT b) R.PB_STAT.REFCLK_OK true else d

/-- The ports whose machine runs CAL and LOCK with port p: those on the same lanes (subports share a lane). -/
def Dev.lanePeers (d : Dev) (p : Nat) : List Nat := match d.portLanes p with | l :: _ => d.lanePorts l | [] => []

/-- Apply a change to the lane peers that stand in a state. -/
def Dev.peersIn (d : Dev) (p s : Nat) (g : Nat → Dev → Dev) : Dev :=
  d.each (d.lanePeers p) (fun q d => if d.lstate q = s then g q d else d)

/-- CALIBRATION_COMPLETE: CAL to WAIT_SIGNAL, with the reference present. -/
def Dev.calComplete (d : Dev) (p : Nat) : Dev :=
  if d.lstate p = 1 && d.refPresent (refIndex p) then
    let d := d.each (d.portLanes p) (fun l d => d.setFlag (R.LN_STAT l) R.LN_STAT.CAL_DONE true)
    d.peersIn p 1 (fun q d => d.setLstate q 2)
  else d

/-- SIGNAL_DETECTED: WAIT_SIGNAL to LOCK. -/
def Dev.signalDetected (d : Dev) (p : Nat) : Dev :=
  if d.lstate p = 2 then
    let d := d.each (d.portLanes p) (fun l d => d.setFlag (R.LN_STAT l) R.LN_STAT.SIGNAL true)
    d.peersIn p 2 (fun q d => d.setLstate q 3)
  else d

/-- LOCK_ACHIEVED: LOCK to ALIGN, with the receiver's adapted settings. -/
def Dev.lockAchieved (d : Dev) (p ctle dfe : Nat) : Dev :=
  if d.lstate p = 3 then
    let d := d.each (d.portLanes p) (fun l d =>
      let d := (d.setFlag (R.LN_STAT l) R.LN_STAT.CDR_LOCK true).setFlag (R.LN_STAT l) R.LN_STAT.SYNC true
      ((d.fset (R.LN_RXEQ l) R.LN_RXEQ.CTLE ctle).fset (R.LN_RXEQ l) R.LN_RXEQ.DFE1 dfe).setFlag (R.LN_RXEQ l)
        R.LN_RXEQ.ADAPTED true)
    d.peersIn p 3 (fun q d => d.setLstate q 4)
  else d

/-- The lane of a port that an event names. -/
def Dev.portLane (d : Dev) (p i : Nat) : Nat := let l := d.portLanes p; l.getD (i % max 1 l.length) 0

/-- LOCK_LOST: before UP, loss of signal, or of lock from ALIGN on, returns the port to WAIT_SIGNAL; the lanes of a port in
DISABLED can lose the lock they still hold (R135). -/
def Dev.lockLost (d : Dev) (p lane : Nat) (signal : Bool) : Dev :=
  let s := d.lstate p
  if s = 0 ∧ d.portPresent p then (if signal then d.loseSignal (d.portLane p lane) else d.loseSync (d.portLane p lane))
  else if 3 ≤ s ∧ s ≤ 5 ∧ (signal ∨ 4 ≤ s) then
    let l := d.portLane p lane
    let d := if signal then d.loseSignal l else d.loseSync l
    d.each ((d.lanePorts l).filter (fun q => decide (3 ≤ d.lstate q ∧ d.lstate q ≤ 5))) (fun q d => d.portWait q)
  else d

/-- FEC of a port. -/
def Dev.portFec (d : Dev) (p : Nat) : Bool :=
  if p < 128 then d.pbFec (p / 8) != 0 else d.flag (R.HST_ETH_CFG (portRegion p)) R.HST_ETH_CFG.FEC

/-- SPEED of a port once aligned: the in-band speed for QSGMII and USXGMII subports (R130), of which a code above the mode's
highest acts as the highest (DESIGN CHOICE, log 85). -/
def Dev.portSpeed (d : Dev) (p inband : Nat) : Nat :=
  match d.portMode p with
  | 1 => 3 | 2 => 4 | 3 => 5 | 4 => 6 | 5 => 7 | 6 => 9 | 7 => 8 | 8 => 10
  | 9 => min inband 3
  | 10 => min inband 4
  | _ => 0

/-- A fault while UP: HOLD_DOWN for DOWN_MS, or, where that is 0, through DOWN to WAIT_SIGNAL (R131). -/
def Dev.portDownOrHold (d : Dev) (p : Nat) : Dev :=
  let down := d.fget (R.MAC_LINK p) R.MAC_LINK.DOWN_MS
  if down = 0 then (d.portDownRecords p).portWait p else (d.setLstate p 7).arm ⟨.holdDown, p, 0⟩ (down * ms)

/-- ALIGN_COMPLETE (Table 3-4, R126, R129): ALIGN to HOLD_UP when no local fault is present. A partner without full duplex
leaves the port in ALIGN, and in 1G mode with AN37 sets AN_FAIL, which stands until a later ALIGN completes (DESIGN CHOICE,
log 84). -/
def Dev.alignComplete (d : Dev) (p speed : Nat) (fullDuplex : Bool) : Dev :=
  let a := R.MAC_STAT p
  if d.lstate p ≠ 4 ∨ d.flag a R.MAC_STAT.LOCAL_FAULT then d
  else if !fullDuplex then d.when (d.portMode p == 1 && d.flag (R.MAC_CFG p) R.MAC_CFG.AN37) (·.setFlag a R.MAC_STAT.AN_FAIL true)
  else
    let d := d.faultTx p false
    let d := (d.setFlag a R.MAC_STAT.AN_FAIL false).fset a R.MAC_STAT.SPEED (d.portSpeed p speed)
    let m := d.portMode p
    let d := (d.setFlag a R.MAC_STAT.ALIGNED (decide (6 ≤ m ∧ m ≤ 8))).setFlag a R.MAC_STAT.FEC_LOCK (d.portFec p)
    (d.setLstate p 5).arm ⟨.holdUp, p, 0⟩ (d.fget (R.MAC_LINK p) R.MAC_LINK.UP_MS * ms)

/-- HOLD_UP_EXPIRY: HOLD_UP to UP (R131). -/
def Dev.holdUpExpire (d : Dev) (p : Nat) : Dev :=
  if d.lstate p = 5 && d.due ⟨.holdUp, p, 0⟩ then
    let d := (d.disarm ⟨.holdUp, p, 0⟩).setLstate p 6
    let d := if p < 128 then d.setFieldBit (R.PB_EVT (p / 8)) R.PB_EVT.LINK_UP (p % 8) true
      else d.setFlag (R.HST_EVT (portRegion p)) R.HST_EVT.ETH_LINK_UP true
    d.refreshReady p
  else d

/-- HOLD_DOWN_EXPIRY, or a DOWN_MS of 0: the port passes through DOWN to WAIT_SIGNAL (R131). -/
def Dev.portDown (d : Dev) (p : Nat) : Dev := (d.portDownRecords p).portWait p

/-- A fault on a port (Table 3-4): UP to HOLD_DOWN, HOLD_UP to WAIT_SIGNAL; in ALIGN a local fault holds it there. -/
def Dev.portFault (d : Dev) (p : Nat) (isLocal : Bool) : Dev :=
  let s := d.lstate p
  let a := R.MAC_STAT p
  let signal := fun (d : Dev) => d.when (d.faultSignalling p) (·.faultTx p true)
  if s = 6 then ((signal (if isLocal then d.setFlag a R.MAC_STAT.LOCAL_FAULT true else d)).cutReception p).portDownOrHold p
  else if s = 5 then (signal d).portWait p
  else if s = 4 then (if isLocal then d.setFlag a R.MAC_STAT.LOCAL_FAULT true else d.portWait p)
  else if s = 7 && isLocal then d.setFlag a R.MAC_STAT.LOCAL_FAULT true
  else d

/-- IN-BAND: a later code word of a QSGMII or USXGMII subport beyond ALIGN gives its speed anew (R130); one that demands half
duplex takes the link down, as one that reports it down does (a LINK_FAULT of alignment). -/
def Dev.inbandStatus (d : Dev) (p speed : Nat) (fullDuplex : Bool) : Dev :=
  if fullDuplex then d.fset (R.MAC_STAT p) R.MAC_STAT.SPEED (d.portSpeed p speed) else d.portFault p false

/-- The events of a port's alignment: ALIGN completes, or a later in-band code word arrives. -/
def Dev.alignEvent (d : Dev) (p speed : Nat) (fullDuplex : Bool) : Dev :=
  if decide (9 ≤ d.portMode p) && decide (5 ≤ d.lstate p) then d.inbandStatus p speed fullDuplex
  else d.alignComplete p speed fullDuplex

/-- LINK_FAULT: a local fault, or a loss of signal, lock or alignment; the lanes of a port in DISABLED can lose their lock
(R135). -/
def Dev.linkFault (d : Dev) (p lane : Nat) (c : FaultCause) : Dev :=
  if d.lstate p = 0 then (match c with | .signal => d.lockLost p lane true | .lock => d.lockLost p lane false | _ => d)
  else if d.lstate p < 4 then d
  else
    match c with
    | .localFault => d.portFault p true
    | .align => (d.setFlag (R.MAC_STAT p) R.MAC_STAT.ALIGNED false).portFault p false
    | .signal =>
      let l := d.portLane p lane
      (d.loseSignal l).each (d.lanePorts l) (fun q d => if 4 ≤ d.lstate q then d.portFault q false else d)
    | .lock =>
      let l := d.portLane p lane
      (d.loseSync l).each (d.lanePorts l) (fun q d => if 4 ≤ d.lstate q then d.portFault q false else d)

/-- FAULT_END: during HOLD_DOWN with ALIGN's conditions again, back to UP (R132); a local fault is gone. -/
def Dev.faultEnd (d : Dev) (p : Nat) : Dev :=
  let a := R.MAC_STAT p
  let d := (d.setFlag a R.MAC_STAT.LOCAL_FAULT false).faultTx p false
  if d.lstate p = 7 then
    let d := d.each (d.portLanes p) (fun l d =>
      ((d.setFlag (R.LN_STAT l) R.LN_STAT.SIGNAL true).setFlag (R.LN_STAT l) R.LN_STAT.CDR_LOCK true).setFlag (R.LN_STAT l)
        R.LN_STAT.SYNC true)
    let m := d.portMode p
    let d := (d.setFlag a R.MAC_STAT.ALIGNED (decide (6 ≤ m ∧ m ≤ 8))).setFlag a R.MAC_STAT.FEC_LOCK (d.portFec p)
    (((d.disarm ⟨.holdDown, p, 0⟩).setLstate p 6).bump (R.MAC_HOLD_DOWN_RECOVERED p)).refreshReady p
  else d

def Dev.holdDownExpire (d : Dev) (p : Nat) : Dev :=
  if d.lstate p = 7 && d.due ⟨.holdDown, p, 0⟩ then d.portDown p else d

/-- REMOTE_FAULT_RECEIVED (R136): seen once the PCS holds lock. -/
def Dev.remoteFault (d : Dev) (p : Nat) : Dev :=
  if d.faultSignalling p && decide (4 ≤ d.lstate p) then d.setFlag (R.MAC_STAT p) R.MAC_STAT.REMOTE_FAULT true else d

def Dev.remoteFaultEnd (d : Dev) (p : Nat) : Dev := d.setFlag (R.MAC_STAT p) R.MAC_STAT.REMOTE_FAULT false

/-- The lanes that have lane registers: those of the port blocks and of H4 and H5; 64 and 65 are ABAIDE's. -/
def userLanes : List Nat := List.range 64 ++ [66, 67]

/-- PRBS_CHECKER_LOCK (R165): the checker locks to, or loses, its pattern; bit errors count once it has locked. -/
def Dev.prbsLock (d : Dev) (l : Nat) (lock : Bool) (errors : Nat) : Dev :=
  let c := d.fget (R.LN_PRBS l) R.LN_PRBS.CHK
  if userLanes.contains l ∧ 1 ≤ c ∧ c ≤ 5 then
    let d := d.setFlag (R.LN_STAT l) R.LN_STAT.PRBS_LOCK lock
    if lock then d.bump (R.LN_PRBS_ERR l) errors else d
  else d

/-! ## Loopbacks (Table 3-9) -/

/-- Every lane of port p is in a loopback: 1 near end, 2 far end. -/
def Dev.looped (d : Dev) (p k : Nat) : Bool := d.portPresent p && (d.portLanes p).all (fun l => d.fget (R.LN_CFG l) R.LN_CFG.LOOP == k)

/-- The transmitter of port p drives its own PCS data: no lane is squelched or retransmits what it receives. -/
def Dev.drives (d : Dev) (p : Nat) : Bool :=
  (d.portLanes p).all (fun l => !d.flag (R.LN_CFG l) R.LN_CFG.TX_OFF && d.fget (R.LN_CFG l) R.LN_CFG.LOOP != 2)

/-- A frame leaves the MAC of port p: over its lanes, and in near-end loopback back to its own receiver. -/
def Dev.sendOut (d : Dev) (p : Nat) (b : List Byte) (good : Bool) : Dev :=
  let d := d.when (d.drives p) (·.emit (.frame p b good))
  if d.looped p 1 then
    { d with mgmt := { d.mgmt with looped := Map.put (fun _ => []) d.mgmt.looped p (Map.get (fun _ => []) d.mgmt.looped p ++ [b]) } }
  else d

/-- A received frame leaves again in far-end loopback. -/
def Dev.retransmit (d : Dev) (p : Nat) (b : List Byte) (good : Bool) : Dev :=
  d.when (d.looped p 2 && (d.portLanes p).all (fun l => !d.flag (R.LN_CFG l) R.LN_CFG.TX_OFF)) (·.emit (.frame p b good))

/-- The next frame on port p's own loop. -/
def Dev.takeLooped (d : Dev) (p : Nat) : Option (List Byte) × Dev :=
  match Map.get (fun _ => []) d.mgmt.looped p with
  | [] => (none, d)
  | b :: rest => (some b, { d with mgmt := { d.mgmt with looped := Map.put (fun _ => []) d.mgmt.looped p rest } })

/-- What is on the loop of a lane's ports is lost as the loopback changes. -/
def Dev.dropLooped (d : Dev) (l : Nat) : Dev :=
  d.each (d.lanePorts l) (fun p d => { d with mgmt := { d.mgmt with looped := Map.put (fun _ => []) d.mgmt.looped p [] } })

/-! ## ACT ports (R502) -/

/-- The device acts (R501): its lease is ACTIVE, or there is no twin. -/
def Dev.acting (d : Dev) : Bool :=
  let m := d.fget R.TWN_CFG R.TWN_CFG.MODE
  m == 0 || m == 3 || d.fget R.TWN_STAT R.TWN_STAT.STATE == 3

/-- An ACT port of a device with a twin (R502, Table 12-16). -/
def Dev.actPort (d : Dev) (p : Nat) : Bool :=
  let m := d.fget R.TWN_CFG R.TWN_CFG.MODE
  (m == 1 || m == 2) && decide (p < 128) && (d.rd (R.TWN_ACT (p / 32))).getLsbD (p % 32)

/-- A port that the lease keeps still (R502). -/
def Dev.passive (d : Dev) (p : Nat) : Bool := !d.was.acting && d.actPort p

/-! ## Receive checks (Table 3-6, R135 to R142) -/

/-- MAX in force (Table 3-25). -/
def Dev.macMax (d : Dev) (p : Nat) : Nat := min 9216 (max 1518 (d.fget (R.MAC_FRAME p) R.MAC_FRAME.MAX))

/-- The lanes of the port hold lock, so its MAC sees frames (R135). -/
def Dev.macSees (d : Dev) (p : Nat) : Bool :=
  d.portPresent p && !d.portShed p && d.portBlockUp p && d.chip.laneStep && d.chip.state != .held && d.refPresent (refIndex p)
    && (d.portLanes p).all (fun l => d.flag (R.LN_STAT l) R.LN_STAT.SYNC && !d.prbsGen l) && d.lstate p != 1
    && d.lstate p != 2 && d.lstate p != 3

/-- The index of the group-address filter (R141). -/
def mcIndex (da : List Byte) : Nat := fcs32 (da.take 6) / 2 ^ 23

/-- A group address other than broadcast and the link-local range: subject to the filter. -/
def mcFiltered (da : List Byte) : Bool :=
  (byteAt da 0).testBit 0 && da.take 6 != List.replicate 6 0xFF#8
    && !(beAt da 0 5 == 0x0180C20000 && decide (byteAt da 5 < 16))

/-- The words of MAC_MCHASH of port p. -/
def Dev.hashWords (d : Dev) (p : Nat) : List Word := (List.range 16).map (fun k => d.rd (R.MAC_MCHASH p k))

/-- The outcome of a received frame by Table 3-6, as its order number: `notReady`, `fifoFull` and `aborted` are what the MAC
saw of it, `max` the maximum at its first byte, `hash` the filter as it stood when its bit was read, if it has been written
since (R142). -/
def Dev.rxOutcome (d : Dev) (p : Nat) (b : List Byte) (notReady fifoFull aborted : Bool) (max : Nat) (hash : Option (List Word)) :
    Nat :=
  let n := b.length
  if notReady then 1
  else if fifoFull then 2
  else if aborted then 3
  else if n < 64 then 4
  else if max < n then 5
  else if fcs32 (b.take (n - 4)) ≠ leAt b (n - 4) 4 then 6
  else if beAt b 12 2 = 0x8808 then 7
  else if b.take 6 = List.replicate 6 0xFF#8 ∧ d.flag (R.MAC_CFG p) R.MAC_CFG.BCAST_DROP then 8
  else if d.flag (R.MAC_CFG p) R.MAC_CFG.MC_FILTER ∧ mcFiltered b ∧
      !((hash.getD (d.hashWords p)).getD (mcIndex b / 32) 0).getLsbD (mcIndex b % 32) then 9
  else 10

/-- The counter of an outcome. -/
def rxCounter (p o : Nat) : Nat :=
  match o with
  | 1 => R.MAC_RX_NOT_READY p | 2 => R.MAC_RX_FIFO_FULL p | 3 => R.MAC_RX_ABORT p | 4 => R.MAC_RX_RUNT p
  | 5 => R.MAC_RX_OVERSIZE p | 6 => R.MAC_RX_FCS_ERR p | 7 => R.MAC_RX_MAC_CTRL p | 8 => R.MAC_RX_BCAST_DROP p
  | 9 => R.MAC_RX_MC_FILTERED p | _ => R.MAC_RX_OK p

/-- Count an outcome (R137). -/
def Dev.countRx (d : Dev) (p o len : Nat) : Dev :=
  let d := d.bump (rxCounter p o)
  if o = 10 then d.bumpPerf (R.MAC_RX_OK_BYTES p) len else d

/-! ## MDIO (R153 to R156) -/

/-- A write of MDIO_CMD: a frame starts, or OVERRUN while one is in progress. -/
def Dev.mdioStart (d : Dev) (b st op phy reg data : Nat) (read : Bool) : Dev :=
  if d.flag (R.MDIO_STAT b) R.MDIO_STAT.BUSY then d.setFlag (R.MDIO_STAT b) R.MDIO_STAT.OVERRUN true
  else
    let d := d.setFlag (R.MDIO_STAT b) R.MDIO_STAT.BUSY true
    let d := { d with mgmt := { d.mgmt with mdio := Map.put (fun _ => 0) d.mgmt.mdio b (if read then 2 else 1) } }
    d.emit (.mdio b (!d.flag (R.MDIO_CFG b) R.MDIO_CFG.NO_PRE) (max 40 (d.fget (R.MDIO_CFG b) R.MDIO_CFG.DIV)) st op phy reg data)

/-- MDIO_FRAME_END (R154, R155). -/
def Dev.mdioEnd (d : Dev) (b : Nat) (turnaround : Bool) (data : Nat) : Dev :=
  if !d.flag (R.MDIO_STAT b) R.MDIO_STAT.BUSY then d
  else
    let read := Map.get (fun _ => 0) d.mgmt.mdio b == 2
    let d := { d with mgmt := { d.mgmt with mdio := Map.put (fun _ => 0) d.mgmt.mdio b 0 } }
    let d := (d.setFlag (R.MDIO_STAT b) R.MDIO_STAT.BUSY false).setFlag (R.MDIO_STAT b) R.MDIO_STAT.DONE true
    if read then
      let d := d.fset (R.MDIO_STAT b) R.MDIO_STAT.RDATA data
      if turnaround then d.setFlag (R.MDIO_STAT b) R.MDIO_STAT.NO_RESP true else d
    else d

/-! ## I2C (R157 to R162) -/

/-- The first bytes of I2C_DATA. -/
def Dev.i2cBytes (d : Dev) (b k : Nat) : List Byte :=
  (List.range k).map (fun i => BitVec.ofNat 8 (bits (d.rd (R.I2C_DATA b (i / 4))).toNat (8 * (i % 4)) 8))

/-- End a command or bus clear. -/
def Dev.i2cEnd (d : Dev) (b : Nat) : Dev :=
  let d := { d with mgmt := { d.mgmt with i2c := Map.put (fun _ => none) d.mgmt.i2c b none } }
  (d.setFlag (R.I2C_STAT b) R.I2C_STAT.BUSY false).setFlag (R.I2C_STAT b) R.I2C_STAT.DONE true

/-- A bus clear (R159): SDA seen high after some pulse sets CLEARED; still low after the ninth sets BUS_STUCK. -/
def Dev.busClear (d : Dev) (b : Nat) (freed : Bool) : Dev :=
  if freed then d.setFlag (R.I2C_STAT b) R.I2C_STAT.CLEARED true else d.setFlag (R.I2C_STAT b) R.I2C_STAT.BUS_STUCK true

/-- WLEN and RLEN above 16 act as 16. -/
def i2cLen (n : Nat) : Nat := min n 16

/-- A write of I2C_CMD with CLEAR 0 (R157, R159, R162). `sdaHigh` is the pulse of a bus clear after which SDA is high: 0
where it is high before any. A command that ends without START has transferred no byte: COUNT is 0 (DESIGN CHOICE, log 86). -/
def Dev.i2cStart (d : Dev) (b addr wlen rlen : Nat) (sdaHigh : Option (Fin 10)) : Dev :=
  if d.flag (R.I2C_STAT b) R.I2C_STAT.BUSY then d.setFlag (R.I2C_STAT b) R.I2C_STAT.OVERRUN true
  else
    match sdaHigh with
    | none => ((d.busClear b false).fset (R.I2C_STAT b) R.I2C_STAT.COUNT 0).i2cEnd b
    | some k =>
      let d := if k.val = 0 then d else d.busClear b true
      let d := d.setFlag (R.I2C_STAT b) R.I2C_STAT.BUSY true
      let c : I2cCmd := { wlen := i2cLen wlen, rlen := i2cLen rlen }
      let d := { d with mgmt := { d.mgmt with i2c := Map.put (fun _ => none) d.mgmt.i2c b (some c) } }
      d.emit (.i2c b (d.fget (R.I2C_CFG b) R.I2C_CFG.SPEED) addr (d.i2cBytes b (i2cLen wlen)) (i2cLen rlen))

/-- A write of I2C_CMD with CLEAR 1: the bus clear alone, which transfers no byte: COUNT is 0 (DESIGN CHOICE, log 86). -/
def Dev.i2cClearCmd (d : Dev) (b : Nat) (sdaHigh : Option (Fin 10)) : Dev :=
  if d.flag (R.I2C_STAT b) R.I2C_STAT.BUSY then d.setFlag (R.I2C_STAT b) R.I2C_STAT.OVERRUN true
  else ((d.busClear b sdaHigh.isSome).fset (R.I2C_STAT b) R.I2C_STAT.COUNT 0).i2cEnd b

/-- Place read data in I2C_DATA from byte 0 (R157). -/
def Dev.i2cStore (d : Dev) (b : Nat) (bytes : List Byte) : Dev :=
  d.each ((List.range bytes.length).zip bytes) (fun x d =>
    d.fset (R.I2C_DATA b (x.1 / 4)) ⟨8 * (x.1 % 4), 8⟩ x.2.toNat)

/-- I2C_COMMAND_END (R157, R158). -/
def Dev.i2cCommandEnd (d : Dev) (b : Nat) (ackAddr : Bool) (count : Nat) (nackData : Bool) (bytes : List Byte) : Dev :=
  match Map.get (fun _ => none) d.mgmt.i2c b with
  | none => d
  | some c =>
    let d := if ackAddr then d else d.setFlag (R.I2C_STAT b) R.I2C_STAT.NACK_ADDR true
    let d := if nackData then d.setFlag (R.I2C_STAT b) R.I2C_STAT.NACK_DATA true else d
    let d := d.fset (R.I2C_STAT b) R.I2C_STAT.COUNT count
    let d := if ackAddr && !nackData then d.i2cStore b (bytes.take c.rlen) else d
    d.i2cEnd b

/-- I2C_STRETCH_TIMEOUT (R160), after so many bytes (R158). -/
def Dev.i2cStretch (d : Dev) (b count : Nat) (sdaHigh : Option (Fin 10)) : Dev :=
  if !d.flag (R.I2C_STAT b) R.I2C_STAT.BUSY then d
  else (((d.setFlag (R.I2C_STAT b) R.I2C_STAT.STRETCH_TO true).fset (R.I2C_STAT b) R.I2C_STAT.COUNT count).i2cEnd b).busClear b
    sdaHigh.isSome

/-- I2C_ARBITRATION_LOST (R161), after so many bytes (R158). -/
def Dev.i2cLost (d : Dev) (b count : Nat) : Dev :=
  if !d.flag (R.I2C_STAT b) R.I2C_STAT.BUSY then d
  else ((d.setFlag (R.I2C_STAT b) R.I2C_STAT.LOST true).fset (R.I2C_STAT b) R.I2C_STAT.COUNT count).i2cEnd b

/-- The bus clear at every start and at the end of a contained restart: whether a module held SDA is not known to the
device's model, so its outcome is a free value. -/
def Dev.i2cStartClear (d : Dev) (b : Nat) : Dev :=
  let r := d.freshBool
  r.2.busClear b r.1

end Sys2Proof.Machine
end

