-- ==== Sys2Proof/Machine/Granary.lean ====
section
/-! DEFINITION. The Granary: grains, free rings, accounts and pools, landing and release (R291 to R311, R332), and the
access to queues, ports and journals that the frame path shares. -/

namespace Sys2Proof.Machine

/-! ## Access to the frame path's maps -/

def Grain.init : Grain := { held := false, next := 0, last := false, headBit := false, data := [], bad := false }
def FreeRing.init : FreeRing := { front := [], next := 0, back := [], cache := [], fresh := [] }
def Account.init : Account := { minUsed := 0, shared := 0 }
def PoolUse.init : PoolUse := { charged := 0, shared := 0 }
def FrameRec.init : FrameRec :=
  { ref := 0, pool := 0, grains := 0, minGr := 0, src := 0, cls := 0, length := 0, gen := 0, guarded := false, cong := false,
    committed := false, entries := 0, forwarded := 0 }
def EQueue.init : EQueue :=
  { frames := [], tag := 0, wasEligible := false, bucket := 0, bucketAt := 0, stream := 0, chain := [], mstream := 0,
    mchain := [] }
def EPort.init : EPort :=
  { v := 0, bucket := 0, bucketAt := 0, sending := none, bytes := [], readsLeft := 0, ce := false, bad := false,
    gateClosed := false, arrivals := 0, sends := 0, stamp := none }
def Hold.init : Hold := { active := false, since := 0, releasing := false, lasted := 0 }

def DramPart.init : DramPart :=
  { array := [], readQ := [], writeQ := [], issued := [], waitRead := [], waitWrite := [], openRow := [], owed := 0, uncorr := [],
    training := .none, sleep := .none, sleepSince := 0, check := false, zqAt := 0, trainTemp := 0 }

/-- The controller of Silo channel n. -/
def Dev.dramOf (d : Dev) (n : Nat) : DramPart := Map.get (fun _ => DramPart.init) d.dram n
def Dev.setDram (d : Dev) (n : Nat) (x : DramPart) : Dev := { d with dram := Map.put (fun _ => DramPart.init) d.dram n x }

/-- Grain g of region n. -/
def Dev.grain (d : Dev) (n g : Nat) : Grain := Map.get (fun _ => Grain.init) d.frame.grains (rkey n g)
def Dev.setGrain (d : Dev) (n g : Nat) (x : Grain) : Dev :=
  { d with frame := { d.frame with grains := Map.put (fun _ => Grain.init) d.frame.grains (rkey n g) x } }

/-- Free ring r of region n. -/
def Dev.ring (d : Dev) (n r : Nat) : FreeRing := Map.get (fun _ => FreeRing.init) d.frame.rings (rkey n r)
def Dev.setRing (d : Dev) (n r : Nat) (x : FreeRing) : Dev :=
  { d with frame := { d.frame with rings := Map.put (fun _ => FreeRing.init) d.frame.rings (rkey n r) x } }

/-- The frame record of the head grain h of region n. -/
def Dev.frec (d : Dev) (n h : Nat) : FrameRec := Map.get (fun _ => FrameRec.init) d.frame.records (rkey n h)
def Dev.setFrec (d : Dev) (n h : Nat) (x : FrameRec) : Dev :=
  { d with frame := { d.frame with records := Map.put (fun _ => FrameRec.init) d.frame.records (rkey n h) x } }

/-- Account (s, c) of region n. -/
def Dev.account (d : Dev) (n s c : Nat) : Account := Map.get (fun _ => Account.init) d.frame.accounts (rkey n (8 * s + c))
def Dev.setAccount (d : Dev) (n s c : Nat) (x : Account) : Dev :=
  { d with frame := { d.frame with accounts := Map.put (fun _ => Account.init) d.frame.accounts (rkey n (8 * s + c)) x } }

/-- Use of pool p of region n. -/
def Dev.pool (d : Dev) (n p : Nat) : PoolUse := Map.get (fun _ => PoolUse.init) d.frame.pools (rkey n p)
def Dev.setPool (d : Dev) (n p : Nat) (x : PoolUse) : Dev :=
  { d with frame := { d.frame with pools := Map.put (fun _ => PoolUse.init) d.frame.pools (rkey n p) x } }

/-- Queue q of region n: 0 to 255 of its network ports, 256 to 263 of its Ethernet host port (Table 8-14). -/
def Dev.queue (d : Dev) (n q : Nat) : EQueue := Map.get (fun _ => EQueue.init) d.frame.queues (rkey n q)
def Dev.setQueue (d : Dev) (n q : Nat) (x : EQueue) : Dev :=
  { d with frame := { d.frame with queues := Map.put (fun _ => EQueue.init) d.frame.queues (rkey n q) x } }
def Dev.modQueue (d : Dev) (n q : Nat) (g : EQueue → EQueue) : Dev := d.setQueue n q (g (d.queue n q))

/-- The scheduler state of port p. -/
def Dev.eport (d : Dev) (p : Nat) : EPort := Map.get (fun _ => EPort.init) d.frame.ports p
def Dev.setEport (d : Dev) (p : Nat) (x : EPort) : Dev :=
  { d with frame := { d.frame with ports := Map.put (fun _ => EPort.init) d.frame.ports p x } }

/-- The topology hold of region n. -/
def Dev.holdOf (d : Dev) (n : Nat) : Hold := Map.get (fun _ => Hold.init) d.frame.hold n
def Dev.setHold (d : Dev) (n : Nat) (x : Hold) : Dev :=
  { d with frame := { d.frame with hold := Map.put (fun _ => Hold.init) d.frame.hold n x } }

/-- The first queue number of port p within its region. -/
def portQueue (p i : Nat) : Nat := 8 * portLocal p + i

/-- The port of queue number q of region n. -/
def queuePort (n q : Nat) : Nat := if q < 256 then 32 * n + q / 8 else if n = 1 then 132 else 133

/-- A new number for a descriptor or a landing frame. -/
def Dev.newId (d : Dev) : Nat × Dev :=
  (d.frame.nextId, { d with frame := { d.frame with nextId := d.frame.nextId + 1 } })

/-! ## Free rings (R293 to R299) -/

/-- Grains in a ring: a quarter of the 49,152 of a region. -/
def ringSize : Nat := 12288

/-- Take the next number of ring r. -/
def FreeRing.pop (f : FreeRing) (r : Nat) : Option (Nat × FreeRing) :=
  match f.front with
  | g :: rest => some (g, { f with front := rest })
  | [] =>
    if f.next < ringSize then some (4 * f.next + r, { f with next := f.next + 1 })
    else
      match f.back with
      | g :: rest => some (g, { f with back := rest })
      | [] => none

/-- Move up to k numbers from ring r to its cache. -/
def FreeRing.refill (f : FreeRing) (r : Nat) : Nat → FreeRing
  | 0 => f
  | k + 1 =>
    match f.pop r with
    | some (g, f') => FreeRing.refill { f' with cache := f'.cache ++ [g] } r k
    | none => f

/-- Whether the ring itself holds a number. -/
def FreeRing.nonempty (f : FreeRing) : Bool := !f.front.isEmpty || decide (f.next < ringSize) || !f.back.isEmpty

/-- How many numbers ring and cache hold. -/
def FreeRing.count (f : FreeRing) : Nat := f.front.length + (ringSize - f.next) + f.back.length + f.cache.length

/-- The bank cells of ring r (R293). -/
def ringBanks (r : Nat) : List Nat := (List.range 12).map (fun i => 64 + 4 * i + r)

/-- Ring r asks for a refill, or for a write back, of 32 entries (R294). -/
def FreeRing.wantsRefill (f : FreeRing) : Bool := decide (f.cache.length ≤ 16) && f.nonempty
def FreeRing.wantsBack (f : FreeRing) : Bool := decide (48 ≤ f.cache.length)

/-- The cache of ring r takes 32 entries from the ring, or writes 32 back. -/
def Dev.ringRefilled (d : Dev) (n r : Nat) : Dev := (d.setRing n r ((d.ring n r).refill r 32)).backgroundServed n (ringBanks r)
def Dev.ringBacked (d : Dev) (n r : Nat) : Dev :=
  let f := d.ring n r
  (d.setRing n r { f with back := f.back ++ f.cache.take 32, cache := f.cache.drop 32 }).backgroundServed n (ringBanks r)

/-- RING_CACHE_REFILL: the lowest ring whose cache holds 16 entries or fewer takes 32 (R294). -/
def Dev.refillCache (d : Dev) (n : Nat) : Dev :=
  match [0, 1, 2, 3].find? (fun r => (d.ring n r).wantsRefill) with
  | some r => d.ringRefilled n r
  | none => d

/-- RING_CACHE_WRITEBACK: the lowest ring whose cache holds 48 entries or more writes 32 back (R294). -/
def Dev.writebackCache (d : Dev) (n : Nat) : Dev :=
  match [0, 1, 2, 3].find? (fun r => (d.ring n r).wantsBack) with
  | some r => d.ringBacked n r
  | none => d

/-- Take a grain of ring r that is not held; a held one is skipped and counted (R298). An empty cache takes from its ring
first. -/
def Dev.takeGrain (d : Dev) (n r : Nat) : Nat → Option Nat × Dev
  | 0 => (none, d)
  | fuel + 1 =>
    let f := d.ring n r
    let f := if f.cache.isEmpty then f.refill r 32 else f
    match f.cache with
    | [] => (none, d)
    | g :: rest =>
      let d := d.setRing n r { f with cache := rest }
      if (d.grain n g).held then
        ((d.bump (R.GRN_ALLOC_HELD n)).setFlag (R.GRN_EVT n) R.GRN_EVT.ALLOC_HELD true).takeGrain n r fuel
      else (some g, d.setGrain n g { Grain.init with held := true })

/-- Take one grain from ring r, or from the next ring that has one (R299). -/
def Dev.allocGrain (d : Dev) (n r : Nat) : Option Nat × Dev :=
  [0, 1, 2, 3].foldl (fun (acc : Option Nat × Dev) i =>
    match acc.1 with
    | some _ => acc
    | none => let r' := (r + i) % 4; acc.2.takeGrain n r' ((acc.2.ring n r').count + 1)) (none, d)

/-- A grain returns to the ring of its own bank cell, through the cache, at the end of the clock (R293, R296); a grain that is
not held is a double free (R297). -/
def Dev.freeGrain (d : Dev) (n g : Nat) : Dev :=
  if (d.grain n g).held then
    let f := d.ring n (g % 4)
    (d.setGrain n g Grain.init).setRing n (g % 4) { f with fresh := f.fresh ++ [g] }
  else
    ((d.bump (R.GRN_DOUBLE_FREE n)).setFlag (R.GRN_EVT n) R.GRN_EVT.DOUBLE_FREE true).logEntry 0x0010 n 7 g

/-- A grain released in the clock that ends enters its cache, or its ring where the cache is full. -/
def FreeRing.enter (f : FreeRing) (g : Nat) : FreeRing :=
  if f.cache.length < 64 then { f with cache := f.cache ++ [g] } else { f with back := f.back ++ [g] }

/-- The end of a clock: the grains released in it enter their caches (R296). -/
def Dev.grainsEnter (d : Dev) : Dev :=
  { d with frame := { d.frame with
      rings := d.frame.rings.map (fun x => (x.1, x.2.fresh.foldl FreeRing.enter { x.2 with fresh := [] })) } }

/-- Take k further grains for a frame whose next grain comes from ring r (R295). -/
def Dev.allocGrains (d : Dev) (n r : Nat) : Nat → Option (List Nat) × Dev
  | 0 => (some [], d)
  | k + 1 =>
    match d.allocGrain n r with
    | (none, d) => (none, d)
    | (some g, d) =>
      match d.allocGrains n (r + 1) k with
      | (some l, d) => (some (g :: l), d)
      | (none, d) => (none, d.freeGrain n g)

/-- All rings are empty (R299): the event, which is contained. -/
def Dev.ringEmpty (d : Dev) (n : Nat) : Dev :=
  ((d.bump (R.GRN_RING_EMPTY n)).setFlag (R.GRN_EVT n) R.GRN_EVT.RING_EMPTY true).contained n 7

/-- Grains for a frame of B bytes (R291). -/
def grainsFor (bytes : Nat) : Nat := (bytes + 255) / 256

/-- Write a frame's bytes and link words into its grains (R291, Table 7-1). -/
def Dev.writeGrains (d : Dev) (n : Nat) (first : Bool) (bytes : List Byte) : List Nat → Dev
  | [] => d
  | g :: rest =>
    let x : Grain :=
      { held := true, next := rest.headD 0, last := rest.isEmpty, headBit := first, data := bytes.take 256, bad := false }
    let d := d.setGrain n g x
    d.writeGrains n false (bytes.drop 256) rest

/-- The grains of a frame from its head, following NEXT (R310). -/
def Dev.chain (d : Dev) (n : Nat) : Nat → Nat → List Nat
  | 0, _ => []
  | k + 1, g => if (d.grain n g).last then [g] else g :: d.chain n k (d.grain n g).next

/-- The bytes of a frame in grains. -/
def Dev.frameBytes (d : Dev) (n h : Nat) : List Byte := (d.chain n 36 h).flatMap (fun g => (d.grain n g).data)

/-! ## Accounts, pools and charges (R300, R301) -/

/-- CLASS_POOL of class c. -/
def Dev.homePool (d : Dev) (n c : Nat) : Nat := (d.rl n).classPool.getD c 0

/-- MODE 0: reserved minima. -/
def Dev.minimaMode (d : Dev) (n : Nat) : Bool := !d.flag (R.GRN_CFG n) R.GRN_CFG.MODE

/-- MIN and SHARE_MAX of account (s, c). -/
def Dev.minOf (d : Dev) (n s c : Nat) : Nat := bits (d.rd (minKey n s c)).toNat 0 16
def Dev.shareMax (d : Dev) (n s c : Nat) : Nat := bits (d.rd (minKey n s c)).toNat 16 16

/-- The sum of the minima of every account whose class maps to pool p; a word not listed holds no minimum. -/
def Dev.minimaSum (d : Dev) (n p : Nat) : Nat :=
  (d.spaceWords 0x40 n).foldl (fun acc x => if d.homePool n (x.1 / 4 % 8) = p then acc + bits x.2.toNat 0 16 else acc) 0

/-- The size of pool p's shared part. -/
def Dev.sharedPart (d : Dev) (n p : Nat) : Nat :=
  let g := d.fget (R.GRN_POOL_CFG n p) R.GRN_POOL_CFG.GRAINS
  if d.minimaMode n then g - d.minimaSum n p else g

/-- What is free of it (nothing, while it is over its size: R308). GRN_POOL_CFG and the minima are as the clock began (R307). -/
def Dev.freeShared (d : Dev) (n p : Nat) : Nat := d.was.sharedPart n p - (d.pool n p).shared

/-- The grains of the account's minimum that a charge of L in its home pool uses. -/
def Dev.minShare (d : Dev) (n s c L : Nat) : Nat :=
  if d.minimaMode n then min L (d.was.minOf n s c - (d.account n s c).minUsed) else 0

/-- Whether pool p takes a charge of L grains of which m use the minimum (R301). -/
def Dev.poolTakes (d : Dev) (n s c p L m : Nat) : Bool :=
  decide (L - m ≤ d.freeShared n p) &&
    (d.was.shareMax n s c == 0 || decide ((d.account n s c).shared + (L - m) ≤ d.was.shareMax n s c))

/-- The pool of the chain from pool p on that takes the whole charge (R300), with the grains of the minimum. -/
def Dev.findPool (d : Dev) (n s c L : Nat) : Nat → Nat → Nat → Option (Nat × Nat)
  | 0, _, _ => none
  | k + 1, p, m =>
    if d.poolTakes n s c p L m then some (p, m)
    else if d.was.flag (R.GRN_POOL_CFG n p) R.GRN_POOL_CFG.FALLBACK &&
        decide (p + 1 < d.fget (R.GRN_CFG n) R.GRN_CFG.POOLS) then d.findPool n s c L k (p + 1) 0
    else none

/-- Where a charge of L grains to account (s, c) goes. -/
def Dev.placeFor (d : Dev) (n s c L : Nat) : Option (Nat × Nat) :=
  d.findPool n s c L 8 (d.homePool n c) (d.minShare n s c L)

/-- Charge L grains, m of them from the minimum, to account (s, c) in pool p. -/
def Dev.charge (d : Dev) (n s c p L m : Nat) : Dev :=
  let a := d.account n s c
  let u := d.pool n p
  let d := d.setAccount n s c { minUsed := a.minUsed + m, shared := a.shared + (L - m) }
  let d := d.setPool n p { charged := u.charged + L, shared := u.shared + (L - m) }
  let d := d.fset (R.GRN_POOL_PEAK n p) R.GRN_POOL_PEAK.PEAK
    (max (d.fget (R.GRN_POOL_PEAK n p) R.GRN_POOL_PEAK.PEAK) (u.charged + L))
  d.when (p != d.homePool n c) (·.bump (R.GRN_FALLBACK n))

/-- Return L grains, m of them to the minimum (what the minimum no longer covers returns to the shared part, R308). -/
def Dev.discharge (d : Dev) (n s c p L m : Nat) : Dev :=
  let a := d.account n s c
  let u := d.pool n p
  let m := min m a.minUsed
  let d := d.setAccount n s c { minUsed := a.minUsed - m, shared := a.shared - (L - m) }
  d.setPool n p { charged := u.charged - L, shared := u.shared - (L - m) }

/-- A MIN lowered below MIN_USED: from the next clock the excess counts as shared grains of the home pool (R308). -/
def Dev.minLowered (d : Dev) (n s c : Nat) : Dev :=
  let a := d.account n s c
  let p := d.homePool n c
  let x := a.minUsed - d.minOf n s c
  let u := d.pool n p
  (d.setAccount n s c { minUsed := a.minUsed - x, shared := a.shared + x }).setPool n p { u with shared := u.shared + x }

/-- A write of a minima word would make the minima of its pool exceed POOL_GRAINS (R308). -/
def Dev.minOver (d : Dev) (n s c : Nat) (v : Word) : Bool :=
  let p := d.homePool n c
  decide (d.fget (R.GRN_POOL_CFG n p) R.GRN_POOL_CFG.GRAINS < d.minimaSum n p - d.minOf n s c + bits v.toNat 0 16)

/-! ## Landing (R302, R303) -/

/-- LAND_TC of source s. -/
def Dev.landClass (d : Dev) (n s : Nat) : Nat := bits (d.rd (R.GRN_LAND n (s / 8))).toNat (4 * (s % 8)) 3

/-- Change the landing frame of an identity. -/
def Dev.setLanding (d : Dev) (l : Landing) : Dev :=
  { d with frame := { d.frame with landing := d.frame.landing.map (fun x => if x.id = l.id then l else x) } }

/-- What is left of a landing frame that is dropped: one that its port still receives stays, holding nothing, for its outcome
(R137). -/
def Landing.dropped (l : Landing) : Option Landing :=
  match l.origin with
  | .port _ =>
    if l.ended then none
    else some { l with waiting := true, need := 0, minGr := 0, grains := [], phase := .gone, pre := none, vote := none }
  | _ => none

/-- Drop a landing frame. -/
def Dev.dropLanding (d : Dev) (id : Nat) : Dev :=
  { d with frame := { d.frame with
      landing := d.frame.landing.filterMap (fun x => if x.id = id then x.dropped else some x),
      votes := d.frame.votes.map (fun v => (v.1, v.2.filter (· != id))) } }

/-- The Granary of region n admits frames (R336, R332). -/
def Dev.granaryUp (d : Dev) (n : Nat) : Bool :=
  d.blockUp n 7 && d.flag (R.GRN_STAT n) R.GRN_STAT.READY

/-- The grains a landing frame needs now: a network frame's first grain at its charge, all of them once its bytes are
known. -/
def Landing.wants (l : Landing) : Nat := if l.ended then grainsFor (min l.bytes.length l.maxLen) else 1

/-- Put the bytes of a frame that has all its grains into them. -/
def Dev.fillLanding (d : Dev) (l : Landing) : Dev :=
  if l.ended then d.writeGrains l.region true (l.bytes.take l.maxLen) l.grains else d

/-- A landing frame takes the grains it is short of; none left is R299, and the frame is discarded. Answers the frame. -/
def Dev.growLanding (d : Dev) (l : Landing) : Option Landing × Dev :=
  match d.allocGrains l.region (l.src + l.grains.length) (l.wants - l.grains.length) with
  | (some gs, d) =>
    let l := { l with grains := l.grains ++ gs }
    (some l, (d.fillLanding l).setLanding l)
  | (none, d) =>
    let d := l.grains.foldl (fun d g => d.freeGrain l.region g) d
    (none, ((d.discharge l.region l.src l.chargeCls l.pool l.need l.minGr).dropLanding l.id).ringEmpty l.region)

/-- Try to place the landing charge of a frame that waits for it (R302, R303). -/
def Dev.tryLanding (d : Dev) (l : Landing) : Option Landing × Dev :=
  let n := l.region
  let c := d.was.landClass n l.src
  let place := if d.granaryUp n then d.placeFor n l.src c l.need else none
  match place with
  | some (p, m) =>
    let d := d.charge n l.src c p l.need m
    d.growLanding { l with waiting := false, chargeCls := c, pool := p, minGr := m }
  | none =>
    let d := d.when (!l.waitCounted) (·.bump (R.GRN_LAND_WAIT n))
    let l := { l with waitCounted := true }
    (some l, d.setLanding l)

/-- The ring slot of a host frame hears that it was accepted or discarded (R539). -/
def Dev.tellSender (d : Dev) (l : Landing) (accepted : Bool) : Dev :=
  match l.notice with
  | some x => { d with frame := { d.frame with heard := d.frame.heard ++ [(x, accepted)] } }
  | none => d

/-- A frame released before acceptance: its grains, its charge and its entry in the landing table (R56, R305). -/
def Dev.releaseLanding (d : Dev) (l : Landing) : Dev :=
  let d := d.tellSender l false
  let d := l.grains.foldl (fun d g => d.freeGrain l.region g) d
  let d := d.when (!l.waiting) (·.discharge l.region l.src l.chargeCls l.pool l.need l.minGr)
  d.dropLanding l.id

/-! ## Owners and release (R309 to R311) -/

/-- A release waits its turn (R310). -/
def Dev.queueRelease (d : Dev) (n h : Nat) : Dev :=
  { d with frame := { d.frame with
      releases := Map.put (fun _ => []) d.frame.releases n (Map.get (fun _ => []) d.frame.releases n ++ [h]) } }

/-- A pool number above every pool: a returned frame is charged to the return reserve (R323). -/
def reservePool : Nat := 8

/-- Return the charge of a frame record (R301, R323). -/
def Dev.dischargeRec (d : Dev) (n : Nat) (r : FrameRec) : Dev :=
  if r.pool = reservePool then
    let u := Map.get (fun _ => 0) d.frame.reserveUsed n
    { d with frame := { d.frame with reserveUsed := Map.put (fun _ => 0) d.frame.reserveUsed n (u - r.grains) } }
  else d.discharge n r.src r.cls r.pool r.grains r.minGr

/-- Free a frame: its grains follow NEXT from the head, its charge returns, its record is invalid (R310). -/
def Dev.freeFrame (d : Dev) (n h : Nat) : Dev :=
  let r := d.frec n h
  let d := (d.chain n 36 h).foldl (fun d g => d.freeGrain n g) d
  (d.dischargeRec n r).setFrec n h FrameRec.init

/-- One release of the frame of head grain h (R297, R310). The copies that an engine has forwarded stand for one owner, its own
(R309): all but the last of their releases leave REF. -/
def Dev.releaseOwner (d : Dev) (n h : Nat) : Dev :=
  let r := d.frec n h
  if !(d.grain n h).held || !(d.grain n h).headBit || r.ref == 0 then
    ((d.bump (R.GRN_DOUBLE_FREE n)).setFlag (R.GRN_EVT n) R.GRN_EVT.DOUBLE_FREE true).logEntry 0x0010 n 7 h
  else if r.forwarded ≠ 0 then d.setFrec n h { r with forwarded := r.forwarded - 1 }
  else if r.ref = 1 then d.freeFrame n h
  else d.setFrec n h { r with ref := r.ref - 1 }

/-- OWNER_RELEASE: the next release in order of arrival applies, up to four in a clock (R310). -/
def Dev.ownerRelease (d : Dev) (n : Nat) : Dev :=
  match Map.get (fun _ => []) d.frame.releases n with
  | [] => d
  | h :: rest =>
    if 4 ≤ (d.clk.released.filter (· == n)).length then d
    else
      let d : Dev := { d with
        clk := { d.clk with released := d.clk.released ++ [n] }
        frame := { d.frame with releases := Map.put (fun _ => []) d.frame.releases n rest } }
      d.releaseOwner n h

/-- An update of the Granary takes its turn among those of this clock (R307). -/
def Dev.askGranary (d : Dev) (x : GranaryTurn) : Dev := { d with clk := { d.clk with granary := d.clk.granary ++ [x] } }

/-! ## Rebuild (R332, R333) -/

/-- Ring r rebuilt from the state bits: the free grains of its bank cells in ascending order, caches empty. -/
def Dev.rebuildRing (d : Dev) (n r : Nat) : Dev :=
  let held := (d.frame.grains.filter (fun x => x.1 / 0x1000000 = n && x.1 % 4 = r && x.2.held)).map (fun x => x.1 % 0x1000000)
  let top := held.foldl (fun m g => max m (g / 4 + 1)) 0
  let holes := ((List.range top).map (fun k => 4 * k + r)).filter (fun g => !held.contains g)
  d.setRing n r { front := holes, next := top, back := [], cache := [], fresh := [] }

/-- Accounts and pools of region n recomputed from the records and the landing table. -/
def Dev.recomputeAccounts (d : Dev) (n : Nat) : Dev :=
  let own := fun (k : Nat) => k / 0x1000000 = n
  let d := { d with frame := { d.frame with
    accounts := d.frame.accounts.filter (fun x => !own x.1),
    pools := d.frame.pools.filter (fun x => !own x.1),
    reserveUsed := Map.put (fun _ => 0) d.frame.reserveUsed n 0 } }
  let add := fun (d : Dev) (s c p g m : Nat) =>
    let a := d.account n s c
    let u := d.pool n p
    (d.setAccount n s c { minUsed := a.minUsed + m, shared := a.shared + (g - m) }).setPool n p
      { charged := u.charged + g, shared := u.shared + (g - m) }
  let d := (d.frame.records.filter (fun x => own x.1)).foldl (fun d x =>
    if x.2.pool = reservePool then
      let u := Map.get (fun _ => 0) d.frame.reserveUsed n + x.2.grains
      { d with frame := { d.frame with reserveUsed := Map.put (fun _ => 0) d.frame.reserveUsed n u } }
    else add d x.2.src x.2.cls x.2.pool x.2.grains x.2.minGr) d
  (d.frame.landing.filter (fun l => l.region = n && !l.waiting)).foldl
    (fun d l => add d l.src l.chargeCls l.pool l.need l.minGr) d

/-- Steps 2 and 3 of R332: the four rings from the state bits, then accounts and pools. -/
def Dev.rebuildGranary (d : Dev) (n : Nat) : Dev :=
  ([0, 1, 2, 3].foldl (fun d r => d.rebuildRing n r) d).recomputeAccounts n

end Sys2Proof.Machine
end

