-- ==== Sys2Proof/Machine/Floor.lean ====
section
/-! DEFINITION. The Floor (R28, R40 to R51, R693): messages between regions and inside them, reserved spaces, stale
messages, NACKs, retries, and the guaranteed background slot (R30). -/

namespace Sys2Proof.Machine

/-- The path from a source port to a destination port. -/
def pathKey (src dst : Nat) : Nat := 8 * src + dst

/-- The code of a message's type (Table 1-7). -/
def FloorBody.code : FloorBody → Nat
  | .enq _ => 1 | .read _ => 2 | .regr _ _ => 3 | .regw _ _ _ => 4 | .data _ _ => 5
  | .cplGuarded _ _ _ _ _ => 6 | .cplOwner _ _ => 6 | .cplMirror _ _ => 6 | .cplBales _ _ _ => 6 | .cplReg _ => 6 | .nack _ _ => 7

/-- Whether a message is a request (channel REQ of Table 1-7). -/
def FloorBody.isReq (b : FloorBody) : Bool := decide (b.code ≤ 4)

/-- The virtual channel of a message: 0 REQ, 1 RSP. -/
def FloorMsg.channel (m : FloorMsg) : Nat := if m.body.isReq then 0 else 1

/-- The key of a port and channel, and that of a path and channel. -/
def portChan (port ch : Nat) : Nat := 2 * port + ch
def pathChan (src dst ch : Nat) : Nat := 2 * pathKey src dst + ch

/-- A message takes its path, behind those granted before it (R40). -/
def Dev.post (d : Dev) (m : FloorMsg) : Dev :=
  let k := pathKey m.src m.dst
  if m.body.isReq then
    { d with floor := { d.floor with req := Map.put (fun _ => []) d.floor.req k (Map.get (fun _ => []) d.floor.req k ++ [m]) } }
  else
    { d with floor := { d.floor with rsp := Map.put (fun _ => []) d.floor.rsp k (Map.get (fun _ => []) d.floor.rsp k ++ [m]) } }

/-- A message is sent by a cell of a block of its source region: inside the region it takes the region's own path (R28); else it
waits for the region's arbiter (R34), or, sent by a Floor port or the chip port itself, for the chip arbiter alone (R37). -/
def Dev.send (d : Dev) (by_ : Option (Nat × Nat)) (m : FloorMsg) : Dev :=
  if m.src = m.dst then d.post m
  else
    match by_ with
    | some (b, c) =>
      let k := portChan m.src m.channel
      let l := Map.get (fun _ => []) d.floor.wait k ++ [{ block := b, cell := c, msg := m }]
      { d with floor := { d.floor with wait := Map.put (fun _ => []) d.floor.wait k l } }
    | none =>
      let k := pathChan m.src m.dst m.channel
      { d with floor := { d.floor with outq := Map.put (fun _ => []) d.floor.outq k (Map.get (fun _ => []) d.floor.outq k ++ [m]) } }

/-- The message at the head of a path's channel. -/
def Dev.headMsg (d : Dev) (req : Bool) (src dst : Nat) : Option FloorMsg :=
  (Map.get (fun _ => []) (if req then d.floor.req else d.floor.rsp) (pathKey src dst)).head?

/-- It arrives: it leaves the channel, and the path's run of failures ends. -/
def Dev.takeMsg (d : Dev) (req : Bool) (src dst : Nat) : Dev :=
  let k := pathKey src dst
  let f := { d.floor with failures := Map.put (fun _ => 0) d.floor.failures k 0 }
  if req then { d with floor := { f with req := Map.put (fun _ => []) f.req k ((Map.get (fun _ => []) f.req k).drop 1) } }
  else { d with floor := { f with rsp := Map.put (fun _ => []) f.rsp k ((Map.get (fun _ => []) f.rsp k).drop 1) } }

/-- Record the path of the latest event flagged in FLR_ERR (Table 1-16). -/
def Dev.floorPath (d : Dev) (src dst : Nat) : Dev :=
  (d.fset R.FLR_ERR R.FLR_ERR.LAST_SRC src).fset R.FLR_ERR R.FLR_ERR.LAST_DST dst

/-- A chip-fatal event of the Floor, at chip level; the header word it records has no stated layout. -/
def Dev.floorFatal (d : Dev) (cause : Nat) : Dev :=
  let r := d.fresh
  r.2.raise (.chipFatal cause 0x40 r.1.toNat)

/-- FLOOR_STALE_DISCARD: a message is discarded under R45 or R46. -/
def Dev.staleDiscard (d : Dev) (m : FloorMsg) : Dev :=
  let d := ((d.bump R.FLR_STALE_CNT).setFlag R.FLR_ERR R.FLR_ERR.STALE_SEEN true).floorPath m.src m.dst
  d.when (d.flag R.FLR_CFG R.FLR_CFG.STALE_LOG) (·.logChip 0x0030 (m.src + 16 * m.dst + 256 * m.body.code))

/-- The message carries an older generation of its originating region (R45; not inside a region, R28). -/
def Dev.isStale (d : Dev) (m : FloorMsg) : Bool :=
  m.src != m.dst && decide (m.origin < 4) && m.gen != d.regionGen m.origin

/-- The key of a reserved space: the requester's port and the tag. -/
def sinkKey (port tag : Nat) : Nat := 4096 * port + tag

def Dev.sink (d : Dev) (port tag : Nat) : Option Sink := Map.get (fun _ => none) d.floor.sinks (sinkKey port tag)

def Dev.setSink (d : Dev) (port tag : Nat) (s : Option Sink) : Dev :=
  { d with floor := { d.floor with sinks := Map.put (fun _ => none) d.floor.sinks (sinkKey port tag) s } }

/-- A tag of the port that no outstanding request uses, the first from the next in turn; none when all are taken. -/
def Dev.freeTag (d : Dev) (port : Nat) : Option Nat :=
  let t := Map.get (fun _ => 0) d.floor.nextTag port
  ((List.range 4096).map (fun i => (t + i) % 4096)).find? (fun t => (d.sink port t).isNone)

/-- Issue a request that is answered into space reserved under a tag (R41). -/
def Dev.requestAs (d : Dev) (port t : Nat) (x : FloorStall) : Dev :=
  let d := d.setSink port t (some { block := x.block, use := x.use, void := false })
  let d : Dev := { d with floor := { d.floor with nextTag := Map.put (fun _ => 0) d.floor.nextTag port ((t + 1) % 4096) } }
  d.send (some (x.block, x.cell)) { src := port, dst := x.dst, origin := port, gen := d.regionGen port, tag := t, body := x.body }

/-- Requests of a port that wait for a tag. -/
def Dev.stalledOf (d : Dev) (port : Nat) : List FloorStall := Map.get (fun _ => []) d.floor.stalled port
def Dev.setStalled (d : Dev) (port : Nat) (l : List FloorStall) : Dev :=
  { d with floor := { d.floor with stalled := Map.put (fun _ => []) d.floor.stalled port l } }

/-- A request issues once space is reserved for the whole response (R41): where the port has no tag free, or others wait for
one, it waits behind them. -/
def Dev.request (d : Dev) (port block cell : Nat) (use : SinkUse) (dst : Nat) (body : FloorBody) : Dev :=
  let x : FloorStall := { block := block, cell := cell, use := use, dst := dst, body := body }
  match (if (d.stalledOf port).isEmpty then d.freeTag port else none) with
  | some t => d.requestAs port t x
  | none => d.setStalled port (d.stalledOf port ++ [x])

/-- Requests that wait issue as tags come free. -/
def Dev.unstall (d : Dev) (port : Nat) : Nat → Dev
  | 0 => d
  | k + 1 =>
    match d.stalledOf port, d.freeTag port with
    | x :: rest, some t => Dev.unstall ((d.setStalled port rest).requestAs port t x) port k
    | _, _ => d

/-- The answer to a request repeats its generation and tag (R45). -/
def Dev.answer (d : Dev) (by_ : Option (Nat × Nat)) (m : FloorMsg) (body : FloorBody) : Dev :=
  d.send by_ { src := m.dst, dst := m.src, origin := m.origin, gen := m.gen, tag := m.tag, body := body }

/-- The block that answers a register request, by the page of its offset (Table 1-4, Table 16-3): the region control page is the
Floor port's own; port blocks reach the Floor through the pipeline block. -/
def registerBlock (off : Nat) : Option (Nat × Nat) :=
  let page := off / 0x10000 % 0x100
  if off < 0x01000000 ∨ page = 0 then none else if page < 5 then some (8, 0) else some (page - 1, 0)

/-- A request reaches its destination port (R45, R47): a stale one is discarded, a port of a region in restart, or of a
region that is not enabled (R49), answers a NACK, and otherwise it is served. -/
def Dev.requestArrives (d : Dev) (src dst : Nat) (isKind : FloorBody → Bool) (serve : FloorMsg → Dev → Dev) : Dev :=
  match d.headMsg true src dst with
  | none => d
  | some m =>
    if !isKind m.body then d
    else
      let d := d.takeMsg true src dst
      if d.isStale m then d.staleDiscard m
      else if src ≠ dst ∧ dst < 4 ∧ (!d.regionRuns dst || !d.regionEnabled dst) then
        let body := FloorBody.nack m.body.code (match m.body with | .enq x => some x | _ => none)
        (d.bump R.FLR_NACK_CNT).answer none m body
      else serve m d

/-- A response reaches its destination port: a stale one is discarded, a port of a region in restart discards it (R47). -/
def Dev.responseArrives (d : Dev) (src dst : Nat) (isKind : FloorBody → Bool) (sink : FloorMsg → Dev → Dev) : Dev :=
  match d.headMsg false src dst with
  | none => d
  | some m =>
    if !isKind m.body then d
    else
      let d := d.takeMsg false src dst
      if d.isStale m then d.staleDiscard m
      else if src ≠ dst ∧ dst < 4 ∧ (!d.regionRuns dst || !d.regionEnabled dst) then d
      else sink m d

/-- A response that names a tag is sunk into the space its requester reserved (R41, R46): a void tag makes it stale, a tag
for which nothing is reserved is a violation, which is chip-fatal (Table 1-16). -/
def Dev.sinkInto (d : Dev) (m : FloorMsg) (use : SinkUse → Dev → Dev) : Dev :=
  match d.sink m.dst m.tag with
  | none =>
    ((d.setFlag R.FLR_ERR R.FLR_ERR.SINK_VIOLATION true).floorPath m.src m.dst).floorFatal 0x02
  | some s =>
    let d := d.setSink m.dst m.tag none
    if s.void then d.staleDiscard m else use s.use d

/-- Block k of region n restarts: the tags of its outstanding requests are void (R46). -/
def Dev.voidTags (d : Dev) (n k : Nat) : Dev :=
  { d with floor := { d.floor with sinks := d.floor.sinks.map (fun x =>
      (x.1, x.2.map (fun s => if x.1 / 4096 = n && s.block = k then { s with void := true } else s))) } }

/-- The space reserved for a use is given up: what still comes for it is stale. -/
def Dev.voidUse (d : Dev) (n : Nat) (p : SinkUse → Bool) : Dev :=
  { d with floor := { d.floor with sinks := d.floor.sinks.map (fun x =>
      (x.1, x.2.map (fun s => if x.1 / 4096 = n && p s.use then { s with void := true } else s))) } }

/-- A message of a transaction that reserves space under its tag. -/
def FloorBody.named : FloorBody → Bool
  | .read _ | .regr _ _ | .regw _ _ _ | .data _ _ | .cplReg _ => true
  | .nack of _ => decide (of ≠ 1)
  | _ => false

/-- The arbiters of a block start at cell 0 (R33). -/
def Dev.cellsRestart (d : Dev) (n k : Nat) : Dev :=
  { d with floor := { d.floor with cellPtr := Map.put (fun _ => 0) d.floor.cellPtr (16 * n + k) 0 } }

/-- Region n restarts: every transfer inside it that is in flight is discarded (R28) and its reserved space freed; the tags of
its other outstanding requests are void; and its arbiters start anew (R33). -/
def Dev.regionFloorReset (d : Dev) (n : Nat) : Dev :=
  let k := pathKey n n
  let inside := (Map.get (fun _ => []) d.floor.req k ++ Map.get (fun _ => []) d.floor.rsp k).filter (fun m => m.body.named)
  let d := d.each inside (fun m d => d.setSink n m.tag none)
  let d := d.each (List.range 10) (fun b d => d.cellsRestart n b)
  { d with floor := { d.floor with
    allow := Map.put (fun _ => []) (Map.put (fun _ => []) d.floor.allow (portChan n 0) []) (portChan n 1) [],
    blockPtr := Map.put (fun _ => 0) (Map.put (fun _ => 0) d.floor.blockPtr (portChan n 0) 0) (portChan n 1) 0,
    req := Map.put (fun _ => []) d.floor.req k [],
    rsp := Map.put (fun _ => []) d.floor.rsp k [],
    sinks := d.floor.sinks.map (fun x => (x.1, x.2.map (fun s => if x.1 / 4096 = n then { s with void := true } else s))) } }

/-- A READ by the region that owns the grain is served: the frame of its queue for which it asked begins to leave (R313). -/
def Dev.readServed (d : Dev) (m : FloorMsg) : Dev :=
  let served := fun (q uid : Nat) (d : Dev) => d.modQueue m.dst q (fun eq => { eq with
    frames := eq.frames.map (fun x => if x.uid == uid then { x with tx := true } else x) })
  if m.src ≠ m.dst then d
  else
    match d.sink m.src m.tag with
    | none => d
    | some s =>
      match s.use with
      | .port p _ =>
        match (d.eport p).sending with
        | some (i, uid) => served (portQueue p i) uid d
        | none => d
      | .spill q uid => served q uid d
      | _ => d

/-- READ_ARRIVAL: the owner of the grain answers with its bytes (R43). -/
def Dev.readArrival (d : Dev) (src dst : Nat) : Dev :=
  d.requestArrives src dst (fun b => match b with | .read _ => true | _ => false) (fun m d =>
    match m.body with
    | .read g => (d.readServed m).answer (some (7, g % 48)) m (.data (d.grain dst g).data (d.grain dst g).bad)
    | _ => d)

/-- A single-bit error on a flit is corrected: a Cell-level event of the Floor (Tables 1-9, 1-17). -/
def Dev.flitCorrected (d : Dev) : Dev := (d.bump R.FLR_CORR_CNT).corrected 0 0xF none

/-- FLOOR_TRANSFER_RETRY (R51): a transfer fails its check and is sent again; after RETRY_LIMIT failures in succession the
loop-back test says which port fails. The failed check is a corrected event of the Floor (Table 1-9). -/
def Dev.transferRetry (d : Dev) (src dst : Nat) (senderOk receiverOk : Bool) : Dev :=
  let k := pathKey src dst
  let f := Map.get (fun _ => 0) d.floor.failures k + 1
  let lim := max 1 (d.fget R.FLR_CFG R.FLR_CFG.RETRY_LIMIT)
  let d := (d.bump R.FLR_RETRY_CNT).corrected 0 0xF none
  let set := fun (d : Dev) (x : Nat) =>
    ({ d with floor := { d.floor with failures := Map.put (fun _ => 0) d.floor.failures k x } } : Dev)
  if f < lim then set d f
  else
    let d := ((set d 0).setFlag R.FLR_ERR R.FLR_ERR.RETRY_EXHAUSTED true).floorPath src dst
    let fatal := fun (d : Dev) (p : Nat) =>
      if p < 4 then ((d.setFlag R.FLR_ERR R.FLR_ERR.PATH_FATAL true).escalation p 0xF 0 2 2).raise (.regionFatal p 0 0)
      else (d.escalation 0 0xF 0 3 2).floorFatal 0x08
    if !senderOk then fatal d src else if !receiverOk then fatal d dst
    else (d.escalation 0 0xF 0 3 2).floorFatal 0x01

/-! ## Arbitration (R32 to R39)

Once a clock each port's messages move on: the region arbiters grant messages of their blocks to the port, and the chip arbiter
grants, per destination and channel, among the ports. -/

/-- The cells of block k (Table 1-2). -/
def cellsOf (k : Nat) : Nat := if k = 4 ∨ k = 5 then 8 else if k = 6 then 64 else if k = 7 then 48 else 1

/-- The flits of a message's data; 0 for a 16-byte message. -/
def FloorBody.flits : FloorBody → Nat
  | .data b _ => max 1 ((b.length + 63) / 64)
  | _ => 0

/-- The weight of block k, 4 to 9, of region n; 0 acts as 1 (R36). -/
def Dev.floorWeight (d : Dev) (n k : Nat) : Nat :=
  let a := R.RGN_FLR_WEIGHT n
  max 1 (match k with
    | 4 => d.fget a R.RGN_FLR_WEIGHT.ENG0
    | 5 => d.fget a R.RGN_FLR_WEIGHT.ENG1
    | 6 => d.fget a R.RGN_FLR_WEIGHT.TBL
    | 7 => d.fget a R.RGN_FLR_WEIGHT.BUF
    | 8 => d.fget a R.RGN_FLR_WEIGHT.PIPE
    | _ => d.fget a R.RGN_FLR_WEIGHT.HOST)

/-- The element of a list of numbers below m that comes first at or after a pointer. -/
def nearest (l : List Nat) (ptr m : Nat) : Option Nat :=
  ((List.range m).map (fun i => (ptr + i) % m)).find? (fun i => l.contains i)

/-- The messages that wait at region n's arbiter on a channel. -/
def Dev.waiting (d : Dev) (n ch : Nat) : List FloorWait := Map.get (fun _ => []) d.floor.wait (portChan n ch)

/-- What a block's arbiter offers: the oldest message of the requesting cell nearest at or after its pointer (R32). -/
def Dev.blockOffer (d : Dev) (n ch k : Nat) : Option FloorWait :=
  let l := (d.waiting n ch).filter (fun w => w.block == k)
  match nearest (l.map (·.cell)) (Map.get (fun _ => 0) d.floor.cellPtr (16 * n + k)) (cellsOf k) with
  | some c => l.find? (fun w => w.cell == c)
  | none => none

/-- The allowances of the blocks 4 to 9 left in the round. -/
def Dev.allowance (d : Dev) (n ch k : Nat) : Nat := (Map.get (fun _ => []) d.floor.allow (portChan n ch)).getD (k - 4) 0

/-- A round begins when no block with a pending message has allowance left: every block's allowance is its weight (R34, R35). -/
def Dev.roundBegins (d : Dev) (n ch : Nat) : Dev :=
  if (d.waiting n ch).any (fun w => d.allowance n ch w.block != 0) then d
  else { d with floor := { d.floor with
      allow := Map.put (fun _ => []) d.floor.allow (portChan n ch) ([4, 5, 6, 7, 8, 9].map (d.floorWeight n)) } }

/-- What a port can still take in this clock on a channel (Table 1-6): requests or short messages, and data messages. -/
structure PortRoom where
  short : Nat
  data : Nat
deriving DecidableEq, Repr

/-- There is room for a message, and what is left after it. -/
def PortRoom.fits (r : PortRoom) (b : FloorBody) : Bool := if b.flits = 0 then r.short != 0 else r.data != 0
def PortRoom.less (r : PortRoom) (b : FloorBody) : PortRoom :=
  if b.flits = 0 then { r with short := r.short - 1 } else { r with data := r.data - 1 }

/-- The room of a port at the start of a clock: its data lane may be taken by a response begun before. `dir` is 0 out of the
port, 1 into it. -/
def Dev.portRoom (d : Dev) (p dir : Nat) : PortRoom :=
  { short := if p < 4 then 2 else 1, data := if Map.get (fun _ => 0) d.floor.lanes (2 * p + dir) ≤ d.now then 1 else 0 }

/-- Region n's arbiter grants up to so many messages (R34): round robin among the blocks that have one pending and allowance
left; the block's allowance falls by one, by the flits of a data message, and its own arbiter moves past the cell granted. -/
def Dev.regionGrants (d : Dev) (n ch : Nat) (room : PortRoom) : Nat → Dev
  | 0 => d
  | k + 1 =>
    let ok := [4, 5, 6, 7, 8, 9].filter (fun b => d.allowance n ch b != 0 &&
      (match d.blockOffer n ch b with | some w => room.fits w.msg.body | none => false))
    let key := portChan n ch
    match nearest (ok.map (fun b => b - 4)) (Map.get (fun _ => 0) d.floor.blockPtr key) 6 with
    | none => d
    | some i =>
      match d.blockOffer n ch (i + 4) with
      | none => d
      | some w =>
        let left := setAt (Map.get (fun _ => []) d.floor.allow key) i (d.allowance n ch (i + 4) - max 1 w.msg.body.flits)
        let out := pathChan w.msg.src w.msg.dst ch
        let d : Dev := { d with floor := { d.floor with
          allow := Map.put (fun _ => []) d.floor.allow key left,
          blockPtr := Map.put (fun _ => 0) d.floor.blockPtr key ((i + 1) % 6),
          cellPtr := Map.put (fun _ => 0) d.floor.cellPtr (16 * n + (i + 4)) ((w.cell + 1) % cellsOf (i + 4)),
          wait := Map.put (fun _ => []) d.floor.wait key ((d.waiting n ch).erase w),
          outq := Map.put (fun _ => []) d.floor.outq out (Map.get (fun _ => []) d.floor.outq out ++ [w.msg]) } }
        Dev.regionGrants d n ch (room.less w.msg.body) k

/-- The descriptor space a region holds credited to each source region (R43). The spec gives no size: it holds a descriptor for
each grain of the source, so that it delays no ENQ (DESIGN CHOICE, log 76). -/
def enqCredit : Nat := 49152

/-- The credits that source region i has in use at region n: its descriptors there, and its ENQs on the way. -/
def Dev.creditUsed (d : Dev) (i n : Nat) : Nat :=
  ((Map.get (fun _ => []) d.floor.req (pathKey i n)).filter (fun m => m.body.code == 1)).length
    + ((d.frame.queues.filter (fun x => x.1 / 0x1000000 == n)).flatMap (fun x => x.2.frames.filter (fun f => f.ingress == i))).length

/-- A message at the head of a path may be granted: an ENQ has a credit. -/
def Dev.mayGrant (d : Dev) (m : FloorMsg) : Bool := m.body.code != 1 || decide (d.creditUsed m.src m.dst < enqCredit)

/-- What waits for the chip arbiter on a path. -/
def Dev.outHead (d : Dev) (src dst ch : Nat) : Option FloorMsg := (Map.get (fun _ => []) d.floor.outq (pathChan src dst ch)).head?

/-- The chip arbiter grants up to so many messages to a destination port (R37): round robin among the source ports with traffic;
a grant covers a whole response, whose flits take the data lanes of both ports (R38, R39). -/
def Dev.chipGrants (d : Dev) (dst ch : Nat) (room : PortRoom) (rooms : List PortRoom) : Nat → Dev × List PortRoom
  | 0 => (d, rooms)
  | k + 1 =>
    let ok := (List.range 5).filter (fun src => match d.outHead src dst ch with
      | some m => room.fits m.body && (rooms.getD src ⟨0, 0⟩).fits m.body && d.mayGrant m
      | none => false)
    let key := portChan dst ch
    match nearest ok (Map.get (fun _ => 0) d.floor.srcPtr key) 5 with
    | none => (d, rooms)
    | some src =>
      match d.outHead src dst ch with
      | none => (d, rooms)
      | some m =>
        let p := pathChan src dst ch
        let clocks := m.body.flits * (if src = 4 ∨ dst = 4 then 4 else 1)
        let lanes := if clocks = 0 then d.floor.lanes
          else Map.put (fun _ => 0) (Map.put (fun _ => 0) d.floor.lanes (2 * src) (d.now + clocks)) (2 * dst + 1) (d.now + clocks)
        let d : Dev := { d with floor := { d.floor with
          outq := Map.put (fun _ => []) d.floor.outq p ((Map.get (fun _ => []) d.floor.outq p).drop 1),
          srcPtr := Map.put (fun _ => 0) d.floor.srcPtr key ((src + 1) % 5), lanes := lanes } }
        Dev.chipGrants (d.post m) dst ch (room.less m.body) (setAt rooms src ((rooms.getD src ⟨0, 0⟩).less m.body)) k

/-- One clock of the Floor: requests that wait for a tag issue; the region arbiters and then the chip arbiter grant. -/
def Dev.floorTick (d : Dev) : Dev :=
  let d := d.each (List.range 5) (fun p d => d.unstall p (d.stalledOf p).length)
  let d := d.each [0, 1, 2, 3] (fun n d => d.each [0, 1] (fun ch d =>
    (d.roundBegins n ch).regionGrants n ch (d.portRoom n 0) 3))
  d.each [0, 1] (fun ch d =>
    ((List.range 5).foldl (fun (x : Dev × List PortRoom) dst => x.1.chipGrants dst ch (x.1.portRoom dst 1) x.2 3)
      (d, (List.range 5).map (fun p => d.portRoom p 0))).1)

/-! ## The guaranteed background slot (R29 to R31) -/

/-- Whether a background request is pending at a bank cell: 0 to 63 the table banks, 64 to 111 the buffer banks, whose
background requests are the rings' (R294). -/
def Dev.backgroundPending (d : Dev) (n bank : Nat) : Bool :=
  if bank < 64 then
    ((d.wnw n).cmd.isSome && (d.rl n).bankOwner.getD bank 0xF == 2) || (d.tbl n).running.isSome || (d.tbl n).inPass
      || (d.tbl n).copying.isSome
  else (d.ring n (bank % 4)).wantsRefill || (d.ring n (bank % 4)).wantsBack

/-- A head window or copy is offered to the pipeline of region n (R58). -/
def Dev.offered (d : Dev) (n : Nat) : Bool :=
  !(Map.get (fun _ => []) d.frame.copies n).isEmpty || !(Map.get (fun _ => []) d.frame.mirrorWait n).isEmpty
    || d.frame.landing.any (fun l => l.region == n && l.phase == .offered)

/-- 63 clocks have passed since the bank's background last received a grant, so that the next clock is its own (R30): a
foreground request loses no more than one clock in any 64 (R31). -/
def Dev.backgroundDue (d : Dev) (n bank : Nat) : Bool :=
  decide (Map.get (fun _ => 0) d.frame.background (112 * n + bank) + 64 ≤ d.now)

/-- BACKGROUND_SLOT_GRANT: the bank's background requests get the clock. A ring's 32 entries are refilled or written back; at a
table bank the access belongs to the work that its own command completes, and a descriptor offered to the pipeline loses the
clock and no more, the slot being free again in the next (R30, R31, Table 15-4). -/
def Dev.backgroundGrant (d : Dev) (n bank : Nat) : Dev :=
  if !d.backgroundPending n bank || !d.backgroundDue n bank then d
  else
  let d := d.backgroundServed n [bank]
  let r := bank % 4
  if 64 ≤ bank then (if (d.ring n r).wantsRefill then d.ringRefilled n r else d.ringBacked n r)
  else if bank < 64 ∧ d.offered n ∧ !d.frame.busy.testBit n then
    ({ d with frame := { d.frame with busy := setBit d.frame.busy n true } } : Dev).bumpPerf (R.PIPE_SLOT_BACK n)
  else d

end Sys2Proof.Machine
end

