-- ==== Sys2Proof/Machine/Custody.lean ====
section
/-! DEFINITION. Accepted work (chapter 10): the admission journal, delivery sequence numbers, the judgement of guarded
ENQs, completions and retirement, and replay. -/

namespace Sys2Proof.Machine

/-! ## The journal (R413 to R416) -/

/-- Entries the region's journal banks hold: 4,096 a bank. -/
def Dev.journalSize (d : Dev) (n : Nat) : Nat := 4096 * d.bankCount n 5

/-- The indices of region n's entries that are not FREE, in ascending order. -/
def Dev.journalUsed (d : Dev) (n : Nat) : List Nat :=
  (d.frame.journal.filter (fun x => x.1 / 0x1000000 == n && x.2.state != .free)).map (fun x => x.1 % 0x1000000)

/-- An entry counts as unretired: SENT, RESEND or SPILLED. -/
def JEntry.unretired (x : JEntry) : Bool := x.state == .sent || x.state == .resend || x.state == .spilled

/-- Keep the peak of the entries in use (Table 10-11). -/
def Dev.journalPeak (d : Dev) (n : Nat) : Dev :=
  d.fset (R.ACC_JRNL_PEAK n) R.ACC_JRNL_PEAK.PEAK
    (max (d.fget (R.ACC_JRNL_PEAK n) R.ACC_JRNL_PEAK.PEAK) (d.journalUsed n).length)

/-- The lowest FREE entries, k of them, or none where the journal lacks that many (R413); an entry that became FREE in this clock may
be reserved in the next (R416). -/
def Dev.freeEntries (d : Dev) (n k : Nat) : Option (List Nat) :=
  let used := (d.journalUsed n ++ d.was.journalUsed n).eraseDups
  let l := ((List.range (used.length + k)).filter (fun i => !used.contains i)).take k
  if l.all (fun i => decide (i < d.journalSize n)) then some l else none

/-- Reserve entries (R413). -/
def Dev.reserveEntries (d : Dev) (n : Nat) (l : List Nat) : Dev :=
  (d.each l (fun i d => d.setJentry n i { JEntry.init with state := .reserved })).journalPeak n

/-- Entries return to FREE (R413). -/
def Dev.freeReserved (d : Dev) (n : Nat) (l : List Nat) : Dev := d.each l (fun i d => d.setJentry n i JEntry.init)

/-! ## Delivery sequence numbers (R418, R434) -/

def Lane.init : Lane := { next := 0, done := 0xFFFFFFFF, badA := false, badB := false, sync := false, takeNext := false }

/-- LANE_NEXT of region n for destination d and class c. -/
def Dev.laneNext (d : Dev) (n dest c : Nat) : Lane := Map.get (fun _ => Lane.init) d.frame.laneNext (rkey n (8 * dest + c))
def Dev.setLaneNext (d : Dev) (n dest c : Nat) (x : Lane) : Dev :=
  { d with frame := { d.frame with laneNext := Map.put (fun _ => Lane.init) d.frame.laneNext (rkey n (8 * dest + c)) x } }

/-- The number after the latest unretired one of a lane, or 0 (R434). -/
def Dev.laneAfterLatest (d : Dev) (n dest c : Nat) : Nat :=
  let seqs := (d.frame.journal.filter (fun x =>
    x.1 / 0x1000000 == n && x.2.unretired && x.2.dest == dest && x.2.cls == c)).map (fun x => x.2.seq)
  match seqs with
  | [] => 0
  | s :: rest => (rest.foldl (fun m x => if seqAfter 32 x m then x else m) s + 1) % 2 ^ 32

/-- A lane counter is read: the copy that is good restores the other; LANE_COUNTER_FAULT where both are uncorrectable (R434). -/
def Dev.restoreCounter (d : Dev) (n dest c : Nat) : Dev :=
  let l := d.laneNext n dest c
  if l.badA && l.badB then
    (d.setLaneNext n dest c { Lane.init with next := d.laneAfterLatest n dest c, sync := true }).setFlag (R.ACC_EVT n)
      R.ACC_EVT.LANE_FAULT true
  else d.setLaneNext n dest c { l with badA := false, badB := false }

/-- A guarded target takes its number at commit (R418). Answers the number and whether the ENQ carries SYNC. -/
def Dev.takeNumber (d : Dev) (n dest c : Nat) : (Nat × Bool) × Dev :=
  let d := d.restoreCounter n dest c
  let l := d.laneNext n dest c
  ((l.next, l.sync), d.setLaneNext n dest c { Lane.init with next := (l.next + 1) % 2 ^ 32 })

/-! ## ENQs -/

/-- A walk of region n has entries that were unretired when it began still before it (R432). -/
def Dev.walkBlocks (d : Dev) (n : Nat) : Bool :=
  (Map.get (fun _ => []) d.frame.walks n).any (fun w => w.started && w.pending.any (fun i => decide (w.index ≤ i)))

/-- An ENQ leaves for the region of its target (R414, R419). -/
def Dev.emitEnq (d : Dev) (x : Descr) : Dev :=
  let m : FloorMsg :=
    { src := x.ingress, dst := destRegion x.target.dest, origin := x.ingress, gen := d.regionGen x.ingress,
      tag := x.entry % 4096, body := .enq x }
  d.send (some (8, 0)) m

/-- A new ENQ, which waits while a walk has entries before it (R432). -/
def Dev.sendEnq (d : Dev) (x : Descr) : Dev :=
  let w := Map.get (fun _ => []) d.frame.enqWait x.ingress
  if d.walkBlocks x.ingress || !w.isEmpty then
    { d with frame := { d.frame with enqWait := Map.put (fun _ => []) d.frame.enqWait x.ingress (w ++ [x]) } }
  else d.emitEnq x

/-- ENQs that waited for a walk leave when none has entries before them. -/
def Dev.flushEnqs (d : Dev) (n : Nat) : Dev :=
  if d.walkBlocks n then d
  else
    let w := Map.get (fun _ => []) d.frame.enqWait n
    let d : Dev := { d with frame := { d.frame with enqWait := Map.put (fun _ => []) d.frame.enqWait n [] } }
    d.each w (fun x d => d.emitEnq x)

/-! ## Completions (R424, R425) -/

/-- A guarded answer with the ingress region's current generation (R425). -/
def Dev.answerGuarded (d : Dev) (e i : Nat) (entry : Option Nat) (seq dest cls : Nat) (st : CplStatus) : Dev :=
  let m : FloorMsg :=
    { src := e, dst := i, origin := i, gen := d.regionGen i, tag := entry.getD 0 % 4096, body := .cplGuarded entry seq dest cls st }
  d.send (some (7, 0)) m

/-- The answer to a frame's own ENQ. -/
def Dev.answerFrame (d : Dev) (e : Nat) (x : Descr) (st : CplStatus) : Dev :=
  d.answerGuarded e x.ingress (some x.entry) x.seq x.target.dest x.cls st

/-- The owner of a frame that is not guarded is released in its ingress region (R311); the message repeats the ENQ's
generation (R45). -/
def Dev.answerOwner (d : Dev) (e : Nat) (x : Descr) (st : CplStatus) : Dev :=
  let m : FloorMsg := { src := e, dst := x.ingress, origin := x.ingress, gen := x.gen, tag := x.head % 4096, body := .cplOwner x.head st }
  d.send (some (7, 0)) m

/-- The lane state of egress region e for ingress region i, destination and class (R420). -/
def laneKey (e i dest c : Nat) : Nat := rkey e (272 * i + 8 * destLocal dest + c)
def Dev.lane (d : Dev) (e i dest c : Nat) : Lane := Map.get (fun _ => Lane.init) d.frame.laneEgress (laneKey e i dest c)
def Dev.setLane (d : Dev) (e i dest c : Nat) (x : Lane) : Dev :=
  { d with frame := { d.frame with laneEgress := Map.put (fun _ => Lane.init) d.frame.laneEgress (laneKey e i dest c) x } }

/-- A guarded frame completes at its egress (R424): PASSED for the numbers between, DONE, then its own answer. -/
def Dev.completeLane (d : Dev) (e : Nat) (x : Descr) (st : CplStatus) : Dev :=
  let l := d.lane e x.ingress x.target.dest x.cls
  let gap := if seqAfter 32 x.seq l.done then (x.seq + 2 ^ 32 - l.done) % 2 ^ 32 - 1 else 0
  let d := d.each (List.range (min gap 65536)) (fun k d =>
    d.answerGuarded e x.ingress none ((l.done + 1 + k) % 2 ^ 32) x.target.dest x.cls .passed)
  (d.setLane e x.ingress x.target.dest x.cls { l with done := x.seq }).answerFrame e x st

/-- A frame is done with at its egress: the grains of a returned frame are released, guarded frames complete, the owner of
the others is released where a spill has not released it already. -/
def Dev.egressDone (d : Dev) (e : Nat) (x : Descr) (st : CplStatus) : Dev :=
  let d := d.when (x.tier == .returned) (·.queueRelease e x.head)
  if x.guarded then d.completeLane e x st
  else if x.tier == .returned || x.tier == .bales then d
  else d.answerOwner e x st

/-! ## The egress check (R422, R423, R692) -/

/-- The descriptors of region e that a lane rebuild reads: every frame queued there. -/
def Dev.regionFrames (d : Dev) (e : Nat) : List Descr :=
  (d.frame.queues.filter (fun x => x.1 / 0x1000000 == e)).flatMap (fun x => x.2.frames)
    ++ (Map.get (fun _ => []) d.frame.hostRx e).map (·.descr)

/-- ENQs held in region e's reorder store. -/
def Dev.held (d : Dev) (e : Nat) : List HeldEnq := Map.get (fun _ => []) d.frame.store e
def Dev.setHeld (d : Dev) (e : Nat) (l : List HeldEnq) : Dev :=
  { d with frame := { d.frame with store := Map.put (fun _ => []) d.frame.store e l } }

/-- A held ENQ belongs to a lane. -/
def HeldEnq.inLane (h : HeldEnq) (i dest c : Nat) : Bool :=
  h.descr.ingress == i && h.descr.target.dest == dest && h.descr.cls == c

/-- The earliest and the latest of some numbers by serial comparison. -/
def earliest : List Nat → Option Nat
  | [] => none
  | s :: rest => some (rest.foldl (fun m x => if seqAfter 32 m x then x else m) s)
def latest : List Nat → Option Nat
  | [] => none
  | s :: rest => some (rest.foldl (fun m x => if seqAfter 32 x m then x else m) s)

/-- The held ENQs of a lane whose numbers are next are enqueued in turn (row 3 of Table 10-3). -/
def Dev.releaseHeld (d : Dev) (e i dest c : Nat) (place : Descr → Dev → Dev) : Nat → Dev
  | 0 => d
  | k + 1 =>
    let l := d.lane e i dest c
    match (d.held e).find? (fun h => h.inLane i dest c && h.descr.seq == l.next) with
    | none => d
    | some h =>
      let d := d.setHeld e ((d.held e).filter (fun y => y != h))
      let d := d.setLane e i dest c { l with next := (l.next + 1) % 2 ^ 32 }
      (place h.descr d).releaseHeld e i dest c place k

/-- Row 3: the ENQ is enqueued, NEXT advances past it, and the held ENQs that follow come after it. -/
def Dev.acceptEnq (d : Dev) (e : Nat) (x : Descr) (place : Descr → Dev → Dev) : Dev :=
  let l := d.lane e x.ingress x.target.dest x.cls
  let d := d.setLane e x.ingress x.target.dest x.cls { l with next := (x.seq + 1) % 2 ^ 32 }
  (place x d).releaseHeld e x.ingress x.target.dest x.cls place ((d.held e).length + 1)

/-- EGRESS_LANE_REBUILD (R692): both copies of a lane state are uncorrectable. -/
def Dev.rebuildLane (d : Dev) (e i dest c : Nat) (place : Descr → Dev → Dev) : Dev :=
  let l := d.lane e i dest c
  if !(l.badA && l.badB) then d.setLane e i dest c { l with badA := false, badB := false }
  else
    let d := d.setFlag (R.ACC_EVT e) R.ACC_EVT.LANE_FAULT true
    let queued := ((d.regionFrames e).filter (fun x =>
      x.guarded && x.ingress == i && x.target.dest == dest && x.cls == c)).map (·.seq)
    let waiting := ((d.held e).filter (·.inLane i dest c)).map (·.descr.seq)
    match earliest queued, latest queued, earliest waiting with
    | some a, some b, _ =>
      d.setLane e i dest c { Lane.init with next := (b + 1) % 2 ^ 32, done := (a + 2 ^ 32 - 1) % 2 ^ 32 }
    | _, _, some a =>
      let d := d.setLane e i dest c { Lane.init with next := a, done := (a + 2 ^ 32 - 1) % 2 ^ 32 }
      d.releaseHeld e i dest c place ((d.held e).length + 1)
    | _, _, none => d.setLane e i dest c { Lane.init with takeNext := true }

/-- Entries the reorder store holds (R423). -/
def storeSize : Nat := 16384

/-- Judge a guarded ENQ at egress region e (R422, Table 10-3). -/
def Dev.judgeEnq (d : Dev) (e : Nat) (x : Descr) (place : Descr → Dev → Dev) : Dev :=
  let i := x.ingress
  let dest := x.target.dest
  let c := x.cls
  let d := d.rebuildLane e i dest c place
  let l := d.lane e i dest c
  let s := x.seq
  if x.sync || l.takeNext then
    let waiting := (d.held e).filter (·.inLane i dest c)
    let d := d.setHeld e ((d.held e).filter (fun h => !h.inLane i dest c))
    let d := d.each waiting (fun h d => d.answerFrame e h.descr .passed)
    let d := d.setLane e i dest c { Lane.init with next := s, done := (s + 2 ^ 32 - 1) % 2 ^ 32 }
    d.acceptEnq e x place
  else if x.spilledEntry && !seqAfter 32 l.next s then
    ((d.answerFrame e x .passed).bump (R.ACC_LOST e)).setFlag (R.ACC_EVT e) R.ACC_EVT.LOST true
  else if s = l.next then d.acceptEnq e x place
  else if seqAfter 32 s l.next then
    if (s + 2 ^ 32 - l.next) % 2 ^ 32 ≤ 2 ^ 20 then
      if (d.held e).length < storeSize then
        (d.setHeld e (d.held e ++ [⟨i, x, d.now⟩])).bump (R.ACC_GAP_HELD e)
      else (d.setFlag (R.ACC_EVT e) R.ACC_EVT.STORE_FULL true).answerFrame e x .retry
    else (d.setFlag (R.ACC_EVT e) R.ACC_EVT.WINDOW true).answerFrame e x .passed
  else if !seqAfter 32 s l.done then (d.bump (R.ACC_DUP_DISCARD e)).answerFrame e x .done
  else d.bump (R.ACC_DUP_DISCARD e)

/-- A held ENQ is the lowest of its lane. -/
def Dev.lowestHeld (d : Dev) (e : Nat) (h : HeldEnq) : Bool :=
  (d.held e).all (fun y => !y.inLane h.descr.ingress h.descr.target.dest h.descr.cls || !seqAfter 32 h.descr.seq y.descr.seq)

/-- The gap whose limit expires (R423): of the lanes with held ENQs, that of the one whose lowest ENQ arrived first. -/
def Dev.gapTarget (d : Dev) (e : Nat) : Option HeldEnq :=
  match (d.held e).filter (d.lowestHeld e) with
  | [] => none
  | h :: rest => some (rest.foldl (fun m y => if y.since < m.since then y else m) h)

/-- GAP_SKIP_TIMEOUT (R423): the skip is judged at the end of the clock, after the ENQs that arrive in it. -/
def Dev.gapLimit (d : Dev) (e : Nat) : Dev :=
  match d.gapTarget e with
  | some h => { d with clk := { d.clk with gaps := d.clk.gaps ++ [(e, h.descr.uid)] } }
  | none => d

/-- NEXT skips to a held ENQ that is still its lane's lowest (R423). -/
def Dev.gapSkip (d : Dev) (e uid : Nat) (place : Descr → Dev → Dev) : Dev :=
  match (d.held e).find? (fun h => h.descr.uid == uid && d.lowestHeld e h) with
  | none => d
  | some h =>
    let d := (d.bump (R.ACC_GAP_SKIP e)).setFlag (R.ACC_EVT e) R.ACC_EVT.GAP_SKIP true
    (d.setHeld e ((d.held e).filter (fun y => y != h))).acceptEnq e h.descr place

/-! ## Retirement (R416, R426 to R428) -/

/-- PENDING of a set's first entry is decremented; at 0 the journal owner is released and a HOLDING entry is free. -/
def Dev.pendingDown (d : Dev) (n first : Nat) : Dev :=
  let d := d.accessEntry n first
  let f := d.jentry n first
  if f.state == .lost || f.state == .free then d
  else
    let p := f.pending - 1
    let d := d.setJentry n first (if p = 0 && f.state == .holding then JEntry.init else { f with pending := p })
    d.when (p == 0) (·.queueRelease n f.head)

/-- An entry retires (R416, R427). -/
def Dev.retireEntry (d : Dev) (n i : Nat) : Dev :=
  let x := d.jentry n i
  let d := d.disarm ⟨.retry, n, i⟩
  let d := if x.first = i then d.setJentry n i { x with state := .holding, descr := none } else d.setJentry n i JEntry.init
  let d := if x.state == .spilled then d else d.pendingDown n x.first
  let y := d.jentry n i
  if x.first = i && y.state == .holding && y.pending == 0 then d.setJentry n i JEntry.init else d

/-- The counter of a status (Table 10-4). -/
def retireCounter (n : Nat) : CplStatus → Option Nat
  | .transmit => some (R.ACC_RETIRE_TX n)
  | .undeliverable => some (R.ACC_RETIRE_UNDELIV n)
  | .inst => some (R.ACC_RETIRE_INST n)
  | .eliminated => some (R.ACC_RETIRE_ELIM n)
  | .done => some (R.ACC_RETIRE_DONE n)
  | .passed => some (R.ACC_RETIRE_PASSED n)
  | .retry => some (R.ACC_RETRY n)
  | _ => none

/-- RETRY_US in clocks: 0 acts as 1 µs. -/
def Dev.retryDelay (d : Dev) (n : Nat) : Nat := max 1 (d.fget (R.ACC_CFG n) R.ACC_CFG.RETRY_US) * us

/-- The entry a guarded answer applies to (R426): the named one, or for an answer that names none the one of its lane with
its number. -/
def Dev.entryFor (d : Dev) (n : Nat) (entry : Option Nat) (seq dest cls : Nat) : Option Nat :=
  match entry with
  | some i =>
    let x := d.jentry n i
    if x.unretired && x.dest == dest && x.seq == seq then some i else none
  | none =>
    ((d.frame.journal.find? (fun x => x.1 / 0x1000000 == n && x.2.unretired && x.2.dest == dest && x.2.seq == seq
      && x.2.cls == cls)).map (fun x => x.1 % 0x1000000))

/-- A guarded CPL reaches ingress region n (R426, Table 10-4). -/
def Dev.applyCpl (d : Dev) (n : Nat) (entry : Option Nat) (seq dest cls : Nat) (st : CplStatus) : Dev :=
  let d := match entry with | some i => d.accessEntry n i | none => d
  let hit := if d.blockInRestart n 6 then none else d.entryFor n entry seq dest cls
  match hit with
  | none => d.bump (R.ACC_CPL_MISMATCH n)
  | some i =>
    let x := d.jentry n i
    let d := match retireCounter n st with | some c => d.bump c | none => d
    match st with
    | .spill =>
      let d := d.setJentry n i { x with state := .spilled, pending := x.pending }
      (d.pendingDown n x.first).queueRelease n x.head
    | .retry => (d.setJentry n i { x with state := .resend }).arm ⟨.retry, n, i⟩ (d.retryDelay n)
    | _ => (d.when (x.state != .spilled) (·.queueRelease n x.head)).retireEntry n i

/-- An ENQ is answered by a NACK (R428). -/
def Dev.enqNacked (d : Dev) (n : Nat) (x : Descr) : Dev :=
  if x.guarded then
    let y := d.jentry n x.entry
    if y.unretired && y.seq == x.seq && y.state != .spilled then d.setJentry n x.entry { y with state := .resend } else d
  else (d.queueRelease n x.head).bump (R.ACC_NACK_LOST n)

/-- Send an entry's ENQ again (R429, R430): as a replay, or after RETRY. -/
def Dev.resendEntry (d : Dev) (n i : Nat) (replay : Bool) : Dev :=
  let x := d.jentry n i
  match x.descr with
  | none => d
  | some y =>
    let d := if x.state == .resend then d.setJentry n i { x with state := .sent } else d
    d.emitEnq { y with replay := replay, spilledEntry := x.state == .spilled, sync := false, gen := d.regionGen n }

/-- RETRY_RESEND: the lowest entry whose RETRY_US has passed is sent again. -/
def Dev.retryResend (d : Dev) (n : Nat) : Dev :=
  match (d.journalUsed n).find? (fun i => d.due ⟨.retry, n, i⟩ && (d.jentry n i).state == .resend) with
  | some i => (d.disarm ⟨.retry, n, i⟩).resendEntry n i false
  | none => d

/-! ## Replay (R430 to R433) -/

def Dev.walksOf (d : Dev) (n : Nat) : List Walk := Map.get (fun _ => []) d.frame.walks n
def Dev.setWalks (d : Dev) (n : Nat) (l : List Walk) : Dev :=
  { d with frame := { d.frame with walks := Map.put (fun _ => []) d.frame.walks n l } }

/-- A walk not yet started. -/
def Walk.new (toward : Option Nat) : Walk :=
  { toward := toward, started := false, index := 0, pending := [], sent := 0, again := false }

/-- A replay of region n is requested (R432): one of the same scope that runs starts again when it ends. -/
def Dev.requestReplay (d : Dev) (n : Nat) (toward : Option Nat) : Dev :=
  let l := d.walksOf n
  if l.any (fun w => w.toward == toward) then
    d.setWalks n (l.map (fun w => if w.toward == toward && w.started then { w with again := true } else w))
  else d.setWalks n (l ++ [Walk.new toward])

/-- REPLAY_START: the first walk requested starts (R430, R431). -/
def Dev.replayStart (d : Dev) (n : Nat) : Dev :=
  let l := d.walksOf n
  match l.find? (fun w => !w.started) with
  | none => d
  | some w =>
    let open_ := (d.journalUsed n).filter (fun i => (d.jentry n i).unretired)
    let w' := { w with started := true, index := 0, pending := open_, sent := 0, again := false }
    (d.setWalks n (l.map (fun x => if x == w then w' else x))).setFlag (R.ACC_STAT n) R.ACC_STAT.REPLAY true

/-- The walk passes entry i: it sends the ENQ of an unretired entry in its scope (R430). -/
def Dev.walkEntry (d : Dev) (n i : Nat) (w : Walk) : Walk × Dev :=
  let d := d.accessEntry n i
  let x := d.jentry n i
  let inScope := match w.toward with | none => true | some e => destRegion x.dest == e
  if x.unretired && inScope then
    ({ w with index := i + 1, sent := w.sent + 1 }, (d.resendEntry n i true).bump (R.ACC_REPLAYED n))
  else ({ w with index := i + 1 }, d)

/-- The walk passes every entry with an index below `limit`. -/
def Dev.walkTo (d : Dev) (n limit : Nat) (w : Walk) : Walk × Dev :=
  let todo := (d.journalUsed n).filter (fun i => decide (w.index ≤ i ∧ i < limit))
  let r := todo.foldl (fun (acc : Walk × Dev) i => acc.2.walkEntry n i acc.1) (w, d)
  ({ r.1 with index := max limit r.1.index }, r.2)

/-- At the end of each clock, after the CPLs and NACKs that came in it (R435), a running walk passes two entries (Table 10-9), and ENQs that waited for it leave when it is past. -/
def Dev.walkTick (d : Dev) (n : Nat) : Dev :=
  match d.walksOf n with
  | [] => d
  | _ =>
    let d := (d.walksOf n).foldl (fun d w =>
      if w.started then
        let r := d.walkTo n (w.index + 2) w
        r.2.setWalks n ((r.2.walksOf n).map (fun x => if x == w then r.1 else x))
      else d) d
    d.flushEnqs n

/-- REPLAY_WALK_END: the walk ends with the clock, after the CPLs and NACKs that came in it (R435). -/
def Dev.walkOver (d : Dev) (n : Nat) : Dev := { d with clk := { d.clk with walkEnds := d.clk.walkEnds ++ [n] } }

/-- The walk that started first passes the entries it has left and ends; it runs again from index 0 where
a replay of its scope was requested meanwhile (R432). -/
def Dev.walkEnd (d : Dev) (n : Nat) : Dev :=
  match (d.walksOf n).find? (·.started) with
  | none => d
  | some w =>
    let r := d.walkTo n (max w.index (d.journalSize n)) w
    let d := r.2
    let rest := (d.walksOf n).filter (fun x => x != w)
    let d := d.setWalks n (if r.1.again then rest ++ [Walk.new w.toward] else rest)
    let d := d.setFlag (R.ACC_STAT n) R.ACC_STAT.REPLAY ((d.walksOf n).any (·.started))
    let d := d.when (d.flag (R.ACC_CFG n) R.ACC_CFG.REPLAY_LOG)
      (·.logChip 0x0031 ((match w.toward with | some e => e + 4 | none => n) + 2 ^ 16 * (r.1.sent % 2 ^ 16)))
    d.flushEnqs n

/-- The replays of Table 10-5 towards region e: every ingress region runs one (R431). -/
def Dev.replayToward (d : Dev) (e : Nat) : Dev := d.each [0, 1, 2, 3] (fun n d => d.requestReplay n (some e))

/-- The ECC walk of R433 in region n: single copies are restored, RESERVED entries return to FREE, lane states whose copies
are both bad are rebuilt (R434, R692). -/
def Dev.custodyWalk (d : Dev) (n : Nat) (place : Descr → Dev → Dev) : Dev :=
  let d := d.each (d.journalUsed n) (fun i d =>
    let d := d.accessEntry n i
    if (d.jentry n i).state == .reserved then d.setJentry n i JEntry.init else d)
  let clean := fun (x : Descr) => ({ x with badA := false, badB := false } : Descr)
  let fix := fun (q : EQueue) =>
    ({ q with frames := (q.frames.filter (fun x => !(x.guarded && x.badA && x.badB))).map clean } : EQueue)
  let d : Dev := { d with frame := { d.frame with
    queues := d.frame.queues.map (fun x => if x.1 / 0x1000000 == n then (x.1, fix x.2) else x) } }
  let counters := d.frame.laneNext.filter (fun x => x.1 / 0x1000000 == n && (x.2.badA || x.2.badB))
  let d := d.each counters (fun x d =>
    let k := x.1 % 0x1000000
    d.restoreCounter n (k / 8) (k % 8))
  let bad := d.frame.laneEgress.filter (fun x => x.1 / 0x1000000 == n && (x.2.badA || x.2.badB))
  d.each bad (fun x d =>
    let r := x.1 % 0x1000000
    let i := r / 272
    let k := r % 272 / 8
    let dest := if k < 32 then 32 * n + k else if k = 32 then 128 + n else if n = 1 then 132 else 133
    d.rebuildLane n i dest (r % 8) place)

/-- A cold start, or a region initialised cold: the journal and the lanes are cleared (Table 10-5). -/
def Dev.custodyClear (d : Dev) (n : Nat) : Dev :=
  let other := fun {α : Type} (m : NMap α) => m.filter (fun x => x.1 / 0x1000000 != n)
  { d with frame := { d.frame with
    journal := other d.frame.journal,
    laneNext := other d.frame.laneNext,
    laneEgress := other d.frame.laneEgress,
    store := Map.put (fun _ => []) d.frame.store n [],
    walks := Map.put (fun _ => []) d.frame.walks n [],
    enqWait := Map.put (fun _ => []) d.frame.enqWait n [],
    copies := Map.put (fun _ => []) d.frame.copies n [],
    mirrorWait := Map.put (fun _ => []) d.frame.mirrorWait n [] } }

end Sys2Proof.Machine
end

