-- ==== Sys2Proof/Machine/Egress.lean ====
section
/-! DEFINITION. The egress side (chapters 7 and 8): recovery, spill runs, placement, gates, eligibility, selection, marking
and tags, transmission, and what empties a queue. -/

namespace Sys2Proof.Machine

/-! ## Bales (R318 to R325) -/

def BaleStore.init : BaleStore := { own := FreeRing.init, mirror := FreeRing.init, bad := [] }

def Dev.baleStore (d : Dev) (e : Nat) : BaleStore := Map.get (fun _ => BaleStore.init) d.frame.bales e
def Dev.setBaleStore (d : Dev) (e : Nat) (b : BaleStore) : Dev :=
  { d with frame := { d.frame with bales := Map.put (fun _ => BaleStore.init) d.frame.bales e b } }

/-- A 64-byte burst from its words, the first lowest. -/
def burstOf (l : List Word) : Nat := l.foldr (fun w acc => acc * 2 ^ 32 + w.toNat) 0

/-- Words written to a channel's array from burst b on. -/
def putBursts (a : NMap Nat) (b : Nat) : Nat → List Word → NMap Nat
  | 0, _ => a
  | k + 1, l => if l.isEmpty then a else putBursts (Map.ins a b (burstOf (l.take 16))) (b + 1) k (l.drop 16)

/-- Bales of a range that are not ring bales: the first ceil(size / 512) hold the ring. -/
def usableBales (size : Nat) : Nat := size - (size + 511) / 512

/-- Take a bale of a range of `size` bales that starts at bale `base`. -/
def FreeRing.popBale (f : FreeRing) (base size : Nat) : Option (Nat × FreeRing) :=
  match f.front with
  | b :: rest => some (b, { f with front := rest })
  | [] =>
    if f.next < usableBales size then some (base + (size + 511) / 512 + f.next, { f with next := f.next + 1 })
    else
      match f.back with
      | b :: rest => some (b, { f with back := rest })
      | [] => none

/-- Free bales of a range. -/
def FreeRing.baleCount (f : FreeRing) (size : Nat) : Nat := f.front.length + (usableBales size - f.next) + f.back.length

/-- Take k bales. -/
def FreeRing.popBales (f : FreeRing) (base size : Nat) : Nat → List Nat × FreeRing
  | 0 => ([], f)
  | k + 1 =>
    match f.popBale base size with
    | none => ([], f)
    | some (b, f) => let r := f.popBales base size k; (b :: r.1, r.2)

/-- Bytes of payload in a bale (R318). -/
def balePayload : Nat := 2040

/-- Bales that a stream of `at_` bytes with `len` more needs beyond those it has. -/
def balesNeeded (at_ len : Nat) : Nat := (at_ + len + balePayload - 1) / balePayload - (at_ + balePayload - 1) / balePayload

/-- The bales of a chain that hold bytes `at_` to `at_ + len - 1` of its stream. -/
def balesOver (chain : List Nat) (at_ len : Nat) : List Nat :=
  (chain.drop (at_ / balePayload)).take ((at_ + len - 1) / balePayload + 1 - at_ / balePayload)

/-- The 2,048 bytes of bale b of channel n, in data bursts 32 b to 32 b + 31 (R318); a burst never written reads as free. -/
def Dev.baleBytes (d : Dev) (n b : Nat) : List Byte :=
  (List.range 32).flatMap (fun j =>
    leBytes 64 (Map.get (fun k => (Config.undefinedWord (0x51 + 256 * n) k).toNat) (d.dramOf n).array (32 * b + j)))

/-- The CHECK of a bale's payload and the first word of its trailer (Table 7-6). -/
def baleSum (payload : List Byte) (w0 : Nat) : Nat := crc32c (payload ++ leBytes 4 w0)

/-- A bale of channel n is written: payload, and the trailer with the next bale of the chain, if there is one, and its queue
(Table 7-6). -/
def Dev.putBale (d : Dev) (n b q : Nat) (payload : List Byte) (next : Option Nat) : Dev :=
  let w0 := next.getD 0 % 2 ^ 21 + 2 ^ 21 * b2n next.isNone + 2 ^ 22 * (q % 256)
  let l := payload ++ leBytes 4 w0 ++ leBytes 4 (baleSum payload w0)
  let x := d.dramOf n
  let d := d.setDram n { x with array := putBursts x.array (32 * b) 32 ((List.range 512).map (fun i => BitVec.ofNat 32 (leAt l (4 * i) 4))) }
  let s := d.baleStore n
  d.setBaleStore n { s with bad := s.bad.filter (· != b) }

/-- Bytes put over part of a bale's payload that starts at byte `lo` of its stream. -/
def overPayload (old : List Byte) (lo at_ : Nat) (bytes : List Byte) : List Byte :=
  let b := (bytes.drop (lo - at_)).take (balePayload - (at_ - lo))
  old.take (at_ - lo) ++ b ++ old.drop ((at_ - lo) + b.length)

/-- Bytes written to a queue's stream in the bales of a chain of channel n, from byte `at_` on: the trailer of the bale before,
which now has a next one, is written again (R318). -/
def Dev.streamWrite (d : Dev) (n q : Nat) (chain : List Nat) (at_ : Nat) (bytes : List Byte) : Dev :=
  let first := at_ / balePayload - 1
  let last := (at_ + bytes.length - 1) / balePayload
  d.each ((List.range (last + 1)).drop first) (fun i d =>
    match chain[i]? with
    | some b => d.putBale n b q (overPayload ((d.baleBytes n b).take balePayload) (i * balePayload) at_ bytes) chain[i + 1]?
    | none => d)

/-- Bytes read from a stream that stand `skip` bytes into the payload of the first of some bales. -/
def Dev.streamRead (d : Dev) (n : Nat) (bales : List Nat) (skip len : Nat) : List Byte :=
  ((bales.flatMap (fun b => (d.baleBytes n b).take balePayload)).drop skip).take len

/-- A bale of channel n passes its CHECK (R326). -/
def Dev.baleGood (d : Dev) (n b : Nat) : Bool :=
  let l := d.baleBytes n b
  baleSum (l.take balePayload) (leAt l 2040 4) == leAt l 2044 4

/-- The spill header of a frame (Table 7-7). -/
def Descr.spillHeader (x : Descr) : List Byte :=
  leBytes 4 (x.length % 2 ^ 14 + 2 ^ 14 * (x.cls % 8) + 2 ^ 17 * b2n x.guarded + 2 ^ 18 * b2n x.cong) ++ leBytes 4 x.seq
    ++ leBytes 4 (x.entry % 2 ^ 16 + 2 ^ 16 * (x.ingress % 4) + 2 ^ 18 * (x.gen % 256) + 2 ^ 26 * (x.src % 64))
    ++ leBytes 4 (x.commitTime / us)

/-- What a spill header says of a frame that returns at a clock (Table 7-7): the commit time to a microsecond. -/
def Descr.fromHeader (x : Descr) (h : List Byte) (now : Nat) : Descr :=
  let w0 := leAt h 0 4
  let w2 := leAt h 8 4
  let age := (now / us + 2 ^ 32 - leAt h 12 4) % 2 ^ 32
  { x with
    length := bits w0 0 14, cls := bits w0 14 3, guarded := w0.testBit 17, cong := w0.testBit 18, seq := leAt h 4 4,
    entry := bits w2 0 16, ingress := bits w2 16 2, gen := bits w2 18 8, src := bits w2 26 6, commitTime := (now / us - age) * us }

/-- The frames of a queue's spill run. -/
def EQueue.run (q : EQueue) : List Descr := q.frames.filter (fun x => x.tier == .bales || x.tier == .spilling)

/-- Bytes of a queue in grains, and in its spill run (Table 7-18). -/
def EQueue.onChip (q : EQueue) : Nat :=
  (q.frames.filter (fun x => x.tier == .grains || x.tier == .returned)).foldl (fun a x => a + x.length) 0
def EQueue.spilled (q : EQueue) : Nat := q.run.foldl (fun a x => a + x.length) 0

/-- The last frame of a queue is in its run: no frame in grains stands after it. -/
def EQueue.runOpen (q : EQueue) : Bool :=
  match q.frames.getLast? with
  | some x => x.tier == .bales || x.tier == .spilling
  | none => false

/-- The partner region of a channel. -/
def partner (e : Nat) : Nat := if e % 2 = 0 then e + 1 else e - 1

/-- The partner region runs (Table 7-11, PARTNER_OK: with its mirror range ready). -/
def Dev.partnerOk (d : Dev) (e : Nat) : Bool :=
  d.regionEnabled (partner e) && d.regionRuns (partner e) && d.flag (R.GRN_STAT (partner e)) R.GRN_STAT.SILO_READY

/-- Spilling is possible but for free bales (R320). -/
def Dev.spillOpen (d : Dev) (e : Nat) : Bool :=
  d.flag (R.GRN_CFG e) R.GRN_CFG.SPILL_EN && d.flag (R.GRN_STAT e) R.GRN_STAT.SILO_READY && d.stageActs == 0

/-- Remove a frame's claim on bales: those that no other frame of the queue holds return to the ring (R325). An empty run has no
stream. -/
def Dev.freeBales (d : Dev) (e q : Nat) (own : List Nat) : Dev :=
  let fr := (d.queue e q).frames
  let own := own.filter (fun b => !fr.any (fun y => y.bales.contains b))
  let s := d.baleStore e
  let d := d.setBaleStore e { s with own := { s.own with back := s.own.back ++ own } }
  if (d.queue e q).run.isEmpty then d.modQueue e q (fun q => { q with stream := 0, chain := [], mstream := 0, mchain := [] }) else d

/-- Region e is done with the mirror of a guarded frame: a discard CPL to the partner names the mirror bales that hold no other frame
(R325). -/
def Dev.freeMirror (d : Dev) (e q : Nat) (x : Descr) : Dev :=
  if x.mbales.isEmpty then d
  else
    let fr := (d.queue e q).frames
    let m : FloorMsg :=
      { src := e, dst := partner e, origin := e, gen := d.regionGen e, tag := x.uid % 4096,
        body := .cplBales x.uid x.target.dest (x.mbales.filter (fun b => !fr.any (fun y => y.mbales.contains b))) }
    d.send (some (7, 0)) m

/-- The discard CPL for a mirror reaches the partner: the bales return to their ring (R325). -/
def Dev.mirrorFreed (d : Dev) (e uid dest : Nat) (bales : List Nat) : Dev :=
  let d : Dev := { d with frame := { d.frame with
    mirrorList := Map.put (fun _ => []) d.frame.mirrorList e
      ((Map.get (fun _ => []) d.frame.mirrorList e).filter (fun z => z.uid != uid || z.target.dest != dest)) } }
  let p := d.baleStore e
  d.setBaleStore e { p with mirror := { p.mirror with back := p.mirror.back ++ bales } }

/-- The last frames of a run have gone: its streams end where the last that is left ends (R318). -/
def EQueue.endStream (q : EQueue) (x : Descr) : EQueue :=
  if !(x.tier == .bales || x.tier == .spilling) || q.run.any (fun y => decide (x.spillAt < y.spillAt)) then q
  else
    let q := { q with stream := x.spillAt, chain := q.chain.take ((x.spillAt + balePayload - 1) / balePayload) }
    if !x.guarded || q.run.any (fun y => y.guarded && decide (x.mirrorAt < y.mirrorAt)) then q
    else { q with mstream := x.mirrorAt, mchain := q.mchain.take ((x.mirrorAt + balePayload - 1) / balePayload) }

/-! ## PCIe host delivery: who receives (R543, R544) -/

/-- PCIe host port n is ready (R543); a region that drains for a re-layout takes no copies (R113). -/
def Dev.hostReady (d : Dev) (n : Nat) : Bool :=
  !d.drainingRegion n &&
  d.flag (R.HST_STAT n) R.HST_STAT.READY && d.flag (R.HST_STAT n) R.HST_STAT.LINK_UP && d.fget (R.HST_CFG n) R.HST_CFG.MODE != 0
    && d.regionRuns n && !d.flag (R.HST_STAT n) R.HST_STAT.SHED && d.runState.serving

/-- A destination code of a port is ready. -/
def Dev.destReady (d : Dev) (dest : Nat) : Bool :=
  if 128 ≤ dest ∧ dest < 132 then d.hostReady (dest - 128) else d.portReady dest

/-- State of instance i of host port n (Table 13-4). -/
def Dev.instState (d : Dev) (n i : Nat) : Nat := d.fget (R.INST_STAT n i) R.INST_STAT.STATE

/-- The instances of host port n that are not DISABLED. -/
def Dev.instances (d : Dev) (n : Nat) : List Nat := (List.range 64).filter (fun i => d.instState n i != 0)

/-- Instance i holds an address in a valid MAC entry. -/
def Dev.instHasMac (d : Dev) (n i : Nat) (mac : Nat) : Bool :=
  [0, 1, 2, 3].any (fun j => d.flag (R.INSTE_MAC_HI n i j) R.INSTE_MAC_HI.VALID
    && (d.rd (R.INSTE_MAC_LO n i j)).toNat + 2 ^ 32 * d.fget (R.INSTE_MAC_HI n i j) R.INSTE_MAC_HI.ADDR == mac)

/-- Recipients of a frame at host port n (R544). -/
def Dev.recipients (d : Dev) (n : Nat) (da : List Byte) (guarded : Bool) : List Nat :=
  let mac := beAt da 0 6
  let all := d.instances n
  let filt := fun (i : Nat) (f : Fld) => d.flag (R.INSTE_FILT n i) f
  let l :=
    if mac = 2 ^ 48 - 1 then all.filter (fun i => filt i R.INSTE_FILT.BCAST || filt i R.INSTE_FILT.PROMISC)
    else if (byteAt da 0).testBit 0 then all.filter (fun i => filt i R.INSTE_FILT.ALLMULTI || filt i R.INSTE_FILT.PROMISC)
    else
      match all.find? (fun i => d.instHasMac n i mac) with
      | some i => [i]
      | none => all.filter (fun i => filt i R.INSTE_FILT.PROMISC)
  if l.isEmpty && guarded then [0] else l

/-- The queue pair of a class (R545). -/
def Dev.rxQp (d : Dev) (n i c : Nat) : Nat :=
  let q := d.fget (R.INST_RX_QMAP n i) (R.INST_RX_QMAP.QP c)
  if q < (d.rl n).qp.getD i 1 then q else 0

def Dev.hostFrames (d : Dev) (n : Nat) : List HostFrame := Map.get (fun _ => []) d.frame.hostRx n
def Dev.setHostFrames (d : Dev) (n : Nat) (l : List HostFrame) : Dev :=
  { d with frame := { d.frame with hostRx := Map.put (fun _ => []) d.frame.hostRx n l } }

/-- Number of grains a frame's READs ask for, one READ each. -/
def Dev.readFrame (d : Dev) (e block owner head count : Nat) (use : SinkUse) : Dev :=
  (d.chain owner count head).foldl (fun d g => d.request e block 0 use owner (.read g)) d

/-- HOST_RECIPIENT_SELECT: a frame for Hn waits for its recipients, or is released (R544). -/
def Dev.hostPlace (d : Dev) (n : Nat) (x : Descr) : Dev :=
  let rs := d.recipients n x.dec.da x.guarded
  if rs.isEmpty then (d.bump (R.HST_RX_NOMATCH n)).egressDone n x .discard
  else
    let h : HostFrame :=
      { descr := x, recipients := rs.map (fun i => (i, d.rxQp n i x.cls)), since := d.now, bytes := [], readsLeft := x.grains,
        handed := false, reread := false }
    (d.setHostFrames n (d.hostFrames n ++ [h])).readFrame n 9 x.owner x.head x.grains (.host x.uid)

/-- Frames of host port n that no recipient still waits for complete, guarded ones in the number order of their lane
(R532, R546). -/
def Dev.hostSettle (d : Dev) (n : Nat) : Nat → Dev
  | 0 => d
  | k + 1 =>
    let l := d.hostFrames n
    let sameLane := fun (a b : HostFrame) =>
      a.descr.ingress == b.descr.ingress && a.descr.cls == b.descr.cls && a.descr.guarded && b.descr.guarded
    match l.find? (fun h => h.recipients.isEmpty && !l.any (fun y => sameLane y h && seqAfter 32 h.descr.seq y.descr.seq)) with
    | none => d
    | some h =>
      let d := d.setHostFrames n (l.filter (fun y => y.descr.uid != h.descr.uid))
      (d.egressDone n h.descr (if h.handed then .transmit else .inst)).hostSettle n k

/-- A PCIe host port becomes not ready: frames that are not guarded are discarded (R543). -/
def Dev.hostNotReady (d : Dev) (n : Nat) : Dev :=
  let gone := (d.hostFrames n).filter (fun h => !h.descr.guarded)
  let d := d.setHostFrames n ((d.hostFrames n).filter (fun h => h.descr.guarded))
  d.each gone (fun h d => (d.bump (R.HST_NOTREADY_DISCARD n)).egressDone n h.descr .discard)

/-! ## Recovery (R375 to R377) -/

def StreamState.init : StreamState := { genNext := 0, last := 0, hist := 0, takeAny := true, lastAccept := 0 }

def Dev.stream (d : Dev) (n j : Nat) : StreamState := Map.get (fun _ => StreamState.init) d.frame.streams (rkey n j)
def Dev.setStream (d : Dev) (n j : Nat) (s : StreamState) : Dev :=
  { d with frame := { d.frame with streams := Map.put (fun _ => StreamState.init) d.frame.streams (rkey n j) s } }

/-- Counter cells of stream entry j (Table 8-15): 0 ELIMINATED, 1 ROGUE, 2 OUT_OF_ORDER, 3 RESETS. -/
def streamCell (n j k : Nat) : Nat := spWord 0x62 n + 32 * j + 12 + 4 * k

/-- Fields of a stream entry (Table 8-5). -/
def Dev.streamWord (d : Dev) (n j w : Nat) : Nat := (d.rd (streamKey n j w)).toNat

/-- FRAME_RECOVERY: the vector recovery of stream entry j in region e. Answers whether the frame is accepted. -/
def Dev.recover (d : Dev) (e j seq : Nat) : Bool × Dev :=
  let s := d.stream e j
  let w2 := d.streamWord e j 2
  let len := min 32 (max 1 (bits w2 16 6))
  let reset := bits (d.streamWord e j 3) 0 16
  let ok := fun (d : Dev) => if reset = 0 then d else d.arm ⟨.recoveryReset, e, j⟩ (reset * ms)
  if s.takeAny then (true, ok (d.setStream e j { s with takeAny := false, last := seq, hist := 1, lastAccept := d.now }))
  else
    let k := signed 16 (seq + 2 ^ 16 - s.last)
    if (len : Int) ≤ k ∨ k ≤ -(len : Int) then (false, d.bump (streamCell e j 1))
    else if k ≤ 0 then
      let b := (-k).toNat
      if s.hist.testBit b then (false, d.bump (streamCell e j 0))
      else (true, ok ((d.setStream e j { s with hist := setBit s.hist b true, lastAccept := d.now }).bump (streamCell e j 2)))
    else
      let h := (s.hist * 2 ^ k.toNat + 1) % 2 ^ 32
      (true, ok (d.setStream e j { s with hist := h, last := seq, lastAccept := d.now }))

/-- RECOVERY_RESET_EXPIRY: the lowest entry whose RESET_MS has passed takes any number next (R377). -/
def Dev.recoveryReset (d : Dev) (e : Nat) : Dev :=
  match (List.range 256).find? (fun j => d.due ⟨.recoveryReset, e, j⟩) with
  | some j =>
    ((d.disarm ⟨.recoveryReset, e, j⟩).setStream e j { d.stream e j with takeAny := true }).bump (streamCell e j 3)
  | none => d

/-! ## Placement (R315, R320, R342, R343) -/

/-- The queue of a frame on port p, by the map as this clock began (R342). -/
def Dev.queueFor (d : Dev) (p : Nat) (x : Descr) : Nat :=
  match x.target.queue with
  | some i => i
  | none => bits (d.was.rd (R.SCH_CQMAP (portRegion p) (portLocal p))).toNat (3 * x.cls) 3

/-- The frames of port p's queues with the queue each stands in. -/
def Dev.portFrames (d : Dev) (p : Nat) : List (Nat × Descr) :=
  (List.range 8).flatMap (fun i => ((d.queue (portRegion p) (portQueue p i)).frames).map (fun x => (i, x)))

/-- A frame of class c in queue i of port p is fenced: an earlier frame of its class stands in another queue (R343). -/
def Dev.fenced (d : Dev) (p i : Nat) (x : Descr) : Bool :=
  !x.target.mirror && (d.portFrames p).any (fun y => y.1 != i && y.2.cls == x.cls && decide (y.2.at_ < x.at_))

/-- Queue q of region e is held by a topology hold in force (R327). -/
def Dev.heldQueue (d : Dev) (e q : Nat) : Bool :=
  (d.holdOf e).active && decide (q < 256) && (d.rl e).backbone.testBit (q / 8) &&
    (List.range 8).any (fun c => d.heldClass c && bits (d.rd (R.SCH_CQMAP e (q / 8))).toNat (3 * c) 3 == q % 8)

/-- A spilled guarded frame's descriptor goes to the partner's mirror list (R322). -/
def Dev.sendMirror (d : Dev) (e q : Nat) (x : Descr) : Dev :=
  let m : FloorMsg :=
    { src := e, dst := partner e, origin := e, gen := d.regionGen e, tag := x.uid % 4096,
      body := .enq { x with mirrorList := true, at_ := q, reread := false } }
  d.send (some (7, 0)) m

/-- SPILL_ENQUEUE: whether a frame joins the spill run of its queue (R320, R321), with the bales it takes. Ethernet host
ports never spill (R552). -/
def Dev.joinRun (d : Dev) (e q : Nat) (x : Descr) : Descr × Dev :=
  let eq := d.queue e q
  let w := d.rd (R.GRN_QSPILL e q)
  let on := R.GRN_QSPILL.SPILL_ON.get w * 1024
  let start := on != 0 && decide (on < eq.onChip + x.length) && eq.run.isEmpty
  if 256 ≤ q || !(eq.runOpen || start) then (x, d)
  else
    let len := x.length + 16
    let need := balesNeeded eq.stream len
    let mneed := if x.guarded then balesNeeded eq.mstream len else 0
    let s := d.baleStore e
    let pe := partner e
    let lay := d.rl e
    let play := d.rl pe
    let ownOk := decide (need ≤ s.own.baleCount lay.balesOwn)
    let mirOk := !x.guarded || (d.partnerOk e && decide (mneed ≤ (d.baleStore pe).mirror.baleCount play.balesMirror))
    if d.spillOpen e && ownOk && mirOk then
      let r := s.own.popBales 0 lay.balesOwn need
      let d := d.setBaleStore e { s with own := r.2 }
      let ps := d.baleStore pe
      let mr := ps.mirror.popBales play.balesOwn play.balesMirror mneed
      let d := d.setBaleStore pe { ps with mirror := mr.2 }
      let chain := eq.chain ++ r.1
      let mchain := eq.mchain ++ mr.1
      let x := { x with
        tier := .spilling, bales := balesOver chain eq.stream len, spillAt := eq.stream, mirrorAt := eq.mstream,
        mbales := if x.guarded then balesOver mchain eq.mstream len else [] }
      let d := d.modQueue e q (fun y => { y with
        stream := y.stream + len, chain := chain, mchain := mchain,
        mstream := if x.guarded then y.mstream + len else y.mstream })
      (x, d.readFrame e 7 x.owner x.head x.grains (.spill q x.uid))
    else
      let d := d.when (d.spillOpen e && !ownOk) (·.setFlag (R.GRN_EVT e) R.GRN_EVT.BALES_OUT true)
      let d := d.when (d.spillOpen e && ownOk && x.guarded && d.partnerOk e && !mirOk)
        (·.setFlag (R.GRN_EVT e) R.GRN_EVT.MIRROR_OUT true)
      (x, d.when (d.flag (R.GRN_CFG e) R.GRN_CFG.SPILL_EN && d.loader.layout.silo) (·.bump (R.GRN_SPILL_BLOCKED e)))

/-- A frame enters its queue at port p (R315, R319, R342, R343). -/
def Dev.portPlace (d : Dev) (p : Nat) (x : Descr) : Dev :=
  let e := portRegion p
  let i := d.queueFor p x
  let ep := d.eport p
  let x := { x with at_ := ep.arrivals, queuedAt := d.now }
  let d := d.setEport p { ep with arrivals := ep.arrivals + 1 }
  let d := d.when (d.fenced p i x) (·.bump (pCntKey e (portLocal p) 2))
  let r := d.joinRun e (portQueue p i) x
  r.2.modQueue e (portQueue p i) (fun q => { q with frames := q.frames ++ [r.1] })

/-- A frame enters its port's queue, or waits for its host's recipients. -/
def Dev.enter (d : Dev) (e : Nat) (x : Descr) : Dev :=
  if 128 ≤ x.target.dest ∧ x.target.dest < 132 then d.hostPlace e x else d.portPlace x.target.dest x

/-- The stream entry of region e whose recovery a frame is subject to, with its number (R375). -/
def Dev.recoveryOf (d : Dev) (e : Nat) (x : Descr) : Option (Nat × Nat) :=
  match (if x.target.mirror then none else x.dec.recover) with
  | some (j, seq) =>
    if bits (d.streamWord e j 2) 0 12 = x.target.dest ∧ (d.streamWord e j 1).testBit 28 ∧ (d.streamWord e j 1).testBit 30 then
      some (j, seq)
    else none
  | none => none

/-- A checked frame is placed; one subject to recovery waits for the end of the clock (R375). -/
def Dev.place (e : Nat) (x : Descr) (d : Dev) : Dev :=
  if (d.recoveryOf e x).isSome then { d with frame := { d.frame with toRecover := d.frame.toRecover ++ [(e, x)] } } else d.enter e x

/-- FRAME_RECOVERY of a frame that waits (R375, R376). -/
def Dev.recoverFrame (d : Dev) (e : Nat) (x : Descr) : Dev :=
  match d.recoveryOf e x with
  | some (j, seq) =>
    let r := d.recover e j seq
    if r.1 then r.2.enter e x
    else if x.guarded then r.2.answerFrame e x .eliminated
    else r.2.answerOwner e x .discard
  | none => d.enter e x

/-- The recoveries of a clock: those of one clock are taken in ascending source region number (R375). -/
def Dev.recoverEnd (d : Dev) : Dev :=
  let l := d.frame.toRecover
  let d : Dev := { d with frame := { d.frame with toRecover := [] } }
  d.each [0, 1, 2, 3] (fun i d => d.each (l.filter (fun x => x.2.ingress == i)) (fun x d => d.recoverFrame x.1 x.2))

/-- What was asked for the frames of region e's runs and mirror list, and refused, is asked again once the region that is to answer
runs (R48): READs of a frame whose bytes are not all here, the ENQ of a mirror that the partner has not taken. Grains of an older
generation are gone. -/
def Dev.askAgain (d : Dev) (e : Nat) : Dev :=
  if !d.regionRuns e || d.blockInRestart e 7 then d
  else
    let qs := (d.frame.queues.filter (fun x => x.1 / 0x1000000 == e && x.2.frames.any (·.reread))).map (fun x => x.1 % 0x1000000)
    let d := d.each qs (fun q d => d.each ((d.queue e q).frames.filter (·.reread)) (fun x d =>
      let done := fun (d : Dev) => d.modQueue e q (fun z => { z with
        frames := z.frames.map (fun w => if w.uid == x.uid then { w with reread := false } else w) })
      if !x.primary then
        if d.regionRuns x.owner && (x.guarded || x.gen == d.regionGen x.ingress) then
          (done d).readFrame e 7 x.owner x.head x.grains (.spill q x.uid)
        else d
      else if d.regionRuns (partner e) then (done d).sendMirror e q x else d))
    let l := Map.get (fun _ => []) d.frame.mirrorList e
    d.each (l.filter (fun x => x.reread && d.regionRuns x.owner)) (fun x d =>
      let l := (Map.get (fun _ => []) d.frame.mirrorList e).map (fun w => if w.uid == x.uid then { w with reread := false } else w)
      let d : Dev := { d with frame := { d.frame with mirrorList := Map.put (fun _ => []) d.frame.mirrorList e l } }
      d.readFrame e 7 x.owner x.head x.grains (.mirror x.at_ x.uid))

/-- The READs of host frames that were refused are issued again once the owner runs (R48); a frame whose grains its ingress region
has released meanwhile is gone. -/
def Dev.hostAskAgain (d : Dev) (n : Nat) : Dev :=
  if !d.regionRuns n || d.blockInRestart n 9 then d
  else
    d.each ((d.hostFrames n).filter (fun h => h.reread && d.regionRuns h.descr.owner)) (fun h d =>
      let x := h.descr
      if x.guarded || x.gen == d.regionGen x.ingress then
        (d.setHostFrames n ((d.hostFrames n).map (fun y => if y.descr.uid == x.uid then { y with reread := false } else y))).readFrame
          n 9 x.owner x.head x.grains (.host x.uid)
      else d.setHostFrames n ((d.hostFrames n).filter (fun y => y.descr.uid != x.uid)))

/-- A spilled frame's descriptor reaches the mirror partner, which READs the same grains (R322). -/
def Dev.mirrorEnq (d : Dev) (e : Nat) (x : Descr) : Dev :=
  let l := Map.get (fun _ => []) d.frame.mirrorList e
  let d : Dev := { d with frame := { d.frame with mirrorList := Map.put (fun _ => []) d.frame.mirrorList e (l ++ [{ x with data := [] }]) } }
  d.readFrame e 7 x.owner x.head x.grains (.mirror x.at_ x.uid)

/-- An ENQ or CPL is judged at the end of the clock in which it came (R435). -/
def Dev.keepArrival (d : Dev) (m : FloorMsg) : Dev := { d with frame := { d.frame with arrivals := d.frame.arrivals ++ [m] } }

/-- ENQ_ARRIVAL: a mirror's is served at once, others at the end of the clock. -/
def Dev.enqArrival (d : Dev) (src dst : Nat) : Dev :=
  d.requestArrives src dst (fun b => match b with | .enq _ => true | _ => false) (fun m d =>
    match m.body with
    | .enq x =>
      if x.mirrorList then d.mirrorEnq dst x else d.keepArrival m
    | _ => d)

/-! ## Gates (R365 to R367) -/

/-- The gates of port p by rows 2 to 4 of Table 8-4. -/
def Dev.tableGates (d : Dev) (p : Nat) : Nat :=
  if 128 ≤ p then 0xFF
  else
    let idle := d.fget (R.G_CTRL (p / 32) (p % 32)) R.G_CTRL.IDLE
    if !d.gateOn p || !d.axisValid (d.gateAxis p) then idle
    else
      match (d.gate p).active with
      | none => idle
      | some b => d.gateOpenMask p b (d.entryAt p b (d.gatePos p b))

/-- The gates of port p (Table 8-4). -/
def Dev.gates (d : Dev) (p : Nat) : Nat :=
  let t := d.tableGates p
  if 128 ≤ p then t
  else (List.range 8).foldl (fun m i => if d.heldQueue (p / 32) (portQueue p i) then setBit m i false else m) t

/-- New gate states take force at port p: a frame being sent whose gate closes counts GATE_OVERRUN once (R367). -/
def Dev.gateRefresh (d : Dev) (p : Nat) : Dev :=
  let m := d.gates p
  let ep := d.eport p
  let d := if 128 ≤ p then d else d.setGate p { d.gate p with mask := m }
  match ep.sending with
  | some (i, _) =>
    if !m.testBit i && !ep.gateClosed then (d.setEport p { ep with gateClosed := true }).bump (pCntKey (portRegion p) (portLocal p) 0)
    else d
  | none => d

/-- The entries of a bank as lengths within its cycle with the state of gate i (R197): the last in force runs to the end. -/
def Dev.gateSpans (d : Dev) (p b i : Nat) : List (Nat × Bool) :=
  let c := d.gateCycle p b
  let r := (List.range (d.gateLen p b)).foldl (fun (acc : Nat × List (Nat × Bool)) e =>
    let du := min (d.gateDur p b e) (c - acc.1)
    (acc.1 + du, if du = 0 then acc.2 else acc.2 ++ [(du, (d.gateOpenMask p b e).testBit i)])) (0, [])
  match r.2.getLast? with
  | some (du, o) => r.2.dropLast ++ [(du + (c - r.1), o)]
  | none => []

/-- Units from position `pos` of a list of spans to the first closed one, or none where every span is open. -/
def openRun : List (Nat × Bool) → Nat → Option Nat
  | [], _ => none
  | (n, o) :: rest, pos => if o then (openRun rest (pos - n)).map (fun x => x + (n - pos)) else if n ≤ pos then openRun rest (pos - n) else some 0

/-- Units until the gate of queue i closes (R366), if the look-ahead sets a limit. -/
def Dev.untilClose (d : Dev) (p i : Nat) : Option Nat :=
  if 128 ≤ p || !d.gateOn p then none
  else
    let g := d.gate p
    match g.active with
    | none => none
    | some b =>
      let pos := d.gatePos p b
      let spans := d.gateSpans p b i
      let x := openRun (spans ++ spans) pos
      match g.armed with
      | some t => some (min (x.getD (t - d.axisAcc (d.gateAxis p)).toNat) (t - d.axisAcc (d.gateAxis p)).toNat)
      | none => x

/-- Mbit/s of a MAC_STAT.SPEED code (Table 3-26). -/
def speedMbps (c : Nat) : Nat := [0, 10, 100, 1000, 2500, 5000, 10000, 25000, 40000, 50000, 100000].getD c 0

/-- Whether a frame of `len` bytes fits before the gate of queue i closes (R366). -/
def Dev.fits (d : Dev) (p i len : Nat) : Bool :=
  match d.untilClose p i with
  | none => true
  | some u =>
    let ax := d.gateAxis p
    let rate := speedMbps (d.fget (R.MAC_STAT p) R.MAC_STAT.SPEED)
    let need := (len + 20) * 8000 + 16 * rate
    if ax < 4 then !d.axisValid ax || decide (need ≤ u * rate)
    else if ax = 4 then
      let per := d.fget R.PH_MAINS_PERIOD R.PH_MAINS_PERIOD.NS
      let stands := d.time.mains.holding || !d.flag R.PH_MAINS_CFG R.PH_MAINS_CFG.EN || per == 0
      stands || decide (need * 65536 ≤ u * per * rate)
    else true

/-! ## Lengths, tags and marks (R262, R355, R368 to R374) -/

/-- Length of a frame as sent on port p (R147, R355): its own, its tag and R-TAG changes, the FCS, padding. -/
def Dev.sentLength (d : Dev) (p : Nat) (x : Descr) : Nat :=
  let base := if x.computeFcs then x.length + 4 else x.length
  if x.target.mirror then max 64 base
  else
    let a := R.SCH_PORT (portRegion p) (portLocal p)
    let l := base + (if x.target.tagAct = 2 && !x.dec.outerTag then 4 else 0)
      + (if d.flag a R.SCH_PORT.CB_ENCODE && x.rtag.isSome then 6 else 0)
      - (if x.target.tagAct = 1 && x.dec.outerTag then 4 else 0)
      - (if d.flag a R.SCH_PORT.CB_DECODE && x.dec.recover.isSome then 6 else 0)
    max 64 l

/-- L' of R355. -/
def Dev.countedLength (d : Dev) (p : Nat) (x : Descr) : Nat :=
  let o := signed 8 (d.fget (R.SCH_PORT (portRegion p) (portLocal p)) R.SCH_PORT.OVHD)
  (max 1 ((d.sentLength p x : Int) + o)).toNat

/-- The ECN field a frame shows (R230), if it can be marked (R368, R369). -/
def ecnOf (x : Descr) (b : List Byte) : Option Nat :=
  let o := x.dec.l3base
  if x.dec.l3 = 1 ∧ o ≤ 52 ∧ o + 11 < b.length then some (bits (byteAt b (o + 1)) 0 2)
  else if x.dec.l3 = 2 ∧ o ≤ 62 ∧ o + 1 < b.length then some (bits (byteAt b (o + 1)) 4 2)
  else none

/-- Set the ECN field to CE, with the IPv4 checksum brought up by the incremental method (R368, R369). -/
def markCe (x : Descr) (b : List Byte) : List Byte :=
  let o := x.dec.l3base
  let v := byteAt b (o + 1)
  if x.dec.l3 = 2 then b.set (o + 1) (BitVec.ofNat 8 (setBit (setBit v 4 true) 5 true))
  else
    let m := beAt b o 2
    let b' := b.set (o + 1) (BitVec.ofNat 8 (setBit (setBit v 0 true) 1 true))
    let m' := beAt b' o 2
    let s := (0xFFFF - beAt b (o + 10) 2) + (0xFFFF - m) + m'
    let s := s % 0x10000 + s / 0x10000
    let s := s % 0x10000 + s / 0x10000
    (b'.set (o + 10) (BitVec.ofNat 8 ((0xFFFF - s) / 256))).set (o + 11) (BitVec.ofNat 8 (0xFFFF - s))

/-- A tag stands at bytes 12 to 15. -/
def hasTag (b : List Byte) : Bool := beAt b 12 2 == 0x8100 || beAt b 12 2 == 0x88A8

/-- The tag changes of R262: remove the outermost tag, or send the frame with its VID. -/
def applyTag (x : Descr) (b : List Byte) : List Byte :=
  if x.target.tagAct = 1 then (if hasTag b then b.take 12 ++ b.drop 16 else b)
  else if x.target.tagAct = 2 then
    if hasTag b then b.take 14 ++ beBytes 2 (beAt b 14 2 / 4096 * 4096 + x.dec.vid) ++ b.drop 16
    else b.take 12 ++ beBytes 2 0x8100 ++ beBytes 2 (x.dec.prio * 4096 + x.dec.vid) ++ b.drop 12
  else b

/-- The R-TAG removed (R374) or inserted (R373). -/
def applyRtag (x : Descr) (encode decode : Bool) (b : List Byte) : List Byte :=
  let o := if hasTag b then 16 else 12
  let b := if decode && x.dec.recover.isSome && beAt b o 2 == 0xF1C1 then b.take o ++ b.drop (o + 6) else b
  match x.rtag with
  | some s => if encode then b.take o ++ beBytes 2 0xF1C1 ++ beBytes 2 0 ++ beBytes 2 s ++ b.drop o else b
  | none => b

/-- DEI of the outermost tag of a yellow or red frame (R370). -/
def applyDei (x : Descr) (b : List Byte) : List Byte :=
  if x.dec.deiMark && x.dec.colour != 0 && hasTag b then b.set 14 (BitVec.ofNat 8 (setBit (byteAt b 14) 4 true)) else b

/-- The bytes a port sends (R143 to R145): whole with FCS, whether the pass computed it, and whether the stored bytes failed
their FCS (R144). -/
def buildFrame (x : Descr) (stored : List Byte) (ce bad encode decode : Bool) : List Byte × Bool × Bool :=
  let body := if x.computeFcs then stored else stored.take (stored.length - 4)
  let new_ :=
    if x.target.mirror then body
    else
      let b := if ce then markCe x body else body
      applyRtag x encode decode (applyDei x (applyTag x b))
  if !x.computeFcs && new_ == body && !bad then (stored, false, false)
  else
    let padded := new_ ++ List.replicate (60 - new_.length) 0#8
    let good := fcs32 padded
    let wrong := bad || (!x.computeFcs && fcs32 body != leAt stored (stored.length - 4) 4)
    (padded ++ leBytes 4 (if wrong then 0xFFFFFFFF - good else good), true, wrong)

/-! ## Shapers, eligibility and selection (R356 to R359) -/

/-- A shaper's bucket as the part that is missing from full, in 80,000ths of a byte: it fills at RATE a clock (R359). -/
def shaperNow (rate missing since now : Nat) : Nat := missing - rate * (now - since)

/-- Missing part of queue i's bucket on port p, and of the port's. -/
def Dev.queueMissing (d : Dev) (p i : Nat) : Nat :=
  let q := d.queue (portRegion p) (portQueue p i)
  shaperNow (d.fget (R.Q_RATE (portRegion p) (portLocal p) i) R.Q_RATE.RATE) q.bucket.toNat q.bucketAt d.now
def Dev.portMissing (d : Dev) (p : Nat) : Nat :=
  let e := d.eport p
  shaperNow (d.fget (R.SCH_PSHAPE (portRegion p) (portLocal p)) R.SCH_PSHAPE.RATE) e.bucket.toNat e.bucketAt d.now

/-- A shaper with bucket size BURST x 64 bytes is at or above 0, or there is none. -/
def shaperOpen (rate burst missing : Nat) : Bool := rate == 0 || decide (missing ≤ max 1 burst * 64 * 80000)

/-- Queue i of port p is shaped: its bucket lies below 0. -/
def Dev.queueShaped (d : Dev) (p i : Nat) : Bool :=
  let n := portRegion p
  let k := portLocal p
  !shaperOpen (d.fget (R.Q_RATE n k i) R.Q_RATE.RATE) (d.fget (R.Q_PARAM n k i) R.Q_PARAM.BURST) (d.queueMissing p i)

def Dev.portShaped (d : Dev) (p : Nat) : Bool :=
  let n := portRegion p
  let k := portLocal p
  !shaperOpen (d.fget (R.SCH_PSHAPE n k) R.SCH_PSHAPE.RATE) (d.fget (R.SCH_PBURST n k) R.SCH_PBURST.BURST) (d.portMissing p)

/-- Conditions 1, 2, 4, 5 and 6 of R356, and whether the head frame fits (condition 3). Gates, buckets and configuration are those of
the clock's start, and a frame that has entered an empty queue in this clock does not count yet (R360). -/
def Dev.eligibleBut (d : Dev) (p i : Nat) : Option (Descr × Bool) :=
  match (d.queue (portRegion p) (portQueue p i)).frames with
  | [] => none
  | x :: _ =>
    let n := portRegion p
    let w := d.was
    if d.fenced p i x || x.tier == .bales || x.tier == .spilling || decide (d.now ≤ x.queuedAt) || !(w.gates p).testBit i
        || w.queueShaped p i || w.portShaped p || d.lstate p != 6 || d.flag (R.MAC_STAT p) R.MAC_STAT.REMOTE_FAULT then none
    else
      some (x, !w.flag (R.SCH_PORT n (portLocal p)) R.SCH_PORT.GUARD_EN || w.fits p i (w.sentLength p x))

/-- Queue i of port p is eligible (R356). -/
def Dev.eligible (d : Dev) (p i : Nat) : Bool :=
  match d.eligibleBut p i with
  | some (_, f) => f
  | none => false

/-- A weighted queue that becomes eligible takes T = V (R358). -/
def Dev.refreshTags (d : Dev) (p : Nat) : Dev :=
  let n := portRegion p
  d.each (List.range 5) (fun i d =>
    let q := d.queue n (portQueue p i)
    let now := d.eligible p i
    if now && !q.wasEligible then d.setQueue n (portQueue p i) { q with wasEligible := true, tag := (d.eport p).v }
    else if now != q.wasEligible then d.setQueue n (portQueue p i) { q with wasEligible := now }
    else d)

/-- The first eligible queue in the order of R357. -/
def Dev.selectQueue (d : Dev) (p : Nat) : Option Nat :=
  match [7, 6, 5].find? (fun i => d.eligible p i) with
  | some i => some i
  | none =>
    [4, 3, 2, 1, 0].foldl (fun best i =>
      if d.eligible p i then
        match best with
        | none => some i
        | some b =>
          let n := portRegion p
          if seqAfter 32 (d.queue n (portQueue p b)).tag (d.queue n (portQueue p i)).tag then some i else best
      else best) none

/-- A frame leaves its queue: its bales are freed (R325). -/
def Dev.unqueue (d : Dev) (e q : Nat) (x : Descr) : Dev :=
  let d := d.modQueue e q (fun y => ({ y with frames := y.frames.filter (fun z => z.uid != x.uid) } : EQueue).endStream x)
  (d.freeBales e q x.bales).freeMirror e q x

/-- A frame is aged out: its class is not guarded, and its age in whole microseconds exceeds GRN_QAGE of its class (R316, R317). -/
def Dev.aged (d : Dev) (e : Nat) (x : Descr) : Bool :=
  let lim := d.fget (R.GRN_QAGE e x.cls) R.GRN_QAGE.LIMIT
  !d.guardedClass x.cls && lim != 0 && decide (lim * 100 < d.now / us - x.commitTime / us)

/-- A frame's ingress generation is old (R334). -/
def Dev.staleFrame (d : Dev) (x : Descr) : Bool := !x.guarded && x.gen != d.regionGen x.ingress

/-- Head frames that are too old leave without being sent (QUEUE_AGE_DISCARD), and frames of an older ingress generation
are skipped (STALE_SKIP), as do frames lost with their bales or both descriptor copies (R326, R417). A frame that the port is
sending stays. -/
def Dev.cleanHead (d : Dev) (e q : Nat) : Nat → Dev
  | 0 => d
  | k + 1 =>
    match (d.queue e q).frames with
    | [] => d
    | x :: _ =>
      if (d.eport (queuePort e q)).sending == some (q % 8, x.uid) then d
      else if x.lost || (x.badA && x.badB) then (d.unqueue e q x).cleanHead e q k
      else if d.staleFrame x then
        (((d.unqueue e q x).bump (R.GRN_STALE_SKIP e)).when (x.tier == .returned) (·.queueRelease e x.head)).cleanHead e q k
      else if d.aged e x then (((d.unqueue e q x).bump (R.GRN_AGED_OUT e)).egressDone e x .aging).cleanHead e q k
      else d

/-- ECN_MARK applies to the head frame of a queue (R368). -/
def Dev.congested (d : Dev) (p i : Nat) (x : Descr) : Bool :=
  let n := portRegion p
  let q := d.queue n (portQueue p i)
  let a := R.Q_ECN n (portLocal p) i
  x.cong || (d.flag a R.Q_ECN.EN && decide (d.fget a R.Q_ECN.TH_KIB * 1024 ≤ q.onChip + q.spilled))

/-- The queues of port p are served (R133, R148, R356, R502, R596): in UP alone. -/
def Dev.macServes (d : Dev) (p : Nat) : Bool :=
  let n := portRegion p
  d.lstate p == 6 && d.runState.serving && d.regionRuns n && d.blockUp n 7 && d.portBlockUp p
    && d.flag (R.MAC_CFG p) R.MAC_CFG.EN
    && !d.passive p

/-- The MAC of port p may start a frame. -/
def Dev.macMayStart (d : Dev) (p : Nat) : Bool := (d.eport p).sending.isNone && d.macServes p

/-- Queues whose head frame is put off because it does not fit count GUARD_WAIT once a frame (R366). -/
def Dev.guardWaits (d : Dev) (p : Nat) : Dev :=
  let n := portRegion p
  d.each (List.range 8) (fun i d =>
    match d.eligibleBut p i with
    | some (x, false) =>
      if x.guardCounted then d
      else
        (d.modQueue n (portQueue p i) (fun q => { q with frames := q.frames.modify 0 (fun y => { y with guardCounted := true }) })).bump
          (pCntKey n (portLocal p) 1)
    | _ => d)

/-- A queue whose head waits for its return counts GRN_RETURN_LATE once a frame (R324). -/
def Dev.lateReturns (d : Dev) (p : Nat) : Dev :=
  let n := portRegion p
  d.each (List.range 8) (fun i d =>
    match (d.queue n (portQueue p i)).frames with
    | x :: _ =>
      if (x.tier == .bales || x.tier == .spilling) && !x.lateCounted then
        (d.modQueue n (portQueue p i) (fun q => { q with frames := q.frames.modify 0 (fun y => { y with lateCounted := true }) })).bump
          (R.GRN_RETURN_LATE n)
      else d
    | [] => d)

/-- The heads of port p's queues as a clock passes (R316, R324, R334): what waits for its return counts, and where the queues are
served, what is too old leaves. -/
def Dev.headsTick (d : Dev) (p : Nat) : Dev :=
  let n := portRegion p
  let d := d.when (d.macServes p) (fun d => d.each (List.range 8) (fun i d =>
    d.cleanHead n (portQueue p i) ((d.queue n (portQueue p i)).frames.length + 1)))
  d.lateReturns p

/-- The scheduler starts the head frame of queue i (R358, R359, R368). -/
def Dev.startFrame (d : Dev) (p i : Nat) (x : Descr) : Dev :=
  let n := portRegion p
  let k := portLocal p
  let l := d.was.countedLength p x
  let q := d.queue n (portQueue p i)
  let ep := d.eport p
  let w := max 1 (d.was.fget (R.Q_PARAM n k i) R.Q_PARAM.WEIGHT)
  let v := if i < 5 then q.tag else ep.v
  let q' := { q with
    tag := if i < 5 then (q.tag + (l * 256 + w - 1) / w) % 2 ^ 32 else q.tag, bucket := ((d.queueMissing p i + l * 80000 : Nat) : Int),
    bucketAt := d.now }
  let ep' := { ep with
    v := v, bucket := ((d.portMissing p + l * 80000 : Nat) : Int), bucketAt := d.now, sending := some (i, x.uid), bytes := [],
    readsLeft := x.grains, ce := !x.target.mirror && d.congested p i x, bad := false, gateClosed := false,
    sends := ep.sends + 1, stamp := none }
  ((d.setQueue n (portQueue p i) q').setEport p ep').readFrame n 7 x.owner x.head x.grains (.port p (ep.sends + 1))

/-- TRANSMIT_SELECT (R357). -/
def Dev.transmitSelect (d : Dev) (p : Nat) : Dev :=
  let n := portRegion p
  if !d.macMayStart p then d
  else
    let d := d.each (List.range 8) (fun i d => d.cleanHead n (portQueue p i) ((d.queue n (portQueue p i)).frames.length + 1))
    let d := ((d.refreshTags p).guardWaits p).lateReturns p
    match d.selectQueue p with
    | none => d
    | some i =>
      match (d.queue n (portQueue p i)).frames with
      | x :: _ => d.startFrame p i x
      | [] => d

/-- The frame port p is sending. -/
def Dev.sendingFrame (d : Dev) (p : Nat) : Option (Nat × Descr) :=
  match (d.eport p).sending with
  | none => none
  | some (i, uid) => ((d.queue (portRegion p) (portQueue p i)).frames.find? (fun x => x.uid == uid)).map (fun x => (i, x))

/-- The port is free again. -/
def Dev.endSending (d : Dev) (p : Nat) : Dev :=
  d.setEport p { d.eport p with sending := none, bytes := [], readsLeft := 0, ce := false, bad := false, gateClosed := false,
                                stamp := none }

/-- The lowest-numbered target of a frame asked for a timestamp is this one (R540). -/
def Descr.stampHere (x : Descr) : Bool :=
  x.dec.targets.all (fun t => t.mirror || decide (x.target.dest ≤ t.dest)) && !x.target.mirror

/-- News of a transmit timestamp goes back to its owner. -/
def Dev.tellStamp (d : Dev) (o : TsOwner) (v : Option Nat) (error : Bool) : Dev :=
  { d with frame := { d.frame with tsBack := d.frame.tsBack ++ [⟨o, v, error⟩] } }

/-- The value of a time base at the timestamp point of a frame that starts (R150), before any change of this clock (R152),
corrected by TX_ADJ. The model captures it as the first of the frame's bytes come from their grains (DEDUCED, log 87). -/
def Dev.txCapture (d : Dev) (p base : Nat) : Nat :=
  wrapTo 32 ((d.was.tbase base).ns + signed 16 (d.fget (R.MAC_TS_ADJ p) R.MAC_TS_ADJ.TX_ADJ))

/-- TX_TIMESTAMP (R150): the value captured returns to its owner, with whether the frame was sent with an error (R144). -/
def Dev.txStamp (d : Dev) (p : Nat) (x : Descr) (error : Bool) : Dev :=
  match x.tsReq with
  | some r =>
    if x.stampHere then
      let v := (d.eport p).stamp.getD (d.txCapture p r.base)
      let d := d.bump (R.MAC_TX_TS p)
      d.tellStamp r.owner (some v) error
    else d
  | none => d

/-- TRANSMIT_COMPLETE: the last byte of the FCS is sent (R143 to R145, R150, R424), over lanes that are not in a restart of their
block (R163). A frame sent with an error completes so: a guarded one as TRANSMIT (R439), the owner of another hears of it. -/
def Dev.transmitComplete (d : Dev) (p : Nat) : Dev :=
  let n := portRegion p
  let k := portLocal p
  let ep := d.eport p
  match d.sendingFrame p with
  | none => d
  | some (i, x) =>
    if ep.readsLeft ≠ 0 ∨ !d.portBlockUp p then d
    else
      let a := R.SCH_PORT n k
      let body := ep.bytes.take (if x.computeFcs then ep.bytes.length else ep.bytes.length - 4)
      let mark := ep.ce && (ecnOf x body == some 1 || ecnOf x body == some 2)
      let r := buildFrame x ep.bytes mark ep.bad (d.flag a R.SCH_PORT.CB_ENCODE) (d.flag a R.SCH_PORT.CB_DECODE)
      let q := portQueue p i
      let d := d.sendOut p r.1 (!r.2.2)
      let d := d.when mark (·.bump (qCntKey n q 2))
      let d := if r.2.2 then d.bump (R.MAC_TX_STOMP p)
        else (((d.bump (R.MAC_TX_OK p)).bumpPerf (R.MAC_TX_OK_BYTES p) r.1.length).bump (qCntKey n q 0)).bumpPerf (qCntKey n q 1) r.1.length
      let d := d.when (r.2.2 && x.guarded) (fun d =>
        (d.bump (R.ACC_LOST n)).setFlag (R.ACC_EVT n) R.ACC_EVT.LOST true)
      let d := d.txStamp p x r.2.2
      ((d.unqueue n q x).endSending p).egressDone n x (if r.2.2 && !x.guarded then .transmitError else .transmit)

/-- TRANSMIT_CUT (R146): a guarded frame stays at the head of its queue, another is discarded. -/
def Dev.transmitCut (d : Dev) (p : Nat) : Dev :=
  let n := portRegion p
  match d.sendingFrame p with
  | none => d
  | some (i, x) =>
    let d := d.sendOut p (d.eport p).bytes false
    let d := match x.tsReq with
      | some r => d.when x.stampHere (·.tellStamp r.owner none false)
      | none => d
    let d := d.endSending p
    if x.guarded then d.modQueue n (portQueue p i) (fun q => { q with frames := q.frames.modify 0 (fun y => { y with tx := false }) })
    else ((d.unqueue n (portQueue p i) x).bump (R.MAC_TX_ABORT p)).egressDone n x .discard

/-! ## What empties queues (R361, R362, R328) -/

/-- A frame leaves queue q of region e undelivered (R328, R362): a guarded one completes as undeliverable. -/
def Dev.flushFrame (d : Dev) (e q : Nat) (x : Descr) : Dev :=
  let d := (d.unqueue e q x)
  let d := d.when x.guarded (·.bump (R.GRN_UNDELIVERABLE e))
  d.egressDone e x (if x.guarded then .undeliverable else .discard)

/-- The frames of queue q but the one its port's MAC is sending. -/
def Dev.idleFrames (d : Dev) (e q : Nat) : List Descr :=
  let s := (d.eport (queuePort e q)).sending
  (d.queue e q).frames.filter (fun x => s != some (q % 8, x.uid))

/-- PORT_NOT_READY: a port that was ready becomes not ready while its region runs (R361). -/
def Dev.portNotReady (d : Dev) (p : Nat) : Dev :=
  let n := portRegion p
  if d.portReady p || !d.regionRuns n then d
  else
    d.each (List.range 8) (fun i d =>
      let q := portQueue p i
      d.each ((d.idleFrames n q).filter (fun x => !x.guarded)) (fun x d =>
        ((d.unqueue n q x).bump (qCntKey n q 3)).egressDone n x .discard))

/-- SCH_FLUSH (R362): the named queues of a port that is not ready are emptied, but for frames that entered in this clock. -/
def Dev.schFlush (d : Dev) (p mask : Nat) : Dev :=
  let n := portRegion p
  if d.portReady p then d
  else
    d.each ((List.range 8).filter (fun i => mask.testBit i)) (fun i d =>
      let q := portQueue p i
      d.each ((d.idleFrames n q).filter (fun x => decide (x.queuedAt < d.now))) (fun x d => (d.bump (qCntKey n q 3)).flushFrame n q x))

/-! ## Responses (R41, R48) -/

/-- DATA for a port's transmission: those of an earlier send are dropped (R146); the first to come start the frame on its
lanes. -/
def Dev.portData (d : Dev) (p send : Nat) (b : List Byte) (bad : Bool) : Dev :=
  let ep := d.eport p
  match d.sendingFrame p with
  | some (_, x) =>
    if ep.sends = send then
      let stamp := if ep.stamp.isSome then ep.stamp else x.tsReq.map (fun r => d.txCapture p r.base)
      d.setEport p { ep with bytes := ep.bytes ++ b, readsLeft := ep.readsLeft - 1, bad := ep.bad || bad, stamp := stamp }
    else d
  | none => d

/-- DATA for a frame on its way to bales: when all of it is here the spill header and the frame are written to the queue's stream
on channel e, and a guarded frame's descriptor goes to the partner (R322). -/
def Dev.spillData (d : Dev) (e q uid : Nat) (b : List Byte) : Dev :=
  match (d.queue e q).frames.find? (fun x => x.uid == uid) with
  | none => d
  | some x =>
    let data := x.data ++ b
    let set := fun (y : Descr) (d : Dev) =>
      d.modQueue e q (fun z => { z with frames := z.frames.map (fun w => if w.uid == uid then y else w) })
    if data.length < x.length then set { x with data := data } d
    else
      let y := { x with data := [], primary := true }
      let d := (set y d).streamWrite e q (d.queue e q).chain x.spillAt (x.spillHeader ++ data)
      d.when x.guarded (·.sendMirror e q y)

/-- DATA for the mirror stream: when all of it is here it is written in the mirror range, and the partner answers (R322). -/
def Dev.mirrorData (d : Dev) (e q uid : Nat) (b : List Byte) : Dev :=
  let l := Map.get (fun _ => []) d.frame.mirrorList e
  match l.find? (fun x => x.uid == uid) with
  | none => d
  | some x =>
    let data := x.data ++ b
    let set := fun (y : Descr) (d : Dev) => ({ d with frame := { d.frame with
      mirrorList := Map.put (fun _ => []) d.frame.mirrorList e (l.map (fun w => if w.uid == uid then y else w)) } } : Dev)
    if data.length < x.length then set { x with data := data } d
    else
      let d := (set { x with data := [], primary := true } d).streamWrite e q (d.queue (partner e) q).mchain x.mirrorAt
        (x.spillHeader ++ data)
      let m : FloorMsg :=
        { src := e, dst := partner e, origin := partner e, gen := d.regionGen (partner e), tag := uid % 4096, body := .cplMirror uid q }
      d.send (some (7, 0)) m

/-- DATA for a frame a host instance receives. -/
def Dev.hostData (d : Dev) (n uid : Nat) (b : List Byte) : Dev :=
  d.setHostFrames n ((d.hostFrames n).map (fun h =>
    if h.descr.uid == uid then { h with bytes := h.bytes ++ b, readsLeft := h.readsLeft - 1 } else h))

/-- DATA_ARRIVAL: a response is sunk into the space its requester reserved (R41); a single-bit error of a flit is corrected and
counted (Tables 1-9, 1-17). -/
def Dev.dataArrival (d : Dev) (src dst : Nat) (bitError : Bool) : Dev :=
  let isData := fun (b : FloorBody) => match b with | .data _ _ => true | _ => false
  let d := d.when (bitError && (d.headMsg false src dst).any (fun m => isData m.body)) (·.flitCorrected)
  d.responseArrives src dst isData (fun m d =>
    match m.body with
    | .data b bad =>
      d.sinkInto m (fun use d =>
        match use with
        | .port p k => d.portData p k b bad
        | .spill q uid => d.spillData dst q uid b
        | .mirror q uid => d.mirrorData dst q uid b
        | .host uid => d.hostData dst uid b
        | .engineReg _ _ _ => d)
    | _ => d)

/-- The partner has written the mirror stream (R322). -/
def Dev.mirrorAnswered (d : Dev) (e q uid : Nat) : Dev :=
  d.modQueue e q (fun z => { z with frames := z.frames.map (fun w => if w.uid == uid then { w with partner := true } else w) })

/-- A NACK for a request (R48): its space is freed; a READ is abandoned, to be issued again when the frame is next served, a frame on
its way to bales keeping its place in the run (R319); an ENQ is handled by class (R428). -/
def Dev.nacked (d : Dev) (m : FloorMsg) (of : Nat) (x : Option Descr) (register_ : SinkUse → Dev → Dev) : Dev :=
  if of = 1 then
    match x with
    | some x =>
      if x.mirrorList then d.modQueue m.dst x.at_ (fun z => { z with
        frames := z.frames.map (fun w => if w.uid == x.uid then { w with reread := true } else w) })
      else d.enqNacked m.dst x
    | none => d
  else
    d.sinkInto m (fun use d =>
      match use with
      | .port p k =>
        match d.sendingFrame p with
        | some (i, _) =>
          if (d.eport p).sends = k then
            (d.endSending p).modQueue m.dst (portQueue p i) (fun q => { q with frames := q.frames.modify 0 (fun z => { z with tx := false }) })
          else d
        | none => d
      | .spill q uid =>
        (d.voidUse m.dst (fun u => u == .spill q uid)).modQueue m.dst q (fun z => { z with
          frames := z.frames.map (fun w => if w.uid == uid then { w with data := [], reread := true } else w) })
      | .mirror q uid =>
        let d := d.voidUse m.dst (fun u => u == .mirror q uid)
        { d with frame := { d.frame with
            mirrorList := Map.put (fun _ => []) d.frame.mirrorList m.dst
              ((Map.get (fun _ => []) d.frame.mirrorList m.dst).map (fun w =>
                if w.uid == uid then { w with data := [], reread := true } else w)) } }
      | .host uid =>
        (d.voidUse m.dst (fun u => u == .host uid)).setHostFrames m.dst ((d.hostFrames m.dst).map (fun h =>
          if h.descr.uid == uid then { h with bytes := [], readsLeft := h.descr.grains, reread := true } else h))
      | .engineReg e t r => register_ (.engineReg e t r) d)

end Sys2Proof.Machine
end

