-- ==== Sys2Proof/Machine/Silo.lean ====
section
/-! DEFINITION. Spill completion, returns from bales, topology holds, and the Granary through restarts (R322 to R335). -/

namespace Sys2Proof.Machine

/-! ## Spill completion and return -/

/-- The queues of region e that hold a frame, by number. -/
def Dev.queuesOf (d : Dev) (e : Nat) : List Nat :=
  (d.frame.queues.filter (fun x => x.1 / 0x1000000 == e && !x.2.frames.isEmpty)).map (fun x => x.1 % 0x1000000)

/-- Change one frame of a queue. -/
def Dev.setFrame (d : Dev) (e q : Nat) (x : Descr) : Dev :=
  d.modQueue e q (fun y => { y with frames := y.frames.map (fun z => if z.uid == x.uid then x else z) })

/-- The first frame of region e whose bale writes are complete, with its queue. -/
def Dev.spillDone (d : Dev) (e : Nat) : Option (Nat × Descr) :=
  (d.queuesOf e).findSome? (fun q => ((d.queue e q).frames.find? (fun x =>
    x.tier == .spilling && x.primary && (!x.guarded || x.partner))).map (fun x => (q, x)))

/-- SPILL_COMPLETE (R322): the queue's owner is released with a spill CPL. -/
def Dev.spillComplete (d : Dev) (e : Nat) : Dev :=
  match d.spillDone e with
  | none => d
  | some (q, x) =>
    let d := d.setFrame e q { x with tier := .bales }
    let d := (d.bump (R.GRN_SPILLED e)).when (d.heldQueue e q) (·.bump (R.GRN_HOLD_SPILLED e))
    if x.guarded then d.answerFrame e x .spill else d.answerOwner e x .spill

/-- Bytes in grains ahead of a queue's run. -/
def EQueue.ahead (q : EQueue) : Nat :=
  (q.frames.takeWhile (fun x => x.tier == .grains || x.tier == .returned)).foldl (fun a x => a + x.length) 0

/-- RETURN_AT in bytes: 0 acts as 1 KiB. -/
def Dev.returnAt (d : Dev) (e q : Nat) : Nat := 1024 * max 1 (d.fget (R.GRN_QSPILL e q) R.GRN_QSPILL.RETURN_AT)

/-- The next frame to return: the first of a run whose queue runs low ahead of it (R323). -/
def Dev.nextReturn (d : Dev) (e : Nat) : Option (Nat × Descr) :=
  (d.queuesOf e).findSome? (fun q =>
    let eq := d.queue e q
    match eq.run with
    | x :: _ => if x.tier == .bales && decide (eq.ahead < d.returnAt e q) then some (q, x) else none
    | [] => none)

/-- Silo channel n is failed (R404), and it serves: READY and not in self-refresh. -/
def Dev.channelFailed (d : Dev) (n : Nat) : Bool := d.fget (R.DRC_STAT n) R.DRC_STAT.STATE == 3
def Dev.channelServes (d : Dev) (n : Nat) : Bool :=
  d.fget (R.DRC_STAT n) R.DRC_STAT.STATE == 2 && !d.flag (R.DRC_STAT n) R.DRC_STAT.SREF

/-- A frame's own bales, and the mirror's, cannot be read. -/
def Dev.ownUnreadable (d : Dev) (e : Nat) (x : Descr) (b : Nat) : Bool :=
  x.bales.contains b && (d.channelFailed e || (d.baleStore e).bad.contains b || !d.baleGood e b)
def Dev.mirrorUnreadable (d : Dev) (e : Nat) (x : Descr) : Bool :=
  !x.guarded || !d.partnerOk e
    || x.mbales.any (fun m => (d.baleStore (partner e)).bad.contains m || !d.baleGood (partner e) m)

/-- The spill header and the bytes of a spilled frame, from its own stream, or from the mirror where that cannot be read (R323,
R326). -/
def Dev.spilledBytes (d : Dev) (e : Nat) (x : Descr) : List Byte :=
  if x.bales.any (fun b => d.ownUnreadable e x b) then
    d.streamRead (partner e) x.mbales (x.mirrorAt % balePayload) (16 + x.length)
  else d.streamRead e x.bales (x.spillAt % balePayload) (16 + x.length)

/-- BALE_READ_FAIL (R326): a frame whose bale cannot be read from its own stream is read from the mirror, or every frame with
bytes in the bale is lost. Answers whether the frame can be read. -/
def Dev.baleCheck (d : Dev) (e q : Nat) (x : Descr) : Bool × Dev :=
  match x.bales.filter (fun b => d.ownUnreadable e x b) with
  | [] => (true, d)
  | b :: more =>
    if !d.mirrorUnreadable e x then (true, d.bump (R.GRN_MIRROR_USED e) (more.length + 1))
    else
      let gone := (d.queue e q).frames.filter (fun y => y.tier == .bales && d.ownUnreadable e y b && d.mirrorUnreadable e y)
      let d := d.setFlag (R.GRN_EVT e) R.GRN_EVT.BALE_LOST true
      (false, d.each gone (fun y d => (d.unqueue e q y).bump (R.GRN_BALE_LOST e)))

/-- Where a returned frame of k grains is charged: the return reserve, or the shared part of its class's pool (R323). -/
def Dev.returnPlace (d : Dev) (e c k : Nat) : Option Nat :=
  if Map.get (fun _ => 0) d.frame.reserveUsed e + k ≤ d.fget (R.GRN_RESERVE e) R.GRN_RESERVE.GRAINS then some reservePool
  else if k ≤ d.freeShared e (d.homePool e c) then some (d.homePool e c)
  else none

/-- A topology hold's release ends when no held queue has a spill run (R330). -/
def Dev.releaseDone (d : Dev) (e : Nat) : Dev :=
  let h := d.holdOf e
  let heldRun := (d.queuesOf e).any (fun q =>
    ((d.setHold e { h with active := true }).heldQueue e q) && !(d.queue e q).run.isEmpty)
  if h.releasing && !heldRun then d.setHold e { h with releasing := false } else d

/-- The frame's bytes, with what its header says, enter grains of region e, owned by its queue alone. -/
def Dev.returnFrame (d : Dev) (e q : Nat) (x : Descr) (p : Nat) : Dev :=
  let b := d.spilledBytes e x
  let x := x.fromHeader (b.take 16) d.now
  let data := b.drop 16
  let k := grainsFor data.length
  match d.allocGrains e x.src k with
  | (none, d) => d.ringEmpty e
  | (some gs, d) =>
    let d := d.writeGrains e true data gs
    let h := gs.headD 0
    let r : FrameRec :=
      { ref := 1, pool := p, grains := k, minGr := 0, src := x.src, cls := x.cls, length := x.length, gen := d.regionGen e,
        guarded := x.guarded, cong := x.cong, committed := true, entries := 0, forwarded := 0 }
    let d := d.setFrec e h r
    let d := if p = reservePool then
        { d with frame := { d.frame with
            reserveUsed := Map.put (fun _ => 0) d.frame.reserveUsed e (Map.get (fun _ => 0) d.frame.reserveUsed e + k) } }
      else d.charge e x.src x.cls p k 0
    let keep := x.guarded
    let y := { x with
      tier := .returned, owner := e, head := h, grains := k, tx := false, data := [],
      bales := if keep then x.bales else [], mbales := if keep then x.mbales else [] }
    let d := (d.setFrame e q y).when (!keep) (·.freeBales e q x.bales)
    (d.bump (R.GRN_RETURNED e)).releaseDone e

/-- BALE_RETURN (R323). -/
def Dev.baleReturn (d : Dev) (e : Nat) : Dev :=
  if 3 ≤ d.stageActs || !(d.channelServes e || d.channelFailed e) || !d.blockUp e 7 then d
  else
    match d.nextReturn e with
    | none => d
    | some (q, x) =>
      match d.baleCheck e q x with
      | (false, d) => d
      | (true, d) =>
        match d.returnPlace e x.cls (grainsFor x.length) with
        | some p => d.returnFrame e q x p
        | none => d

/-! ## Topology holds (R327 to R330) -/

/-- Gate states of every port of region n take force anew. -/
def Dev.gatesOf (d : Dev) (n : Nat) : Dev := d.each ((List.range 32).map (fun k => 32 * n + k)) (fun p d => d.gateRefresh p)

/-- GRN_HOLD_START (R327): a release still under way goes on (R330). -/
def Dev.holdStart (d : Dev) (n : Nat) : Dev :=
  if (d.holdOf n).active then d
  else
    let d := d.setHold n { d.holdOf n with active := true, since := d.now }
    let m := d.fget (R.GRN_HOLD_CFG n) R.GRN_HOLD_CFG.MAX_MS
    let d := d.when (m != 0) (·.arm ⟨.holdMax, n, 0⟩ (m * ms))
    d.gatesOf n

/-- A frame flushed from a held queue (R328). -/
def Dev.undeliver (d : Dev) (e q : Nat) (x : Descr) : Dev :=
  ((d.unqueue e q x).bump (R.GRN_UNDELIVERABLE e)).egressDone e x (if x.guarded then .undeliverable else .discard)

/-- A hold ends: the held queues of the marked ports are emptied, but for frames that entered them in this clock, then the gates
open (R328, R329). -/
def Dev.holdFinish (d : Dev) (n mask : Nat) : Dev :=
  let h := d.holdOf n
  if !h.active then d
  else
    let held := (d.queuesOf n).filter (fun q => d.heldQueue n q && mask.testBit (q / 8))
    let d := d.each held (fun q d =>
      d.each ((d.idleFrames n q).filter (fun x => decide (x.queuedAt < d.now))) (fun x d => d.undeliver n q x))
    let d := (d.wr (R.GRN_HOLD_FLUSH n) 0).disarm ⟨.holdMax, n, 0⟩
    let d := d.setHold n { active := false, since := 0, releasing := true, lasted := d.now - h.since }
    (d.gatesOf n).releaseDone n

/-- GRN_HOLD_END (R328). -/
def Dev.holdEnd (d : Dev) (n : Nat) : Dev := d.holdFinish n (d.rd (R.GRN_HOLD_FLUSH n)).toNat

/-- HOLD_TIMEOUT (R329). -/
def Dev.holdTimeout (d : Dev) (n : Nat) : Dev :=
  if (d.holdOf n).active && d.due ⟨.holdMax, n, 0⟩ then
    (d.holdFinish n 0).setFlag (R.GRN_EVT n) R.GRN_EVT.HOLD_TIMEOUT true
  else d

/-! ## Through restarts (R332, R333, R378) -/

/-- Every frame of region n not yet committed is released (step 1 of R332). -/
def Dev.freeUncommitted (d : Dev) (n : Nat) : Dev :=
  let l := d.frame.landing.filter (fun l => l.region == n && l.phase != .gone)
  d.each l (fun x d => (d.releaseLanding x).bump (R.GRN_RESTART_FREED n))

/-- The READs of region n's buffer block are void as it restarts (R46): frames on their way to bales are to be read again. -/
def Dev.spillsAgain (d : Dev) (n : Nat) : Dev :=
  let again := fun (x : Descr) => if x.primary then x else ({ x with data := [], reread := true } : Descr)
  { d with frame := { d.frame with
    queues := d.frame.queues.map (fun x => if x.1 / 0x1000000 == n then
      (x.1, { x.2 with frames := x.2.frames.map (fun y => if y.tier == .spilling then again y else y) }) else x),
    mirrorList := Map.put (fun _ => []) d.frame.mirrorList n ((Map.get (fun _ => []) d.frame.mirrorList n).map again) } }

/-- A contained restart of the buffer block (R332, Table 8-6). -/
def Dev.granaryContained (d : Dev) (n : Nat) : Dev :=
  let d := ((d.freeUncommitted n).rebuildGranary n).spillsAgain n
  let d : Dev := { d with frame := { d.frame with
    ports := d.frame.ports.map (fun x => if portRegion x.1 == n then (x.1, { x.2 with v := 0, bucket := 0, bucketAt := d.now }) else x),
    queues := d.frame.queues.map (fun x => if x.1 / 0x1000000 == n then
      (x.1, { x.2 with tag := 0, wasEligible := false, bucket := 0, bucketAt := d.now }) else x) } }
  d

/-- Frames being sent by some ports as what carries them stops: cut under R146. -/
def Dev.cutPorts (d : Dev) (mine : Nat → Bool) : Dev :=
  d.each ((d.frame.ports.filter (fun x => mine x.1 && x.2.sending.isSome)).map (·.1)) (fun p d => d.transmitCut p)

/-- Those of the ports of region n, when its buffer block or the region stops. -/
def Dev.cutSending (d : Dev) (n : Nat) : Dev := d.cutPorts (fun p => portRegion p == n)

/-- Descriptors of region n that are not guarded are dropped; their owners elsewhere are answered discard CPLs (Table 10-5). Those of
spill runs are counted (R333), as are those whose grains another region owns (R118); the others count with their records. -/
def Dev.dropUnguarded (d : Dev) (n : Nat) : Dev :=
  d.each (d.queuesOf n) (fun q d =>
    d.each ((d.queue n q).frames.filter (fun x => !x.guarded)) (fun x d =>
      let d := d.unqueue n q x
      let d := d.when (x.tier == .bales || (x.tier != .returned && x.owner != n)) (·.bump (R.GRN_RESTART_FREED n))
      if x.tier == .bales || x.tier == .returned || x.ingress == n then d else d.answerOwner n x .discard))

/-- A range of `size` bales that starts at bale `base` with the bales of a list in use: its ring keeps its pointers where free bales,
bales in use and ring bales make up the range, and else holds every bale that is not reached (R335). -/
def FreeRing.verified (f : FreeRing) (base size : Nat) (used : List Nat) : FreeRing :=
  let rings := size - usableBales size
  if f.baleCount size + used.length + rings = size then f
  else
    let first := base + rings
    let top := used.foldl (fun m b => max m (b - first + 1)) 0
    { FreeRing.init with front := ((List.range top).map (· + first)).filter (fun b => !used.contains b), next := top }

/-- The bale rings of channel n, walked by the chains of what is left of the spill runs (R335). -/
def Dev.balesVerified (d : Dev) (n : Nat) : Dev :=
  let bales := fun (e : Nat) (f : Descr → List Nat) =>
    (((d.frame.queues.filter (fun x => x.1 / 0x1000000 == e)).flatMap (fun x => x.2.frames)).flatMap f).eraseDups
  let s := d.baleStore n
  let l := d.rl n
  d.setBaleStore n { s with
    own := s.own.verified 0 l.balesOwn (bales n (·.bales)),
    mirror := s.mirror.verified l.balesOwn l.balesMirror (bales (partner n) (·.mbales)) }

/-- What the restart of region n leaves of releases and copies (R310, R333): the releases of frames that stay still wait, and the
owners that copies and mirror copies waiting for a slot stood for are released. -/
def Dev.keepReleases (d : Dev) (n : Nat) : Dev :=
  let kept := fun (h : Nat) => (d.frec n h).committed
  let engines := (Map.get (fun _ => []) d.frame.copies n).filterMap (fun c => match c with
    | .engine _ x => some x.head
    | .port x => if x.guarded then none else some x.head)
  let mirrors := (Map.get (fun _ => []) d.frame.mirrorWait n).map (fun x => x.2.head)
  { d with frame := { d.frame with
    releases := Map.put (fun _ => []) d.frame.releases n
      ((Map.get (fun _ => []) d.frame.releases n ++ engines ++ mirrors).filter kept),
    copies := Map.put (fun _ => []) d.frame.copies n [],
    mirrorWait := Map.put (fun _ => []) d.frame.mirrorWait n [] } }

/-- The Granary at a region restart or a warm start (R333, R335). -/
def Dev.granaryRestart (d : Dev) (n : Nat) : Dev :=
  let d := d.cutSending n
  let d := (d.holdOf n).active |> fun a => if a then d.holdFinish n 0 else d
  let d := d.dropUnguarded n
  let d := d.freeUncommitted n
  let gone := d.frame.records.filter (fun x => x.1 / 0x1000000 == n && x.2.committed && !x.2.guarded)
  let d := d.each gone (fun x d => (d.freeFrame n (x.1 % 0x1000000)).bump (R.GRN_RESTART_FREED n))
  ((d.keepReleases n).granaryContained n).balesVerified n

/-- A region initialised cold: the Granary is empty (Table 7-8). -/
def Dev.granaryClear (d : Dev) (n : Nat) : Dev :=
  let mine := fun (k : Nat) => k / 0x1000000 == n
  { d with frame := { d.frame with
    landing := d.frame.landing.filter (fun l => l.region != n),
    grains := d.frame.grains.filter (fun x => !mine x.1),
    rings := d.frame.rings.filter (fun x => !mine x.1),
    records := d.frame.records.filter (fun x => !mine x.1),
    accounts := d.frame.accounts.filter (fun x => !mine x.1),
    pools := d.frame.pools.filter (fun x => !mine x.1),
    reserveUsed := Map.put (fun _ => 0) d.frame.reserveUsed n 0,
    queues := d.frame.queues.filter (fun x => !mine x.1),
    ports := d.frame.ports.filter (fun x => portRegion x.1 != n),
    gates := d.frame.gates.filter (fun x => x.1 / 32 != n),
    bales := Map.put (fun _ => BaleStore.init) d.frame.bales n BaleStore.init,
    mirrorList := Map.put (fun _ => []) d.frame.mirrorList n [],
    hold := Map.put (fun _ => Hold.init) d.frame.hold n Hold.init,
    releases := Map.put (fun _ => []) d.frame.releases n [],
    streams := d.frame.streams.filter (fun x => !mine x.1),
    mirrorCount := d.frame.mirrorCount.filter (fun x => !mine x.1),
    policers := d.frame.policers.filter (fun x => !mine x.1),
    votes := Map.put (fun _ => []) d.frame.votes n [],
    hostRx := Map.put (fun _ => []) d.frame.hostRx n [] } }

end Sys2Proof.Machine
end

