-- ==== Sys2Proof/Machine/Dram.lean ====
section
/-! DEFINITION. The Silo's DRAM controllers (chapter 9): queues, command choice, error checks, refresh and power states,
training and tracking, failure. -/

namespace Sys2Proof.Machine

/-- STATE of channel n: 0 OFF, 1 INIT, 2 READY, 3 FAILED (Table 9-7). -/
def Dev.channelState (d : Dev) (n : Nat) : Nat := d.fget (R.DRC_STAT n) R.DRC_STAT.STATE
def Dev.setChannel (d : Dev) (n s : Nat) : Dev := d.fset (R.DRC_STAT n) R.DRC_STAT.STATE s

/-- Level of DDR_RESET_N[n]: the controller of a channel with no memory holds it low (R382). -/
def Dev.ddrResetN (d : Dev) (n : Nat) : Bool := d.channelState n != 0

/-- Bank, row, column and check column of data burst b (R384). -/
def drcMap (b : Nat) : Nat × Nat × Nat × Nat :=
  let g := b / 7
  let p := 8 * g + b % 7
  (p / 64 % 16, p / 1024, p % 64, (8 * g + 7) % 64)

/-- Limits of Table 9-9 in force: a write takes effect from the next clock. -/
def Dev.wrHi (d : Dev) (n : Nat) : Nat := min 64 (max 1 (d.was.fget (R.DRC_SCHED n) R.DRC_SCHED.WR_HI))
def Dev.wrLo (d : Dev) (n : Nat) : Nat :=
  let lo := d.was.fget (R.DRC_SCHED n) R.DRC_SCHED.WR_LO
  if lo < d.wrHi n then lo else d.wrHi n - 1
def Dev.ageMax (d : Dev) (n : Nat) : Nat := max 1 (d.was.fget (R.DRC_SCHED n) R.DRC_SCHED.AGE_MAX_NS)

/-- Levels, and DRAIN mode by the write queue (R389). -/
def Dev.refreshDram (d : Dev) (n : Nat) : Dev :=
  let x := d.dramOf n
  let a := R.DRC_STAT n
  let w := x.writeQ.length
  let d := (d.fset a R.DRC_STAT.WQ_LEVEL w).fset a R.DRC_STAT.RQ_LEVEL x.readQ.length
  if !d.flag a R.DRC_STAT.DRAIN && decide (d.wrHi n ≤ w) then (d.setFlag a R.DRC_STAT.DRAIN true).bump (R.DRC_DRAIN n)
  else if d.flag a R.DRC_STAT.DRAIN && decide (w ≤ d.wrLo n) then d.setFlag a R.DRC_STAT.DRAIN false
  else d

/-- A read of a burst that a queued write holds is answered with that write's data (R391). -/
def Dev.forwardRead (d : Dev) (n : Nat) (r : DramRead) (w : DramWrite) : Dev :=
  (d.bump (R.DRC_FWD n)).emit (.silo n r.burst (some w.data))

/-- A write enters the queue, or its data replaces what an entry of its burst holds (R392); queued reads of the burst that came in
this clock are forwarded (R393). Answers `none` where the queue has no place. -/
def Dev.enterWrite (d : Dev) (n : Nat) (w : DramWrite) : Option Dev :=
  let x := d.dramOf n
  let merges := x.writeQ.any (fun y => y.burst == w.burst)
  if !merges && decide (64 ≤ x.writeQ.length) then none
  else
    let now := fun (r : DramRead) => r.burst == w.burst && r.since == d.now
    let q := if merges then x.writeQ.map (fun y => if y.burst == w.burst then { y with data := w.data } else y) else x.writeQ ++ [w]
    let e := d.setDram n { x with writeQ := q, readQ := x.readQ.filter (fun r => !now r) }
    let e := e.when merges (·.bump (R.DRC_MERGED n))
    let e := e.each (x.readQ.filter now) (fun r e => e.forwardRead n r w)
    some (e.refreshDram n)

/-- A read is forwarded from the write queue, or enters the read queue (R391). Answers `none` where the queue has no place. -/
def Dev.enterRead (d : Dev) (n : Nat) (r : DramRead) : Option Dev :=
  let x := d.dramOf n
  match x.writeQ.find? (fun w => w.burst == r.burst) with
  | some w => some (d.forwardRead n r w)
  | none => if x.readQ.length < 64 then some ((d.setDram n { x with readQ := x.readQ ++ [r] }).refreshDram n) else none

/-- Requests that waited for a place enter their queues in order, writes before reads (R388, R393). -/
def Dev.admitWaiting (d : Dev) (n : Nat) : Dev :=
  let x := d.dramOf n
  let d := d.setDram n { x with waitRead := [], waitWrite := [] }
  let d := d.each x.waitWrite (fun w d =>
    (d.enterWrite n w).getD (d.setDram n { d.dramOf n with waitWrite := (d.dramOf n).waitWrite ++ [w] }))
  d.each x.waitRead (fun r d =>
    (d.enterRead n r).getD (d.setDram n { d.dramOf n with waitRead := (d.dramOf n).waitRead ++ [r] }))

/-- A tracking pass starts (R401, R402). -/
def Dev.passStart (d : Dev) (n : Nat) (check : Bool) : Dev :=
  (d.setDram n { d.dramOf n with check := check }).setFlag (R.DRC_STAT n) R.DRC_STAT.PASS true

/-- DRAM_SELF_REFRESH_EXIT (R397, R400): power-down or idle self-refresh ends; an all-bank refresh follows self-refresh, and
a tracking pass where it lasted SR_CHECK_MS. -/
def Dev.wakeIdle (d : Dev) (n : Nat) : Dev :=
  let x := d.dramOf n
  let d := d.setFlag (R.DRC_STAT n) R.DRC_STAT.PD false
  if x.sleep == .idle then
    let d := (d.setDram n { x with sleep := .none }).setFlag (R.DRC_STAT n) R.DRC_STAT.SREF false
    let d := d.bump (R.DRC_REFRESH n)
    let long := decide (max 1 (d.was.fget (R.DRC_PWR n) R.DRC_PWR.SR_CHECK_MS) * ms ≤ d.now - x.sleepSince)
    if long then d.passStart n false else d
  else d

/-- A read as it is issued, with the DRAM's data. -/
def DramRead.served (r : DramRead) (array : NMap Nat) : DramRead :=
  { r with data := (array.find? (fun y => y.1 == r.burst)).map (·.2) }

/-- Every queued read is issued (Table 9-4): its data is what the writes before it left. -/
def Dev.flushReads (d : Dev) (n : Nat) : Dev :=
  let x := d.dramOf n
  let all := x.readQ ++ x.waitRead
  ((d.setDram n { x with issued := x.issued ++ all.map (fun r => r.served x.array), readQ := [], waitRead := [] }).bump
    (R.DRC_RD_BURSTS n) all.length).refreshDram n

/-- Every queued write is issued (R394, Table 9-4). -/
def Dev.flushWrites (d : Dev) (n : Nat) : Dev :=
  let x := d.dramOf n
  let all := x.writeQ ++ x.waitWrite
  let arr := all.foldl (fun m w => Map.ins m w.burst w.data) x.array
  let d := d.setDram n { x with array := arr, writeQ := [], waitWrite := [] }
  ((d.bump (R.DRC_WR_BURSTS n) all.length).bump (R.DRC_CHK_WRITES n) (all.map (fun w => w.burst / 7)).eraseDups.length).refreshDram n

/-- Queued and waiting reads are answered marked uncorrectable (R404). -/
def Dev.refuseReads (d : Dev) (n : Nat) : Dev :=
  let x := d.dramOf n
  let d := d.setDram n { x with readQ := [], waitRead := [], issued := [] }
  d.each (x.issued ++ x.readQ ++ x.waitRead) (fun r d => d.emit (.silo n r.burst none))

/-- Channel n fails (R403, R404). -/
def Dev.channelFail (d : Dev) (n cause : Nat) : Dev :=
  if d.channelState n = 3 then d
  else
    let a := R.DRC_STAT n
    let d := ((d.setChannel n 3).fset a R.DRC_STAT.FAIL_CAUSE cause).setFlag a R.DRC_STAT.PASS false
    let d := (d.setFlag (R.DRC_EVT n) R.DRC_EVT.FAILED true).logEntry 0x0011 n 7 (n + 16 * cause)
    let d := d.refuseReads n
    let d := (d.setDram n { d.dramOf n with writeQ := [], waitWrite := [], training := .none, check := false }).refreshDram n
    let d := d.workDone 2 n
    d.setFlag (R.GRN_STAT n) R.GRN_STAT.SILO_READY false

/-- A request may be served: the channel is READY and not asleep but for idle states, which it leaves. -/
def Dev.dramAwake (d : Dev) (n : Nat) : Bool :=
  d.channelState n == 2 && ((d.dramOf n).sleep == .none || (d.dramOf n).sleep == .idle)

/-- DRAM_READ_REQUEST (R388, R391, R397, R404): a channel that a reset put to sleep accepts no request (Table 9-4). -/
def Dev.dramRead (d : Dev) (n burst : Nat) (chip : Bool) : Dev :=
  let rq : DramRead := ⟨burst, d.now, chip, none⟩
  if d.channelState n = 3 || d.channelState n = 0 then d.emit (.silo n burst none)
  else if (d.dramOf n).sleep == .reset then d
  else if !d.dramAwake n then
    let x := d.dramOf n
    d.setDram n { x with waitRead := x.waitRead ++ [rq] }
  else
    let d := d.wakeIdle n
    match d.enterRead n rq with
    | some d => d
    | none =>
      let x := d.dramOf n
      (d.setDram n { x with waitRead := x.waitRead ++ [rq] }).bump (R.DRC_QFULL_WAIT n)

/-- DRAM_WRITE_REQUEST (R388, R392, R394, R404). -/
def Dev.dramWrite (d : Dev) (n burst data : Nat) : Dev :=
  let w : DramWrite := ⟨burst, data, d.now⟩
  if d.channelState n = 3 || d.channelState n = 0 || (d.dramOf n).sleep == .reset then d
  else if !d.dramAwake n then
    let x := d.dramOf n
    d.setDram n { x with waitWrite := x.waitWrite ++ [w] }
  else
    let d := d.wakeIdle n
    match d.enterWrite n w with
    | some d => d
    | none =>
      let x := d.dramOf n
      (d.setDram n { x with waitWrite := x.waitWrite ++ [w] }).bump (R.DRC_QFULL_WAIT n)

/-- A burst hits an open row. -/
def DramPart.hit (x : DramPart) (b : Nat) : Bool :=
  let m := drcMap b
  Map.get (fun _ => 2 ^ 32) x.openRow m.1 == m.2.1

/-- The oldest request of a list, those that hit an open row first (R390). -/
def pickOldest {α : Type} (since : α → Nat) (hit : α → Bool) (l : List α) : Option α :=
  let best := fun (l : List α) => l.foldl (fun m y => match m with
    | none => some y
    | some z => if since y < since z then some y else some z) none
  match best (l.filter hit) with
  | some y => some y
  | none => best l

/-- Issue a read: it leaves the queue with what the DRAM holds at its burst, and its row opens. -/
def Dev.issueRead (d : Dev) (n : Nat) (r : DramRead) : Dev :=
  let x := d.dramOf n
  let m := drcMap r.burst
  let x' := { x with
    readQ := x.readQ.erase r, issued := x.issued ++ [r.served x.array], openRow := Map.ins x.openRow m.1 m.2.1 }
  ((d.setDram n x').bump (R.DRC_RD_BURSTS n)).refreshDram n |>.admitWaiting n

/-- Issue a write: the burst is in the DRAM; the check burst of its group is written once for the queued bursts of the
group (R385). -/
def Dev.issueWrite (d : Dev) (n : Nat) (w : DramWrite) : Dev :=
  let x := d.dramOf n
  let m := drcMap w.burst
  let rest := x.writeQ.erase w
  let x' := { x with writeQ := rest, array := Map.ins x.array w.burst w.data, openRow := Map.ins x.openRow m.1 m.2.1 }
  let d := (d.setDram n x').bump (R.DRC_WR_BURSTS n)
  let d := d.when (!rest.any (fun y => y.burst / 7 == w.burst / 7)) (·.bump (R.DRC_CHK_WRITES n))
  (d.refreshDram n).admitWaiting n

/-- Issue a refresh. -/
def Dev.issueRefresh (d : Dev) (n : Nat) : Dev :=
  let x := d.dramOf n
  (d.setDram n { x with owed := x.owed - 1 }).bump (R.DRC_REFRESH n)

/-- Writes that no earlier read of their burst holds back (R393). -/
def DramPart.ready (x : DramPart) : List DramWrite :=
  x.writeQ.filter (fun w => !x.readQ.any (fun r => r.burst == w.burst))

/-- DRAM_COMMAND_ISSUE (R389, R390, R396). -/
def Dev.dramIssue (d : Dev) (n : Nat) : Dev :=
  let x := d.dramOf n
  if !d.channelServes n || d.flag (R.DRC_STAT n) R.DRC_STAT.PASS then d
  else if 4 ≤ x.owed then d.issueRefresh n
  else
    let age := d.ageMax n
    let oldR := pickOldest DramRead.since (fun _ => false) (x.readQ.filter (fun r => decide (age ≤ d.now - r.since)))
    let oldW := pickOldest DramWrite.since (fun _ => false) (x.ready.filter (fun w => decide (age ≤ d.now - w.since)))
    let drain := d.flag (R.DRC_STAT n) R.DRC_STAT.DRAIN
    let aged := d.bump (R.DRC_AGE_PROMOTE n)
    match oldR, oldW with
    | some r, some w => if w.since < r.since then aged.issueWrite n w else aged.issueRead n r
    | some r, none => aged.issueRead n r
    | none, some w => aged.issueWrite n w
    | none, none =>
      let r := if drain then none else pickOldest DramRead.since (fun y => x.hit y.burst) x.readQ
      match r, pickOldest DramWrite.since (fun y => x.hit y.burst) x.ready with
      | some r, _ => d.issueRead n r
      | none, some w => d.issueWrite n w
      | none, none => if 0 < x.owed then d.issueRefresh n else d

/-- The read that was issued first returns its data (R387): `err` is 1 where a word had a single-bit error, 2 where one was
uncorrectable, 3 where the TAG differed. A burst never written may read as uncorrectable. -/
def Dev.dramReadComplete (d : Dev) (n err : Nat) : Dev :=
  let x := d.dramOf n
  match x.issued with
  | [] => d
  | r :: rest =>
    let d := d.setDram n { x with issued := rest }
    if err < 2 then
      match r.data with
      | some v => good d r v
      | none => let v := d.fresh; good v.2 r v.1.toNat
    else bad d r
where
  good (d : Dev) (r : DramRead) (v : Nat) : Dev :=
    let d := d.emit (.silo n r.burst (some v))
    if err = 1 then
      let d := (d.bump (R.DRC_CORR n)).corrected n 7 none
      if (d.dramOf n).writeQ.any (fun w => w.burst == r.burst) then d else d.dramWrite n r.burst v
    else d
  bad (d : Dev) (r : DramRead) : Dev :=
    let d := (d.emit (.silo n r.burst none)).bump (R.DRC_UNCORR n)
    let d := (d.fset (R.DRC_LAST_ERR n) R.DRC_LAST_ERR.BURST r.burst).setFlag (R.DRC_LAST_ERR n) R.DRC_LAST_ERR.TAG (err == 3)
    let d := d.setFlag (R.DRC_EVT n) R.DRC_EVT.UNCORR true
    let s := d.baleStore n
    let d := d.setBaleStore n { s with bad := (s.bad ++ [r.burst / 32]).eraseDups }
    let x := d.dramOf n
    let recent := (x.uncorr.filter (fun t => decide (d.now < t + 1000 * ms))) ++ [d.now]
    let d := d.setDram n { x with uncorr := recent }
    let lim := d.fget (R.DRC_CFG n) R.DRC_CFG.UNCORR_LIMIT
    if lim ≠ 0 ∧ lim < recent.length then d.channelFail n 2 else d

/-- DRAM_READ_TIMEOUT (R403): a read issued has been without data for TIMEOUT_US. -/
def Dev.dramReadTimeout (d : Dev) (n : Nat) : Dev := if (d.dramOf n).issued.isEmpty then d else d.channelFail n 3

/-- DRAM_REFRESH_DUE (R395, R396): an interval has passed. -/
def Dev.dramRefreshDue (d : Dev) (n : Nat) : Dev :=
  let x := d.dramOf n
  if d.channelServes n then d.setDram n { x with owed := x.owed + 1 } else d

/-- DRAM_TEMP_READ (R395): the status of both dies, the multiplier the hotter one requires, and whether one reports a
temperature above its range. -/
def Dev.dramTemp (d : Dev) (n die0 die1 mult : Nat) (hot : Bool) : Dev :=
  if d.channelState n ≠ 2 then d
  else
    let a := R.DRC_STAT n
    let d := (d.fset (R.DRC_TEMP n) R.DRC_TEMP.DIE0 die0).fset (R.DRC_TEMP n) R.DRC_TEMP.DIE1 die1
    let d := (d.fset a R.DRC_STAT.REFRESH_MULT (if hot then 2 else min 2 mult)).setFlag a R.DRC_STAT.HOT hot
    d.when hot (·.setFlag (R.DRC_EVT n) R.DRC_EVT.HOT true)

/-- Both queues are empty and the channel works. -/
def Dev.dramIdle (d : Dev) (n : Nat) : Bool :=
  let x := d.dramOf n
  d.channelServes n && x.readQ.isEmpty && x.writeQ.isEmpty && x.issued.isEmpty && !d.flag (R.DRC_STAT n) R.DRC_STAT.PASS

/-- DRAM_POWER_DOWN_IDLE (R397): PD_IDLE × 16 clocks with both queues empty. -/
def Dev.dramPowerDown (d : Dev) (n : Nat) : Dev :=
  if d.dramIdle n && d.was.fget (R.DRC_PWR n) R.DRC_PWR.PD_IDLE != 0 then d.setFlag (R.DRC_STAT n) R.DRC_STAT.PD true else d

/-- Enter self-refresh, after an all-bank refresh and with every write issued (R394, R397); the queued reads complete for SHED-3, and
are not accepted any more as a reset begins (Table 9-4). -/
def Dev.enterSelfRefresh (d : Dev) (n : Nat) (why : SelfRefresh) : Dev :=
  let d := (d.when (why == .shed) (·.flushReads n)).flushWrites n
  let d := d.when (why == .reset) (fun d => d.setDram n { d.dramOf n with readQ := [], waitRead := [] })
  let d := (d.setDram n { d.dramOf n with sleep := why, sleepSince := d.now, openRow := [], owed := 0 }).bump (R.DRC_REFRESH n)
  let a := R.DRC_STAT n
  (((d.setFlag a R.DRC_STAT.SREF true).setFlag a R.DRC_STAT.PD false).setFlag a R.DRC_STAT.PASS false).bump (R.DRC_SREF n)

/-- DRAM_SELF_REFRESH_IDLE (R397): SR_IDLE_US with both queues empty. -/
def Dev.dramSelfRefreshIdle (d : Dev) (n : Nat) : Dev :=
  if d.dramIdle n && d.was.fget (R.DRC_PWR n) R.DRC_PWR.SR_IDLE_US != 0 then d.enterSelfRefresh n .idle else d

/-! ## Training (R398 to R402, R405) -/

/-- Address of a word of the PHY space. -/
def phyKey (n off : Nat) : Nat := spWord 0x50 n + off

/-- The words of the PHY space that a training sets (Table 9-12). -/
def phyWords : List Nat := (List.range 4).flatMap (fun l => [0x20 * l, 0x20 * l + 4, 0x20 * l + 8, 0x20 * l + 12]) ++ [0x80]

/-- Trained values are what the dies gave: free values, each with its zero bits. -/
def Dev.phyTrained (d : Dev) (n : Nat) : Dev :=
  let d := d.each phyWords (fun o d =>
    let v := d.fresh
    let mask : Nat := if o = 0x80 then 2 ^ 16 else if o % 0x20 = 0 then 2 ^ 25 else if o % 0x20 = 4 then 2 ^ 16 else 2 ^ 32
    (v.2).wr (phyKey n o) (BitVec.ofNat 32 (v.1.toNat % mask)))
  d.wr (phyKey n 0x84) 1

/-- The delays of channel n adjusted by a drift: free values in the delay fields of each lane (R400). -/
def Dev.phyAdjusted (d : Dev) (n : Nat) : Dev :=
  d.each [0, 1, 2, 3] (fun l d =>
    let v := d.fresh
    let a := phyKey n (0x20 * l)
    (v.2).wr a (BitVec.ofNat 32 ((d.rd a).toNat / 2 ^ 18 * 2 ^ 18 + v.1.toNat % 2 ^ 18)))

/-- The write and read training of the lanes has set their values anew; CA training is no part of it (R400). -/
def Dev.phyRetrained (d : Dev) (n : Nat) : Dev :=
  let ca := d.rd (phyKey n 0x80)
  (d.phyTrained n).wr (phyKey n 0x80) ca

/-- A training of channel n begins, out of self-refresh where the channel was in it (R397, Table 9-3); the check of a warm start is a
tracking pass (R400). -/
def Dev.trainStart (d : Dev) (n : Nat) (t : Training) : Dev :=
  let x := d.dramOf n
  let a := R.DRC_STAT n
  let d := d.when (d.flag a R.DRC_STAT.SREF) (·.bump (R.DRC_REFRESH n))
  let check := t == .warmCheck
  let d := d.setDram n { x with training := t, sleep := .none, readQ := [], issued := [], check := check }
  ((d.setChannel n 1).setFlag a R.DRC_STAT.SREF false).setFlag a R.DRC_STAT.PASS check

/-- Channel n is trained: the Granary's bale rings stand, and SILO_READY sets (R336, R399, R405). -/
def Dev.trained (d : Dev) (n : Nat) (t : Training) : Dev :=
  let temp := wrapTo 16 (signed 11 (d.fget R.CHIP_TEMP R.CHIP_TEMP.TEMP) / 4)
  let d := (d.setDram n { d.dramOf n with
      training := .none, check := false, trainTemp := temp }).setChannel n 2
  let d := d.setFlag (R.DRC_STAT n) R.DRC_STAT.PASS false
  let d := if t == .warmCheck then d else d.phyTrained n
  let d := d.when (t == .requalify) (fun d =>
    (d.setFlag (R.DRC_EVT n) R.DRC_EVT.REQUAL_DONE true).setBaleStore n BaleStore.init)
  let d := d.fset (R.DRC_STAT n) R.DRC_STAT.FAIL_CAUSE 0
  (d.setFlag (R.GRN_STAT n) R.GRN_STAT.SILO_READY true).admitWaiting n

/-- A check of channel n ends: CHECK_FAIL says how (R400). -/
def Dev.checked (d : Dev) (n : Nat) (ok : Bool) : Dev :=
  (d.setFlag (R.DRC_STAT n) R.DRC_STAT.CHECK_FAIL (!ok)).when (!ok) (·.setFlag (R.DRC_EVT n) R.DRC_EVT.CHECK_FAIL true)

/-- DRAM_TRAINING_COMPLETE (Table 9-3). The check of a warm start is a tracking pass (R400): ended so, its drift was within TRACK_PS. -/
def Dev.trainingComplete (d : Dev) (n : Nat) (ok : Bool) : Dev :=
  let x := d.dramOf n
  let t := x.training
  if d.channelState n ≠ 1 ∨ t = .none ∨ x.sleep ≠ .none then d
  else
    let d := d.when (t == .warmCheck) (fun d => (d.bump (R.DRC_TRACK n)).checked n ok)
    if ok then d.trained n t
    else
      match t with
      | .saved | .warmCheck => d.trainStart n .full
      | _ => d.channelFail n 1

/-- Slot names channel n for kind 2 (R402). -/
def Dev.trackedBySlot (d : Dev) (n : Nat) : Bool :=
  (List.range 8).any (fun s => d.slotOn s && d.slotKind s == 2 && (d.slotTargets s).testBit n)

/-- A window or fallback window of kind 2 opens for channel n: a pass starts (R401, R408). -/
def Dev.windowPass (d : Dev) (n : Nat) : Dev :=
  if d.dramAwake n && !d.flag (R.DRC_STAT n) R.DRC_STAT.PASS then (d.wakeIdle n).passStart n false else d

/-- The passes of the windows that have just opened start. -/
def Dev.windowPasses (d : Dev) : Dev :=
  let m := d.time.passes
  if m = 0 then d
  else
    let d : Dev := { d with time := { d.time with passes := 0 } }
    d.each [0, 1, 2, 3] (fun n d => d.when (m.testBit n) (·.windowPass n))

/-- DRAM_TRACKING_INTERVAL (R402): INTERVAL_MS have passed since the last one. -/
def Dev.trackingInterval (d : Dev) (n : Nat) : Dev :=
  if d.trackedBySlot n then d else d.windowPass n

/-- DRAM_TRACKING_PASS_DONE (R400, R401): once the bursts in flight have completed, the largest drift in ps, whether a retraining succeeded, and whether the calibration of a
check did. -/
def Dev.passDone (d : Dev) (n drift : Nat) (retrainOk calOk : Bool) : Dev :=
  let a := R.DRC_STAT n
  let x := d.dramOf n
  if !d.flag a R.DRC_STAT.PASS || !x.issued.isEmpty || x.sleep != .none then d
  else
    let c := R.DRC_RT_CFG n
    let track := d.was.fget c R.DRC_RT_CFG.TRACK_PS
    let lim := max track (d.was.fget c R.DRC_RT_CFG.RETRAIN_PS)
    let d := (d.setFlag a R.DRC_STAT.PASS false).bump (R.DRC_TRACK n)
    let d := d.when (decide (track < drift)) (·.phyAdjusted n)
    let d := d.when (decide (lim < drift)) (fun d =>
      ((d.phyRetrained n).bump (R.DRC_RETRAIN n)).setFlag (R.DRC_EVT n) R.DRC_EVT.RETRAIN_ADJ true)
    let d := d.when x.check (·.checked n calOk)
    let d := (d.setDram n { d.dramOf n with check := false }).workDone 2 n
    if decide (lim < drift) && !retrainOk then d.channelFail n 4
    else if x.training != .warmCheck then d
    else if calOk then d.trained n .warmCheck
    else d.trainStart n .full

/-- DRC_REQUALIFY (R405): a failed channel trains again when neither its region nor its partner needs its contents. -/
def Dev.requalify (d : Dev) (n : Nat) : Dev :=
  let run := (d.queuesOf n).any (fun q => !(d.queue n q).run.isEmpty)
  if d.channelState n = 3 && !run && (Map.get (fun _ => []) d.frame.mirrorList n).isEmpty then d.trainStart n .requalify
  else d.logEntry 0x0024 n 7 n

/-- DRAM_ZQ_LATCH (R383): the latch is issued on the channel outside any window. -/
def Dev.zqLatch (d : Dev) (n : Nat) : Dev :=
  let inWindow := (List.range 8).any (fun s => d.slotKind s == 2 && (d.slotTargets s).testBit n && (d.slotUser s).active)
  if d.channelServes n && !inWindow then d.setDram n { d.dramOf n with zqAt := d.now } else d

/-! ## Through events (Table 9-4) -/

/-- A contained restart of the buffer block, or a region restart: every write is issued, the read queue is discarded. -/
def Dev.dramContained (d : Dev) (n : Nat) : Dev :=
  let d := d.flushWrites n
  (d.setDram n { d.dramOf n with readQ := [], waitRead := [] }).refreshDram n

/-- RESET_N, a chip-fatal restart or a shedding stage puts the channel to sleep; training in progress is abandoned. -/
def Dev.dramSleep (d : Dev) (n : Nat) (why : SelfRefresh) : Dev :=
  let x := d.dramOf n
  if d.channelState n = 2 then
    if x.sleep == .none then d.enterSelfRefresh n why
    else d.setDram n (if why == .reset then { x with sleep := why, readQ := [], waitRead := [], waitWrite := [] } else { x with sleep := why })
  else if d.channelState n = 1 then
    let x : DramPart := if why == .reset then { x with training := .none, readQ := [], waitRead := [] } else x
    let d := d.setDram n { x with sleep := why, sleepSince := d.now }
    let a := R.DRC_STAT n
    let d := (d.setFlag a R.DRC_STAT.PASS false).bump (R.DRC_SREF n)
    (if why == .reset then d.wr (phyKey n 0x84) 0 else d).setFlag a R.DRC_STAT.SREF true
  else d

/-- SHED-3 is left: the channel wakes and runs its check, or its training starts again. -/
def Dev.dramWake (d : Dev) (n : Nat) : Dev :=
  let x := d.dramOf n
  if x.sleep != .shed then d
  else if d.channelState n = 1 then d.trainStart n x.training
  else
    let d := (d.setDram n { x with sleep := .none }).setFlag (R.DRC_STAT n) R.DRC_STAT.SREF false
    ((d.bump (R.DRC_REFRESH n)).passStart n true).admitWaiting n

/-- The training of a start (Table 9-3): `saved` is a valid DRAM record in user calibration. -/
def Dev.dramStart (d : Dev) (n : Nat) (cold saved : Bool) : Dev :=
  if !d.flag (R.DRC_CFG n) R.DRC_CFG.EN then d.setChannel n 0
  else if cold then
    let d := (d.setDram n DramPart.init).setFlag (R.DRC_STAT n) R.DRC_STAT.FROM_SAVED saved
    d.trainStart n (if saved then .saved else .full)
  else
    let valid := (d.rd (phyKey n 0x84)).getLsbD 0
    d.trainStart n (if valid then .warmCheck else .full)

/-- DRAIN mode follows the limits in force as a clock begins (R389). -/
def Dev.dramTick (d : Dev) : Dev := d.each (d.dram.map (·.1)) (fun n d => d.refreshDram n)

end Sys2Proof.Machine
end

