-- ==== Sys2Proof/Machine/Winnow.lean ====
section
/-! DEFINITION. Winnow: the automaton search over the head window, extraction, and rule commands (chapter 5). -/

namespace Sys2Proof.Machine

/-! ## The head window -/

/-- The 64 symbols of a head window: a byte value, or 256 for END beyond the frame (R217). -/
def windowSymbols (head : List Byte) : List Nat :=
  (List.range 64).map (fun i => match head[i]? with | some b => b.toNat | none => 256)

/-- Byte i of a window, if it is not END. -/
def winByte (w : List Nat) (i : Nat) : Option Nat :=
  match w[i]? with
  | some s => if s < 256 then some s else none
  | none => none

/-- The source class of an origin (R218, Table 5-16). -/
def Dev.sourceClass (d : Dev) (o : Origin) : Nat :=
  let n := o.region
  match o with
  | .port p =>
    if p < 128 then bits (d.rd (R.WNW_SRC_CLASS n (p % 32 / 8))).toNat (4 * (p % 8)) 4
    else d.fget (R.WNW_SRC_CLASS4 n) R.WNW_SRC_CLASS4.HOST_ETH
  | .host _ _ => d.fget (R.WNW_SRC_CLASS4 n) R.WNW_SRC_CLASS4.HOST
  | .engine e =>
    if e / 8 % 2 = 0 then d.fget (R.WNW_SRC_CLASS4 n) R.WNW_SRC_CLASS4.ENG0
    else d.fget (R.WNW_SRC_CLASS4 n) R.WNW_SRC_CLASS4.ENG1

/-! ## The search -/

/-- Words of the carved automaton memory (128 KiB a bank). -/
def Dev.autWords (d : Dev) (n : Nat) : Nat := d.bankCount n 3 * 0x8000

/-- Rules the carved array holds (4,096 a bank). -/
def Dev.ruleCapacity (d : Dev) (n : Nat) : Nat := d.bankCount n 2 * 4096

/-- What a walk of the automaton ends with. -/
inductive WalkEnd where
  | state (row : Nat) | outside | uncorrectable (key : Nat)
deriving DecidableEq, Repr

/-- The class of a symbol (Table 5-1). -/
def Dev.symClass (d : Dev) (n s : Nat) : Nat := bits (d.rd (autKey n (2 + s / 4))).toNat (8 * (s % 4)) 6

/-- A word read adds to those with a single-bit error. -/
def Dev.noteRead (d : Dev) (k : Nat) (ks : List Nat) : List Nat := if d.fault k = 1 then k :: ks else ks

/-- Walk the automaton over symbols from the row at `row` (R220, R226): where it ends, and the words read with a single-bit
error. -/
def Dev.autWalk (d : Dev) (n : Nat) : List Nat → Nat → List Nat → WalkEnd × List Nat
  | [], row, ks => (if row < d.autWords n then .state row else .outside, ks)
  | s :: rest, row, ks =>
    let c := autKey n (2 + s / 4)
    if d.fault c = 2 then (.uncorrectable c, ks)
    else
      let ks := d.noteRead c ks
      let a := row + 1 + d.symClass n s
      if d.autWords n ≤ a then (.outside, ks)
      else if d.fault (autKey n a) = 2 then (.uncorrectable (autKey n a), ks)
      else
        let ks := d.noteRead (autKey n a) ks
        let w := (d.rd (autKey n a)).toNat
        let nxt := bits w 0 18
        if w.testBit 18 then (if nxt < d.autWords n then .state nxt else .outside, ks)
        else d.autWalk n rest nxt ks

/-- The pattern numbers of a match list (Table 5-2; R226: at most 16). -/
def Dev.matchList (d : Dev) (n list len : Nat) : List Nat :=
  (List.range (min len 16)).map (fun i => bits (d.rd (autKey n (list + i / 2))).toNat (16 * (i % 2)) 14)

/-- What a search gives: a rule by its address and pattern, the default result, or a word that could not be read. -/
inductive Search where
  | rule (addr pattern : Nat) (w1 w2 w3 : Word)
  | default_ (w1 w2 w3 : Word)
  | uncorrectable (key : Nat)
deriving DecidableEq, Repr

/-- The default result (R222). -/
def Dev.defaultResult (d : Dev) (n : Nat) : Search :=
  .default_ (d.rd (R.WNW_DEFAULT0 n)) (d.rd (R.WNW_DEFAULT1 n)) (d.rd (R.WNW_DEFAULT2 n))

/-- The listed pattern whose valid entry has the lowest address (R221): address and pattern. -/
def Dev.bestPattern (d : Dev) (n : Nat) (l : List Nat) : Option (Nat × Nat) :=
  l.foldl (fun best p =>
    let w := (d.rd (patKey n p)).toNat
    if w.testBit 14 && w.testBit 15 then
      match best with
      | none => some (bits w 0 14, p)
      | some (a, _) => if bits w 0 14 < a then some (bits w 0 14, p) else best
    else best) none

/-- The words of a match list of a length. -/
def listKeys (n list len : Nat) : List Nat := (List.range ((len + 1) / 2)).map (fun i => autKey n (list + i))

/-- A search of a head window in region n (R220 to R226, R239, R244): the result and the counters it leaves. It reads the memories
as they stood when this clock began, so that it sees a command's step wholly or not at all (R238, R258); single-bit errors in
the words it reads are corrected and counted (R275). -/
def Dev.search (d : Dev) (n sc : Nat) (win : List Nat) : Search × Dev :=
  let m := d.was
  let dflt := fun (d : Dev) => (d.defaultResult n, d.bump (R.WNW_DEFAULT_HITS n))
  let bad := fun (d : Dev) (key : Nat) =>
    let d := (d.bump (R.WNW_UNCORR n)).tableUncorr n key
    if d.flag (R.WNW_CFG n) R.WNW_CFG.UNCORR_DEF then dflt d else (Search.uncorrectable key, d)
  let fixed := fun (d : Dev) (keys : List Nat) => (d.touchAll n (keys.filter (fun k => m.fault k == 1))).2
  let broken := fun (keys : List Nat) => keys.find? (fun k => m.fault k == 2)
  if !d.flag (R.WNW_CFG n) R.WNW_CFG.EN || !(d.wnw n).effective || d.flag (R.WNW_STAT n) R.WNW_STAT.AUT_BAD then dflt d
  else if m.fault (autKey n 1) = 2 then bad d (autKey n 1)
  else
    let x := m.autWalk n ((257 + sc) :: win) (bits (m.rd (autKey n 1)).toNat 0 18) []
    let d := fixed d (autKey n 1 :: x.2.reverse)
    match x.1 with
    | .uncorrectable key => bad d key
    | .outside => dflt (d.bump (R.WNW_AUT_FAULT n))
    | .state row =>
      let res := (m.rd (autKey n row)).toNat
      let list := bits res 0 18
      let len := min (bits res 18 5) 16
      if m.fault (autKey n row) = 2 then bad d (autKey n row)
      else
      let d := fixed d [autKey n row]
      if len ≠ 0 ∧ d.autWords n ≤ list + (len - 1) / 2 then dflt (d.bump (R.WNW_AUT_FAULT n))
      else
        match broken (listKeys n list len) with
        | some k => bad d k
        | none =>
        let l := m.matchList n list len
        let d := fixed d (listKeys n list len)
        match broken (l.map (patKey n)) with
        | some k => bad d k
        | none =>
          let d := fixed d (l.map (patKey n))
          let absent := match (m.wnw n).cmd with
            | some c => (match c.absent with | some p => l.contains p | none => false)
            | none => false
          let d := if absent then d.bump (R.WNW_ABSENT n) else d
          match m.bestPattern n l with
          | none => dflt d
          | some (a, p) =>
            let ks := (List.range 8).map (ruleKey n a)
            match broken ks with
            | some k => bad d k
            | none =>
              let d := (fixed d ks).bump (hitKey n p)
              (.rule a p (m.rd (ruleKey n a 1)) (m.rd (ruleKey n a 2)) (m.rd (ruleKey n a 3)), d)

/-- The action words of a result. -/
def Search.words : Search → Word × Word × Word
  | .rule _ _ a b c => (a, b, c)
  | .default_ a b c => (a, b, c)
  | .uncorrectable _ => (0, 0, 0)

/-- Fields of an action word 1 (Table 5-3). -/
def act1Base (w : Word) : Nat := bits w.toNat 0 6
def act1VidSrc (w : Word) : Nat := bits w.toNat 6 2
def act1TcEn (w : Word) : Bool := w.toNat.testBit 8
def act1Tc (w : Word) : Nat := bits w.toNat 9 3
def act1Colour (w : Word) : Nat := if w.toNat.testBit 12 then min 2 (bits w.toNat 13 2) else 0
def act1Queue (w : Word) : Option Nat := if w.toNat.testBit 15 then some (bits w.toNat 16 3) else none
def act1Mirror (w : Word) : Nat := bits w.toNat 19 3
def act1Disp (w : Word) : Nat := bits w.toNat 22 2
def act1L3 (w : Word) : Nat := if bits w.toNat 24 2 = 3 then 0 else bits w.toNat 24 2
def act1Xprof (w : Word) : Nat := bits w.toNat 26 4
def act1NoLearn (w : Word) : Bool := w.toNat.testBit 30

/-! ## Extraction -/

/-- The TCI that VID_SRC selects (R230), or none for the port's default. -/
def selectTci (src : Nat) (win : List Nat) : Option Nat :=
  let at16 := fun i => match winByte win i, winByte win (i + 1) with
    | some a, some b => some (a * 256 + b)
    | _, _ => none
  match src with
  | 1 => at16 14
  | 2 => at16 18
  | 3 =>
    match at16 12 with
    | some t => if t = 0x8100 ∨ t = 0x88A8 then at16 14 else none
    | none => none
  | _ => none

/-- DSCP and ECN of the network header that L3 says stands at BASE (Table 5-5), if one does. -/
def dscpEcn (l3 base : Nat) (win : List Nat) : Option (Nat × Nat) :=
  let a := (winByte win base).getD 0
  let b := (winByte win (base + 1)).getD 0
  match l3 with
  | 1 => some (b / 4, b % 4)
  | 2 => some (a % 16 * 4 + b / 64, b / 16 % 4)
  | _ => none

/-- The bytes one extractor delivers, and whether any read beyond the window (R231, R232). -/
def runExtractor (base : Nat) (win : List Nat) (x : Nat) : List Nat × Bool :=
  let off := bits x 0 6 + (if x.testBit 6 then base else 0)
  let n := match bits x 7 2 with | 0 => 0 | 1 => 1 | 2 => 2 | _ => 4
  (List.range n).foldl (fun (acc : List Nat × Bool) i =>
    match winByte win (off + i) with
    | some b => (acc.1 ++ [b], acc.2)
    | none => (acc.1 ++ [0], true)) ([], false)

/-- The 16-byte key of an extraction profile and XTRUNC (R231, R232). -/
def Dev.extractKey (d : Dev) (n prof base : Nat) (win : List Nat) : List Nat × Bool :=
  let r := (List.range 8).foldl (fun (acc : List Nat × Bool) x =>
    let e := bits (d.rd (R.WNW_XPROF n prof (x / 2))).toNat (16 * (x % 2)) 16
    let o := runExtractor base win e
    (acc.1 ++ o.1, acc.2 || o.2)) ([], false)
  ((List.range 16).map (fun i => r.1.getD i 0), r.2 || decide (16 < r.1.length))

/-! ## Rule entries and the pattern map -/

def Dev.ruleValid (d : Dev) (n a : Nat) : Bool := (d.rd (ruleKey n a 0)).getLsbD 0
def Dev.ruleBusy (d : Dev) (n a : Nat) : Bool := (d.rd (ruleKey n a 0)).getLsbD 1
def Dev.rulePattern (d : Dev) (n a : Nat) : Nat := bits (d.rd (ruleKey n a 0)).toNat 16 14

/-- An entry is free when VALID and BUSY are both 0. -/
def Dev.ruleFree (d : Dev) (n a : Nat) : Bool := !d.ruleValid n a && !d.ruleBusy n a

/-- Word 0 of an entry. -/
def ruleWord0 (valid busy : Bool) (p : Nat) : Word := BitVec.ofNat 32 (b2n valid + 2 * b2n busy + 65536 * (p % 16384))

/-- A pattern map word: address, bound, valid. -/
def patWord (addr : Nat) (bound valid : Bool) : Word :=
  BitVec.ofNat 32 (addr % 16384 + 16384 * b2n bound + 32768 * b2n valid)

/-- The address a pattern is bound at. -/
def Dev.boundAt (d : Dev) (n p : Nat) : Option Nat :=
  let w := (d.rd (patKey n p)).toNat
  if w.testBit 14 then some (bits w 0 14) else none

/-- The first free entry at or after an address. -/
def Dev.firstFree (d : Dev) (n from_ : Nat) : Option Nat :=
  ((List.range (d.ruleCapacity n - from_)).map (· + from_)).find? (fun a => d.ruleFree n a)

/-- WNW_FREE (Table 5-14). -/
def Dev.wnwFree (d : Dev) (n : Nat) : Word :=
  let used := ((d.spaceWords 0x20 n).filter (fun x => x.1 % 32 == 0 && x.2.toNat % 4 != 0)).length
  match d.firstFree n 0 with
  | some a => BitVec.ofNat 32 (a + 65536 * (d.ruleCapacity n - used))
  | none => BitVec.ofNat 32 16384

/-! ## Commands -/

/-- The steps that move entries of a block, in the order given (R240). -/
def moveSteps (pairs : List (Nat × Nat)) : List WnwStep :=
  pairs.flatMap (fun x => [.copy x.1 x.2, .point x.1 x.2, .release x.1, .settle x.2])

/-- The three-step update of an entry (R237). -/
def updateSteps (a : Nat) : List WnwStep := [.invalidate a, .write a, .validate a]

/-- The result a command is refused with, or the steps it runs (Table 5-6, R235). -/
def Dev.planRule (d : Dev) (n op addr pattern : Nat) : Nat × List WnwStep :=
  if d.ruleCapacity n ≤ addr then (1, [])
  else if op = 0 ∨ 4 < op then (5, [])
  else
    let bound := d.boundAt n pattern
    if op = 1 then
      if bound.any (· != addr) then (2, []) else (0, updateSteps addr)
    else if op = 2 then
      if bound.isSome then (2, [])
      else if d.ruleFree n addr then (0, updateSteps addr)
      else
        match d.firstFree n addr with
        | none => (4, [])
        | some f =>
          (0, moveSteps (((List.range (f - addr)).map (fun i => (f - 1 - i, f - i)))) ++ updateSteps addr)
    else if d.ruleFree n addr then (3, [])
    else if op = 3 then (0, [.free addr])
    else
      let stop := (d.firstFree n (addr + 1)).getD (d.ruleCapacity n)
      (0, .free addr :: moveSteps ((List.range (stop - (addr + 1))).map (fun i => (addr + 1 + i, addr + i))))

/-- The words that the checks of a command read. -/
def Dev.checkReads (d : Dev) (n op addr pattern : Nat) : List Nat :=
  if d.ruleCapacity n ≤ addr then []
  else (if op = 1 ∨ op = 2 then [patKey n pattern] else []) ++ (if 1 ≤ op ∧ op ≤ 4 then [ruleKey n addr 0] else [])

/-- A write of WNW_CMD with the group live (R233, R234): ignored with OVERRUN while BUSY; ended at once with ABORTED
while either block restarts (R246); otherwise the command starts. -/
def Dev.startRule (d : Dev) (n op addr : Nat) : Dev :=
  if d.flag (R.WNW_CMD_STAT n) R.WNW_CMD_STAT.BUSY then d.setFlag (R.WNW_CMD_STAT n) R.WNW_CMD_STAT.OVERRUN true
  else if !d.tablesUp n then
    ((d.fset (R.WNW_CMD_STAT n) R.WNW_CMD_STAT.RESULT 6).fset (R.WNW_CMD_STAT n) R.WNW_CMD_STAT.MOVED 0).setFlag
      (R.WNW_CMD_STAT n) R.WNW_CMD_STAT.DONE true
  else
    let words := (List.range 4).map (fun i => d.rd (R.WNW_CMD_DATA n i))
    let pattern := bits (words.getD 0 0).toNat 16 14
    let plan := d.planRule n op addr pattern
    let d := (d.touchAll n (d.checkReads n op addr pattern)).2
    let c : WnwCmd := { op := op, addr := addr, words := words, steps := plan.2, notBefore := d.now + 1, moved := 0,
                        result := plan.1, absent := none }
    (d.setFlag (R.WNW_CMD_STAT n) R.WNW_CMD_STAT.BUSY true).setWnw n { d.wnw n with cmd := some c }

/-- The effect of one step of a command on the rule array and the pattern map (R237 to R240). -/
def Dev.ruleStep (d : Dev) (n : Nat) (c : WnwCmd) : WnwStep → Dev
  | .invalidate a =>
    let p := d.rulePattern n a
    let d := if d.ruleValid n a && d.boundAt n p == some a then d.wrMem (patKey n p) (patWord a true false) else d
    d.wrMem (ruleKey n a 0) (ruleWord0 false true p)
  | .write a =>
    let d := d.wrMem (ruleKey n a 1) (c.words.getD 1 0 &&& 0x7FFFFFFF#32)
    let d := d.wrMem (ruleKey n a 2) (c.words.getD 2 0 &&& 0x0001FFFF#32)
    let d := d.wrMem (ruleKey n a 3) (c.words.getD 3 0 &&& 0xFFFF00FF#32)
    d.each [4, 5, 6, 7] (fun w d => d.wrMem (ruleKey n a w) 0)
  | .validate a =>
    let old := d.rulePattern n a
    let p := bits (c.words.getD 0 0).toNat 16 14
    let d := if old ≠ p ∧ d.boundAt n old = some a then d.wrMem (patKey n old) 0 else d
    (d.wrMem (ruleKey n a 0) (ruleWord0 true false p)).wrMem (patKey n p) (patWord a true true)
  | .free a =>
    let p := d.rulePattern n a
    let d := if d.boundAt n p = some a then d.wrMem (patKey n p) 0 else d
    d.wrMem (ruleKey n a 0) 0
  | .copy s t =>
    let d := d.each [1, 2, 3, 4, 5, 6, 7] (fun w d => d.wrMem (ruleKey n t w) (d.rd (ruleKey n s w)))
    d.wrMem (ruleKey n t 0) (ruleWord0 true true (d.rulePattern n s))
  | .point s t => d.wrMem (patKey n (d.rulePattern n s)) (patWord t true true)
  | .release s => d.wrMem (ruleKey n s 0) 0
  | .settle t => (d.wrMem (ruleKey n t 0) (ruleWord0 true false (d.rulePattern n t))).bump (R.WNW_MOVES n)

/-- The clocks a step makes the next one wait (R237, R240). -/
def WnwStep.wait : WnwStep → Nat
  | .invalidate _ => 9
  | .point _ _ => 9
  | _ => 1

/-- The segment of the rule digests a step's entry lies in (Table 6-8). -/
def Dev.ruleSegment (d : Dev) (n : Nat) (a : Nat) : Nat := 4288 + d.rulePattern n a / 256

/-- A segment is unsettled in this pass (R282). -/
def Dev.unsettle (d : Dev) (n seg : Nat) : Dev :=
  d.modTbl n (fun t => if t.unsettled.contains seg then t else { t with unsettled := t.unsettled ++ [seg] })

/-- The rule segment of an entry that a step touches is unsettled in this pass (R282). -/
def Dev.touchRule (d : Dev) (n : Nat) (a : Nat) : Dev := d.when (d.tbl n).inPass (·.unsettle n (d.ruleSegment n a))

/-- The entry a step touches. -/
def WnwStep.entry : WnwStep → Nat
  | .invalidate a | .write a | .validate a | .free a => a
  | .copy _ t => t
  | .point s _ => s
  | .release s => s
  | .settle t => t

/-- The words that a step reads. -/
def WnwStep.reads (n : Nat) : WnwStep → List Nat
  | .copy s _ => (List.range 8).map (ruleKey n s)
  | .write _ => []
  | s => [ruleKey n s.entry 0]

/-- WNW_CMD_STEP: the next step of the command takes effect when its wait is over, as a background request of its bank (R242);
one that meets a word it cannot read has no effect, and the block's restart ends the command. -/
def Dev.wnwStep (d : Dev) (n : Nat) : Dev :=
  match (d.wnw n).cmd with
  | none => d
  | some c =>
    match c.steps with
    | [] => d
    | s :: rest =>
      if d.now < c.notBefore || !d.tablesUp n then d
      else
        let r := d.touchAll n (s.reads n)
        if !r.1 then r.2
        else
        let d := (r.2.touchRule n s.entry).backgroundServed n [r.2.bankAt n 2 (s.entry / 4096)]
        let absent := match s with
          | .invalidate a =>
            if d.ruleValid n a && d.boundAt n (d.rulePattern n a) == some a then some (d.rulePattern n a) else none
          | .validate _ => none
          | _ => c.absent
        let moved := match s with | .settle _ => c.moved + 1 | _ => c.moved
        let d := (d.ruleStep n c s).touchRule n s.entry
        let c' : WnwCmd := { c with steps := rest, notBefore := d.now + s.wait, moved := moved, absent := absent }
        d.setWnw n { d.wnw n with cmd := some c' }

/-- WNW_CMD_COMPLETE: a command with no step left ends with its result, MOVED and DONE (R235). -/
def Dev.wnwComplete (d : Dev) (n : Nat) : Dev :=
  match (d.wnw n).cmd with
  | none => d
  | some c =>
    if !c.steps.isEmpty || d.now < c.notBefore then d
    else
      let a := R.WNW_CMD_STAT n
      let d := d.setFlag a R.WNW_CMD_STAT.BUSY false
      let d := d.setFlag a R.WNW_CMD_STAT.DONE true
      let d := d.fset a R.WNW_CMD_STAT.RESULT c.result
      let d := d.fset a R.WNW_CMD_STAT.MOVED (min 65535 c.moved)
      d.setWnw n { d.wnw n with cmd := none }

/-- A command in progress as its region's pipeline or table block enters restart ends with ABORTED (R246). -/
def Dev.wnwAbort (d : Dev) (n : Nat) : Dev :=
  match (d.wnw n).cmd with
  | none => d
  | some c =>
    let a := R.WNW_CMD_STAT n
    let d := d.setFlag a R.WNW_CMD_STAT.BUSY false
    let d := d.setFlag a R.WNW_CMD_STAT.DONE true
    let d := d.fset a R.WNW_CMD_STAT.RESULT 6
    let d := d.fset a R.WNW_CMD_STAT.MOVED (min 65535 c.moved)
    d.setWnw n { d.wnw n with cmd := none }

/-! ## The rebuild of the pattern map -/

/-- A rebuild is to be made (R247): Winnow is not ready, and REBUILD reads 1, once the Gleaner has verified the array where it is
to (R249). -/
def Dev.wnwStartRebuild (d : Dev) (n : Nat) : Dev :=
  (d.setFlag (R.WNW_STAT n) R.WNW_STAT.READY false).setFlag (R.WNW_STAT n) R.WNW_STAT.REBUILD (!(d.tbl n).verifying)

/-- The entry a pattern is bound to by the rebuild: the lowest valid one whose BUSY is 0, else the lowest valid one. -/
def Dev.rebuildChoice (d : Dev) (n p : Nat) (used : List Nat) : Option Nat :=
  let l := used.filter (fun a => d.ruleValid n a && d.rulePattern n a == p)
  match l.find? (fun a => !d.ruleBusy n a) with
  | some a => some a
  | none => l.head?

/-- PATTERN_MAP_REBUILD_DONE: the four steps of R247, then READY (R248); a verification comes first (R249). -/
def Dev.wnwRebuildDone (d : Dev) (n : Nat) : Dev :=
  if !d.flag (R.WNW_STAT n) R.WNW_STAT.REBUILD || d.blockInRestart n 6 || d.blockInRestart n 8 || (d.tbl n).verifying then d
  else
    let used := ((d.spaceWords 0x20 n).filter (fun x => x.1 % 32 == 0 && x.2.toNat % 4 != 0)).map (fun x => x.1 / 32)
    let d0 := d
    let d := d.each ((d.spaceWords 0x22 n).map (·.1)) (fun k d => d.wrMem (spWord 0x22 n + k) 0)
    let inMap := fun (k : Nat) => decide (spWord 0x22 n ≤ k ∧ k < spWord 0x22 n + 0x01000000)
    let d : Dev := { d with faults := d.faults.filter (fun x => !inMap x.1) }
    let d := d.each used (fun a d =>
      let p := d0.rulePattern n a
      if !d0.ruleValid n a then d.wrMem (ruleKey n a 0) 0
      else if d0.rebuildChoice n p used == some a then
        (d.wrMem (ruleKey n a 0) (ruleWord0 true false p)).wrMem (patKey n p) (patWord a true true)
      else
        let d := if d0.ruleBusy n a then d else d.setFlag (R.WNW_STAT n) R.WNW_STAT.DUP_FREED true
        d.wrMem (ruleKey n a 0) 0)
    (d.setFlag (R.WNW_STAT n) R.WNW_STAT.REBUILD false).setFlag (R.WNW_STAT n) R.WNW_STAT.READY true

/-- AUTOMATON_HEADER_CHECK (R225): at the load of a WINNOW section. -/
def Dev.autHeaderCheck (d : Dev) (n : Nat) : Dev :=
  let s := R.WNW_STAT n
  if !(d.wnw n).effective then
    ((d.setFlag s R.WNW_STAT.AUT_BAD false).fset s R.WNW_STAT.CLASSES 0).fset s R.WNW_STAT.ROWLOG 0
  else
    let w := (d.rd (autKey n 0)).toNat
    let classes := bits w 0 7
    let rowlog := bits w 8 3
    let start := bits (d.rd (autKey n 1)).toNat 0 18
    let ok := decide (1 ≤ classes ∧ classes ≤ 64) && decide (classes + 1 ≤ 2 ^ rowlog) && decide (start < d.autWords n)
      && (List.range 273).all (fun s => decide (bits (d.rd (autKey n (2 + s / 4))).toNat (8 * (s % 4)) 8 < classes))
    ((d.setFlag s R.WNW_STAT.AUT_BAD (!ok)).fset s R.WNW_STAT.CLASSES classes).fset s R.WNW_STAT.ROWLOG rowlog

end Sys2Proof.Machine
end

