-- ==== Sys2Proof/Machine/Tables.lean ====
section
/-! DEFINITION. The table block: the address table, VLANs and groups, learning, commands, aging, the Gleaner and spare
banks (chapter 6). -/

namespace Sys2Proof.Machine

/-! ## The address table -/

/-- 2^60 - 1. -/
def mask60 : Nat := 2 ^ 60 - 1

/-- The multipliers of fdb_perm (R252) and their inverses modulo 2^60. -/
def permC (h : Nat) : Nat := if h = 0 then 0x09E3779B97F4A7C1 else 0x094D049BB133111B
def permD (h : Nat) : Nat := if h = 0 then 0x0BF58476D1CE4E5B else 0x02545F4914F6CDD1
def permCinv (h : Nat) : Nat := if h = 0 then 0x02cd3219ad7b6841 else 0xf17fde4e557e113
def permDinv (h : Nat) : Nat := if h = 0 then 0xb91bbd3afc231d3 else 0xe71eee376c8ab31

/-- fdb_perm (R252). -/
def fdbPerm (key h seed : Nat) : Nat :=
  let x := (key ^^^ seed) &&& mask60
  let x := (x * permC h) &&& mask60
  let x := x ^^^ (x / 2 ^ 29)
  let x := (x * permD h) &&& mask60
  x ^^^ (x / 2 ^ 31)

/-- The inverse of fdb_perm, by which the device recovers the key of an entry (R252, R254). -/
def fdbUnperm (x h seed : Nat) : Nat :=
  let x := x ^^^ (x / 2 ^ 31)
  let x := (x * permDinv h) &&& mask60
  let x := x ^^^ (x / 2 ^ 29) ^^^ (x / 2 ^ 58)
  let x := (x * permCinv h) &&& mask60
  (x ^^^ seed) &&& mask60

/-- The key of a FID and MAC. -/
def fdbKeyOf (fid mac : Nat) : Nat := fid % 4096 * 2 ^ 48 + mac % 2 ^ 48

/-- Seed h of a region. -/
def Dev.fdbSeed (d : Dev) (n h : Nat) : Nat :=
  (d.rd (R.TBL_FDB_SEED_LO n h)).toNat + bits (d.rd (R.TBL_FDB_SEED_HI n h)).toNat 0 28 * 2 ^ 32

/-- Banks of the address table: m of R253. -/
def Dev.fdbBanks (d : Dev) (n : Nat) : Nat := d.bankCount n 1

/-- The bucket of a key in half h (R253). -/
def Dev.fdbBucket (d : Dev) (n h key : Nat) : Nat := fdbPerm key h (d.fdbSeed n h) % (2048 * d.fdbBanks n)

/-- LOC of Table 6-4. -/
def Slot.loc : Slot → Nat
  | .bucket h i y => y + 4 * i + 2 ^ 18 * h
  | .stash k => 4 * k + 2 ^ 19

/-- The memory words of a slot. -/
def Dev.slotKeys (d : Dev) (n : Nat) : Slot → List Nat
  | .bucket h i y => [fdbKey n (d.fdbBanks n) h i y 0, fdbKey n (d.fdbBanks n) h i y 1]
  | .stash k => [stashKey n k 0, stashKey n k 1, stashKey n k 2]

/-- Read a slot (R254, R255). -/
def Dev.readSlot (d : Dev) (n : Nat) : Slot → Entry
  | .bucket h i y =>
    let m := d.fdbBanks n
    let w := (d.rd (fdbKey n m h i y 0)).toNat + 2 ^ 32 * (d.rd (fdbKey n m h i y 1)).toNat
    { key := fdbUnperm (bits w 0 48 * 4096 + i % 4096) h (d.fdbSeed n h), valid := w.testBit 48, isStatic := w.testBit 49,
      hit := w.testBit 50, age := w.testBit 51, dest := bits w 52 12 }
  | .stash k =>
    let w := (d.rd (stashKey n k 0)).toNat + 2 ^ 32 * (d.rd (stashKey n k 1)).toNat
    { key := bits w 0 60, valid := w.testBit 60, isStatic := w.testBit 61, hit := w.testBit 62, age := w.testBit 63,
      dest := bits (d.rd (stashKey n k 2)).toNat 0 12 }

/-- The four ways of a bucket. -/
def ways : List Nat := [0, 1, 2, 3]

/-- The slots a lookup reads, in the order hits are taken (R257). -/
def Dev.lookupSlots (d : Dev) (n key : Nat) : List Slot :=
  ways.map (fun y => .bucket 0 (d.fdbBucket n 0 key) y) ++ ways.map (fun y => .bucket 1 (d.fdbBucket n 1 key) y)
    ++ (List.range 32).map (fun k => .stash k)

/-- The hits on a key (R257): valid entries with that key in words that can be read. -/
def Dev.hits (d : Dev) (n key : Nat) : List Slot :=
  (d.lookupSlots n key).filter (fun s =>
    (d.slotKeys n s).all (fun k => d.fault k != 2) && (d.readSlot n s).valid && (d.readSlot n s).key == key)

/-- The words that a lookup of a key reads: single-bit errors are corrected, uncorrectable ones reported (R275, R276). -/
def Dev.touchLookup (d : Dev) (n key : Nat) : Dev :=
  (d.touchAll n (((d.lookupSlots n key).flatMap (d.slotKeys n)).filter (fun k => d.fault k != 0))).2

/-- A lookup in the pipeline: it reads the rows as they stood when this clock began (R258), and uncorrectable words count as
misses (Table 6-7). -/
def Dev.lookup (d : Dev) (n key : Nat) : Option Slot × Dev := ((d.was.hits n key).head?, d.touchLookup n key)

/-! ## Digests (R279 to R282) -/

/-- The contribution of an address entry. -/
def entryContribution (e : Entry) : Word :=
  if e.valid then
    BitVec.ofNat 32 (crc32c ([0x01#8] ++ leBytes 2 (e.key / 2 ^ 48) ++ leBytes 6 (e.key % 2 ^ 48)
      ++ leBytes 1 (b2n e.isStatic) ++ leBytes 2 e.dest))
  else 0

/-- The segment of a key (Table 6-8). -/
def entrySegment (key : Nat) : Nat :=
  crc32c (leBytes 2 (key / 2 ^ 48) ++ beBytes 6 (key % 2 ^ 48)) % 4096

/-- Bytes of listed words in little-endian order. -/
def Dev.wordBytes (d : Dev) (keys : List Nat) : List Byte := keys.flatMap (fun k => leBytes 4 (d.rd k).toNat)

def Dev.vlanContribution (d : Dev) (n v : Nat) : Word :=
  BitVec.ofNat 32 (crc32c ([0x02#8] ++ leBytes 2 v ++ d.wordBytes [vlanKey n v 0, vlanKey n v 1]))

def Dev.groupContribution (d : Dev) (n g : Nat) : Word :=
  BitVec.ofNat 32 (crc32c ([0x03#8] ++ leBytes 2 g ++ d.wordBytes ((List.range 5).map (groupKey n g))))

def Dev.polContribution (d : Dev) (n i : Nat) : Word :=
  BitVec.ofNat 32 (crc32c ([0x04#8] ++ leBytes 2 i ++ d.wordBytes ((List.range 4).map (polKey n i))))

def Dev.ruleContribution (d : Dev) (n a : Nat) : Word :=
  if d.ruleValid n a && !d.ruleBusy n a then
    BitVec.ofNat 32 (crc32c ([0x05#8] ++ leBytes 2 (d.rulePattern n a)
      ++ d.wordBytes [ruleKey n a 1, ruleKey n a 2, ruleKey n a 3]))
  else 0

def Dev.autContribution (d : Dev) (n w : Nat) : Word :=
  BitVec.ofNat 32 (crc32c ([0x06#8] ++ leBytes 4 w ++ d.wordBytes [autKey n w]))

/-! ## The Gleaner's walk (R277) -/

/-- The bursts of a pass: memory and first row. Memories: 0 and 1 the FDB's halves, 2 the stash with the shadow store,
3 VLANs, 4 groups, 5 policers, 6 rules, 7 automaton, 8 Loft and journal, 9 spares. -/
def Dev.bursts (d : Dev) (n : Nat) : List (Nat × Nat) :=
  let run : Nat → Nat → List (Nat × Nat) := fun mem rows => (List.range (rows / 1024)).map (fun b => (mem, 1024 * b))
  run 0 (2048 * d.fdbBanks n) ++ run 1 (2048 * d.fdbBanks n) ++ [(2, 0)] ++ run 3 1024 ++ run 4 16384 ++ run 5 32768
    ++ run 6 (4096 * d.bankCount n 2) ++ run 7 (4096 * d.bankCount n 3)
    ++ run 8 (4096 * (d.bankCount n 4 + d.bankCount n 5)) ++ run 9 (4096 * d.bankCount n 0)

/-- Row `row` of memory `mem` has been walked in the current pass (R281). -/
def Dev.rowWalked (d : Dev) (n mem row : Nat) : Bool :=
  (d.tbl n).inPass && ((d.bursts n).take (d.tbl n).burst).any (fun x => x.1 == mem && x.2 == row / 1024 * 1024)

/-- Add to an accumulator. -/
def Dev.accumulate (d : Dev) (n seg : Nat) (v : Word) : Dev :=
  d.modTbl n (fun t => { t with acc := Map.put (fun _ => 0) t.acc seg (Map.get (fun _ => 0) t.acc seg + v) })

/-- A change of an entry: in a row already walked in this pass its segment's accumulator follows (R281). -/
def Dev.accounted (d : Dev) (n mem row seg : Nat) (c : Dev → Word) (write : Dev → Dev) : Dev :=
  let t := write d
  if d.rowWalked n mem row then t.accumulate n seg (c t - c d) else t

/-- Write the words of a slot (R254, R255). -/
def Dev.putSlot (d : Dev) (n : Nat) (s : Slot) (e : Entry) : Dev :=
  match s with
  | .bucket h i y =>
    let m := d.fdbBanks n
    let rem := fdbPerm e.key h (d.fdbSeed n h) / 4096
    let w := rem % 2 ^ 48 + 2 ^ 48 * b2n e.valid + 2 ^ 49 * b2n e.isStatic + 2 ^ 50 * b2n e.hit + 2 ^ 51 * b2n e.age
      + 2 ^ 52 * (e.dest % 4096)
    (d.wrMem (fdbKey n m h i y 0) (BitVec.ofNat 32 w)).wrMem (fdbKey n m h i y 1) (BitVec.ofNat 32 (w / 2 ^ 32))
  | .stash k =>
    let w := e.key % 2 ^ 60 + 2 ^ 60 * b2n e.valid + 2 ^ 61 * b2n e.isStatic + 2 ^ 62 * b2n e.hit + 2 ^ 63 * b2n e.age
    ((d.wrMem (stashKey n k 0) (BitVec.ofNat 32 w)).wrMem (stashKey n k 1) (BitVec.ofNat 32 (w / 2 ^ 32))).wrMem
      (stashKey n k 2) (BitVec.ofNat 32 (e.dest % 4096))

/-- The memory and row of a slot (R277). -/
def Slot.row : Slot → Nat × Nat
  | .bucket h i _ => (h, i)
  | .stash _ => (2, 0)

/-- The valid copies of a key, in the order of a lookup. -/
def Dev.copiesOf (d : Dev) (n key : Nat) : List Slot :=
  (d.lookupSlots n key).filter (fun s => (d.readSlot n s).valid && (d.readSlot n s).key == key)

/-- What a key has contributed to the pass so far: one contribution, that of its first copy, once that row is walked (R279,
R281). -/
def Dev.keyWalked (d : Dev) (n key : Nat) : Word :=
  match (d.copiesOf n key).head? with
  | some s => if d.rowWalked n s.row.1 s.row.2 then entryContribution (d.readSlot n s) else 0
  | none => 0

/-- Write a slot; in a pass the accumulators of the keys it held and holds follow (R281). -/
def Dev.writeSlot (d : Dev) (n : Nat) (s : Slot) (e : Entry) : Dev :=
  let t := d.putSlot n s e
  if (d.tbl n).inPass then
    let old := (d.readSlot n s).key
    let t := t.accumulate n (entrySegment e.key) (t.keyWalked n e.key - d.keyWalked n e.key)
    if old = e.key then t else t.accumulate n (entrySegment old) (t.keyWalked n old - d.keyWalked n old)
  else t

/-- Invalidate a slot. -/
def Dev.clearSlot (d : Dev) (n : Nat) (s : Slot) : Dev := d.writeSlot n s { d.readSlot n s with valid := false }

/-- Valid stash entries. -/
def Dev.stashUsed (d : Dev) (n : Nat) : Nat := ((List.range 32).filter (fun k => (d.readSlot n (.stash k)).valid)).length

/-- Refresh TBL_STAT.STASH_USED. -/
def Dev.refreshStash (d : Dev) (n : Nat) : Dev := d.fset (R.TBL_STAT n) R.TBL_STAT.STASH_USED (d.stashUsed n)

/-! ## INSERT (R271, R272) -/

/-- The lowest free way of a bucket. -/
def Dev.freeWay (d : Dev) (n h i : Nat) : Option Nat := ways.find? (fun y => !(d.readSlot n (.bucket h i y)).valid)

/-- MAX_KICKS in force: 0 acts as 1, above 32 as 32. -/
def Dev.maxKicks (d : Dev) (n : Nat) : Nat := min 32 (max 1 (d.fget (R.TBL_FDB_CFG n) R.TBL_FDB_CFG.MAX_KICKS))

/-- Search for an eviction path from a full bucket (R271 step 2): the slots s0, s1, … , with the free slot last, and the
victim pointer afterwards. -/
def Dev.pathSearch (d : Dev) (n : Nat) : Nat → Nat → Nat → List Slot → Nat → Option (List Slot) × Nat
  | 0, _, _, _, ptr => (none, ptr)
  | kicks + 1, h, i, seen, ptr =>
    let s := Slot.bucket h i (ptr % 4)
    if seen.contains s then (none, ptr)
    else
      let h' := 1 - h
      let i' := d.fdbBucket n h' (d.readSlot n s).key
      let ptr' := (ptr + 1) % 4
      match d.freeWay n h' i' with
      | some y => (some (seen ++ [s, .bucket h' i' y]), ptr')
      | none => d.pathSearch n kicks h' i' (seen ++ [s]) ptr'

/-- Carry out a path: copies from the far end, then the new entry at s0 (R272). -/
def Dev.runPath (d : Dev) (n : Nat) (path : List Slot) (e : Entry) : Dev :=
  let moves := (List.range (path.length - 1)).reverse
  let d := d.each moves (fun j d =>
    d.writeSlot n (path.getD (j + 1) (.stash 0)) (d.readSlot n (path.getD j (.stash 0))))
  d.writeSlot n (path.getD 0 (.stash 0)) e

/-- Where a key is placed in the buckets (R271 steps 1 to 3): the slots of its path (one slot: no move), or none; and the
victim pointer. -/
def Dev.placeInBuckets (d : Dev) (n key : Nat) : Option (List Slot) × Nat :=
  let i0 := d.fdbBucket n 0 key
  let i1 := d.fdbBucket n 1 key
  let ptr := (d.tbl n).victim
  match d.freeWay n 0 i0 with
  | some y => (some [.bucket 0 i0 y], ptr)
  | none =>
    match d.freeWay n 1 i1 with
    | some y => (some [.bucket 1 i1 y], ptr)
    | none =>
      let r := d.pathSearch n (d.maxKicks n) 0 i0 [] ptr
      match r.1 with
      | some p => (some p, r.2)
      | none => d.pathSearch n (d.maxKicks n) 1 i1 [] r.2

/-- A key's INSERT needs a relocation: the path found and the victim pointer afterwards (R271). -/
def Dev.relocation (d : Dev) (n key : Nat) : Option (List Slot × Nat) :=
  let r := d.placeInBuckets n key
  match r.1 with
  | some p => if 2 ≤ p.length then some (p, r.2) else none
  | none => none

/-- Place an absent key (R271): result code, the slot written, the relocation moves made. -/
def Dev.insertEntry (d : Dev) (n : Nat) (e : Entry) (stashToo : Bool) : Nat × Option Slot × Nat × Dev :=
  let r := d.placeInBuckets n e.key
  let d := d.modTbl n (fun t => { t with victim := r.2 })
  match r.1 with
  | some p =>
    let moves := p.length - 1
    let d := d.runPath n p e
    (0, p.head?, moves, if moves = 0 then d else d.bump (R.TBL_RELOCATED n) moves)
  | none =>
    if stashToo then
      match (List.range 32).find? (fun k => !(d.readSlot n (.stash k)).valid) with
      | some k => (1, some (.stash k), 0, (d.writeSlot n (.stash k) e).refreshStash n)
      | none => (7, none, 0, d)
    else (7, none, 0, d)

/-! ## Learning (R264 to R267) -/

/-- LEVEL of the learn queue. -/
def Dev.refreshLearn (d : Dev) (n : Nat) : Dev :=
  d.fset (R.TBL_LRN_STAT n) R.TBL_LRN_STAT.LEVEL (d.tbl n).learn.length

/-- A notification arrives at the queue (R266): a full queue drops the new one. -/
def Dev.postLearn (d : Dev) (n : Nat) (l : Learn) : Dev :=
  if 4096 ≤ (d.tbl n).learn.length then d.bump (R.TBL_LRN_DROP n)
  else ((d.modTbl n (fun t => { t with learn := t.learn ++ [l] })).bump (R.TBL_LRN_POSTED n)).refreshLearn n

/-- Post through the learn filter (R265). -/
def Dev.postFiltered (d : Dev) (n key : Nat) (l : Learn) : Dev :=
  if (d.tbl n).filter.any (fun x => x.1 == key) then d.bump (R.TBL_LRN_FILTERED n)
  else
    let d := d.modTbl n (fun t =>
      { t with filter := (if 64 ≤ t.filter.length then t.filter.drop 1 else t.filter) ++ [(key, d.now)] })
    d.postLearn n l

/-- A key leaves the filter. -/
def Dev.unfilter (d : Dev) (n key : Nat) : Dev :=
  d.modTbl n (fun t => { t with filter := t.filter.filter (fun x => x.1 != key) })

/-- HOLD_US in clocks: 0 acts as 1 µs. -/
def Dev.learnHold (d : Dev) (n : Nat) : Nat := max 1 (d.fget (R.TBL_LRN_CFG n) R.TBL_LRN_CFG.HOLD_US) * us

/-- LEARN_FILTER_EXPIRY: keys whose HOLD_US has passed leave the filter. -/
def Dev.learnExpire (d : Dev) (n : Nat) : Dev :=
  let h := d.learnHold n
  d.modTbl n (fun t => { t with filter := t.filter.filter (fun x => decide (d.now < x.2 + h)) })

/-- The words of a notification (Table 6-4). -/
def Learn.words (l : Learn) : List Word :=
  [BitVec.ofNat 32 l.mac, BitVec.ofNat 32 (l.mac / 2 ^ 32 % 2 ^ 16 + l.fid % 4096 * 2 ^ 16 + l.kind * 2 ^ 28),
   BitVec.ofNat 32 (l.port % 4096 + l.oldDest % 4096 * 4096), BitVec.ofNat 32 (l.loc % 2 ^ 20 + l.gen % 256 * 2 ^ 20)]

/-- TBL_LRN_POP (R266). -/
def Dev.learnPop (d : Dev) (n : Nat) : Dev :=
  (d.modTbl n (fun t => { t with learn := t.learn.drop 1 })).refreshLearn n

/-! ## Commands (R269 to R273, R280) -/

/-- A write of TBL_CMD on channel c. -/
def Dev.startTbl (d : Dev) (n c op : Nat) : Dev :=
  let st := R.TBL_CMD_STAT n c
  if d.flag st R.TBL_CMD_STAT.BUSY then d.setFlag st R.TBL_CMD_STAT.OVERRUN true
  else if !d.regionRuns n || d.blockInRestart n 6 then
    ((d.fset st R.TBL_CMD_STAT.RESULT 8).fset st R.TBL_CMD_STAT.MOVES 0).setFlag st R.TBL_CMD_STAT.DONE true
  else
    let cmd : TblCmd :=
      { chan := c, op := op, keyLo := (d.rd (R.TBL_CMD_KEY_LO n c)).toNat, keyHi := (d.rd (R.TBL_CMD_KEY_HI n c)).toNat,
        data := (List.range 5).map (fun j => (d.rd (R.TBL_CMD_DATA n c j)).toNat),
        delta := (d.rd (R.TBL_CMD_DELTA n c)).toNat }
    (d.setFlag st R.TBL_CMD_STAT.BUSY true).modTbl n (fun t => { t with pending := t.pending ++ [cmd] })

/-- The key of an address command. -/
def TblCmd.key (c : TblCmd) : Nat := fdbKeyOf (bits c.keyHi 16 12) (c.keyLo + bits c.keyHi 0 16 * 2 ^ 32)

/-- The entry an INSERT or UPDATE writes. -/
def TblCmd.entry (c : TblCmd) : Entry :=
  { key := c.key, valid := true, isStatic := (c.data.getD 0 0).testBit 12, hit := false, age := false,
    dest := bits (c.data.getD 0 0) 0 12 }

/-- A reserved DEST (Table 6-2). -/
def destReserved (x : Nat) : Bool := (decide (0x086 ≤ x ∧ x ≤ 0x0FE)) || decide (0x200 ≤ x ∧ x ≤ 0x3FF)

/-- The running INSERT of an absent key that needs a relocation takes the path that its search finds: the copies to be written, with
the entries as the search reads them, from the far end (R271, R272). -/
def Dev.planTbl (d : Dev) (n : Nat) : Dev :=
  match (d.tbl n).running, (d.tbl n).plan with
  | some c, none =>
    if c.op ≠ 1 ∨ destReserved c.entry.dest ∨ !(d.hits n c.key).isEmpty then d
    else
      match d.relocation n c.key with
      | none => d
      | some (p, ptr) =>
        let d := (d.touchAll n ((p.flatMap (d.slotKeys n)).filter (fun k => d.fault k != 0))).2
        let moves := ((List.range (p.length - 1)).reverse).map (fun j =>
          (p.getD (j + 1) (.stash 0), d.readSlot n (p.getD j (.stash 0))))
        d.modTbl n (fun t => { t with victim := ptr, plan := some ⟨moves, 0, p.headD (.stash 0)⟩ })
  | _, _ => d

/-- One copy of a relocation is written in each clock (R272). -/
def Dev.relocateTick (d : Dev) (n : Nat) : Dev :=
  match (d.tbl n).plan with
  | none => d
  | some p =>
    match p.moves with
    | [] => d
    | (s, e) :: rest =>
      if !d.regionRuns n || d.blockInRestart n 6 then d
      else
        ((d.writeSlot n s e).bump (R.TBL_RELOCATED n)).modTbl n (fun t =>
          { t with plan := some { p with moves := rest, made := p.made + 1 } })

/-- TBL_CMD_START: the next pending channel in round-robin order (R269). -/
def Dev.nextTbl (d : Dev) (n : Nat) : Dev :=
  let t := d.tbl n
  if t.running.isSome || !d.regionRuns n || d.blockInRestart n 6 then d
  else
    match ((List.range 4).map (fun i => (t.served + 1 + i) % 4)).find? (fun c => t.pending.any (fun x => x.chan == c)) with
    | none => d
    | some c =>
      (d.setTbl n { t with running := t.pending.find? (fun x => x.chan == c),
                           pending := t.pending.filter (fun x => x.chan != c), served := c }).planTbl n

/-- The shadow word a command's delta applies to (R280, Table 6-8). -/
def TblCmd.segment (c : TblCmd) : Nat :=
  if c.op = 5 then 4096 + bits c.keyLo 0 12 / 64
  else if c.op = 6 then 4160 + bits c.keyLo 0 14 / 256
  else entrySegment c.key

/-- What running a command leaves: result, first location, RDATA, moves (Tables 6-5, 6-6). -/
def Dev.runTbl (d : Dev) (n : Nat) (c : TblCmd) : Nat × Nat × Nat × Nat × Dev :=
  let e := c.entry
  let hs := d.hits n c.key
  if c.op = 0 ∨ 6 < c.op then (2, 0, 0, 0, d)
  else if c.op ≤ 2 ∧ destReserved e.dest then (3, 0, 0, 0, d)
  else if c.op = 5 then
    let v := bits c.keyLo 0 12
    if v = 4095 then (3, 0, 0, 0, d)
    else
      (0, 0, 0, 0, d.accounted n 3 (v / 4) c.segment (fun d => d.vlanContribution n v) (fun d =>
        (d.wrMem (vlanKey n v 0) (BitVec.ofNat 32 (c.data.getD 0 0) &&& 0x3FFFFFFF#32)).wrMem (vlanKey n v 1)
          (BitVec.ofNat 32 (c.data.getD 1 0) &&& 0x3FFF3FFF#32)))
  else if c.op = 6 then
    let g := bits c.keyLo 0 14
    (0, 0, 0, 0, d.accounted n 4 g c.segment (fun d => d.groupContribution n g) (fun d => d.each (List.range 8) (fun w d =>
      d.wrMem (groupKey n g w) (if w = 4 then BitVec.ofNat 32 (c.data.getD w 0) &&& 0x3F#32
                                else BitVec.ofNat 32 (c.data.getD w 0)))))
  else if c.op = 1 then
    match hs.head? with
    | some s =>
      let o := d.readSlot n s
      (if o.dest = e.dest ∧ o.isStatic = e.isStatic then 4 else 5, 0, 0, 0, d)
    | none =>
      let r := match (d.tbl n).plan with
        | some p => (0, some p.slot, p.made, (d.writeSlot n p.slot e).modTbl n (fun t => { t with plan := none }))
        | none => d.insertEntry n e true
      let d := if r.1 ≤ 1 then r.2.2.2.fset (R.TBL_FDB_COUNT n) R.TBL_FDB_COUNT.VALID
          (r.2.2.2.fget (R.TBL_FDB_COUNT n) R.TBL_FDB_COUNT.VALID + 1) else r.2.2.2
      (r.1, (r.2.1.map Slot.loc).getD 0, 0, r.2.2.1, d)
  else
    match hs.head? with
    | none => (6, 0, 0, 0, d)
    | some s =>
      let o := d.readSlot n s
      if c.op = 2 then
        (0, s.loc, 0, 0, d.each hs (fun s d =>
          d.writeSlot n s { d.readSlot n s with dest := e.dest, isStatic := e.isStatic }))
      else if c.op = 3 then
        let d := (d.each hs (fun s d => d.clearSlot n s)).refreshStash n
        (0, s.loc, 0, 0, d.fset (R.TBL_FDB_COUNT n) R.TBL_FDB_COUNT.VALID
          (d.fget (R.TBL_FDB_COUNT n) R.TBL_FDB_COUNT.VALID - 1))
      else
        (0, s.loc, o.dest + 4096 * b2n o.isStatic + 8192 * b2n o.hit + 16384 * b2n o.age, 0, d)

/-- End a command with a result. -/
def Dev.endTbl (d : Dev) (n c result moves : Nat) : Dev :=
  let st := R.TBL_CMD_STAT n c
  let d := d.setFlag st R.TBL_CMD_STAT.BUSY false
  let d := d.setFlag st R.TBL_CMD_STAT.DONE true
  let d := d.fset st R.TBL_CMD_STAT.RESULT result
  d.fset st R.TBL_CMD_STAT.MOVES (min 255 moves)

/-- TBL_CMD_COMPLETE: the running command's last write, its result, its shadow delta and the release of its key. A command whose
relocation still has copies to write goes on (R272). -/
def Dev.completeTbl (d : Dev) (n : Nat) : Dev :=
  let d := d.planTbl n
  match (d.tbl n).running with
  | none => d
  | some c =>
    if (d.tbl n).plan.any (fun p => !p.moves.isEmpty) then d
    else
    let d := d.when (decide (1 ≤ c.op ∧ c.op ≤ 4)) (·.touchLookup n c.key)
    let r := (d.backgroundServed n (d.ownerBanks n 1)).runTbl n c
    let d := r.2.2.2.2
    let d := if r.1 ≤ 1 ∧ c.op ≠ 4 then
        d.wrMem (shadowKey n c.segment) (d.rd (shadowKey n c.segment) + BitVec.ofNat 32 c.delta) else d
    let d := d.endTbl n c.chan r.1 r.2.2.2.1
    let d := if r.1 ≤ 1 ∧ c.op ≤ 4 then d.fset (R.TBL_CMD_LOC n c.chan) R.TBL_CMD_LOC.LOC r.2.1 else d
    let d := if r.1 = 0 ∧ c.op = 4 then d.wr (R.TBL_CMD_RDATA n c.chan) (BitVec.ofNat 32 r.2.2.1) else d
    let d := if c.op ≤ 4 then d.unfilter n c.key else d
    d.modTbl n (fun t => { t with running := none })

/-- Commands running or pending end with ABORTED as the table block or its region enters restart (R286). -/
def Dev.abortTbl (d : Dev) (n : Nat) : Dev :=
  let t := d.tbl n
  let made := match t.plan with | some p => p.made | none => 0
  let d := d.each t.pending (fun c d => d.endTbl n c.chan 8 0)
  let d := d.each t.running.toList (fun c d => d.endTbl n c.chan 8 made)
  d.modTbl n (fun t => { t with pending := [], running := none, plan := none })

/-- TBL_SHADOW_ADJ (R280): adds DELTA to the named shadow word, or sets it; the segment is unsettled in this pass. -/
def Dev.shadowAdjust (d : Dev) (n word : Nat) (set_ : Bool) : Dev :=
  if 4416 ≤ word then d
  else
    let dl := d.rd (R.TBL_SHADOW_DELTA n)
    let d := d.wrMem (shadowKey n word) (if set_ then dl else d.rd (shadowKey n word) + dl)
    d.when (d.tbl n).inPass (·.unsettle n word)

/-! ## Aging, the Gleaner and spare banks -/

/-- An entry is local to region n when its DEST names a port of the region (R256). -/
def destLocalTo (n dest : Nat) : Bool := decide (dest < 134) && destRegion dest == n

/-- AGING_STEP at one slot (R274) whose words can be read. -/
def Dev.ageSlot (d : Dev) (n : Nat) (s : Slot) : Dev :=
  let e := d.readSlot n s
  if !e.valid || (d.slotKeys n s).any (fun k => d.fault k == 2) || e.isStatic || !destLocalTo n e.dest then d
  else if e.hit then d.writeSlot n s { e with hit := false, age := false }
  else if !e.age then d.writeSlot n s { e with age := true }
  else
    d.postLearn n { kind := 3, mac := e.key % 2 ^ 48, fid := e.key / 2 ^ 48, port := 0, oldDest := e.dest, loc := s.loc,
                    gen := d.regionGen n }

/-- STASH_RELOCATE (R283): try to move a stash entry into a bucket. -/
def Dev.stashRelocate (d : Dev) (n k : Nat) : Dev :=
  let e := d.readSlot n (.stash k)
  if !e.valid then d
  else
    let r := d.insertEntry n e false
    if r.1 = 0 then ((r.2.2.2.clearSlot n (.stash k)).refreshStash n).bump (R.TBL_RELOCATED n) else r.2.2.2

/-- The slots of row `row` of an FDB half or of the stash. -/
def rowSlots (mem row : Nat) : List Slot :=
  if mem ≤ 1 then ways.map (fun y => .bucket mem row y)
  else if mem = 2 then (List.range 32).map (fun k => .stash k) else []

/-- The memory and row of a word of a table space (R277): none outside the table memories. -/
def Dev.keyRow (d : Dev) (n key : Nat) : Option (Nat × Nat) :=
  let x := key - 0x200000000
  if key < 0x200000000 ∨ x / 0x01000000 % 4 ≠ n then none
  else
    let off := x % 0x01000000
    let m := d.fdbBanks n
    match x / 0x04000000 with
    | 0x30 => let idx := off / 0x20000
              some (idx % 2, off % 0x20000 / 32 * (m / 2) + idx / 2)
    | 0x31 => some (2, 0)
    | 0x34 => some (2, 0)
    | 0x32 => some (3, off / 32)
    | 0x33 => some (4, off / 32)
    | 0x35 => some (5, off / 32)
    | 0x20 => some (6, off / 32)
    | 0x21 => some (7, off / 32)
    | 0x71 => some (8, off / 32)
    | 0x63 => some (8, 4096 * d.bankCount n 4 + off / 32)
    | _ => none

/-- Add one row's contributions to the accumulators (R281). -/
def Dev.accumulateRow (d : Dev) (n mem row : Nat) : Dev :=
  if mem ≤ 2 then
    d.each (rowSlots mem row) (fun s d => let e := d.readSlot n s
      if e.valid && (d.copiesOf n e.key).head? == some s then d.accumulate n (entrySegment e.key) (entryContribution e) else d)
  else if mem = 3 then
    d.each [4 * row, 4 * row + 1, 4 * row + 2, 4 * row + 3] (fun v d => d.accumulate n (4096 + v / 64) (d.vlanContribution n v))
  else if mem = 4 then d.accumulate n (4160 + row / 256) (d.groupContribution n row)
  else if mem = 5 then
    d.each [2 * row, 2 * row + 1] (fun i d => d.accumulate n (4224 + i / 1024) (d.polContribution n i))
  else if mem = 6 then
    let d := d.when (d.ruleBusy n row) (·.unsettle n (d.ruleSegment n row))
    d.accumulate n (4288 + d.rulePattern n row / 256) (d.ruleContribution n row)
  else if mem = 7 then
    d.each ((List.range 8).map (fun i => 8 * row + i)) (fun w d => d.accumulate n (4352 + w / 4096) (d.autContribution n w))
  else d

/-- The journal entries of the rows that a burst walks are read, which restores their copies (R415). -/
def Dev.scrubJournal (d : Dev) (n row : Nat) : Dev :=
  let base := 4096 * d.bankCount n 4
  let l := (d.frame.journal.filter (fun x => x.1 / 0x1000000 == n && (x.2.badA || x.2.badB))).map (fun x => x.1 % 0x1000000)
  d.each (l.filter (fun i => (base + i) / 1024 * 1024 == row)) (fun i d => d.accessEntry n i)

/-- The bank cells that a burst reads (R277). -/
def Dev.burstBanks (d : Dev) (n : Nat) (b : Nat × Nat) : List Nat :=
  match b.1 with
  | 0 | 1 => d.ownerBanks n 1
  | 6 => [d.bankAt n 2 (b.2 / 4096)]
  | 7 => [d.bankAt n 3 (b.2 / 4096)]
  | 8 => if b.2 / 4096 < d.bankCount n 4 then [d.bankAt n 4 (b.2 / 4096)] else [d.bankAt n 5 (b.2 / 4096 - d.bankCount n 4)]
  | 9 => [(d.banksOf n 0).getD (b.2 / 4096) 0]
  | _ => []

/-- Walk one burst: scrubbing, aging, stash relocation, accumulation. -/
def Dev.walkBurst (d : Dev) (n : Nat) (b : Nat × Nat) (age : Bool) : Dev :=
  let inB := fun k => match d.keyRow n k with
    | some (m, r) => m == b.1 && r / 1024 * 1024 == b.2
    | none => false
  let bad := (d.faults.map (·.1)).filter inB
  let d := ((d.touchAll n bad).2).backgroundServed n (d.burstBanks n b)
  let rows := if b.1 = 2 then [0] else (List.range 1024).map (fun i => b.2 + i)
  let d := if age then d.each rows (fun r d => d.each (rowSlots b.1 r) (fun s d => d.ageSlot n s)) else d
  let d := if b.1 = 2 then d.each (List.range 32) (fun k d => d.stashRelocate n k)
    else if b.1 = 8 then d.scrubJournal n b.2 else d
  d.each rows (fun r d => d.accumulateRow n b.1 r)

/-- A mismatch report: counted, flagged and appended to the FIFO of 16 (R282). -/
def Dev.reportMismatch (d : Dev) (n word cause : Nat) : Dev :=
  let d := (d.bump (R.TBL_GLN_MISMATCHES n)).setFlag (R.TBL_GLN_STAT n) R.TBL_GLN_STAT.MISMATCH true
  let d := if (d.tbl n).mismatch.length < 16 then d.modTbl n (fun t => { t with mismatch := t.mismatch ++ [(word, cause)] })
    else d
  d.fset (R.TBL_GLN_STAT n) R.TBL_GLN_STAT.FIFO_LEVEL (d.tbl n).mismatch.length

/-- GLEANER_COMPARE (R282): every segment's accumulator against its shadow word; then the accumulators clear. -/
def Dev.gleanerCompare (d : Dev) (n : Nat) : Dev :=
  let t := d.tbl n
  let d := d.each (List.range 4416) (fun seg d =>
    if t.unsettled.contains seg then d.bump (R.TBL_GLN_UNSETTLED n)
    else if Map.get (fun _ => 0) t.acc seg ≠ d.rd (shadowKey n seg) then d.reportMismatch n seg 0
    else d)
  d.modTbl n (fun t => { t with acc := [], unsettled := [], uncorrWords := [], corrCount := [] })

/-- GLEANER_BURST (R278): the next burst of the pass, or the first of a new pass, when the region's window allows it; with no slot
of kind 1 that names the region (`free`) passes follow one another at MIN_GAP_MS. The burst that relocates stash entries waits
while a command's relocation is in progress. A burst is a unit of work of its fallback window (R207). -/
def Dev.gleanerBurst (d : Dev) (n : Nat) (allowed free : Bool) : Dev :=
  let t := d.tbl n
  if !allowed || !d.flag (R.TBL_STAT n) R.TBL_STAT.READY || !d.regionRuns n || d.blockInRestart n 6 || t.verifying then d
  else
    let gap := d.fget (R.TBL_GLN_CFG n) R.TBL_GLN_CFG.MIN_GAP_MS * ms
    if !t.inPass && !(t.pass == 0 || ((t.windowSince || free) && decide (t.passStart + gap ≤ d.now))) then d
    else
      let d := if t.inPass then d
        else (d.setTbl n { t with inPass := true, burst := 0, pass := t.pass + 1, passStart := d.now, windowSince := false }).setFlag
          (R.TBL_GLN_STAT n) R.TBL_GLN_STAT.IN_PASS true
      let t := d.tbl n
      match (d.bursts n)[t.burst]? with
      | none => d
      | some b =>
        if b.1 == 2 && t.plan.isSome then d
        else
        let every := max 1 (d.fget (R.TBL_AGE_CFG n) R.TBL_AGE_CFG.PASSES)
        let age := d.flag (R.TBL_AGE_CFG n) R.TBL_AGE_CFG.EN && t.pass % every == 0
        let d := d.walkBurst n b age
        let d := (d.modTbl n (fun t => { t with burst := t.burst + 1 })).workDone 1 n
        if (d.bursts n).length ≤ (d.tbl n).burst then
          let d := (d.gleanerCompare n).bump (R.TBL_GLN_PASSES n)
          (d.modTbl n (fun t => { t with inPass := false, burst := 0 })).setFlag (R.TBL_GLN_STAT n) R.TBL_GLN_STAT.IN_PASS
            false
        else d

/-- TBL_GLN_MISMATCH.POP: removes the head report. -/
def Dev.mismatchPop (d : Dev) (n : Nat) : Dev :=
  let d := d.modTbl n (fun t => { t with mismatch := t.mismatch.drop 1 })
  d.fset (R.TBL_GLN_STAT n) R.TBL_GLN_STAT.FIFO_LEVEL (d.tbl n).mismatch.length

/-- SPARE_COPY_COMPLETE (R284): all access moves to the spare and the bank is retired; a bank that failed meanwhile starts its
copy. -/
def Dev.spareCopied (d : Dev) (n : Nat) : Dev :=
  match (d.tbl n).copying with
  | none => d
  | some (b, s) =>
    let a := R.TBL_SPARE_STAT n
    let next := (d.tbl n).failing
    let d := d.backgroundServed n [b, s]
    let d := d.modTbl n (fun t => { t with copying := none, failing := next.drop 1, retired := t.retired ++ [(b, s)] })
    let d := d.fset a R.TBL_SPARE_STAT.LAST_RETIRED b
    let d := d.setFlag a R.TBL_SPARE_STAT.COPYING false
    let d := d.saturatingAdd a R.TBL_SPARE_STAT.RETIRED 1
    match next with
    | [] => d
    | f :: _ => d.spareStart n f

/-- Valid keys of the address table, each counted once (TBL_FDB_COUNT). -/
def Dev.countKeys (d : Dev) (n : Nat) : Nat :=
  let m := d.fdbBanks n
  let bucketKeys := ((d.spaceWords 0x30 n).filter (fun x => x.1 % 8 == 4 && x.2.getLsbD 16)).map (fun x =>
    let idx := x.1 / 0x20000
    let pos := x.1 % 0x20000 / 8
    (d.readSlot n (.bucket (idx % 2) (pos / 4 * (m / 2) + idx / 2) (pos % 4))).key)
  let stashKeys := ((List.range 32).filter (fun k => (d.readSlot n (.stash k)).valid)).map
    (fun k => (d.readSlot n (.stash k)).key)
  (bucketKeys ++ stashKeys).eraseDups.length

/-- The verification pass of a warm start or region restart begins (R287): queue and filter cleared and counted; a spare copy cut
short begins again (R284). -/
def Dev.startVerify (d : Dev) (n : Nat) : Dev :=
  let dropped := (d.tbl n).learn.length
  let d := d.bump (R.TBL_LRN_DROP n) dropped
  let d := d.modTbl n (fun t =>
    { t with learn := [], filter := [], victim := 0, served := 3, verifying := true, inPass := false, burst := 0, acc := [],
             unsettled := [], uncorrWords := [], corrCount := [], pass := t.pass + 1, passStart := d.now, windowSince := false })
  let d := (d.setFlag (R.TBL_STAT n) R.TBL_STAT.READY false).setFlag (R.TBL_GLN_STAT n) R.TBL_GLN_STAT.IN_PASS true
  (d.setFlag (R.TBL_SPARE_STAT n) R.TBL_SPARE_STAT.COPYING (d.tbl n).copying.isSome).refreshLearn n

/-- The table block restarts (R265, R269, R271): the learn filter is empty, channel 3 counts as served last, and the victim pointer
is 0. -/
def Dev.tblContained (d : Dev) (n : Nat) : Dev := d.modTbl n (fun t => { t with filter := [], victim := 0, served := 3 })

/-- TABLE_VERIFY_PASS_DONE: the verification pass walks every burst without aging, compares, and READY sets (R287); the rebuild of
the pattern map follows (R249). -/
def Dev.verifyDone (d : Dev) (n : Nat) : Dev :=
  if !(d.tbl n).verifying || d.blockInRestart n 6 then d
  else
    let d := d.modTbl n (fun t => { t with acc := [], unsettled := [], inPass := true, burst := 0 })
    let d := d.each (d.bursts n) (fun b d => (d.walkBurst n b false).modTbl n (fun t => { t with burst := t.burst + 1 }))
    let d := (d.gleanerCompare n).bump (R.TBL_GLN_PASSES n)
    let d := d.fset (R.TBL_FDB_COUNT n) R.TBL_FDB_COUNT.VALID (d.countKeys n)
    let d := d.modTbl n (fun t => { t with verifying := false, inPass := false, burst := 0 })
    let d := (d.setFlag (R.TBL_GLN_STAT n) R.TBL_GLN_STAT.IN_PASS false).setFlag (R.TBL_STAT n) R.TBL_STAT.READY true
    if d.flag (R.WNW_STAT n) R.WNW_STAT.READY then d else d.setFlag (R.WNW_STAT n) R.WNW_STAT.REBUILD true

/-! ## The restart of the table block (Table 6-7) -/

/-- A slot whose word is lost: VALID 0, with a LOST notification; the occupancy follows. -/
def Dev.lostSlot (d : Dev) (n : Nat) (s : Slot) : Dev :=
  let e := d.readSlot n s
  let d := d.clearSlot n s
  let d := d.each (d.slotKeys n s) (fun k d => d.setFault k 0)
  let gone := e.valid && (d.copiesOf n e.key).isEmpty
  let d := d.when gone (·.fset (R.TBL_FDB_COUNT n) R.TBL_FDB_COUNT.VALID (d.fget (R.TBL_FDB_COUNT n) R.TBL_FDB_COUNT.VALID - 1))
  (d.refreshStash n).postLearn n
    { kind := 4, mac := 0, fid := 0, port := 0, oldDest := 0, loc := s.loc, gen := d.regionGen n }

/-- A failing word is rewritten during the contained restart of the table block (Table 6-7), its accumulator following (R281). An
automaton word takes its record's value again, which is the value it holds, since nothing else writes it (R243). -/
def Dev.rewriteFailing (d : Dev) (n key : Nat) : Dev :=
  let x := key - 0x200000000
  let off := x % 0x01000000
  let d := d.modTbl n (fun t => { t with counted := t.counted.filter (· != eccKey key) })
  match x / 0x04000000 with
  | 0x30 =>
    let idx := off / 0x20000
    let pos := off % 0x20000 / 8
    d.lostSlot n (.bucket (idx % 2) (pos / 4 * (d.fdbBanks n / 2) + idx / 2) (pos % 4))
  | 0x31 => d.lostSlot n (.stash (off / 16))
  | 0x32 =>
    let v := off / 8
    d.accounted n 3 (v / 4) (4096 + v / 64) (fun d => d.vlanContribution n v) (fun d =>
      (d.wrMem (vlanKey n v 0) 0).wrMem (vlanKey n v 1) 0)
  | 0x33 =>
    let g := off / 32
    d.accounted n 4 g (4160 + g / 256) (fun d => d.groupContribution n g) (fun d =>
      d.each (List.range 8) (fun w d => d.wrMem (groupKey n g w) 0))
  | 0x35 =>
    let i := off / 16
    d.accounted n 5 (i / 2) (4224 + i / 1024) (fun d => d.polContribution n i) (fun d =>
      d.each (List.range 4) (fun w d => d.wrMem (polKey n i w) 0))
  | 0x20 =>
    let a := off / 32
    d.accounted n 6 a (d.ruleSegment n a) (fun d => d.ruleContribution n a) (fun d =>
      ((d.wrMem (eccKey key) 0).wrMem (eccKey key + 4) 0).wrMem (ruleKey n a 0) 0)
  | 0x34 => (d.wrMem key 0).reportMismatch n (off / 4) 1
  | _ => d.setFault key 0

/-- The failing words of a region's table memories. -/
def Dev.failingWords (d : Dev) (n : Nat) : List Nat :=
  (d.faults.filter (fun x => x.2 == 2 && (d.keyRow n x.1).any (fun r => decide (r.1 < 8)))).map (·.1)

end Sys2Proof.Machine
end

