-- ==== Sys2Proof/Machine/Loft.lean ====
section
/-! DEFINITION. The Loft (chapter 11, R464 to R474): slots, updates and reads, the mirror queue towards the twin. -/

namespace Sys2Proof.Machine

/-- Word w of the index entry of slot s (Table 11-7). -/
def loftKey (n s w : Nat) : Nat := spWord 0x70 n + 32 * s + 4 * w
/-- Word w of the data of slot s. -/
def loftDataKey (n s w : Nat) : Nat := spWord 0x71 n + 256 * s + 4 * w

/-- The slot count (CARVE owner 0x4). -/
def Dev.loftSlots (d : Dev) (n : Nat) : Nat := 512 * d.bankCount n 4

/-- LOFT_US: microseconds of the core clock. -/
def Dev.loftUs (d : Dev) : Nat := (d.now - d.engine.loftZero) / us % 2 ^ 64

def Dev.loftWord (d : Dev) (n s w : Nat) : Nat := (d.rd (loftKey n s w)).toNat
def Dev.loftLength (d : Dev) (n s : Nat) : Nat := bits (d.loftWord n s 2) 0 9
/-- Bits of word 2 of an index entry. -/
def Dev.loftValid (d : Dev) (n s : Nat) : Bool := (d.loftWord n s 2).testBit 16
def Dev.loftFilled (d : Dev) (n s : Nat) : Bool := (d.loftWord n s 2).testBit 17
def Dev.loftResync (d : Dev) (n s : Nat) : Bool := (d.loftWord n s 2).testBit 18
def Dev.loftMirrored (d : Dev) (n s : Nat) : Bool := (d.loftWord n s 2).testBit 20
def Dev.loftTwinOnly (d : Dev) (n s : Nat) : Bool := (d.loftWord n s 2).testBit 21

/-- Set bit b of word 2 of an index entry. -/
def Dev.setLoftBit (d : Dev) (n s b : Nat) (v : Bool) : Dev :=
  d.wr (loftKey n s 2) (BitVec.ofNat 32 (setBit (d.loftWord n s 2) b v))

/-- The slot is expired (R465): judged at each access, changing nothing. -/
def Dev.loftExpired (d : Dev) (n s : Nat) : Bool :=
  let rx := d.loftWord n s 4 + 2 ^ 32 * d.loftWord n s 5
  let limit := bits (d.loftWord n s 6) 0 16
  d.loftFilled n s && limit != 0 && decide (1000 * limit < d.loftUs - rx)

/-- The data of a slot, LENGTH bytes. -/
def Dev.loftData (d : Dev) (n s : Nat) : List Byte :=
  (d.wordBytes ((List.range 64).map (loftDataKey n s))).take (d.loftLength n s)

/-- Write bytes into the data of a slot from its first byte. -/
def Dev.writeLoftData (d : Dev) (n s : Nat) (b : List Byte) : Dev :=
  d.each (List.range ((b.length + 3) / 4)) (fun w d =>
    let old := leBytes 4 (d.rd (loftDataKey n s w)).toNat
    let part := (b.drop (4 * w)).take 4
    d.wrMem (loftDataKey n s w) (BitVec.ofNat 32 (leAt (part ++ old.drop part.length) 0 4)))

/-- The mirror queue of a region. -/
def Dev.mirrorQ (d : Dev) (n : Nat) : List LoftRec := Map.get (fun _ => []) d.engine.mirrorQ n

def Dev.setMirrorQ (d : Dev) (n : Nat) (l : List LoftRec) : Dev :=
  { d with engine := { d.engine with mirrorQ := Map.put (fun _ => []) d.engine.mirrorQ n l } }

/-- The Abaide link carries Loft records: it is in service in native mode (R472). -/
def Dev.loftLink (d : Dev) : Bool :=
  d.flag R.ABD_STAT R.ABD_STAT.IN_SERVICE && d.fget R.TWN_CFG R.TWN_CFG.MODE == 1

/-- The update record of the current contents of a slot (R471). -/
def Dev.loftRecord (d : Dev) (n s : Nat) : LoftRec :=
  { slot := s, seq := d.loftWord n s 3, length := d.loftLength n s, data := d.loftData n s }

/-- Append an update record to the mirror queue, or discard it and mark the slot (R472). -/
def Dev.mirrorAppend (d : Dev) (n s : Nat) : Dev :=
  if d.loftLink && decide ((d.mirrorQ n).length < 1024) then d.setMirrorQ n (d.mirrorQ n ++ [d.loftRecord n s])
  else (d.bump (R.LOFT_MIRROR_DROP n)).setLoftBit n s 18 true

/-- The slots with a bit of word 2 set, lowest first. -/
def Dev.loftSlotsWith (d : Dev) (n : Nat) (p : Nat → Bool) : List Nat :=
  (((d.spaceWords 0x70 n).filter (fun x => x.1 % 32 == 8)).map (fun x => x.1 / 32)).filter p

/-- RESYNC_ALL (R473): RESYNC sets on every slot with MIRROR and FILLED at 1. -/
def Dev.loftResyncAll (d : Dev) (n : Nat) : Dev :=
  d.each (d.loftSlotsWith n (fun s => d.loftMirrored n s && d.loftFilled n s)) (fun s d => d.setLoftBit n s 18 true)

/-- An operation comes to the Loft in this clock: it takes its turn at the clock's end (R466). -/
def Dev.askLoft (d : Dev) (o : LoftTurn) : Dev := { d with engine := { d.engine with loftTurns := d.engine.loftTurns ++ [o] } }

/-- Note that a slot is operated on in this clock (R466). -/
def Dev.loftUse (d : Dev) (n s : Nat) : Dev :=
  { d with engine := { d.engine with
      loftBusy := Map.put (fun _ => []) d.engine.loftBusy n (Map.get (fun _ => []) d.engine.loftBusy n ++ [s]) } }

/-- The words of a slot can be read: an uncorrectable one is contained (Table 6-7). -/
def Dev.loftTouch (d : Dev) (n s : Nat) (data : Bool) : Bool × Dev :=
  d.touchAll n ((List.range 8).map (loftKey n s) ++ (if data then (List.range 64).map (loftDataKey n s) else []))

/-- An update of a slot, by LFPUT (R468) or from the twin (R474): the first row of Table 11-8 that holds, and its effect
(R469). -/
def Dev.loftPut (d : Dev) (n s : Nat) (b : List Byte) (len seq src : Nat) (twin : Bool) : Nat × Dev :=
  if d.loftSlots n ≤ s || !d.loftValid n s || (d.loftTwinOnly n s && !twin) then (1, d.bump (R.LOFT_REFUSED n))
  else if 256 < len then (2, d.bump (R.LOFT_REFUSED n))
  else if !twin && d.loftWord n s 1 != 0 && d.loftWord n s 1 != src then (3, d.bump (R.LOFT_SOURCE n))
  else if d.loftFilled n s && !d.loftExpired n s && !seqAfter 32 seq (d.loftWord n s 3) then (4, d.bump (R.LOFT_STALE n))
  else
    let now := d.loftUs
    let d := (d.loftUse n s).writeLoftData n s (b.take len)
    let w2 := setBit (d.loftWord n s 2 / 512 * 512 + len) 17 true
    let d := d.wrMem (loftKey n s 2) (BitVec.ofNat 32 w2)
    let d := (d.wrMem (loftKey n s 3) (BitVec.ofNat 32 seq)).wrMem (loftKey n s 4) (BitVec.ofNat 32 now)
    let d := d.wrMem (loftKey n s 5) (BitVec.ofNat 32 (now / 2 ^ 32))
    let d := (d.wrMem (loftKey n s 7) (BitVec.ofNat 32 (d.loftWord n s 7 + 1))).bump (R.LOFT_PUT_OK n)
    (0, if twin then d.bump (R.LOFT_MIRROR_RX n)
      else d.when (d.loftMirrored n s && d.flag (R.LOFT_CFG n) R.LOFT_CFG.MIRROR_EN) (·.mirrorAppend n s))

/-- The 272 bytes an LFGET writes and the value it returns (R470); a slot at or above the slot count reads as all zero. -/
def Dev.loftGet (d : Dev) (n s : Nat) : List Byte × Nat :=
  if d.loftSlots n ≤ s then (List.replicate 272 0, 0)
  else
    let data := d.loftData n s
    let rx := d.loftWord n s 4 + 2 ^ 32 * d.loftWord n s 5
    let age := min 0xFFFFFFFF ((d.loftUs - rx) / 1000)
    (data ++ List.replicate (256 - data.length) 0 ++ leBytes 4 (d.loftWord n s 3) ++ leBytes 4 (d.loftWord n s 7)
        ++ leBytes 4 (d.loftWord n s 0) ++ leBytes 4 age,
      d.loftLength n s + 512 * b2n (d.loftFilled n s) + 1024 * b2n (d.loftExpired n s) + 2048 * b2n (d.loftValid n s))

/-- A write of a slot's configuration words clears FILLED, LENGTH and RESYNC (R467). -/
def Dev.loftConfigured (d : Dev) (n s : Nat) : Dev :=
  let w := d.loftWord n s 2 / 512 * 512
  (d.wr (loftKey n s 2) (BitVec.ofNat 32 (setBit (setBit w 17 false) 18 false))).loftUse n s

/-- A configuration write of the Loft index space: words 0, 1, 6 and word 2 bits [21:20] (Table 11-18). -/
def Dev.loftIndexWrite (d : Dev) (n s w : Nat) (v : Word) : Dev :=
  if w = 0 ∨ w = 1 then (d.wrMem (loftKey n s w) v).loftConfigured n s
  else if w = 6 then (d.wrMem (loftKey n s w) (v &&& 0xFFFF#32)).loftConfigured n s
  else if w = 2 then
    (d.wrMem (loftKey n s 2) ((d.rd (loftKey n s 2) &&& 0xFFCFFFFF#32) ||| (v &&& 0x00300000#32))).loftConfigured n s
  else d

/-- The contained restart of the table block repairs the Loft (Table 6-7): slots with an uncorrectable data word lose their
data; `rewrite` puts an index entry back from the image, with FILLED at 0. -/
def Dev.loftRepair (d : Dev) (n : Nat) (rewrite : Nat → Dev → Dev) : Dev :=
  let bad := fun (code : Nat) => (d.faults.filter (fun x => x.2 == 2 && decide (spWord code n ≤ x.1)
    && decide (x.1 < spWord code n + 0x01000000))).map (fun x => x.1 - spWord code n)
  let d := d.each ((bad 0x71).map (· / 256)).eraseDups (fun s d =>
    let d := d.each (List.range 64) (fun w d => d.wrMem (loftDataKey n s w) 0)
    let d := (d.loftConfigured n s).bump (R.LOFT_LOST n)
    d.when (d.loftMirrored n s) (·.setLoftBit n s 18 true))
  d.each ((bad 0x70).map (· / 32)).eraseDups (fun s d =>
    let d := rewrite s (d.each (List.range 8) (fun w d => d.wrMem (loftKey n s w) 0))
    d.setLoftBit n s 17 false)

/-- The Loft is cleared at a cold start (R479). -/
def Dev.loftClear (d : Dev) (n : Nat) : Dev :=
  let inLoft := fun (k : Nat) => decide (spWord 0x70 n ≤ k ∧ k < spWord 0x70 n + 0x01000000)
    || decide (spWord 0x71 n ≤ k ∧ k < spWord 0x71 n + 0x01000000)
  ({ d with regs := d.regs.filter (fun x => !inLoft x.1), faults := d.faults.filter (fun x => !inLoft x.1) } : Dev).setMirrorQ n []

/-- A region restart clears the region's mirror queue and sets RESYNC on its mirrored slots (Table 12-6). -/
def Dev.loftRestart (d : Dev) (n : Nat) : Dev := (d.setMirrorQ n []).loftResyncAll n

end Sys2Proof.Machine
end

