-- ==== Sys2Proof/Machine/Resolve.lean ====
section
/-! DEFINITION. What the pipeline works out for a frame: class (R339), colour (R345 to R351), forwarding outcome (R261), the
decision channels' record (R486, R691), streams (R371, R374), mirror sessions (R352), and what of the targets is left at
the decision (R354, R502). -/

namespace Sys2Proof.Machine

/-! ## Class and port defaults -/

/-- The defaults of an origin's port (Table 6-17), if it has one: an engine has none. -/
def Origin.tblPort (o : Origin) : Option Nat :=
  match o with
  | .port p => some (R.TBL_PORT o.region (if p < 128 then p % 32 else 33))
  | .host n _ => some (R.TBL_PORT n 32)
  | .engine _ => none

/-- PVID and DEF_PCP of an origin: an engine frame takes VID 0 and priority 0. -/
def Dev.pvid (d : Dev) (o : Origin) : Nat := match o.tblPort with | some a => d.fget a R.TBL_PORT.PVID | none => 0
def Dev.defPcp (d : Dev) (o : Origin) : Nat := match o.tblPort with | some a => d.fget a R.TBL_PORT.DEF_PCP | none => 0

/-- The priority-to-class map of an origin (R339). -/
def Dev.mapOf (d : Dev) (o : Origin) : Nat :=
  match o with
  | .port p =>
    if p < 128 then bits (d.rd (R.CLS_PSEL (p / 8))).toNat (4 * (p % 8)) 3 else d.fget R.CLS_HSEL (R.CLS_HSEL.MAP (p - 128))
  | .host n _ => d.fget R.CLS_HSEL (R.CLS_HSEL.MAP n)
  | .engine _ => 0

/-- VID, and PCP with DEI, of a frame under VID_SRC (R230, step 1 of R261). -/
def Dev.vidPrio (d : Dev) (o : Origin) (src : Nat) (win : List Nat) : Nat × Nat :=
  match selectTci src win with
  | some t => ((if t % 4096 = 0 then d.pvid o else t % 4096), t / 4096)
  | none => (d.pvid o, 2 * d.defPcp o)

/-- The class of a frame (R228, R339), by the maps as this clock began (R340). -/
def Dev.classOf (d : Dev) (o : Origin) (w1 : Word) (win : List Nat) : Nat :=
  if act1TcEn w1 then act1Tc w1
  else d.was.fget (R.CLS_PMAP (d.was.mapOf o)) (R.CLS_PMAP.TC ((d.vidPrio o (act1VidSrc w1) win).2 / 2))

/-! ## Policing (R345 to R351) -/

def Policer.init : Policer := { tc := 0, tx := 0, last := 0, full := true }

/-- The buckets of a policer. -/
def Dev.policer (d : Dev) (n i : Nat) : Policer := Map.get (fun _ => Policer.init) d.frame.policers (rkey n i)
def Dev.setPolicer (d : Dev) (n i : Nat) (p : Policer) : Dev :=
  { d with frame := { d.frame with policers := Map.put (fun _ => Policer.init) d.frame.policers (rkey n i) p } }

def Dev.polWord (d : Dev) (n i w : Nat) : Nat := (d.rd (polKey n i w)).toNat

/-- Full buckets for a configuration's sizes, in micro-bytes. -/
def bucketFull (size : Nat) : Nat := size * 64 * 1000000

/-- The pseudocode of R347: the colour, and the buckets after the frame. -/
def meter (mode cir pir cbs pbs : Nat) (s : Policer) (len pre now : Nat) : Nat × Policer :=
  let dt := now - s.last
  let tc := min (s.tc + dt * cir) (bucketFull cbs)
  let tx := min (s.tx + dt * pir) (bucketFull pbs)
  let s : Policer := { s with tc := tc, tx := tx, last := now }
  let b := len * 1000000
  if mode = 0 then
    if pre = 2 ∨ tx < b then (2, s)
    else if pre = 1 ∨ tc < b then (1, { s with tx := tx - b })
    else (0, { s with tx := tx - b, tc := tc - b })
  else if pre = 0 ∧ b ≤ tc then (0, { s with tc := tc - b })
  else if pre ≠ 2 ∧ b ≤ tx then (1, { s with tx := tx - b })
  else (2, s)

/-- The buckets of a policer with sizes `cbs` and `pbs`, full where they are to be. -/
def Policer.ready (s : Policer) (cbs pbs : Nat) : Policer :=
  if s.full then { s with tc := bucketFull cbs, tx := bucketFull pbs, full := false } else s

/-- A policer meters a frame of a rule (R345, R348, R351): its colour, whether it marks DEI, whether it discards. The configuration is
that of the clock's start, and so are the buckets of a policer written in this clock (R350). -/
def Dev.police (d : Dev) (n : Nat) (w1 w2 : Word) (len : Nat) : (Nat × Bool × Bool) × Dev :=
  let pre := act1Colour w1
  let i := bits w2.toNat 0 16
  if !w2.toNat.testBit 16 then ((pre, false, false), d)
  else
    let r := d.touchAll n ((List.range 4).map (polKey n i))
    if !r.1 then ((pre, false, false), r.2.bump (R.POL_UNCORR n))
    else
      let d := r.2
      let c := d.was.polWord n i 3
      if !c.testBit 0 then ((pre, false, false), d)
      else
        let cir := bits (d.was.polWord n i 0) 0 24
        let pir := bits (d.was.polWord n i 1) 0 24
        let cbs := bits (d.was.polWord n i 2) 0 16
        let pbs := bits (d.was.polWord n i 2) 16 16
        let new_ := d.clk.polWrites.contains (n, i)
        let m := meter (b2n (c.testBit 1)) cir pir cbs pbs (((if new_ then d.was else d).policer n i).ready cbs pbs) len pre d.now
        let d := (if new_ then d else d.setPolicer n i m.2).bump (polCntKey n i m.1)
        let red := m.1 == 2 && c.testBit 2
        ((m.1, c.testBit 3 && decide (1 ≤ m.1), red), d.when red (·.bump (R.POL_RED_DROP n)))

/-- A frame of this rule is metered once its length is known (R345). -/
def Dev.needsLength (d : Dev) (n : Nat) (w2 : Word) : Bool :=
  w2.toNat.testBit 16 && (d.polWord n (bits w2.toNat 0 16) 3).testBit 0

/-! ## Forwarding (R261) -/

/-- The outcome of steps 1 to 6 of R261, with what its counters and its target set need: `da` is 1 for a hit on the
destination, 2 and 3 for a miss on an individual and a group address; `learned` says that step 3 was reached; `reserved` that
the DEST code is reserved; `keys` are the memory words read. -/
structure Outcome where
  kind : Nat
  cause : Nat
  vid : Nat
  dests : List Nat
  engQ : Nat
  da : Nat
  learned : Bool
  reserved : Bool
  untag : Option Nat
  keys : List Nat
deriving DecidableEq, Repr

/-- The eight words of a group. -/
def groupKeys (n g : Nat) : List Nat := (List.range 8).map (groupKey n g)

/-- The destination codes of a group's members (R260). -/
def Dev.groupDests (d : Dev) (n g : Nat) : List Nat :=
  (List.range 134).filter (fun p => (d.rd (groupKey n g (p / 32))).getLsbD (p % 32))

/-- A VLAN entry as one number (Table 6-3). -/
def Dev.vlan (d : Dev) (n v : Nat) : Nat := (d.rd (vlanKey n v 0)).toNat + 2 ^ 32 * (d.rd (vlanKey n v 1)).toNat

/-- Some word of a list cannot be read. -/
def Dev.anyBad (d : Dev) (keys : List Nat) : Bool := keys.any (fun k => d.fault k == 2)

/-- The target set of a DEST code or group, pruned (steps 5 and 6 of R261, Table 6-2). -/
def Dev.destOutcome (d : Dev) (n : Nat) (ingress : Option Nat) (dest : Nat) (o : Outcome) : Outcome :=
  let group := fun (g : Nat) =>
    let keys := groupKeys n g
    let o := { o with keys := o.keys ++ keys }
    if d.anyBad keys then { o with kind := 1, cause := 7 }
    else
      let l := (d.groupDests n g).filter (fun p => some p != ingress)
      if l.isEmpty then { o with kind := 1, cause := 5 } else { o with kind := 0, dests := l }
  if dest < 0x086 then
    if some dest = ingress then { o with kind := 1, cause := 4 } else { o with kind := 0, dests := [dest] }
  else if dest = 0x0FF then { o with kind := 1, cause := 6 }
  else if 0x100 ≤ dest ∧ dest < 0x200 then { o with kind := 2, engQ := dest - 0x100 }
  else if 0x400 ≤ dest then group (dest - 0x400)
  else { o with kind := 1, cause := 6, reserved := true }

/-- A flood group of a VLAN entry as the target set. -/
def Dev.floodOutcome (d : Dev) (n : Nat) (ingress : Option Nat) (g : Nat) (o : Outcome) : Outcome :=
  let keys := groupKeys n g
  let o := { o with keys := o.keys ++ keys }
  if d.anyBad keys then { o with kind := 1, cause := 7 }
  else
    let l := (d.groupDests n g).filter (fun p => some p != ingress)
    if l.isEmpty then { o with kind := 1, cause := 5 } else { o with kind := 0, dests := l }

/-- The source and destination addresses of a window as numbers. -/
def addrOf (win : List Nat) (i : Nat) : Nat := (List.range 6).foldl (fun a k => a * 256 + (winByte win (i + k)).getD 0) 0
/-- An address is a group address: the first bit on the wire is set. -/
def isGroupAddr (a : Nat) : Bool := a.testBit 40
/-- The broadcast address. -/
def broadcast : Nat := 2 ^ 48 - 1

/-- Steps 1 to 6 of R261 for a frame of origin o, as a channel or the single path works them out. `redirect` is the task
queue of a Winnow redirect, `direct` the DEST of a SEND with DIRECT. -/
def Dev.resolve (d : Dev) (n : Nat) (o : Origin) (w1 : Word) (win : List Nat) (redirect direct : Option Nat) : Outcome :=
  let ingress := o.destCode
  let vid := (d.vidPrio o (act1VidSrc w1) win).1
  let out : Outcome :=
    { kind := 1, cause := 1, vid := vid, dests := [], engQ := 0, da := 0, learned := false, reserved := false, untag := none,
      keys := [] }
  match direct with
  | some dest => d.destOutcome n ingress dest out
  | none =>
    let vk := [vlanKey n vid 0, vlanKey n vid 1]
    let out := { out with keys := vk }
    let v := d.vlan n vid
    if d.anyBad vk then { out with cause := 7 }
    else if !v.testBit 0 || vid == 4095 then out
    else
      let flood := bits v 16 14
      let out := { out with untag := if v.testBit 3 then some (bits v 32 14) else none }
      let member := match ingress with
        | some p => (d.rd (groupKey n flood (p / 32))).getLsbD (p % 32)
        | none => true
      let out := if v.testBit 2 then { out with keys := out.keys ++ groupKeys n flood } else out
      if v.testBit 2 && d.anyBad (groupKeys n flood) then { out with cause := 7 }
      else if v.testBit 2 && !member then { out with cause := 2 }
      else
        let out := { out with learned := true }
        match redirect with
        | some q => { out with kind := 2, cause := 0, engQ := q }
        | none =>
          let blocked := match o.tblPort with | some a => !d.flag a R.TBL_PORT.FWD_EN | none => false
          let da := addrOf win 0
          if blocked then { out with cause := 3 }
          else
            let out := { out with cause := 0 }
            if da = broadcast then d.floodOutcome n ingress flood out
            else
              match (d.hits n (fdbKeyOf (bits v 4 12) da)).head? with
              | some s => d.destOutcome n ingress (d.readSlot n s).dest { out with da := 1 }
              | none =>
                if isGroupAddr da then d.floodOutcome n ingress (bits v 48 14) { out with da := 3 }
                else d.floodOutcome n ingress flood { out with da := 2 }

/-- Step 3 of R261 on the single path: HIT and learn notifications (R264). The lookup reads the tables as they stood when this clock
began; HIT is set in the entry as it stands now, where it still holds the key (R258). -/
def Dev.sourceLookup (d : Dev) (n : Nat) (o : Origin) (w1 : Word) (vid : Nat) (win : List Nat) : Dev :=
  let sa := addrOf win 6
  let v := d.was.vlan n vid
  let fid := bits v 4 12
  let key := fdbKeyOf fid sa
  let r := d.lookup n key
  let d := r.2
  let here := o.destCode
  let learns := v.testBit 1 && !act1NoLearn w1 && !isGroupAddr sa &&
    (match o.tblPort with | some a => d.flag a R.TBL_PORT.LEARN_EN | none => false)
  let note := fun (kind old : Nat) =>
    ({ kind := kind, mac := sa, fid := fid, port := here.getD 0, oldDest := old, loc := 0, gen := d.regionGen n } : Learn)
  match r.1 with
  | none => (d.bump (R.TBL_SA_MISS n)).when learns (·.postFiltered n key (note 1 0))
  | some s =>
    let e := d.was.readSlot n s
    let x := d.readSlot n s
    if some e.dest = here then d.when (!e.hit && x.valid && x.key == key) (·.writeSlot n s { x with hit := true })
    else if !learns then d
    else if e.isStatic then d.bump (R.TBL_STATIC_MOVE n)
    else d.postFiltered n key (note 2 e.dest)

/-- The counters of an outcome on the single path (R261), and the errors its table words showed (Table 6-7). -/
def Dev.countOutcome (d : Dev) (n : Nat) (o : Outcome) (win : List Nat) : Dev :=
  let d := if o.da = 1 then d.bump (R.TBL_DA_HIT n)
    else if o.da = 2 then d.bump (R.TBL_DA_MISS_UC n)
    else if o.da = 3 then d.bump (R.TBL_DA_MISS_MC n) else d
  let d := if o.da = 0 then d else d.touchLookup n (fdbKeyOf (bits (d.was.vlan n o.vid) 4 12) (addrOf win 0))
  let d := (d.touchAll n (o.keys.filter (fun k => d.fault k != 0))).2
  if o.kind ≠ 1 then d
  else if o.cause = 1 then d.bump (R.TBL_VLAN_UNKNOWN n)
  else if o.cause = 2 then d.bump (R.TBL_VLAN_FILTERED n)
  else if o.cause = 3 then d.bump (R.TBL_PORT_BLOCKED n)
  else if o.cause = 4 then d.bump (R.TBL_SAME_PORT n)
  else if o.reserved then d.bump (R.TBL_DEST_BAD n)
  else d

/-! ## The decision channels' record (R486, R691) -/

/-- One step of the CRC-16 of R691. -/
def crc16Bits : Nat → Nat → Nat
  | 0, c => c
  | k + 1, c => crc16Bits k (if c.testBit 15 then (c * 2) % 65536 ^^^ 0x1021 else c * 2 % 65536)

/-- ICHK over bytes (R691). -/
def ichk (l : List Nat) : Nat := l.foldl (fun c b => crc16Bits 8 (c ^^^ (b % 256 * 256))) 0xFFFF

/-- The 87 bytes ICHK runs over (R691). -/
def ichkInput (srcClass : Nat) (win : List Nat) (w1 w2 w3 : Word) (account colour : Nat) : List Nat :=
  let pos := (List.range 64).map (fun i => (winByte win i).getD 0)
  let ends := (List.range 8).map (fun k =>
    (List.range 8).foldl (fun m j => if (winByte win (8 * k + j)).isNone then setBit m j true else m) 0)
  let words := [w1, w2, w3].flatMap (fun w => (leBytes 4 w.toNat).map (·.toNat))
  [srcClass] ++ pos ++ ends ++ words ++ [account, colour]

/-- A mask of destination codes. -/
def destMask (l : List Nat) : Nat := l.foldl (fun m p => setBit m p true) 0

/-- The record of Table 12-1. -/
def Dev.voteRecord (d : Dev) (o : Origin) (out : Outcome) (win : List Nat) (w1 w2 w3 : Word) (colour : Nat) : VoteRecord :=
  { outcome := out.kind, cause := if out.kind = 1 then out.cause else 0, vid := out.vid, targets := destMask out.dests,
    engQ := if out.kind = 2 then out.engQ else 0,
    ichk := ichk (ichkInput (d.sourceClass o) win w1 w2 w3 o.account colour) }

/-! ## Streams and mirror sessions -/

/-- The stream entry a frame matches (R371): the lowest valid one with its address and VID. -/
def Dev.streamMatch (d : Dev) (n da vid : Nat) : Option Nat :=
  (List.range 256).find? (fun j =>
    let w1 := d.streamWord n j 1
    w1.testBit 28 && bits w1 16 12 == vid && d.streamWord n j 0 == da % 2 ^ 32 && bits w1 0 16 == da / 2 ^ 32)

/-- The sequence number of the R-TAG of a window (R374), at bytes 12 to 17 or after one tag. -/
def rtagOf (win : List Nat) : Option Nat :=
  let at16 := fun i => (winByte win i).getD 0 * 256 + (winByte win (i + 1)).getD 0
  if at16 12 = 0xF1C1 then some (at16 16)
  else if (at16 12 = 0x8100 ∨ at16 12 = 0x88A8) ∧ at16 16 = 0xF1C1 then some (at16 20)
  else none

/-- Generation and recovery of a frame (R371, R374). -/
def Dev.streams (d : Dev) (n da vid : Nat) (win : List Nat) : Option Nat × Option (Nat × Nat) × Dev :=
  match d.streamMatch n da vid with
  | none => (none, none, d)
  | some j =>
    let w1 := d.streamWord n j 1
    let gen := if w1.testBit 29 then some j else none
    if !w1.testBit 30 then (gen, none, d)
    else
      match rtagOf win with
      | some s => (gen, some (j, s), d)
      | none => (gen, none, d.bump (R.CB_NO_RTAG n))

/-- A frame selects mirror sessions (R352): the targets of the copies to be made, and the sessions' counts. -/
def Dev.mirrors (d : Dev) (n : Nat) (o : Origin) (w1 : Word) : List Target × Dev :=
  let byPort := match o with
    | .port p => if p < 128 then d.fget (R.MIR_PORTSEL n (p % 32 / 8)) (R.MIR_PORTSEL.SESSION (p % 8)) else 0
    | _ => 0
  let sessions := ([act1Mirror w1, byPort].filter (· != 0)).eraseDups
  sessions.foldl (fun (acc : List Target × Dev) s =>
    let d := acc.2
    let r := R.MIR_SESSION n (s - 1)
    let k := Map.get (fun _ => 0) d.frame.mirrorCount (rkey n s)
    let d : Dev := { d with frame := { d.frame with
      mirrorCount := Map.put (fun _ => 0) d.frame.mirrorCount (rkey n s) ((k + 1) % (d.fget r R.MIR_SESSION.SAMPLE + 1)) } }
    let dest := d.fget r R.MIR_SESSION.DEST
    if k ≠ 0 ∨ !d.flag r R.MIR_SESSION.EN ∨ 0x86 ≤ dest then (acc.1, d)
    else if !d.destReady dest then (acc.1, d.bump (R.MIR_OMIT n))
    else (acc.1 ++ [{ dest := dest, queue := some (d.fget r R.MIR_SESSION.QUEUE), mirror := true, entry := none, tagAct := 0 }],
      d)) ([], d)

/-! ## Targets left at the decision (R354, R502) -/

/-- A frame that arrives at a passive port is discarded at its decision (R502). -/
def Origin.passive (d : Dev) (o : Origin) : Bool := match o with | .port p => d.passive p | _ => false

/-- The targets that remain: those not ready are omitted and counted one by one, then the passive ports, counted once a
frame. -/
def Dev.remaining (d : Dev) (n : Nat) (dests : List Nat) : List Nat × Dev :=
  let ready := dests.filter (fun p => d.destReady p)
  let d := d.bump (R.PIPE_NOTREADY_OMIT n) (dests.length - ready.length)
  let left := ready.filter (fun p => !d.passive p)
  (left, d.when (left.length < ready.length) (·.bump R.TWN_PASSIVE_OMIT))

/-- What the egress side does with the tag of a copy (R262). -/
def Dev.tagAct (d : Dev) (n : Nat) (untag : Option Nat) (dest : Nat) : Nat :=
  match untag with
  | none => 0
  | some g => if (d.rd (groupKey n g (dest / 32))).getLsbD (dest % 32) then 1 else 2

/-- The targets of a forwarded frame. -/
def Dev.targetsOf (d : Dev) (n : Nat) (untag : Option Nat) (queue : Option Nat) (dests : List Nat) : List Target :=
  dests.map (fun p => { dest := p, queue := queue, mirror := false, entry := none, tagAct := d.tagAct n untag p })

end Sys2Proof.Machine
end

