-- ==== Sys2Proof/Machine/Cache.lean ====
section
/-! DEFINITION. The block data cache of an engine block, its directory and the engines' line buffers (R460 to R463). -/

namespace Sys2Proof.Machine

/-- The data word at byte address a of engine block k (128 KiB). -/
def dataKey (k a : Nat) : Nat := spWord (0x80 + k % 2) (k / 2) + a / 4 * 4

/-- The lines engine e holds, oldest first. -/
def Dev.buffer (d : Dev) (e : Nat) : List HeldLine := Map.get (fun _ => []) d.engine.buffers e

def Dev.setBuffer (d : Dev) (e : Nat) (l : List HeldLine) : Dev :=
  { d with engine := { d.engine with buffers := Map.put (fun _ => []) d.engine.buffers e l } }

def DirLine.home : DirLine := { owner := none, sharers := 0 }

/-- The directory entry of line l of block k; engines are numbered 0 to 7 within the block. -/
def Dev.dirLine (d : Dev) (k l : Nat) : DirLine := Map.get (fun _ => DirLine.home) d.engine.dir (2048 * k + l)

def Dev.setDirLine (d : Dev) (k l : Nat) (x : DirLine) : Dev :=
  { d with engine := { d.engine with dir := Map.put (fun _ => DirLine.home) d.engine.dir (2048 * k + l) x } }

def Dev.dirReqs (d : Dev) (k : Nat) : List DirReq := Map.get (fun _ => []) d.engine.requests k

def Dev.setDirReqs (d : Dev) (k : Nat) (l : List DirReq) : Dev :=
  { d with engine := { d.engine with requests := Map.put (fun _ => []) d.engine.requests k l } }

/-- The line engine e holds, if it does. -/
def Dev.heldLine (d : Dev) (e l : Nat) : Option HeldLine := (d.buffer e).find? (fun h => h.line == l)

/-- The words of a line in the block data cache. -/
def Dev.homeLine (d : Dev) (k l : Nat) : List Word := (List.range 16).map (fun w => d.rd (dataKey k (64 * l + 4 * w)))

/-- Write a line into the block data cache. -/
def Dev.putHome (d : Dev) (k l : Nat) (ws : List Word) : Dev :=
  d.each (List.range 16) (fun w d => d.wrMem (dataKey k (64 * l + 4 * w)) (ws.getD w 0))

/-- An owned line goes back to its home (PUTX or a recall). -/
def Dev.writeBackLine (d : Dev) (k e l : Nat) : Dev :=
  match d.heldLine (8 * k + e) l with
  | some h => if h.owned then d.putHome k l h.words else d
  | none => d

/-- Engine e (of the chip) drops a line. -/
def Dev.dropLine (d : Dev) (e l : Nat) : Dev := d.setBuffer e ((d.buffer e).filter (fun h => h.line != l))

/-- The word of the data space as every engine observes it: the owner's copy, else the home's. -/
def Dev.dataWord (d : Dev) (k a : Nat) : Word :=
  match (d.dirLine k (a / 64)).owner with
  | some e =>
    match d.heldLine (8 * k + e) (a / 64) with
    | some h => h.words.getD (a / 4 % 16) 0
    | none => d.rd (dataKey k a)
  | none => d.rd (dataKey k a)

/-- A byte of the data space. -/
def Dev.dataByte (d : Dev) (k a : Nat) : Byte := BitVec.ofNat 8 ((d.dataWord k a).toNat / 256 ^ (a % 4))

/-- Bytes of the data space, for the units that read blocks of it (SEND, CRC, LFPUT). -/
def Dev.dataBytes (d : Dev) (k a len : Nat) : List Byte := (List.range len).map (fun i => d.dataByte k (a + i))

/-- Replace byte i of a word. -/
def putByte (w : Word) (i : Nat) (b : Byte) : Word :=
  BitVec.ofNat 32 (leAt ((leBytes 4 w.toNat).set i b) 0 4)

/-- Write a byte of the data space in every copy of its line, for the unit that writes blocks of it (LFGET). -/
def Dev.putDataByte (d : Dev) (k a : Nat) (b : Byte) : Dev :=
  let old := d.dataWord k a
  let v := putByte old (a % 4) b
  let d := d.wr (dataKey k a) v
  d.each (List.range 8) (fun e d =>
    if (d.heldLine (8 * k + e) (a / 64)).isNone then d
    else d.setBuffer (8 * k + e) ((d.buffer (8 * k + e)).map (fun h =>
      if h.line = a / 64 then { h with words := h.words.set (a / 4 % 16) v } else h)))

/-- Engine e holds a line as a load (own false) or a store (own true) needs it (R460). -/
def Dev.holdsLine (d : Dev) (e l : Nat) (own : Bool) : Bool :=
  match d.heldLine e l with
  | some h => h.owned || !own
  | none => false

/-- Store a word into an owned line (R463). -/
def Dev.storeHeld (d : Dev) (e a : Nat) (v : Word) : Dev :=
  d.setBuffer e ((d.buffer e).map (fun h => if h.line = a / 64 then { h with words := h.words.set (a / 4 % 16) v } else h))

/-- The word of a line the engine holds. -/
def Dev.loadHeld (d : Dev) (e a : Nat) : Word :=
  match d.heldLine e (a / 64) with
  | some h => h.words.getD (a / 4 % 16) 0
  | none => 0

/-- An engine sends GETS or GETX for a line, unless the same request of it waits already (R460). -/
def Dev.requestLine (d : Dev) (e l : Nat) (own : Bool) : Dev :=
  let k := e / 8
  if (d.dirReqs k).any (fun r => r.eng == e % 8 && r.line == l && r.own == own) then d
  else d.setDirReqs k (d.dirReqs k ++ [{ eng := e % 8, line := l, own := own, since := d.now }])

/-- The request the directory serves next for a line (R461): the earliest clock, and among those of one clock the engine
first from the pointer; a request is served in a clock after its own, whose PUTXs come before it. -/
def Dev.nextReq (d : Dev) (k l : Nat) : Option DirReq :=
  let rs := (d.dirReqs k).filter (fun r => r.line == l && decide (r.since < d.now))
  let first := rs.foldl (fun m r => min m r.since) d.now
  let p := d.fget (R.ENG_DIR_PTR k) R.ENG_DIR_PTR.POINTER
  let rs := rs.filter (fun r => r.since == first)
  ((List.range 8).map (fun i => (p + i) % 8)).foldl (fun best e =>
    match best with
    | some r => some r
    | none => rs.find? (fun r => r.eng == e)) none

/-- The line buffer of engine e has room: a free place, a copy of the line itself, or a shared line to drop. -/
def Dev.lineRoom (d : Dev) (e l : Nat) : Bool :=
  decide ((d.buffer e).length < 16) || (d.heldLine e l).isSome || (d.buffer e).any (fun h => !h.owned)

/-- Put a line into the line buffer of engine e: a full buffer drops one of its shared lines silently (R460); which one the
spec does not say. -/
def Dev.takeLine (d : Dev) (e l : Nat) (own : Bool) (ws : List Word) : Dev :=
  let d := d.dropLine e l
  let b := d.buffer e
  if b.length < 16 then d.setBuffer e (b ++ [{ line := l, owned := own, words := ws }])
  else
    let r := d.fresh
    let d := r.2
    let shared := b.filter (fun h => !h.owned)
    let victim := (shared.getD (r.1.toNat % max 1 shared.length) { line := l, owned := false, words := [] }).line
    let d := d.dropLine e victim
    d.setBuffer e (d.buffer e ++ [{ line := l, owned := own, words := ws }])

/-- An owner is recalled: its line is written back, and it keeps a read copy or nothing (R462). -/
def Dev.recall (d : Dev) (k o l : Nat) (keep : Bool) : Dev :=
  let d := (d.writeBackLine k o l).bump (R.ENG_DIR_RECALL k)
  if keep then
    d.setBuffer (8 * k + o) ((d.buffer (8 * k + o)).map (fun h => if h.line = l then { h with owned := false } else h))
  else d.dropLine (8 * k + o) l

/-- The directory grants a request (R461, R462). -/
def Dev.grantLine (d : Dev) (k : Nat) (r : DirReq) : Dev :=
  let l := r.line
  let e := r.eng
  let x := d.dirLine k l
  let contend := (d.dirReqs k).any (fun q => q.line == l && q.eng != e)
  let d := d.setDirReqs k ((d.dirReqs k).filter (fun q => q != r))
  let d := d.when contend (·.bump (R.ENG_DIR_CONTEND k))
  let d := (d.fset (R.ENG_DIR_PTR k) R.ENG_DIR_PTR.POINTER ((e + 1) % 8)).bump (if r.own then R.ENG_DIR_GETX k else R.ENG_DIR_GETS k)
  let d := match x.owner with
    | some o => if o = e then d.writeBackLine k o l else d.recall k o l (!r.own)
    | none => d
  let left := match x.owner with | some o => setBit x.sharers o true | none => x.sharers
  if r.own then
    let others := (List.range 8).filter (fun s => x.sharers.testBit s && s != e)
    let d := d.each others (fun s d => (d.dropLine (8 * k + s) l).bump (R.ENG_DIR_RECALL k))
    (d.setDirLine k l { owner := some e, sharers := 0 }).takeLine (8 * k + e) l true (d.homeLine k l)
  else (d.setDirLine k l { owner := none, sharers := setBit left e true }).takeLine (8 * k + e) l false (d.homeLine k l)

/-- DIR_PUTX: an owned line is written back and is HOME (R461). -/
def Dev.dirPutx (d : Dev) (e l : Nat) : Dev :=
  let k := e / 8
  if (d.dirLine k l).owner = some (e % 8) then
    ((d.writeBackLine k (e % 8) l).dropLine e l).setDirLine k l DirLine.home
  else d

/-- Line buffers, directory and requests of block k are discarded (R478). -/
def Dev.dropBuffers (d : Dev) (k : Nat) : Dev :=
  let d := d.each (List.range 8) (fun e d => d.setBuffer (8 * k + e) [])
  let d := d.setDirReqs k []
  { d with engine := { d.engine with dir := d.engine.dir.filter (fun x => x.1 / 2048 != k) } }

/-- Lines with an uncorrectable word are written as zero (R478): the first of them and their count are recorded. -/
def Dev.poisonLines (d : Dev) (k : Nat) : Dev :=
  let base := spWord (0x80 + k % 2) (k / 2)
  let bad := ((d.faults.filter (fun x => x.2 == 2 && decide (base ≤ x.1 ∧ x.1 < base + 0x20000))).map
    (fun x => (x.1 - base) / 64)).eraseDups
  match bad with
  | [] => d.fset (R.ENG_RESTART_INFO k) R.ENG_RESTART_INFO.POISON_COUNT 0
  | l :: _ =>
    let d := d.each bad (fun l d => d.putHome k l [])
    let d := d.fset (R.ENG_RESTART_INFO k) R.ENG_RESTART_INFO.FIRST_POISON l
    let d := d.fset (R.ENG_RESTART_INFO k) R.ENG_RESTART_INFO.POISON_COUNT (min 255 bad.length)
    d.setFlag (R.ENG_BLK_EVT k) R.ENG_BLK_EVT.POISONED true

end Sys2Proof.Machine
end

