-- ==== Sys2Proof/Machine/Tasks.lean ====
section
/-! DEFINITION. The task unit of a region (R446 to R453): queues, tickets, dispatch, release of outputs, cancellation, and
threads as the task unit sees them. -/

namespace Sys2Proof.Machine

/-! ## Parts -/

def TaskPart.init : TaskPart := { tasks := [], tickets := [], served := [] }

def Dev.taskPart (d : Dev) (n : Nat) : TaskPart := Map.get (fun _ => TaskPart.init) d.engine.tasks n

def Dev.setTaskPart (d : Dev) (n : Nat) (t : TaskPart) : Dev :=
  { d with engine := { d.engine with tasks := Map.put (fun _ => TaskPart.init) d.engine.tasks n t } }

def Thread.init : Thread :=
  { state := .idle, task := none, pc := 0, base := 0, regs := [], scratch := [], stack := [], waits := none }

/-- Thread t of engine e. -/
def Dev.thread (d : Dev) (e t : Nat) : Thread := Map.get (fun _ => Thread.init) d.engine.threads (8 * e + t)

def Dev.setThread (d : Dev) (e t : Nat) (x : Thread) : Dev :=
  { d with engine := { d.engine with threads := Map.put (fun _ => Thread.init) d.engine.threads (8 * e + t) x } }

/-- Change a task of region n. -/
def Dev.setTask (d : Dev) (n : Nat) (t : Task) : Dev :=
  let p := d.taskPart n
  d.setTaskPart n { p with tasks := p.tasks.map (fun x => if x.id = t.id then t else x) }

/-- Remove a task of region n. -/
def Dev.dropTask (d : Dev) (n id : Nat) : Dev :=
  let p := d.taskPart n
  d.setTaskPart n { p with tasks := p.tasks.filter (fun x => x.id != id) }

def Dev.findTask (d : Dev) (n id : Nat) : Option Task := (d.taskPart n).tasks.find? (fun x => x.id == id)

/-! ## Queue configuration (Table 11-18): a write applies from the next clock -/

def Dev.taskCfg (d : Dev) (n q : Nat) : Nat := (d.was.rd (spWord 0x66 n + 4 * q)).toNat
def Dev.engMask (d : Dev) (n q : Nat) : Nat := bits (d.taskCfg n q) 0 16
def Dev.queueDepth (d : Dev) (n q : Nat) : Nat := bits (d.taskCfg n q) 16 12
def Dev.queueOrder (d : Dev) (n q : Nat) : Bool := (d.taskCfg n q).testBit 28
def Dev.queuePrio (d : Dev) (n q : Nat) : Nat := bits (d.taskCfg n q) 29 2

/-! ## Engines that run -/

/-- Engine e is halted by shedding (R480). -/
def Dev.shedHalted (d : Dev) (e : Nat) : Bool :=
  decide (2 ≤ d.stageActs) && !d.loader.layout.keepEng.contains e

/-- Engine e runs: its firmware is loaded, it is enabled, and neither shedding nor ENG_CTL.HALT stops it. -/
def Dev.engineRuns (d : Dev) (e : Nat) : Bool :=
  (d.rl (e / 16)).engFw && d.flag (R.ENG_BLK_STAT (e / 8)) R.ENG_BLK_STAT.READY && !d.blockInRestart (e / 16) (4 + e / 8 % 2)
    && (d.fget (R.ENG_BLK_CFG (e / 8)) R.ENG_BLK_CFG.EN).testBit (e % 8) && !d.shedHalted e
    && !d.flag (R.ENG_CTL e) R.ENG_CTL.HALT

/-- The running engines a queue's ENGMASK names. -/
def Dev.queueEngines (d : Dev) (n q : Nat) : List Nat :=
  ((List.range 16).filter (fun i => (d.engMask n q).testBit i)).map (fun i => 16 * n + i) |>.filter (fun e => d.engineRuns e)

/-- The idle threads of engine e. -/
def Dev.idleThreads (d : Dev) (e : Nat) : List Nat := (List.range 8).filter (fun t => (d.thread e t).state == .idle)

/-- A task holds a record of the pool: every task but BOOT (Table 11-2). -/
def Task.pooled (t : Task) : Bool := t.queue.isSome

/-- A task of queue q that counts towards its DEPTH (R447, R453). -/
def Task.counts (t : Task) (q : Nat) : Bool := t.queue == some q && !t.cancelled

/-! ## Entering a queue (R447) -/

/-- The frame owner a task carries is released. -/
def Dev.releaseTaskFrame (d : Dev) (n : Nat) (t : Task) : Dev :=
  match t.frame with
  | some x => d.queueRelease n x.head
  | none => d

/-- A queue has room for a task. -/
def Dev.queueRoom (d : Dev) (n q : Nat) : Bool :=
  let ts := (d.taskPart n).tasks
  decide ((ts.filter (·.counts q)).length < d.queueDepth n q) && decide ((ts.filter (·.pooled)).length < 16384)

/-- Something comes to a task unit in this clock: it takes its turn at the clock's end. -/
def Dev.askTasks (d : Dev) (t : TaskTurn) : Dev := { d with engine := { d.engine with turns := d.engine.turns ++ [t] } }

/-- A task is made ready for queue q of region n (R447). -/
def Dev.enterTask (d : Dev) (n q : Nat) (t : Task) : Dev := d.askTasks (.enter n q t)

/-- A task made ready enters its queue, or is discarded (R447, R480). -/
def Dev.enterNow (d : Dev) (n q : Nat) (t : Task) : Dev :=
  if 2 ≤ d.stageActs && (d.queueEngines n q).isEmpty then (d.bump (R.TSK_SHED_DROP n)).releaseTaskFrame n t
  else if !d.queueRoom n q then (d.bump (R.TSK_DROP_FULL n)).releaseTaskFrame n t
  else
    let p := d.taskPart n
    let k := Map.get (fun _ => 0) p.tickets q
    let i := d.newId
    let t := { t with id := i.1, queue := some q, ticket := k }
    let d := i.2.setTaskPart n { p with
      tasks := p.tasks ++ [t], tickets := Map.put (fun _ => 0) p.tickets q ((k + 1) % 65536) }
    d.bump (R.TSK_ENQUEUED n)

/-- A task of a kind with body words and nothing else. -/
def Task.make (kind : Nat) (words : List Nat) (frame : Option Descr) (poster : Option Nat) : Task :=
  { id := 0, kind := kind, queue := none, ticket := 0, cause := 0, words := words, frame := frame, poster := poster,
    phase := .queued, outputs := [], cancelled := false }

/-- Words 1 to 15 of a task record with a body in words 12 to 15 (Table 11-3). -/
def bodyWords (tag : Nat) (gen : Nat) (body : List Nat) : List Nat :=
  [0, tag * 65536, 0, 0, 0, 0, 0, 0, 0, 0, gen] ++ (List.range 4).map (fun i => body.getD i 0)

/-- Words 1 to 15 of the record of a frame's task (Table 11-3): COLOUR and the rest come with the frame's decision. -/
def frameWords (x : Descr) : List Nat :=
  let dec := x.dec
  let key := fun (w : Nat) => (List.range 4).foldl (fun a i => a + dec.key.getD (4 * w + i) 0 * 256 ^ i) 0
  let ts := fun (i : Nat) => (x.stamps.getD i (0, 0)).2
  let tb := fun (i : Nat) => (x.stamps.getD i (0, 0)).1
  [x.head % 65536 + x.length * 65536,
   x.src + x.cls * 64 + dec.colour * 512 + b2n dec.xtrunc * 2048 + dec.tag * 65536,
   dec.pattern % 16384 + b2n (decide (16384 ≤ dec.pattern)) * 16384 + dec.vid * 65536,
   key 0, key 1, key 2, key 3, ts 0, ts 1,
   tb 0 + tb 1 * 4 + min 2 x.stamps.length * 16, x.gen, 0, 0, 0, 0]

/-- Word w of a task record (R446). -/
def Task.word (t : Task) (w : Nat) : Nat :=
  if w = 0 then t.kind + t.queue.getD 0 * 16 + t.ticket * 4096 + t.cause * 2 ^ 28 else t.words.getD (w - 1) 0

/-! ## Threads -/

/-- A thread takes a task: its registers, scratch and PC are undefined, its return stack is empty (R444). -/
def Dev.startThread (d : Dev) (e t id : Nat) : Dev :=
  let base := d.free
  let d := { d with free := d.free + 289 }
  d.setThread e t { Thread.init with
    state := .ready, task := some id, pc := (Config.freeValue (base + 288)).toNat % 65536, base := base }

/-- A thread gives up its task: it is idle. -/
def Dev.idleThread (d : Dev) (e t : Nat) : Dev := d.setThread e t Thread.init

/-- BOOT to thread 0 of engine e (Table 11-2). -/
def Dev.bootEngine (d : Dev) (e cause : Nat) : Dev :=
  if !d.engineRuns e then d
  else
    let i := d.newId
    let n := e / 16
    let p := i.2.taskPart n
    let t : Task := { Task.make 0 (bodyWords 0 (d.regionGen n) []) none none with
      id := i.1, cause := cause, phase := .running e 0 }
    (i.2.setTaskPart n { p with tasks := p.tasks ++ [t] }).startThread e 0 i.1

/-- An instruction that a thread issued and that waited is discarded (R477). -/
def Dev.wasteWaiting (d : Dev) (e t : Nat) : Dev :=
  d.when (d.thread e t).waits.isSome (·.bumpPerf (R.ENG_SLOT_WASTED e))

/-! ## Dispatch (R448) -/

/-- The queued task of queue q with the earliest ticket. -/
def Dev.nextTask (d : Dev) (n q : Nat) : Option Task :=
  (d.taskPart n).tasks.find? (fun t => t.queue == some q && t.phase == .queued && !t.cancelled)

/-- The engine a queue's task goes to: the running engine of its ENGMASK with the most idle threads, of the engine blocks that have had
no dispatch in this clock. -/
def Dev.bestEngine (d : Dev) (used : List Nat) (n q : Nat) : Option Nat :=
  ((d.queueEngines n q).filter (fun e => !used.contains (e / 8) && !(d.idleThreads e).isEmpty)).foldl (fun best e =>
    match best with
    | none => some e
    | some b => if (d.idleThreads b).length < (d.idleThreads e).length then some e else some b) none

/-- The queue the task unit takes: the highest PRIO, in round-robin order among equals. -/
def Dev.dispatchQueue (d : Dev) (used : List Nat) (n : Nat) : Option Nat :=
  let can := fun (q : Nat) => (d.nextTask n q).isSome && (d.bestEngine used n q).isSome
  [3, 2, 1, 0].foldl (fun best p =>
    match best with
    | some q => some q
    | none =>
      let last := Map.get (fun _ => 255) (d.taskPart n).served p
      ((List.range 256).map (fun i => (last + 1 + i) % 256)).find? (fun q => d.queuePrio n q == p && can q)) none

/-- A dispatch of region n, where a queue and an idle thread allow one; answers the engine blocks that have had one in this clock. -/
def Dev.taskDispatch (d : Dev) (used : List Nat) (n : Nat) : List Nat × Dev :=
  match d.dispatchQueue used n with
  | none => (used, d)
  | some q =>
    match d.nextTask n q, d.bestEngine used n q with
    | some t, some e =>
      match (d.idleThreads e).head? with
      | some th =>
        let p := d.taskPart n
        let d := d.setTaskPart n { p with served := Map.put (fun _ => 255) p.served (d.queuePrio n q) q }
        let d := (d.setTask n { t with phase := .running e th }).startThread e th t.id
        (e / 8 :: used, d.bump (R.TSK_DISPATCHED n))
      | none => (used, d)
    | _, _ => (used, d)

/-! ## Release of outputs (R450, R451) -/

/-- Additional copies of a frame wait for a slot each (R59). -/
def Dev.addCopies (d : Dev) (n : Nat) (l : List Copy) : Dev :=
  { d with frame := { d.frame with
      copies := Map.put (fun _ => []) d.frame.copies n (Map.get (fun _ => []) d.frame.copies n ++ l) } }

/-- The length a port's maximum is held against (R147): tags included as the egress side changes them. -/
def tagLength (tagAct : Nat) (tagged : Bool) (len : Nat) : Nat :=
  if tagAct = 1 && tagged then len - 4 else if tagAct = 2 && !tagged then len + 4 else len

/-- A target's port takes the frame's length (R147); PCIe host ports have no such maximum. -/
def Dev.mtuOk (d : Dev) (t : Target) (tagged : Bool) (len : Nat) : Bool :=
  (decide (128 ≤ t.dest ∧ t.dest < 132)) || decide (tagLength t.tagAct tagged len ≤ d.macMax t.dest)

/-- Count copies omitted for their length (R147). -/
def Dev.countMtu (d : Dev) (o : Origin) (k : Nat) : Dev :=
  match o with
  | .port p => d.bump (R.MAC_RX_EGRESS_MTU p) k
  | _ => d

/-- FWD at release: the task's frame goes to DEST and queue, pruned only, where the port takes its length (R147); the engine's owner
ends when the last of its copies ends, and no owner is added (R309). -/
def Dev.forwardTask (d : Dev) (n : Nat) (t : Task) (dest queue : Nat) : Dev :=
  match t.frame with
  | none => d
  | some x =>
    let o := d.destOutcome n x.origin.destCode dest
      { kind := 1, cause := 0, vid := x.dec.vid, dests := [], engQ := 0, da := 0, learned := false, reserved := false,
        untag := none, keys := [] }
    if o.kind = 2 then d.enterTask n o.engQ (Task.make 1 (frameWords x) (some x) t.poster)
    else if o.kind = 1 then d.queueRelease n x.head
    else
      let r := d.remaining n o.dests
      let len := x.length + if x.computeFcs then 4 else 0
      let all := r.2.targetsOf n none (some queue) r.1
      let targets := all.filter (fun t => r.2.mtuOk t x.dec.outerTag len)
      let d := r.2.countMtu x.origin (all.length - targets.length)
      let copies := targets.map (fun tg => ({ x with target := tg, guarded := false } : Descr))
      match copies with
      | [] => d.queueRelease n x.head
      | c :: rest =>
        let f := d.frec n x.head
        ((d.setFrec n x.head { f with forwarded := f.forwarded + rest.length }).sendEnq c).addCopies n (rest.map .port)

/-- SEND at release (R456): the bytes are read, charged on landing as a frame of the engine block, and the frame enters the
pipeline. -/
def Dev.sendTask (d : Dev) (n e : Nat) (t : Task) (addr ctl fn : Nat) : Dev :=
  let len := bits ctl 0 14
  if len = 0 ∨ 9216 < len then d
  else
    let b := d.dataBytes (e / 8) addr len
    let i := d.newId
    let src := 34 + e / 8 % 2
    let l : Landing :=
      { id := i.1, origin := .engine e, region := n, src := src, readyAtBegin := true, maxLen := 9216, cutAt := none,
        begunAt := d.now, looped := none, hash := none,
        fifoFull := false, stamps := [], need := grainsFor len, waiting := true, waitCounted := false, chargeCls := 0, pool := 0,
        minGr := 0, grains := [], head := b.take 64, ended := true, bytes := b, phase := .landing, pre := none, vote := none,
        computeFcs := true,
        tsReq := if ctl.testBit 30 then
            some { base := bits fn 8 2, owner := .task n (bits fn 0 8) (t.word 2 / 65536) t.poster } else none,
        direct := if ctl.testBit 29 then some (bits ctl 14 12, some (bits ctl 26 3)) else none, notice := none }
    let d := i.2
    ({ d with frame := { d.frame with landing := d.frame.landing ++ [l] } } : Dev).askGranary (.landing i.1)

/-- A task's outputs take effect in the order of staging (R451), and its record is free. -/
def Dev.releaseTask (d : Dev) (n e : Nat) (t : Task) : Dev :=
  let d := d.dropTask n t.id
  if t.cancelled then d.releaseTaskFrame n t
  else
    let d := d.each t.outputs (fun o d =>
      match o with
      | .send a c f => d.sendTask n e t a c f
      | .fwd dest q => d.forwardTask n t dest q
      | .drop => d.releaseTaskFrame n t)
    d.when (t.outputs.all (fun o => match o with | .send .. => true | _ => false)) (·.releaseTaskFrame n t)

/-- A task of its queue with an earlier ticket has not released its outputs. -/
def Dev.earlierTask (d : Dev) (n : Nat) (t : Task) : Bool :=
  (((d.taskPart n).tasks.takeWhile (fun x => x.id != t.id)).any (fun x => x.queue == t.queue && !x.cancelled))

/-- The engine that completed a task which waits for an earlier ticket. -/
def Task.finishedBy (t : Task) : Option Nat := match t.phase with | .finished e => some e | _ => none

/-- Completed tasks of queue q that no longer wait for an earlier ticket release their outputs (R450). -/
def Dev.releaseWaiting (d : Dev) (n q : Nat) : Nat → Dev
  | 0 => d
  | k + 1 =>
    match (d.taskPart n).tasks.find? (fun x => x.queue == some q && x.finishedBy.isSome
        && (!d.queueOrder n q || !d.earlierTask n x)) with
    | none => d
    | some x => (d.releaseTask n (x.finishedBy.getD 0) x).releaseWaiting n q k

/-- A completed task waits for an earlier ticket. -/
def Dev.finishTask (d : Dev) (n e : Nat) (t : Task) : Dev :=
  (d.setTask n { t with phase := .finished e }).bump (R.TSK_REORDER_WAIT n)

/-- After a task of queue q has gone, the tasks behind it may release. -/
def Dev.afterTask (d : Dev) (n : Nat) (q : Option Nat) : Dev :=
  match q with
  | some q => d.releaseWaiting n q ((d.taskPart n).tasks.length)
  | none => d

/-- The task of thread t of engine e completes (R450). -/
def Dev.taskDone (d : Dev) (e t : Nat) : Dev :=
  let n := e / 16
  match (d.thread e t).task with
  | none => d.idleThread e t
  | some id =>
    let d := (d.idleThread e t).bump (R.TSK_COMPLETED n)
    match d.findTask n id with
    | none => d
    | some x =>
      match x.queue with
      | none => d.releaseTask n e x
      | some q =>
        if d.queueOrder n q && d.earlierTask n x && !x.cancelled then d.finishTask n e x
        else (d.releaseTask n e x).afterTask n x.queue

/-- A task is aborted: outputs discarded, frame owner released, tasks behind it released (R452, R457). -/
def Dev.abortTask (d : Dev) (e t : Nat) : Dev :=
  let n := e / 16
  match (d.thread e t).task with
  | none => d
  | some id =>
    match d.findTask n id with
    | none => d
    | some x => ((d.dropTask n id).releaseTaskFrame n x).afterTask n x.queue

/-- The task of a thread is one that the watchdog limits (R452): WDOG_US is not 0, and the task unit has dispatched it. -/
def Dev.taskWatched (d : Dev) (e t : Nat) : Bool :=
  let k := match (d.thread e t).task with
    | some id => d.findTask (e / 16) id
    | none => none
  d.fget (R.TSK_CFG (e / 16)) R.TSK_CFG.WDOG_US != 0 && (match k with | some k => k.pooled | none => false)

/-- The watchdog of a task expires (R452). -/
def Dev.taskWatchdog (d : Dev) (e t : Nat) : Dev :=
  if !d.taskWatched e t then d
  else
    let d := ((d.wasteWaiting e t).abortTask e t).bump (R.TSK_ABORTED (e / 16))
    (d.idleThread e t).setFlag (R.ENG_BLK_EVT (e / 8)) R.ENG_BLK_EVT.WDOG true

/-! ## Cancellation (R453) -/

/-- A task is cancelled: a queued or completed one goes at once, a dispatched one when it is done. -/
def Dev.cancelTask (d : Dev) (n : Nat) (x : Task) : Dev :=
  if x.cancelled then d
  else
    let d := d.bump (R.TSK_CANCELLED n)
    match x.phase with
    | .running _ _ => (d.setTask n { x with cancelled := true }).afterTask n x.queue
    | _ => ((d.dropTask n x.id).releaseTaskFrame n x).afterTask n x.queue

/-- TSK_CMD FLUSH: every task of the queue is cancelled. -/
def Dev.flushTasks (d : Dev) (n q : Nat) : Dev :=
  d.each ((d.taskPart n).tasks.filter (fun x => x.queue == some q)) (fun x d => d.cancelTask n x)

/-- The tasks an instance posted are cancelled at its reset. -/
def Dev.cancelPosted (d : Dev) (n inst : Nat) : Dev :=
  d.each ((d.taskPart n).tasks.filter (fun x => x.poster == some inst)) (fun x d => d.cancelTask n x)

/-! ## Restarts and shedding (R478 to R480) -/

/-- The tasks dispatched to an engine return to their queues, keeping their tickets (R478). -/
def Dev.returnTasks (d : Dev) (e : Nat) : Dev :=
  let n := e / 16
  d.each (List.range 8) (fun t d =>
    let d := d.wasteWaiting e t
    let d := match (d.thread e t).task with
      | none => d
      | some id =>
        match d.findTask n id with
        | none => d
        | some x =>
          if x.queue.isNone then d.dropTask n id
          else if x.cancelled then (d.dropTask n id).releaseTaskFrame n x
          else (d.setTask n { x with phase := .queued, outputs := [] }).bump (R.TSK_REDISPATCHED n)
    d.idleThread e t)

/-- Queues whose ENGMASK names no running engine lose their tasks at SHED-2 (R480). -/
def Dev.shedTasks (d : Dev) (n : Nat) : Dev :=
  d.each ((d.taskPart n).tasks.filter (fun x =>
    match x.queue with
    | some q => x.phase == .queued && (d.queueEngines n q).isEmpty
    | none => false)) (fun x d => ((d.dropTask n x.id).releaseTaskFrame n x).bump (R.TSK_SHED_DROP n))

/-- Every task of a region is discarded at a region restart or a warm start (R479); its frames are handled under R333. -/
def Dev.discardTasks (d : Dev) (n : Nat) : Dev :=
  let d := d.bump (R.TSK_RESTART_DROP n) ((d.taskPart n).tasks.filter (·.pooled)).length
  let d := d.each ((List.range 128).map (fun i => (16 * n + i / 8, i % 8))) (fun x d => d.idleThread x.1 x.2)
  d.setTaskPart n TaskPart.init

/-! ## Learn notifications and TXDONE -/

/-- A queue cannot run a task (R267). -/
def Dev.queueDead (d : Dev) (n q : Nat) : Bool :=
  d.queueDepth n q == 0 || !(d.rl n).engFw || (d.queueEngines n q).isEmpty

/-- Drop notifications whose queue can never take them (R267). -/
def Dev.dropLearn (d : Dev) (n : Nat) : Dev :=
  let k := (d.tbl n).learn.length
  ((d.modTbl n (fun t => { t with learn := [] })).bump (R.TBL_LRN_DROP n) k).refreshLearn n

/-- The learn queue's turn (R266, R267): the head notification becomes a LEARN task when its queue has room. -/
def Dev.learnDispatch (d : Dev) (n : Nat) : Dev :=
  if d.flag (R.TBL_LRN_CFG n) R.TBL_LRN_CFG.TARGET then d
  else
    match (d.tbl n).learn with
    | [] => d
    | l :: rest =>
      let q := d.fget (R.TBL_LRN_CFG n) R.TBL_LRN_CFG.ENG_Q
      if d.queueDead n q then d.dropLearn n
      else if !d.queueRoom n q then d
      else
        let d := (d.modTbl n (fun t => { t with learn := rest })).refreshLearn n
        d.enterNow n q (Task.make 3 (bodyWords 0 (d.regionGen n) (l.words.map (·.toNat))) none none)

/-- Transmit timestamps on their way back to engines become TXDONE tasks (R150, R456); the spec gives the status word no
values. -/
def Dev.txDoneTasks (d : Dev) : Dev :=
  let mine := d.frame.tsBack.filter (fun x => match x.owner with | .task .. => true | _ => false)
  let d : Dev := { d with frame := { d.frame with
    tsBack := d.frame.tsBack.filter (fun x => match x.owner with | .task .. => false | _ => true) } }
  d.each mine (fun x d =>
    match x.owner, x.stamp with
    | .task n q tag poster, some v =>
      d.enterTask n q (Task.make 6 (bodyWords 0 (d.regionGen n) [v, (Config.txStatus x.error).toNat, tag, 0]) none poster)
    | _, _ => d)

/-! ## The end of a clock -/

/-- KIND and SRC of a task made ready, by which those of one clock enter (R447): in the order of Table 11-2, then of Table 7-3. -/
def TaskTurn.source : TaskTurn → Option (Nat × Nat)
  | .enter _ _ t => some (t.kind, t.word 2 % 64)
  | .learn _ => some (3, 0)
  | _ => none

/-- Tasks made ready in one clock, in ascending source order. -/
def inSourceOrder (l : List TaskTurn) : List TaskTurn :=
  let mine := l.filter (fun x => x.source.isSome)
  ((mine.filterMap (·.source)).eraseDups.foldl insertKey []).flatMap (fun k => mine.filter (fun x => x.source == some k))
where
  insertKey (l : List (Nat × Nat)) (k : Nat × Nat) : List (Nat × Nat) :=
    let before := fun (x : Nat × Nat) => decide (x.1 < k.1) || (x.1 == k.1 && decide (x.2 < k.2))
    l.takeWhile before ++ k :: l.dropWhile before

/-- A task's turn among those that enter. -/
def TaskTurn.enters (x : TaskTurn) (d : Dev) : Dev :=
  match x with
  | .enter n q t => d.enterNow n q t
  | .learn n => d.learnDispatch n
  | _ => d

/-- DONE, which a restart of the block that begins in its clock undoes (R478), and then the watchdogs (R452). -/
def TaskTurn.ends (x : TaskTurn) (d : Dev) : Dev :=
  match x with
  | .done e t id => if (d.thread e t).task = id && (d.thread e t).state == .ready then d.taskDone e t else d
  | _ => d
def TaskTurn.expires (x : TaskTurn) (d : Dev) : Dev :=
  match x with
  | .expiry e t => d.taskWatchdog e t
  | _ => d

/-- Cancellations (R453). -/
def TaskTurn.cancels (x : TaskTurn) (d : Dev) : Dev :=
  match x with
  | .flush n q => d.flushTasks n q
  | .posted n i => d.cancelPosted n i
  | _ => d

/-- What the task units do at the end of a clock: tasks complete or expire, those made ready enter in source order, cancellations apply,
and the dispatches follow. -/
def Dev.tasksEnd (d : Dev) : Dev :=
  let take := fun (d : Dev) => ({ d with engine := { d.engine with turns := [] } } : Dev)
  let l := d.engine.turns
  let d := ((take d).each l TaskTurn.ends).each l TaskTurn.expires
  let made := l ++ d.engine.turns
  let d := ((take d).each (inSourceOrder made) TaskTurn.enters).each l TaskTurn.cancels
  (l.foldl (fun (a : List Nat × Dev) x => match x with
    | .dispatch n => a.2.taskDispatch a.1 n
    | _ => a) ([], d)).2

end Sys2Proof.Machine
end

