-- ==== Sys2Proof/Machine/Pipeline.lean ====
section
/-! DEFINITION. A frame on its way to acceptance: reception and landing (R135 to R140, R302, R303), the pipeline's slot
(R58 to R62), the decision (R228 to R232, R261), its charge (R304, R305, R313, R314) and the commit (R306, R411 to R414). -/

namespace Sys2Proof.Machine

/-! ## Reception -/

/-- The receive timestamps a port captures (R149): the bases RX_TB selects, lowest first, before any change of this clock (R152),
corrected by RX_ADJ. -/
def Dev.rxStamps (d : Dev) (p : Nat) : List (Nat × Nat) :=
  let sel := d.fget (R.MAC_CFG p) R.MAC_CFG.RX_TB
  ((List.range 4).filter (fun t => sel.testBit t)).map (fun t =>
    (t, wrapTo 32 ((d.was.tbase t).ns + signed 16 (d.fget (R.MAC_TS_ADJ p) R.MAC_TS_ADJ.RX_ADJ))))

/-- The frame port p is receiving. -/
def Dev.receiving (d : Dev) (p : Nat) : Option Landing :=
  d.frame.landing.find? (fun l => l.origin == .port p && !l.ended)

/-- An earlier frame of the port still stands before the pipeline: its FIFO may be full (R61). -/
def Dev.fifoWaits (d : Dev) (p : Nat) : Bool :=
  d.frame.landing.any (fun l => l.origin == .port p && l.ended && (l.phase == .landing || l.phase == .offered))

/-- Add a landing frame. -/
def Dev.addLanding (d : Dev) (l : Landing) : Dev := { d with frame := { d.frame with landing := d.frame.landing ++ [l] } }

/-- A landing frame of a network or Ethernet host port, as it begins. -/
def Landing.begun (id p max now : Nat) (looped : Option (List Byte)) (stamps : List (Nat × Nat)) (full : Bool) : Landing :=
  { id := id, origin := .port p, region := portRegion p, src := Origin.account (.port p), readyAtBegin := true, maxLen := max,
    cutAt := none, begunAt := now, looped := looped, hash := none, fifoFull := full, stamps := stamps, need := grainsFor max, waiting := true, waitCounted := false,
    chargeCls := 0, pool := 0, minGr := 0, grains := [], head := [], ended := false, bytes := [], phase := .landing,
    pre := none, vote := none, computeFcs := false, tsReq := none, direct := none, notice := none }

/-- FRAME_BEGIN (R135, R139, R149, R302): a frame begins at port p; in near-end loopback it is the next that the port has sent,
and without one none begins. Whether the port's FIFO is full while an earlier frame waits is not the model's to say: it is
free. -/
def Dev.frameBegin (d : Dev) (p : Nat) : Dev :=
  if !d.macSees p || (d.receiving p).isSome then d
  else
  let x := if d.looped p 1 then d.takeLooped p else (some [], d)
  if x.1.isNone then d
  else if !d.portReady p then x.2.bump (R.MAC_RX_NOT_READY p)
  else
    let f := if d.fifoWaits p then x.2.freshBool else (false, x.2)
    let i := f.2.newId
    let l := Landing.begun i.1 p (d.macMax p) d.now (if d.looped p 1 then x.1 else none) (d.rxStamps p) f.1
    let d := i.2.addLanding l
    if f.1 then d else d.askGranary (.landing l.id)

/-- A source's landing frame in a phase that meets a condition: the first in order of arrival. -/
def Dev.landingOf (d : Dev) (o : Origin) (p : Landing → Bool) : Option Landing :=
  d.frame.landing.find? (fun l => l.origin == o && p l)

/-- LANDING_CHARGE_RETRY (R303): the source's first frame whose charge waits is tried again, in its turn (R307). -/
def Dev.landingRetry (d : Dev) (o : Origin) : Dev :=
  match d.landingOf o (fun l => l.waiting && !l.fifoFull && l.phase != .gone) with
  | some l => d.askGranary (.landing l.id)
  | none => d

/-- HEAD_WINDOW_OFFER (R216, R217): the head window of a source's frame stands at the pipeline input. A network frame needs
its first 64 bytes in grains; a frame of the host or engine block needs all of them. -/
def Dev.headWindowOffer (d : Dev) (o : Origin) (head : List Byte) : Dev :=
  match d.landingOf o (fun l => l.phase == .landing && !l.waiting && !l.fifoFull) with
  | none => d
  | some l =>
    let w := if l.ended then l.bytes.take 64 else (l.looped.getD head).take 64
    match o with
    | .port _ => if w.length < 64 then d else d.setLanding { l with head := w, phase := .offered }
    | _ => if l.ended then d.setLanding { l with head := w, phase := .offered } else d

/-- A frame in reception is over without acceptance: it is released, with its decision if it has one (R56). -/
def Dev.endReception (d : Dev) (l : Landing) : Dev :=
  let taken := l.phase != .landing && l.phase != .offered && l.phase != .gone
  let l := { l with ended := true }
  ((d.setLanding l).releaseLanding l).when taken (·.bumpPerf (R.PIPE_SLOT_WASTED l.region))

/-- A frame in reception at port p goes without an outcome: its lanes receive no more (R135, R163). -/
def Dev.dropReception (d : Dev) (p : Nat) : Dev :=
  match d.receiving p with
  | some l => d.endReception l
  | none => d

/-- FEC blocks and codewords corrected and uncorrectable at port p, which holds FEC lock (Table 3-26). -/
def Dev.countFec (d : Dev) (p corr uncorr : Nat) : Dev :=
  if d.macSees p && d.flag (R.MAC_STAT p) R.MAC_STAT.FEC_LOCK then (d.bump (R.MAC_FEC_CORR p) corr).bump (R.MAC_FEC_UNCORR p) uncorr
  else d

/-- The clock in which the filter bit of a frame that began in a clock is read: the one after the last byte of its destination
address, the fifth after the first at the port's speed (R142; DEDUCED, log 88). -/
def Dev.hashClock (d : Dev) (p begun : Nat) : Nat :=
  let rate := max 1 (speedMbps (d.fget (R.MAC_STAT p) R.MAC_STAT.SPEED))
  begun + (40000 + rate - 1) / rate + 1

/-- The filter of port p is about to be written: the frame in reception whose bit has been read, or is read in this clock, keeps
the filter as it was (R142). -/
def Dev.keepHash (d : Dev) (p : Nat) : Dev :=
  let w := d.hashWords p
  { d with frame := { d.frame with landing := d.frame.landing.map (fun l =>
      if l.origin = .port p ∧ !l.ended ∧ l.hash = none ∧ d.hashClock p l.begunAt ≤ d.now then { l with hash := some w } else l) } }

/-- FRAME_END (R137, R56, R128, R140): the frame's one outcome. A good frame takes the grains of its bytes; another is released.
A fault of this clock comes too late to end it. The FEC counts cover what the port has decoded since the frame before. -/
def Dev.frameEnd (d : Dev) (p : Nat) (bytes : List Byte) (codeError : Bool) (corr uncorr : Nat) : Dev :=
  let d := d.countFec p corr uncorr
  match d.receiving p with
  | none => d
  | some l =>
    let given := l.looped.getD bytes
    let b := l.head ++ given.drop l.head.length
    let cut := l.cutAt.any (fun t => decide (t < d.now))
    let o := d.rxOutcome p b (!l.readyAtBegin) l.fifoFull (codeError || uncorr != 0 || cut) l.maxLen l.hash
    let d := (d.countRx p o b.length).retransmit p b (o == 10)
    if o = 10 ∧ l.phase ≠ .gone then
      let l := { l with ended := true, bytes := b }
      let d := d.setLanding l
      if l.waiting then d else (d.growLanding l).2
    else d.endReception l

/-! ## The decision -/

/-- A frame's decision is thrown away, or takes effect as a discard: its grains go back (Table 15-4). -/
def Dev.discardLanding (d : Dev) (l : Landing) (wasted : Bool) : Dev :=
  (d.releaseLanding l).bumpPerf (if wasted then R.PIPE_SLOT_WASTED l.region else R.PIPE_SLOT_RETIRED l.region)

/-- An outcome takes effect as the frame's decision: discarded, redirected, or forwarded to what remains of its targets. -/
def Dev.conclude (d : Dev) (l : Landing) (dec : Decision) (kind : Nat) (dests : List Nat) (engQ : Nat) (untag queue : Option Nat) : Dev :=
  let n := l.region
  if kind = 2 then
    if !(d.rl n).engFw then (d.bump (R.WNW_NO_ENGINE n)).discardLanding l false
    else d.setLanding { l with
      phase := .decided, pre := some { dec with engineQueue := some engQ, redirect := true } }
  else if kind = 1 then d.discardLanding l false
  else
    let r := d.remaining n dests
    if r.1.isEmpty then r.2.discardLanding l false
    else r.2.setLanding { l with
      phase := .decided, pre := some { dec with targets := r.2.targetsOf n untag queue r.1 ++ dec.targets } }

/-- The region's vital traffic is down (R490). -/
def Dev.vitalDown (d : Dev) (n : Nat) : Bool := d.flag (R.VOTE_STAT n) R.VOTE_STAT.VITAL_DOWN

/-- The TC6 decision queue of a region. -/
def Dev.voteQueue (d : Dev) (n : Nat) : List Nat := Map.get (fun _ => []) d.frame.votes n

/-- A TC6 frame comes to the decision queue (R62, R490). -/
def Dev.enterVote (d : Dev) (l : Landing) (dec : Decision) (r : VoteRecord) : Dev :=
  let n := l.region
  if d.vitalDown n then (d.bump (R.VOTE_DOWN_DROP n)).discardLanding l true
  else if 256 ≤ (d.voteQueue n).length then
    ((d.bump (R.VOTE_OVERRUN n)).setFlag (R.VOTE_EVT n) R.VOTE_EVT.OVERRUN true).discardLanding l true
  else
    let d := d.setLanding { l with phase := .voting, pre := some dec, vote := some r }
    { d with frame := { d.frame with votes := Map.put (fun _ => []) d.frame.votes n (d.voteQueue n ++ [l.id]) } }

/-- The length the policer meters (R345): the frame's bytes as received. -/
def Landing.meterLength (l : Landing) : Nat := l.bytes.length

/-- The queue a frame's rule or SEND names (R228, R456). -/
def Landing.queueOf (l : Landing) (w1 : Word) : Option Nat :=
  match l.direct with
  | some (_, q) => q
  | none => act1Queue w1

/-- The decision that goes with a frame from its winning rule and its window (R228, R230 to R232). -/
def Dev.decide_ (d : Dev) (l : Landing) (pattern : Nat) (w1 w3 : Word) (win : List Nat) (colour : Nat) (dei : Bool) : Decision × Dev :=
  let n := l.region
  let key := d.extractKey n (act1Xprof w1) (act1Base w1) win
  let vp := d.vidPrio l.origin (act1VidSrc w1) win
  let tpid := (winByte win 12).getD 0 * 256 + (winByte win 13).getD 0
  let s := d.streams n (addrOf win 0) vp.1 win
  let m := s.2.2.mirrors n l.origin w1
  let copy := act1Disp w1 == 2 && (d.rl n).engFw
  let d := m.2.when (act1Disp w1 == 2 && !(d.rl n).engFw) (·.bump (R.WNW_NO_ENGINE n))
  ({ cls := d.classOf l.origin w1 win, colour := colour, pattern := pattern, tag := bits w3.toNat 16 16, key := key.1,
     xtrunc := key.2, l3 := act1L3 w1, l3base := act1Base w1, dscpEcn := dscpEcn (act1L3 w1) (act1Base w1) win, da := l.head.take 6, outerTag := tpid == 0x8100 || tpid == 0x88A8,
     vid := vp.1, prio := vp.2, deiMark := dei, generate := s.1, recover := s.2.1, namedQueue := l.queueOf w1,
     targets := m.1,
     engineQueue := if copy then some (bits w3.toNat 0 8) else none, redirect := false }, d)

/-- A frame with its winning rule's action words goes through policing, forwarding, which reads the tables as they stood when this
clock began (R258), and the vote's queue. -/
def Dev.decideFrame (d : Dev) (l : Landing) (pattern : Nat) (w1 w2 w3 : Word) (win : List Nat) : Dev :=
  let n := l.region
  let p := d.police n w1 w2 l.meterLength
  if p.1.2.2 then p.2.discardLanding l false
  else
    let redirect := if act1Disp w1 = 1 then some (bits w3.toNat 0 8) else none
    let r := p.2.decide_ l pattern w1 w3 win p.1.1 p.1.2.1
    let dec := r.1
    let out := r.2.was.resolve n l.origin w1 win redirect (l.direct.map (·.1))
    let d := (r.2.when out.learned (·.sourceLookup n l.origin w1 out.vid win)).countOutcome n out win
    if Origin.passive d l.origin && out.kind != 2 then (d.bump R.TWN_PASSIVE_DROP).discardLanding l false
    else if dec.cls = 6 then d.enterVote l dec (d.voteRecord l.origin out win w1 w2 w3 p.1.1)
    else d.conclude l dec out.kind out.dests out.engQ out.untag dec.namedQueue

/-- A new frame takes the slot: Winnow searches, a truncated key counts once for the frame (R232), and the rule's disposition applies
(R220, R229, R244). -/
def Dev.grantNew (d : Dev) (l : Landing) : Dev :=
  let n := l.region
  let win := windowSymbols l.head
  let s := d.search n (d.sourceClass l.origin) win
  let go := fun (d : Dev) (pattern : Nat) (w1 w2 w3 : Word) =>
    let d := d.when (d.extractKey n (act1Xprof w1) (act1Base w1) win).2 (·.bump (R.WNW_XTRUNC n))
    if act1Disp w1 = 3 then (d.bump (R.WNW_DISCARD n)).discardLanding l false
    else if act1Disp w1 = 1 && !(d.rl n).engFw then (d.bump (R.WNW_NO_ENGINE n)).discardLanding l false
    else d.decideFrame l pattern w1 w2 w3 win
  match s.1 with
  | .uncorrectable _ => s.2.discardLanding l true
  | .rule _ p w1 w2 w3 => go s.2 p w1 w2 w3
  | .default_ w1 w2 w3 => go s.2 0x4000 w1 w2 w3

/-! ## The pipeline slot (R58) -/

/-- The group of sources of an origin in the arbiter's round: port blocks 0 to 3, the host block, engine blocks. -/
def Origin.group : Origin → Nat
  | .port p => if p < 128 then p / 8 % 4 else 4
  | .host _ _ => 4
  | .engine e => 5 + e / 8 % 2

/-- A frame at the pipeline input can be taken: one that is to be metered is not taken before its length is known. -/
def Dev.canTake (d : Dev) (l : Landing) : Bool :=
  l.ended || !d.needsLength l.region (d.search l.region (d.sourceClass l.origin) (windowSymbols l.head)).1.words.2.1

/-- The new frame the arbiter takes: the groups in round-robin order from the one after the last. -/
def Dev.nextOffered (d : Dev) (n : Nat) : Option Landing :=
  let turn := Map.get (fun _ => 6) d.frame.turn n
  let can := fun (l : Landing) => l.region == n && l.phase == .offered && d.canTake l
  ((List.range 7).map (fun i => (turn + 1 + i) % 7)).foldl (fun best g =>
    match best with
    | some l => some l
    | none => d.frame.landing.find? (fun l => can l && l.origin.group == g)) none

/-- The pipeline of region n takes descriptors (R245, R248, R287, R491). -/
def Dev.pipelineUp (d : Dev) (n : Nat) : Bool :=
  d.tablesUp n && d.flag (R.WNW_STAT n) R.WNW_STAT.READY && d.flag (R.TBL_STAT n) R.TBL_STAT.READY
    && !d.flag (R.VOTE_STAT n) R.VOTE_STAT.TESTING

/-- A region's slot of this clock is taken. -/
def Dev.takeSlot (d : Dev) (n : Nat) : Dev := { d with frame := { d.frame with busy := setBit d.frame.busy n true } }

/-- PIPELINE_SLOT_GRANT (R58): copies of admitted frames first, then new frames, then mirror copies; one slot a clock, which a
background request may have taken (R30, R31). -/
def Dev.slotGrant (d : Dev) (n : Nat) : Dev :=
  if !d.pipelineUp n || d.frame.busy.testBit n then d
  else
    match Map.get (fun _ => []) d.frame.copies n with
    | x :: rest =>
      let d : Dev := { d with frame := { d.frame with copies := Map.put (fun _ => []) d.frame.copies n rest } }
      let d := d.takeSlot n
      let d := match x with
        | .port x => d.sendEnq x
        | .engine q x => d.enterTask n q (Task.make 2 (frameWords x) (some x) none)
      d.bumpPerf (R.PIPE_SLOT_RETIRED n)
    | [] =>
      match d.nextOffered n with
      | some l =>
        let d : Dev := { d with frame := { d.frame with turn := Map.put (fun _ => 6) d.frame.turn n l.origin.group } }
        (d.takeSlot n).grantNew l
      | none =>
        match Map.get (fun _ => []) d.frame.mirrorWait n with
        | x :: rest =>
          let d : Dev := { d with frame := { d.frame with mirrorWait := Map.put (fun _ => []) d.frame.mirrorWait n rest } }
          ((d.takeSlot n).sendEnq x.2).bumpPerf (R.PIPE_SLOT_RETIRED n)
        | [] => d

/-- MIRROR_COPY_TIMEOUT (R60, R354): the mirror copy that has waited longest is discarded. -/
def Dev.mirrorTimeout (d : Dev) (n : Nat) : Dev :=
  match Map.get (fun _ => []) d.frame.mirrorWait n with
  | [] => d
  | x :: rest =>
    let d : Dev := { d with frame := { d.frame with mirrorWait := Map.put (fun _ => []) d.frame.mirrorWait n rest } }
    (d.bump (R.MIR_WAIT_DROP n)).queueRelease n x.2.head

/-! ## Push-out (R313, R314) -/

/-- The tail frame of queue q of region n as this clock began, a frame that entered in this clock being appended after it (R315), if it
is a victim candidate for a frame of class c (R313). -/
def Dev.victim (d : Dev) (n q c : Nat) : Option Descr :=
  match ((d.queue n q).frames.filter (fun x => decide (x.queuedAt < d.now))).getLast? with
  | none => none
  | some x =>
    let home := d.homePool n c
    let r := d.frec n x.head
    if (d.was.fget (R.GRN_POOL_CFG n home) R.GRN_POOL_CFG.PUSH_MASK).testBit x.cls && decide (x.cls < c) && !d.guardedClass x.cls
        && r.ref == 1 && r.forwarded == 0 && x.owner == n && x.tier != .bales && r.pool == home && !x.tx then some x
    else none

/-- A victim leaves its queue; a transmission of it that has asked for its grains and not yet been served ends (R313). -/
def Dev.pushVictim (d : Dev) (n q : Nat) (x : Descr) : Dev :=
  let p := queuePort n q
  let d := d.when ((d.eport p).sending == some (q % 8, x.uid)) (·.endSending p)
  ((d.unqueue n q x).freeFrame n x.head).bump (R.GRN_PUSHED n)

/-- The candidate whose queue holds the most on-chip bytes, the lower queue number on a tie. -/
def Dev.bestVictim (d : Dev) (n c : Nat) : Option (Nat × Descr) :=
  (List.range 264).foldl (fun best q =>
    match d.victim n q c with
    | none => best
    | some x =>
      match best with
      | none => some (q, x)
      | some (b, y) => if (d.queue n b).onChip < (d.queue n q).onChip then some (q, x) else some (b, y)) none

/-- Remove up to k victims until the home pool takes the charge: none if it never does (R314). -/
def Dev.pushOut (d : Dev) (n s c L : Nat) : Nat → Option Dev
  | 0 => none
  | k + 1 =>
    match d.bestVictim n c with
    | none => none
    | some (q, x) =>
      let d := d.pushVictim n q x
      if d.poolTakes n s c (d.homePool n c) L (d.minShare n s c L) then some d else d.pushOut n s c L k

/-- Push-out for a frame that would be refused; a PUSH_MAX of 0 acts as 1 (Table 7-16). -/
def Dev.makeRoom (d : Dev) (n s c L : Nat) : Option Dev :=
  if d.flag (R.GRN_CFG n) R.GRN_CFG.PUSH_EN then
    d.pushOut n s c L (max 1 (d.was.fget (R.GRN_POOL_CFG n (d.homePool n c)) R.GRN_POOL_CFG.PUSH_MAX))
  else none

/-! ## The charge at the decision (R304, R305, R413) -/

/-- The landing frame of region n in a phase with the lowest source number. -/
def Dev.lowestSource (d : Dev) (n : Nat) (p : Landing → Bool) : Option Landing :=
  (d.frame.landing.filter (fun l => l.region == n && p l)).foldl (fun best l =>
    match best with
    | none => some l
    | some b => if l.src < b.src then some l else some b) none

/-- Name the journal entries of the targets that need one, in order. -/
def assignEntries : List Target → List Nat → List Target
  | [], _ => []
  | t :: rest, es =>
    if t.mirror then t :: assignEntries rest es
    else { t with entry := es.head? } :: assignEntries rest es.tail

/-- A frame is refused (R305): its grains go back, and it is counted. -/
def Dev.refuse (d : Dev) (l : Landing) (c : Nat) : Dev :=
  (d.bump (R.GRN_REFUSED l.region c)).discardLanding l true

/-- DECISION_CHARGE. -/
def Dev.decisionCharge (d : Dev) (n : Nat) : Dev :=
  match d.lowestSource n (fun l => l.phase == .decided && !l.waiting) with
  | none => d
  | some l =>
    match l.pre with
    | none => d
    | some dec =>
      if !d.granaryUp n then d
      else
        let c := dec.cls
        let d := d.discharge n l.src l.chargeCls l.pool l.need l.minGr
        let l := { l with waiting := true }
        let k := if d.guardedClass c then (dec.targets.filter (fun t => !t.mirror)).length else 0
        match d.freeEntries n k with
        | none =>
          ((d.bump (R.ACC_JRNL_FULL n)).setFlag (R.ACC_EVT n) R.ACC_EVT.JRNL_FULL true).refuse l c
        | some es =>
          let place := match d.placeFor n l.src c l.need with
            | some (p, m) => some (p, m, d)
            | none => (d.makeRoom n l.src c l.need).map (fun (d : Dev) => (d.homePool n c, d.minShare n l.src c l.need, d))
          match place with
          | none => d.refuse l c
          | some (p, m, d) =>
            let d := (d.charge n l.src c p l.need m).reserveEntries n es
            d.setLanding { l with
              waiting := false, chargeCls := c, pool := p, minGr := m, phase := .charged,
              pre := some { dec with targets := assignEntries dec.targets es } }

/-! ## The commit (R306, R309, R411 to R414) -/

/-- The descriptor every owner of a frame shares, before its target is named. -/
def Dev.baseDescr (d : Dev) (l : Landing) (dec : Decision) (cong : Bool) (rtag : Option Nat) : Descr :=
  let n := l.region
  { uid := 0, ingress := n, owner := n, head := l.grains.headD 0, grains := l.grains.length, length := l.bytes.length,
    cls := dec.cls, guarded := d.guardedClass dec.cls, cong := cong, seq := 0, entry := 0, gen := d.regionGen n, src := l.src,
    origin := l.origin, target := { dest := 0, queue := none, mirror := false, entry := none, tagAct := 0 }, dec := dec,
    stamps := l.stamps, commitTime := d.now, computeFcs := l.computeFcs, tsReq := l.tsReq, rtag := rtag, sync := false,
    replay := false, spilledEntry := false, mirrorList := false, tier := .grains, at_ := 0, tx := false, data := [],
    primary := false, partner := false, bales := [], mbales := [], lateCounted := false, guardCounted := false, lost := false,
    badA := false, badB := false, queuedAt := 0, spillAt := 0, mirrorAt := 0, reread := false }

/-- One target's descriptor at commit: its identity, and for a guarded frame its number and its journal entry (R414). -/
def Dev.commitTarget (d : Dev) (n : Nat) (x : Descr) (first : Option Nat) (count : Nat) (t : Target) : Descr × Dev :=
  let i := d.newId
  let d := i.2
  match (if x.guarded && !t.mirror then t.entry else none) with
  | none => ({ x with uid := i.1, target := t, guarded := false, mirrorList := false }, d)
  | some e =>
    let s := d.takeNumber n t.dest x.cls
    let x := { x with uid := i.1, target := t, seq := s.1.1, sync := s.1.2, entry := e }
    let j : JEntry :=
      { state := .sent, cls := x.cls, src := x.src, head := x.head, seq := x.seq, dest := t.dest, commitGen := x.gen,
        length := x.length, first := first.getD e, pending := if first = some e then count else 0, badA := false, badB := false,
        descr := some x }
    (x, s.2.setJentry n e j)

/-- The grains of the charge that the frame does not use return: shared first, the minimum last (R306). -/
def Dev.returnExcess (d : Dev) (l : Landing) (used : Nat) : Nat × Dev :=
  let back := l.need - used
  let shared := min back (l.need - l.minGr)
  let m := back - shared
  (l.minGr - m, d.discharge l.region l.src l.chargeCls l.pool back m)

/-- The first ENQ of a frame leaves at once, unless a copy of its flow still waits for a slot before it. -/
def Dev.sendFirst (d : Dev) (n : Nat) (x : Descr) : Dev :=
  let same := fun (y : Copy) => match y with
    | .port y => y.target.dest == x.target.dest && y.cls == x.cls
    | .engine _ _ => false
  if (Map.get (fun _ => []) d.frame.copies n).any same then d.addCopies n [.port x] else d.sendEnq x

/-- Mirror copies wait for a slot (R58, R60). -/
def Dev.addMirrors (d : Dev) (n : Nat) (l : List Descr) : Dev :=
  let d := d.bump (R.MIR_COPIES n) l.length
  { d with frame := { d.frame with
      mirrorWait := Map.put (fun _ => []) d.frame.mirrorWait n
        (Map.get (fun _ => []) d.frame.mirrorWait n ++ l.map (fun x => (d.now, x))) } }

/-- The frame's number of a generating stream (R372). -/
def Dev.generate (d : Dev) (n : Nat) (g : Option Nat) : Option Nat × Dev :=
  match g with
  | none => (none, d)
  | some j =>
    let s := d.stream n j
    (some s.genNext, (d.setStream n j { s with genNext := (s.genNext + 1) % 65536 }).bump (R.CB_GENERATED n))

/-- STR_TIME_FWD: the first frame accepted since the start edge (Table 14-13). -/
def Dev.noteAccepted (d : Dev) : Dev :=
  if d.start.accepted then d
  else ({ d with start := { d.start with accepted := true } } : Dev).wr R.STR_TIME_FWD
    (BitVec.ofNat 32 ((d.now - d.start.edge) / us))

/-- A frame whose targets stand commits (R306). A redirect takes the frame's own slot, the copy of DISP 2 one of its own (R59,
Table 5-4). -/
def Dev.commitFrame (d : Dev) (l : Landing) (dec : Decision) : Dev :=
  let n := l.region
  let main := dec.targets.filter (fun t => !t.mirror)
  let mirrors := dec.targets.filter (fun t => t.mirror)
  let guarded := d.guardedClass dec.cls && !main.isEmpty
  let mark := d.was.fget (R.GRN_POOL_MARK n l.pool) R.GRN_POOL_MARK.GRAINS
  let cong := d.flag (R.GRN_CFG n) R.GRN_CFG.MARK_EN && mark != 0 && decide (mark ≤ (d.pool n l.pool).charged) && dec.l3 != 0
  let d := d.when cong (·.bump (R.GRN_MARKED n))
  let r := d.returnExcess l l.grains.length
  let g := r.2.generate n dec.generate
  let x := { g.2.baseDescr l dec cong g.1 with guarded := guarded }
  let refs := main.length + b2n guarded + mirrors.length + b2n dec.engineQueue.isSome
  let d := (g.2.setFrec n x.head
    { ref := refs, pool := l.pool, grains := l.grains.length, minGr := r.1, src := l.src, cls := dec.cls,
      length := l.bytes.length, gen := g.2.regionGen n, guarded := guarded, cong := cong, committed := true,
      entries := b2n guarded, forwarded := 0 }).tellSender l true
  let d := ((d.dropLanding l.id).bump (R.GRN_COMMITTED n)).noteAccepted
  let d := d.when guarded (·.bump (R.ACC_ACCEPTED n))
  let first := (main.head?).bind (·.entry)
  let c := main.foldl (fun (acc : List Descr × Dev) t =>
    let r := acc.2.commitTarget n x first main.length t
    (acc.1 ++ [r.1], r.2)) ([], d)
  let m := mirrors.foldl (fun (acc : List Descr × Dev) t =>
    let r := acc.2.commitTarget n x none 0 t
    (acc.1 ++ [r.1], r.2)) ([], c.2)
  let d := match c.1 with
    | [] => m.2
    | y :: rest => (m.2.sendFirst n y).addCopies n (rest.map .port)
  let d := d.addMirrors n m.1
  let d := match dec.engineQueue with
    | some q =>
      if dec.redirect then d.enterTask n q (Task.make 1 (frameWords x) (some x) none) else d.addCopies n [.engine q x]
    | none => d
  (d.journalPeak n).bumpPerf (R.PIPE_SLOT_RETIRED n)

/-- FRAME_COMMIT: the frame whose last byte is in grains, whose charge is placed and whose checks have passed, lowest source
first. Targets whose port does not take its length are omitted, with their journal entries freed (R147, R413); a frame left
with no target is discarded before acceptance. -/
def Dev.frameCommit (d : Dev) (n : Nat) : Dev :=
  match d.lowestSource n (fun l => l.phase == .charged && l.ended) with
  | none => d
  | some l =>
    match l.pre with
    | none => d
    | some dec =>
      let fits := fun (t : Target) => d.mtuOk t dec.outerTag (l.bytes.length + if l.computeFcs then 4 else 0)
      let out := dec.targets.filter (fun t => !fits t)
      let d := (d.countMtu l.origin out.length).freeReserved n (out.filterMap (·.entry))
      let dec := { dec with targets := dec.targets.filter fits }
      if dec.targets.all (·.mirror) && !dec.redirect then d.discardLanding l false
      else d.commitFrame l dec

/-! ## The order within a clock (R307, R308) -/

/-- A landing frame put among others in ascending source number. -/
def insertSource (l : Landing) : List Landing → List Landing
  | [] => [l]
  | x :: rest => if l.src < x.src then l :: x :: rest else x :: insertSource l rest

/-- The landing frames whose charge is asked for in this clock, in ascending source number. -/
def Dev.landingTurns (d : Dev) (turns : List GranaryTurn) : List Landing :=
  (d.frame.landing.filter (fun l => l.waiting && turns.contains (.landing l.id))).foldl (fun acc l => insertSource l acc) []

/-- A landing charge of this clock is tried (R302, R303). -/
def Dev.landingTurn (d : Dev) (id : Nat) : Dev :=
  match d.frame.landing.find? (fun l => l.id == id && l.waiting && l.phase != .gone) with
  | some l => (d.tryLanding l).2
  | none => d

/-- The decision charges of a clock, then its commits (R307, R306). -/
def Dev.decisionTurns (d : Dev) (turns : List GranaryTurn) : Dev :=
  let d := d.each turns (fun t d => match t with | .decision n => d.decisionCharge n | _ => d)
  d.each turns (fun t d => match t with | .commit n => d.frameCommit n | _ => d)

end Sys2Proof.Machine
end

