-- ==== Sys2Proof/Machine/Policers.lean ====
section
/-! DEFINITION. Policer commands (R349, R350, Table 8-3). -/

namespace Sys2Proof.Machine

/-- The data registers of the policer commands. -/
def Dev.polData (d : Dev) (n : Nat) : List Word := (List.range 4).map (fun i => d.rd (R.POL_CMD_DATA n i))

/-- A policer command ends with a result. -/
def Dev.endPol (d : Dev) (n result : Nat) : Dev :=
  (d.fset (R.POL_CMD_STAT n) R.POL_CMD_STAT.RESULT result).setFlag (R.POL_CMD_STAT n) R.POL_CMD_STAT.DONE true

/-- A policer command starts: while one runs it is ignored (R349); while the pipeline or the table block restarts it ends
ABORTED; otherwise it runs to its result. -/
def Dev.polCommand (d : Dev) (n : Nat) (run : Dev → Nat × Dev) : Dev :=
  if d.flag (R.POL_CMD_STAT n) R.POL_CMD_STAT.BUSY then d.setFlag (R.POL_CMD_STAT n) R.POL_CMD_STAT.OVERRUN true
  else if !d.tablesUp n then d.endPol n 3
  else
    let r := run d
    r.2.endPol n r.1

/-- A configuration a WRITE refuses (BADCFG of Table 8-3). -/
def badPolicer (w : List Word) : Bool :=
  let g := fun (i : Nat) => (w.getD i 0).toNat
  (g 3).testBit 0 && !(g 3).testBit 1 && decide (bits (g 1) 0 24 < bits (g 0) 0 24)
    || bits (g 0) 24 8 != 0 || bits (g 1) 24 8 != 0 || bits (g 3) 4 28 != 0

/-- The digest segment of a policer is unsettled in this pass (R282, Table 6-8). -/
def Dev.touchPolicer (d : Dev) (n i : Nat) : Dev := d.when (d.tbl n).inPass (·.unsettle n (4224 + i / 1024))

/-- The configuration words of policer i change, its digest following (R281). -/
def Dev.polStore (d : Dev) (n i : Nat) (w : List Word) : Dev :=
  d.accounted n 5 (i / 2) (4224 + i / 1024) (fun d => d.polContribution n i) (fun d =>
    d.each (List.range 4) (fun k d => d.wrMem (polKey n i k) (w.getD k 0)))

/-- WRITE: the configuration, with full buckets from this clock on (R350). -/
def Dev.polWrite (d : Dev) (n i : Nat) : Nat × Dev :=
  let w := d.polData n
  if badPolicer w then (2, d)
  else
    let d := d.polStore n i w
    let sizes := (w.getD 2 0).toNat
    let d := d.setPolicer n i
      { tc := bucketFull (bits sizes 0 16), tx := bucketFull (bits sizes 16 16), last := d.now, full := false }
    let d : Dev := { d with clk := { d.clk with polWrites := d.clk.polWrites ++ [(n, i)] } }
    (0, d.touchPolicer n i)

/-- READ: the configuration in the data registers, the buckets as they stand in whole bytes. -/
def Dev.polRead (d : Dev) (n i : Nat) : Nat × Dev :=
  let d := d.each (List.range 4) (fun k d => d.hwWr (R.POL_CMD_DATA n k) (d.rd (polKey n i k)))
  let s := (d.policer n i).ready (bits (d.polWord n i 2) 0 16) (bits (d.polWord n i 2) 16 16)
  let dt := d.now - s.last
  let level := fun (b rate size : Nat) => min (b + dt * rate) (bucketFull size) / 1000000
  let d := d.fset (R.POL_RD_CBKT n) R.POL_RD_CBKT.BYTES
    (level s.tc (bits (d.polWord n i 0) 0 24) (bits (d.polWord n i 2) 0 16))
  (0, d.fset (R.POL_RD_XBKT n) R.POL_RD_XBKT.BYTES
    (level s.tx (bits (d.polWord n i 1) 0 24) (bits (d.polWord n i 2) 16 16)))

/-- CLEAR: the three counters are zero. -/
def Dev.polClear (d : Dev) (n i : Nat) : Nat × Dev :=
  (0, d.each [0, 1, 2] (fun k d => d.wr (polCntKey n i k) 0))

/-- The contained restart of the table block (R351, Table 6-7): configurations that cannot be read are written as zero. -/
def Dev.repairPolicers (d : Dev) (n : Nat) : Dev :=
  let base := spWord 0x35 n
  let bad := ((d.faults.filter (fun x => x.2 == 2 && decide (base ≤ x.1 ∧ x.1 < base + 0x100000))).map
    (fun x => (x.1 - base) / 16)).eraseDups
  let d := d.modTbl n (fun t => { t with counted := t.counted.filter (fun k => !decide (base ≤ k ∧ k < base + 0x100000)) })
  d.each bad (fun i d => d.polStore n i [])

/-- Every bucket of region n is full after a start, a restart of the region or of its pipeline or table block (R378, Table 8-6). -/
def Dev.fillPolicers (d : Dev) (n : Nat) : Dev :=
  { d with frame := { d.frame with policers := d.frame.policers.filter (fun x => x.1 / 0x1000000 != n) } }

/-- A policer command ends ABORTED when its pipeline or table block restarts (Table 8-3). -/
def Dev.abortPol (d : Dev) (n : Nat) : Dev :=
  if d.flag (R.POL_CMD_STAT n) R.POL_CMD_STAT.BUSY then
    (d.setFlag (R.POL_CMD_STAT n) R.POL_CMD_STAT.BUSY false).endPol n 3
  else d

end Sys2Proof.Machine
end

