-- ==== Sys2Proof/Machine/Engine.lean ====
section
/-! DEFINITION. The instruction set of the packet engines and the supervisor core (R444, R454 to R457, Table 11-5), one
operation per instruction over shared ones, directory grants, and engines through restarts and shedding (R477 to R480).
Core numbers are the engine numbers, 64 for the supervisor core, whose one thread is thread 0. -/

namespace Sys2Proof.Machine

/-- The number of the supervisor core. -/
def supCore : Nat := 64

/-- The number of a core. -/
def coreNo : Core → Nat
  | .pe e => e.val
  | .supervisor => supCore

/-! ## Registers of a thread -/

/-- General register r: what was written since dispatch, else undefined (R444). -/
def Thread.reg (x : Thread) (r : Nat) : Word := Map.get (fun k => Config.freeValue (x.base + k)) x.regs r

/-- Write a general register. -/
def Thread.setReg (x : Thread) (r : Nat) (v : Word) : Thread := { x with regs := Map.ins x.regs r v }

/-- Scratch word w. -/
def Thread.scratchWord (x : Thread) (w : Nat) : Word := Map.get (fun k => Config.freeValue (x.base + 32 + k)) x.scratch w

/-- Fields of an instruction word (Table 11-4). -/
def opOf (w : Word) : Nat := bits w.toNat 26 6
/-- Field [25:21]: d in formats A and B, a in format C. -/
def fieldD (w : Word) : Nat := bits w.toNat 21 5
/-- Field [20:16]: a in formats A and B, b in format C. -/
def fieldA (w : Word) : Nat := bits w.toNat 16 5
/-- Field [15:11]: b in format A. -/
def fieldB (w : Word) : Nat := bits w.toNat 11 5
/-- FN, IMM, OFF and TARGET. -/
def fieldFn (w : Word) : Nat := bits w.toNat 0 11
def fieldImm (w : Word) : BitVec 16 := w.setWidth 16
/-- IMM, sign-extended. -/
def sextImm (w : Word) : Word := (fieldImm w).signExtend 32
/-- IMM, zero-extended. -/
def zextImm (w : Word) : Word := (fieldImm w).setWidth 32

/-- The instruction at a core's PC: the block's instruction memory, the supervisor's memory, or its ROM, whose contents the
spec does not give. -/
def Dev.fetch (d : Dev) (e pc : Nat) : Word :=
  if e = supCore then
    if d.flag R.SUP_STAT R.SUP_STAT.MODE || (d.dump.active && d.dump.rom) then Config.undefinedWord 1 pc else d.rd (spWord 0x04 0 + 4 * pc)
  else d.rd (spWord (0x78 + e / 8 % 2) (e / 16) + 4 * pc)

/-- The OP codes of Table 11-5. -/
def legalOps : List Nat :=
  [0x00, 0x01, 0x02, 0x03, 0x04, 0x05, 0x06, 0x07, 0x08, 0x09, 0x0A, 0x10, 0x11, 0x12, 0x13, 0x14, 0x15, 0x16, 0x17, 0x18, 0x19,
   0x1A, 0x1B, 0x20, 0x21, 0x22, 0x23, 0x24, 0x25, 0x28, 0x29, 0x2A, 0x30, 0x31, 0x32, 0x33, 0x38, 0x39, 0x3B]

/-- A legal instruction of a core (R454; the supervisor core has no tasks). -/
def legalWord (e : Nat) (w : Word) : Bool :=
  legalOps.contains (opOf w)
    && (opOf w != 0x00 || decide (fieldFn w < 18)) && (opOf w != 0x1A || decide (fieldFn w < 5))
    && (opOf w != 0x1B || fieldFn w == 0)
    && !(e == supCore && [0x18, 0x30, 0x31, 0x32, 0x33].contains (opOf w))

/-! ## Issue, completion, faults -/

/-- A core executes: an engine that runs, or the supervisor core outside HELD. -/
def Dev.coreRuns (d : Dev) (e : Nat) : Bool :=
  if e = supCore then d.chip.state != .held && d.chip.state != .off else d.engineRuns e

/-- The thread whose turn it is to issue: the READY one that follows the thread that issued last (R444). -/
def Dev.nextThread (d : Dev) (e : Nat) : Option Nat :=
  let last := Map.get (fun _ => 7) d.engine.last e
  ((List.range 8).map (fun i => (last + 1 + i) % 8)).find? (fun t => (d.thread e t).state == .ready)

/-- Note that a core issued in this clock, and from which thread (R444, R477). -/
def Dev.noteIssue (d : Dev) (e t : Nat) : Dev :=
  { d with engine := { d.engine with
      issued := setBit d.engine.issued e true, last := Map.put (fun _ => 7) d.engine.last e t } }

/-- An issued instruction completed, or was discarded (R477). -/
def Dev.slotRetired (d : Dev) (e : Nat) : Dev := d.when (e != supCore) (·.bumpPerf (R.ENG_SLOT_RETIRED e))
def Dev.slotWasted (d : Dev) (e : Nat) : Dev := d.when (e != supCore) (·.bumpPerf (R.ENG_SLOT_WASTED e))

/-- An instruction completes: the thread takes its new contents and the PC the address given. -/
def Dev.completeAt (d : Dev) (e t : Nat) (x : Thread) (pc : Nat) : Dev :=
  (d.setThread e t { x with state := .ready, waits := none, pc := pc % 65536 }).slotRetired e

/-- An instruction completes and the next follows. -/
def Dev.complete (d : Dev) (e t : Nat) (x : Thread) : Dev := d.completeAt e t x (x.pc + 1)

/-- An instruction completes with a value for register r. -/
def Dev.result (d : Dev) (e t : Nat) (x : Thread) (r : Nat) (v : Word) : Dev := d.complete e t (x.setReg r v)

/-- A thread fault (R457). A fault of the supervisor core is chip-fatal (Table 15-7). -/
def Dev.threadFault (d : Dev) (e t cause : Nat) : Dev :=
  let x := d.thread e t
  if e = supCore then (d.setThread e t { x with state := .halt }).raise (.chipFatal 0x06 0x40 x.pc)
  else
    let d := d.slotWasted e
    let d := d.wr (R.ENG_FAULT_CNT e) (d.rd (R.ENG_FAULT_CNT e) + 1)
    let d := d.setFlag (R.ENG_BLK_EVT (e / 8)) R.ENG_BLK_EVT.FAULT true
    let latch := fun (d : Dev) =>
      (((d.fset (R.ENG_FAULT e) R.ENG_FAULT.CAUSE cause).fset (R.ENG_FAULT e) R.ENG_FAULT.THREAD t).fset
        (R.ENG_FAULT e) R.ENG_FAULT.PC x.pc).setFlag (R.ENG_FAULT e) R.ENG_FAULT.VALID true
    let d := d.when (!d.flag (R.ENG_FAULT e) R.ENG_FAULT.VALID) latch
    let d := (d.abortTask e t).idleThread e t
    d.when (d.flag (R.ENG_BLK_CFG (e / 8)) R.ENG_BLK_CFG.STOP_ON_FAULT) (·.setThread e t { Thread.init with state := .halt })

/-- A thread waits for a line of the data cache (R460). -/
def Dev.waitLine (d : Dev) (e t l : Nat) (own : Bool) : Dev :=
  (d.setThread e t { d.thread e t with state := .wait, waits := some (.line l own) }).requestLine e l own

/-- The key of the word at a thread's PC. -/
def pcKey (e pc : Nat) : Nat := if e = supCore then spWord 0x04 0 + 4 * pc else spWord (0x78 + e / 8 % 2) (e / 16) + 4 * pc

/-- A thread issues in this clock: a single-bit error in its instruction's word is corrected and counted on the way (ENG_CORR, chapter 11). -/
def Dev.startIssue (d : Dev) (e t : Nat) : Dev :=
  let key := pcKey e (d.thread e t).pc
  (d.when (d.fault key == 1 && e != supCore) (fun d =>
    (d.bump (R.ENG_CORR (e / 8))).corrected (e / 16) (4 + e / 8 % 2) (some key))).noteIssue e t

/-- An instruction of code `op` is issued on thread t of core e (R444): one a clock, from the READY thread
whose turn it is and whose PC names it. A word that
is no instruction faults; a single-bit error is corrected and an uncorrectable word is contained, or chip-fatal in the supervisor's memory. Answers the word and
the thread when the instruction runs. -/
def Dev.issued (d : Dev) (e t op : Nat) : Option (Word × Thread) × Dev :=
  let x := d.thread e t
  if !d.coreRuns e || d.engine.issued.testBit e || d.nextThread e != some t then (none, d)
  else
    let key := pcKey e x.pc
    if d.fault key = 2 then
      if e = supCore then (none, d.raise (.chipFatal 0x06 0x40 x.pc))
      else (none, (d.bump (R.ENG_UNCORR (e / 8))).contained (e / 16) (4 + e / 8 % 2) (e % 8) (4 * x.pc))
    else
      let w := d.fetch e x.pc
      if !legalWord e w then (none, (d.startIssue e t).threadFault e t 1)
      else if opOf w ≠ op then (none, d)
      else (some (w, x), d.startIssue e t)

/-- An instruction of code `op` issues and runs. -/
def Dev.issue (d : Dev) (e t op : Nat) (run : Word → Thread → Dev → Dev) : Dev :=
  match d.issued e t op with
  | (some (w, x), d) => run w x d
  | (none, d) => d

/-! ## Arithmetic and control -/

/-- The operations of OPR by FN (Table 11-5). -/
def aluOp (fn : Nat) (a b : Word) : Word :=
  let k := b.toNat % 32
  match fn with
  | 0 => a + b
  | 1 => a - b
  | 2 => a &&& b
  | 3 => a ||| b
  | 4 => a ^^^ b
  | 5 => a <<< k
  | 6 => a >>> k
  | 7 => a.sshiftRight k
  | 8 => a * b
  | 9 => BitVec.ofNat 32 (a.toNat * b.toNat / 2 ^ 32)
  | 10 => if a.slt b then 1 else 0
  | 11 => if a.ult b then 1 else 0
  | 12 => if a.slt b then a else b
  | 13 => if a.slt b then b else a
  | 14 => BitVec.ofNat 32 (((List.range 32).find? (fun i => a.getMsbD i)).getD 32)
  | 15 => BitVec.ofNat 32 (leAt (leBytes 4 a.toNat).reverse 0 4)
  | 16 => a.rotateLeft k
  | _ => BitVec.ofNat 32 (popCount 32 a.toNat)

/-- A format A or B operation: register d takes a value of the word and the thread. -/
def Dev.alu (d : Dev) (e t op : Nat) (f : Word → Thread → Word) : Dev :=
  d.issue e t op (fun w x d => d.result e t x (fieldD w) (f w x))

/-- A branch of format C: taken, PC moves by OFF beyond the next instruction. -/
def Dev.branch (d : Dev) (e t op : Nat) (c : Word → Word → Bool) : Dev :=
  d.issue e t op (fun w x d =>
    let target := ((x.pc : Int) + 1 + (fieldImm w).toInt) % 65536
    if c (x.reg (fieldD w)) (x.reg (fieldA w)) then d.completeAt e t x target.toNat else d.complete e t x)

def Dev.opr (d : Dev) (e t : Nat) : Dev := d.alu e t 0x00 (fun w x => aluOp (fieldFn w) (x.reg (fieldA w)) (x.reg (fieldB w)))
def Dev.addk (d : Dev) (e t : Nat) : Dev := d.alu e t 0x01 (fun w x => x.reg (fieldA w) + sextImm w)
def Dev.andk (d : Dev) (e t : Nat) : Dev := d.alu e t 0x02 (fun w x => x.reg (fieldA w) &&& zextImm w)
def Dev.ork (d : Dev) (e t : Nat) : Dev := d.alu e t 0x03 (fun w x => x.reg (fieldA w) ||| zextImm w)
def Dev.xork (d : Dev) (e t : Nat) : Dev := d.alu e t 0x04 (fun w x => x.reg (fieldA w) ^^^ zextImm w)
def Dev.insh (d : Dev) (e t : Nat) : Dev :=
  d.alu e t 0x05 (fun w x => (zextImm w <<< 16) ||| (x.reg (fieldA w) &&& 0xFFFF#32))
def Dev.shlk (d : Dev) (e t : Nat) : Dev := d.alu e t 0x06 (fun w x => x.reg (fieldA w) <<< (w.toNat % 32))
def Dev.shrk (d : Dev) (e t : Nat) : Dev := d.alu e t 0x07 (fun w x => x.reg (fieldA w) >>> (w.toNat % 32))
def Dev.sark (d : Dev) (e t : Nat) : Dev := d.alu e t 0x08 (fun w x => (x.reg (fieldA w)).sshiftRight (w.toNat % 32))
def Dev.ltk (d : Dev) (e t : Nat) : Dev := d.alu e t 0x09 (fun w x => if (x.reg (fieldA w)).slt (sextImm w) then 1 else 0)
def Dev.setk (d : Dev) (e t : Nat) : Dev := d.alu e t 0x0A (fun w _ => sextImm w)

def Dev.ifeq (d : Dev) (e t : Nat) : Dev := d.branch e t 0x20 (fun a b => a == b)
def Dev.ifne (d : Dev) (e t : Nat) : Dev := d.branch e t 0x21 (fun a b => a != b)
def Dev.iflt (d : Dev) (e t : Nat) : Dev := d.branch e t 0x22 (fun a b => a.slt b)
def Dev.ifge (d : Dev) (e t : Nat) : Dev := d.branch e t 0x23 (fun a b => !a.slt b)
def Dev.iflo (d : Dev) (e t : Nat) : Dev := d.branch e t 0x24 (fun a b => a.ult b)
def Dev.ifhs (d : Dev) (e t : Nat) : Dev := d.branch e t 0x25 (fun a b => !a.ult b)

/-- CALL (R455). -/
def Dev.call (d : Dev) (e t : Nat) : Dev :=
  d.issue e t 0x28 (fun w x d =>
    if 8 ≤ x.stack.length then d.threadFault e t 5
    else d.completeAt e t { x with stack := (x.pc + 1) % 65536 :: x.stack } (fieldImm w).toNat)

/-- RET (R455). -/
def Dev.ret (d : Dev) (e t : Nat) : Dev :=
  d.issue e t 0x29 (fun _ x d =>
    match x.stack with
    | [] => d.threadFault e t 5
    | p :: rest => d.completeAt e t { x with stack := rest } p)

/-- GO. -/
def Dev.go (d : Dev) (e t : Nat) : Dev := d.issue e t 0x2A (fun w x d => d.completeAt e t x ((x.reg (fieldA w)).toNat % 65536))

/-- BARR: the model performs every store and ATOM before the next instruction issues, so nothing is left to wait for. -/
def Dev.barr (d : Dev) (e t : Nat) : Dev := d.issue e t 0x1B (fun _ x d => d.complete e t x)

/-! ## Data space and scratch -/

/-- The bytes a core's data space holds. -/
def dataSize (e : Nat) : Nat := if e = supCore then 0x80000 else 0x20000

/-- The address of a format B access. -/
def accessAddr (w : Word) (x : Thread) : Nat := (x.reg (fieldA w) + sextImm w).toNat

/-- The key of a word of the supervisor's data memory. -/
def supKey (a : Nat) : Nat := spWord 0x04 0 + 0x80000 + a / 4 * 4

/-- A load from address a: the supervisor's memory at once; an engine's when it holds the line, which it else waits for. -/
def Dev.loadWord (d : Dev) (e t a : Nat) (k : Word → Dev → Dev) : Dev :=
  if e = supCore then
    if d.fault (supKey a) = 2 then d.raise (.chipFatal 0x06 0x40 a) else k (d.rd (supKey a)) d
  else if d.holdsLine e (a / 64) false then k (d.loadHeld e a) d
  else d.waitLine e t (a / 64) false

/-- A store to address a, of a value of the word's old one: performed on a line the engine owns (R463). -/
def Dev.storeWordAt (d : Dev) (e t a : Nat) (v : Word → Word) (k : Word → Dev → Dev) : Dev :=
  if e = supCore then k (d.rd (supKey a)) (d.wrMem (supKey a) (v (d.rd (supKey a))))
  else if d.holdsLine e (a / 64) true then
    let old := d.loadHeld e a
    k old (d.storeHeld e a (v old))
  else d.waitLine e t (a / 64) true

/-- A word access: misaligned is CAUSE 2, outside the space CAUSE 3. -/
def Dev.checkWord (d : Dev) (e t a size : Nat) (k : Dev → Dev) : Dev :=
  if a % 4 ≠ 0 then d.threadFault e t 2 else if size ≤ a then d.threadFault e t 3 else k d

/-- RDW, RDB, WRW, WRB and ATOM of a word fetched. -/
def Dev.memRun (d : Dev) (e t : Nat) (w : Word) (x : Thread) : Dev :=
  let a := accessAddr w x
  match opOf w with
  | 0x10 => d.checkWord e t a (dataSize e) (fun d => d.loadWord e t a (fun v d => d.result e t x (fieldD w) v))
  | 0x11 =>
    if dataSize e ≤ a then d.threadFault e t 3
    else d.loadWord e t a (fun v d => d.result e t x (fieldD w) (BitVec.ofNat 32 (bits v.toNat (8 * (a % 4)) 8)))
  | 0x12 => d.checkWord e t a (dataSize e) (fun d => d.storeWordAt e t a (fun _ => x.reg (fieldD w)) (fun _ d => d.complete e t x))
  | 0x13 =>
    if dataSize e ≤ a then d.threadFault e t 3
    else d.storeWordAt e t a (fun old => putByte old (a % 4) ((x.reg (fieldD w)).setWidth 8)) (fun _ d => d.complete e t x)
  | 0x1A =>
    let a := (x.reg (fieldA w)).toNat
    let b := x.reg (fieldB w)
    let f := fun (old : Word) => match fieldFn w with
      | 0 => old + b
      | 1 => b
      | 2 => if old = x.reg (fieldD w) then b else old
      | 3 => old ||| b
      | _ => old &&& b
    d.checkWord e t a (dataSize e) (fun d => d.storeWordAt e t a f (fun old d => d.result e t x (fieldD w) old))
  | _ => d

def Dev.rdw (d : Dev) (e t : Nat) : Dev := d.issue e t 0x10 (fun w x d => d.memRun e t w x)
def Dev.rdb (d : Dev) (e t : Nat) : Dev := d.issue e t 0x11 (fun w x d => d.memRun e t w x)
def Dev.wrw (d : Dev) (e t : Nat) : Dev := d.issue e t 0x12 (fun w x d => d.memRun e t w x)
def Dev.wrb (d : Dev) (e t : Nat) : Dev := d.issue e t 0x13 (fun w x d => d.memRun e t w x)
def Dev.atom (d : Dev) (e t : Nat) : Dev := d.issue e t 0x1A (fun w x d => d.memRun e t w x)

/-- RDS. -/
def Dev.rds (d : Dev) (e t : Nat) : Dev :=
  d.issue e t 0x14 (fun w x d =>
    let a := accessAddr w x
    d.checkWord e t a 1024 (fun d => d.result e t x (fieldD w) (x.scratchWord (a / 4))))

/-- WRS. -/
def Dev.wrs (d : Dev) (e t : Nat) : Dev :=
  d.issue e t 0x15 (fun w x d =>
    let a := accessAddr w x
    d.checkWord e t a 1024 (fun d => d.complete e t { x with scratch := Map.ins x.scratch (a / 4) (x.reg (fieldD w)) }))

/-- CRC-32C continued from a value (Table 11-5): from 0 it is the CRC-32C of the bytes. -/
def crcContinue (v : Nat) (l : List Byte) : Nat := (l.foldl (fun c b => crcBits 0x82F63B78 8 (c ^^^ b.toNat)) (v ^^^ 0xFFFFFFFF)) ^^^ 0xFFFFFFFF

/-- Bytes of a core's data space. -/
def Dev.coreBytes (d : Dev) (e a len : Nat) : List Byte :=
  if e = supCore then (List.range len).map (fun i => BitVec.ofNat 8 ((d.rd (supKey (a + i))).toNat / 256 ^ ((a + i) % 4)))
  else d.dataBytes (e / 8) a len

/-- CRC: over at most 9,216 bytes; for more the spec gives no result. -/
def Dev.crcInstr (d : Dev) (e t : Nat) : Dev :=
  d.issue e t 0x3B (fun w x d =>
    let a := (x.reg (fieldA w)).toNat
    let b := (x.reg (fieldB w)).toNat
    if 9216 < b then
      let r := d.fresh
      r.2.result e t x (fieldD w) r.1
    else if dataSize e < a + b then d.threadFault e t 3
    else d.result e t x (fieldD w) (BitVec.ofNat 32 (crcContinue (x.reg (fieldD w)).toNat (d.coreBytes e a b))))

/-! ## Tasks -/

/-- The task of a thread. -/
def Dev.taskOf (d : Dev) (e t : Nat) : Option Task :=
  match (d.thread e t).task with
  | some id => d.findTask (e / 16) id
  | none => none

/-- RDT. -/
def Dev.rdt (d : Dev) (e t : Nat) : Dev :=
  d.issue e t 0x18 (fun w x d =>
    d.result e t x (fieldD w) (BitVec.ofNat 32 (match d.taskOf e t with | some k => k.word (w.toNat % 16) | none => 0)))

/-- RDF: four frame bytes, the first in [31:24]; bytes beyond LENGTH read 0. -/
def Dev.rdf (d : Dev) (e t : Nat) : Dev :=
  d.issue e t 0x19 (fun w x d =>
    let a := accessAddr w x
    let b := match (if e = supCore then none else d.taskOf e t) with
      | some k => (match k.frame with | some f => (d.frameBytes (e / 16) f.head).take f.length | none => [])
      | none => []
    d.result e t x (fieldD w) (BitVec.ofNat 32 (beAt b a 4)))

/-- Stage an output of the thread's task: at most 4 SENDs and one disposition (R451). -/
def Dev.stage (d : Dev) (e t : Nat) (x : Thread) (o : Output) : Dev :=
  match d.taskOf e t with
  | none => d.complete e t x
  | some k =>
    let isSend := fun (o : Output) => match o with | .send .. => true | _ => false
    let n := (k.outputs.filter (fun p => isSend p == isSend o)).length
    if (if isSend o then 4 else 1) ≤ n then d.threadFault e t 4
    else (d.setTask (e / 16) { k with outputs := k.outputs ++ [o] }).complete e t x

/-- SEND (R456). -/
def Dev.sendInstr (d : Dev) (e t : Nat) : Dev :=
  d.issue e t 0x30 (fun w x d =>
    let a := (x.reg (fieldA w)).toNat
    let b := (x.reg (fieldB w)).toNat
    if 0x20000 < a + bits b 0 14 then d.threadFault e t 3 else d.stage e t x (.send a b (fieldFn w)))

/-- FWD. -/
def Dev.fwd (d : Dev) (e t : Nat) : Dev :=
  d.issue e t 0x31 (fun w x d =>
    let a := (x.reg (fieldA w)).toNat
    d.stage e t x (.fwd (bits a 0 12) (bits a 12 3)))

/-- DROP. -/
def Dev.dropInstr (d : Dev) (e t : Nat) : Dev := d.issue e t 0x32 (fun _ x d => d.stage e t x .drop)

/-- DONE (R450): the task completes with the clock, unless its block's restart begins in it (R478). -/
def Dev.doneInstr (d : Dev) (e t : Nat) : Dev := d.issue e t 0x33 (fun _ x d => (d.askTasks (.done e t x.task)).slotRetired e)

/-! ## The Loft from a thread -/

/-- The thread waits for the Loft, which takes its operation in its turn (R466). -/
def Dev.waitLoft (d : Dev) (e t : Nat) (x : Thread) (o : LoftTurn) : Dev :=
  (d.setThread e t { x with state := .wait, waits := some .loft }).askLoft o

/-- LFPUT (R468). On the supervisor core, which has no region, the spec gives it no Loft: its result is undefined there. -/
def Dev.lfput (d : Dev) (e t : Nat) : Dev :=
  d.issue e t 0x38 (fun w x d =>
    let b := (x.reg (fieldB w)).toNat
    let len := bits (x.reg (fieldA w)).toNat 16 9
    if e = supCore then
      let r := d.fresh
      r.2.result e t x (fieldD w) r.1
    else if len ≤ 256 ∧ 0x20000 < b + len then d.threadFault e t 3
    else d.waitLoft e t x (.put e t))

/-- LFGET (R470). -/
def Dev.lfget (d : Dev) (e t : Nat) : Dev :=
  d.issue e t 0x39 (fun w x d =>
    let b := (x.reg (fieldB w)).toNat
    if e = supCore then
      let r := d.fresh
      r.2.result e t x (fieldD w) r.1
    else if 0x20000 < b + 272 then d.threadFault e t 3
    else d.waitLoft e t x (.get e t))

/-- A free value is the result of a Loft operation whose slot's entry cannot be read: the spec gives none. -/
def Dev.freeResult (d : Dev) (e t r : Nat) (x : Thread) : Dev :=
  let v := d.fresh
  v.2.result e t x r v.1

/-- An LFPUT takes its turn (R468). -/
def Dev.putTurn (d : Dev) (e t : Nat) : Dev :=
  let x := { d.thread e t with waits := none }
  let w := d.fetch e x.pc
  let a := (x.reg (fieldA w)).toNat
  let b := (x.reg (fieldB w)).toNat
  let len := bits a 16 9
  let ok := d.loftTouch (e / 16) (bits a 0 13) false
  if !ok.1 then ok.2.freeResult e t (fieldD w) x
  else
    let r := ok.2.loftPut (e / 16) (bits a 0 13) (d.dataBytes (e / 8) b (min len 256)) len (x.reg 28).toNat (x.reg 29).toNat false
    r.2.result e t x (fieldD w) (BitVec.ofNat 32 r.1)

/-- An LFGET takes its turn (R470); a slot operated on before it in this clock made it wait (R466). -/
def Dev.getTurn (d : Dev) (e t : Nat) : Dev :=
  let x := { d.thread e t with waits := none }
  let w := d.fetch e x.pc
  let b := (x.reg (fieldB w)).toNat
  let s := bits (x.reg (fieldA w)).toNat 0 13
  let n := e / 16
  let d := d.when ((Map.get (fun _ => []) d.engine.loftBusy n).contains s) (·.bump (R.LOFT_GET_WAIT n))
  let ok := d.loftTouch n s true
  let d := (ok.2.loftUse n s).bump (R.LOFT_GET n)
  let g := d.loftGet n s
  let d := d.each (List.range 272) (fun i d => d.putDataByte (e / 8) (b + i) (g.1.getD i 0))
  if ok.1 then d.result e t x (fieldD w) (BitVec.ofNat 32 g.2) else d.freeResult e t (fieldD w) x

/-- The order of the operations of one clock (R466): configuration writes, LFPUTs in ascending engine number, mirrored updates, LFGETs. -/
def inLoftOrder (l : List LoftTurn) : List LoftTurn :=
  l.filter (fun x => match x with | .config .. => true | _ => false)
    ++ (List.range 64).flatMap (fun e => l.filter (fun x => match x with | .put f _ => f == e | _ => false))
    ++ l.filter (fun x => match x with | .twin .. => true | _ => false)
    ++ l.filter (fun x => match x with | .get .. => true | _ => false)

/-- An operation takes its turn; a thread's waits while the tables of its region are in restart, and is dropped with its thread. -/
def LoftTurn.act (o : LoftTurn) (d : Dev) : Dev :=
  let ofThread := fun (e t : Nat) (run : Dev → Dev) =>
    if (d.thread e t).waits != some .loft then d else if d.tablesUp (e / 16) then run d else d.askLoft o
  match o with
  | .config n s w v => d.loftIndexWrite n s w v
  | .put e t => ofThread e t (·.putTurn e t)
  | .twin n r => (d.loftPut n r.slot r.data r.length r.seq 0 true).2
  | .get e t => ofThread e t (·.getTurn e t)

/-- What the Loft does at the end of a clock (R466). -/
def Dev.loftEnd (d : Dev) : Dev :=
  let l := d.engine.loftTurns
  let d : Dev := { d with engine := { d.engine with loftTurns := [], loftBusy := [] } }
  d.each (inLoftOrder l) LoftTurn.act

/-! ## The directory (R461, R462) -/

/-- The threads of engine e that waited for a line perform their accesses. -/
def Dev.serveWaiting (d : Dev) (e l : Nat) : Dev :=
  d.each (List.range 8) (fun t d =>
    let x := d.thread e t
    match x.waits with
    | some (.line k own) =>
      if k = l && d.holdsLine e l own then d.memRun e t (d.fetch e x.pc) { x with state := .ready, waits := none } else d
    | _ => d)

/-- The directory serves the request that is next for line l of block k, if it is of the kind named and the engine's line
buffer has room. A word of the line that cannot be read is contained (R478). -/
def Dev.dirServe (d : Dev) (k l : Nat) (own : Bool) : Dev :=
  match d.nextReq k l with
  | none => d
  | some r =>
    if r.own ≠ own ∨ !d.lineRoom (8 * k + r.eng) l then d
    else
      let keys := (List.range 16).map (fun w => dataKey k (64 * l + 4 * w))
      match keys.find? (fun a => d.fault a = 2) with
      | some a => (d.bump (R.ENG_UNCORR k)).contained (k / 2) (4 + k % 2) r.eng (a % 65536)
      | none =>
        let bad := keys.filter (fun a => d.fault a = 1)
        let d := d.each bad (fun a d => (d.bump (R.ENG_CORR k)).corrected (k / 2) (4 + k % 2) (some a))
        (d.grantLine k r).serveWaiting (8 * k + r.eng) l

/-! ## Slot accounting, restarts, shedding -/

/-- The slot counters of a clock in which an engine issued nothing (R477). -/
def Dev.engineSlots (d : Dev) : Dev :=
  let issued := d.engine.issued
  let d := d.each (List.range 64) (fun e d =>
    if issued.testBit e || !d.regionEnabled (e / 16) || !(d.fget (R.ENG_BLK_CFG (e / 8)) R.ENG_BLK_CFG.EN).testBit (e % 8) then d
    else if (List.range 8).any (fun t => (d.thread e t).state == .wait) then d.bumpPerf (R.ENG_SLOT_BACK e)
    else d.bumpPerf (R.ENG_SLOT_FRONT e))
  { d with engine := { d.engine with issued := 0 } }

/-- The engines of block k. -/
def blockEngines (k : Nat) : List Nat := (List.range 8).map (fun i => 8 * k + i)

/-- A contained restart of engine block k begins (R478): its tasks return, its line buffers go, bad lines are zero. -/
def Dev.engineContained (d : Dev) (k : Nat) : Dev :=
  let d := d.each (blockEngines k) (fun e d => d.returnTasks e)
  (d.dropBuffers k).poisonLines k

/-- It ends: BOOT with CAUSE 3. -/
def Dev.engineRestarted (d : Dev) (k : Nat) : Dev :=
  (d.each (blockEngines k) (fun e d => d.bootEngine e 3)).setFlag (R.ENG_BLK_EVT k) R.ENG_BLK_EVT.RESTARTED true

/-- The engines of region n boot. -/
def Dev.bootRegion (d : Dev) (n cause : Nat) : Dev :=
  d.each ((List.range 16).map (fun i => 16 * n + i)) (fun e d => d.bootEngine e cause)

/-- The engines of a region at its restart or a warm start (R479): its tasks are discarded, the data caches kept. -/
def Dev.engineRestart (d : Dev) (n : Nat) : Dev :=
  let d := d.discardTasks n
  (d.dropBuffers (2 * n)).dropBuffers (2 * n + 1)

/-- At a cold start the block data caches are cleared as well. -/
def Dev.engineClear (d : Dev) (n : Nat) : Dev :=
  let d := d.engineRestart n
  let mine := fun (k : Nat) => [0x80, 0x81].any (fun c => decide (spWord c n ≤ k ∧ k < spWord c n + 0x20000))
  { d with regs := d.regs.filter (fun x => !mine x.1), faults := d.faults.filter (fun x => !mine x.1) }

/-- SHED-2 (R480): the engines it halts return their tasks, and queues with no engine left lose theirs. -/
def Dev.engineShed (d : Dev) : Dev :=
  let d := d.each ((List.range 64).filter (fun e => d.regionEnabled (e / 16) && d.shedHalted e)) (fun e d => d.returnTasks e)
  d.each ((List.range 4).filter (fun n => d.regionEnabled n)) (fun n d => d.shedTasks n)

/-- Leaving SHED-2 and deeper stages (R480): the engines that were halted boot with CAUSE 4. -/
def Dev.engineUnshed (d : Dev) : Dev :=
  d.each ((List.range 64).filter (fun e => d.regionEnabled (e / 16) && !d.loader.layout.keepEng.contains e))
    (fun e d => d.bootEngine e 4)

/-- ENG_CTL.HALT is set: every thread of the engine halts and its tasks return. -/
def Dev.engineHalt (d : Dev) (e : Nat) : Dev := d.returnTasks e

/-- STOP_ON_FAULT is cleared: threads halted by a fault are idle again (Table 11-1). -/
def Dev.faultHaltEnds (d : Dev) (k : Nat) : Dev :=
  d.each (blockEngines k) (fun e d => d.each (List.range 8) (fun t d =>
    if (d.thread e t).state == .halt then d.setThread e t Thread.init else d))

/-- The supervisor's watchdog counts anew, by the MS in force (R476). -/
def Dev.supKick (d : Dev) : Dev := d.arm ⟨.supWatchdog, 0, 0⟩ (d.fget R.SUP_WDOG R.SUP_WDOG.MS * ms)

/-- SUP_WATCHDOG_EXPIRY (R476): the supervisor, while it runs, has not kicked for MS; an MS of 0 disables the watchdog. -/
def Dev.supWatchdogExpiry (d : Dev) : Dev :=
  if d.due ⟨.supWatchdog, 0, 0⟩ && d.fget R.SUP_WDOG R.SUP_WDOG.MS != 0 && d.coreRuns supCore then
    ((d.disarm ⟨.supWatchdog, 0, 0⟩).setFlag R.SUP_STAT R.SUP_STAT.WDOG_EXPIRED true).raise (.chipFatal 0x05 0x40 0)
  else d

/-- The supervisor core starts: its registers, scratch and PC are not given. -/
def Dev.supervisorStart (d : Dev) : Dev :=
  let base := d.free
  let d := { d with free := d.free + 289 }
  (d.setThread supCore 0 { Thread.init with
    state := .ready, pc := (Config.freeValue (base + 288)).toNat % 65536, base := base }).supKick

end Sys2Proof.Machine
end

