-- ==== Sys2Proof/Machine/Host.lean ====
section
/-! DEFINITION. The PCIe host ports (chapter 13): instances and their resets, descriptor rings, transmit and receive,
messages to engines and MSI-X. -/

namespace Sys2Proof.Machine

/-- A transmit ring with nothing read. -/
def TxRing.init : TxRing := { slots := [], next := 0, fetching := false }

/-- Key of queue pair q of instance i of port n. -/
def qpKey (n i q : Nat) : Nat := 8 * (64 * n + i) + q

def Dev.txRing (d : Dev) (n i q : Nat) : TxRing := Map.get (fun _ => TxRing.init) d.host.rings (qpKey n i q)
def Dev.setTxRing (d : Dev) (n i q : Nat) (r : TxRing) : Dev :=
  { d with host := { d.host with rings := Map.put (fun _ => TxRing.init) d.host.rings (qpKey n i q) r } }
def Dev.hand (d : Dev) (n : Nat) : Option TxHand := Map.get (fun _ => none) d.host.hand n
def Dev.setHand (d : Dev) (n : Nat) (h : Option TxHand) : Dev :=
  { d with host := { d.host with hand := Map.put (fun _ => none) d.host.hand n h } }

/-- INSTANCE.MODE and COUNT of port n, and the queue pairs of an instance. -/
def Dev.hostMode (d : Dev) (n : Nat) : Nat := d.fget (R.HST_CFG n) R.HST_CFG.MODE
def Dev.hostCount (d : Dev) (n : Nat) : Nat := d.fget (R.HST_CFG n) R.HST_CFG.COUNT
def Dev.qpCount (d : Dev) (n i : Nat) : Nat := (d.rl n).qp.getD i 1

/-- Instance i exists: a slice of mode 1, the physical function, or an enabled virtual function (R525). -/
def Dev.instExists (d : Dev) (n i : Nat) : Bool :=
  let m := d.hostMode n
  decide (i < d.hostCount n) && (m == 1 || (m == 2 && (i == 0
    || (d.flag (R.HST_STAT n) R.HST_STAT.VF_ENABLE && decide (i ≤ d.fget (R.HST_STAT n) R.HST_STAT.NUM_VFS)))))

/-- An instance's page answers accesses (R526, R555). -/
def Dev.instServes (d : Dev) (n i : Nat) : Bool :=
  d.instExists n i && d.blockUp n 9 && !d.chip.state.starting && d.chip.state != .held
    && d.flag (R.HST_STAT n) R.HST_STAT.LINK_UP

/-- DMA of port n runs: its link is up, no stage has taken it down, its block and region work. -/
def Dev.dmaUp (d : Dev) (n : Nat) : Bool :=
  d.flag (R.HST_STAT n) R.HST_STAT.LINK_UP && !d.flag (R.HST_STAT n) R.HST_STAT.SHED && d.blockUp n 9 && d.chip.state != .held

/-- An instance's generation and whether it is ACTIVE. -/
def Dev.instGen (d : Dev) (n i : Nat) : Nat := d.fget (R.INST_STAT n i) R.INST_STAT.GEN
def Dev.instActive (d : Dev) (n i : Nat) : Bool := d.instState n i == 2

/-- The PASID prefix of an instance's requests (R529). -/
def Dev.pasid (d : Dev) (n i : Nat) : Option Nat :=
  if d.hostMode n = 1 && d.flag (R.HST_STAT n) R.HST_STAT.PASID_EN && d.flag (R.INSTE_PASID n i) R.INSTE_PASID.EN then
    some (d.fget (R.INSTE_PASID n i) R.INSTE_PASID.PASID)
  else none

/-! ## MSI-X (R548, R549) -/

/-- A message leaves; the chip's own, on entry 1,023 of a physical function, is counted (R604). -/
def Dev.msixOut (d : Dev) (n f e : Nat) : Dev :=
  (d.emit (.msix n f e)).when (f == 0 && e == 1023) (·.bump R.INT_MSI_SENT)

/-- An MSI-X message of entry e of function f of port n: sent, or pending while the entry is masked. -/
def Dev.msixSend (d : Dev) (n f e : Nat) : Dev :=
  let k := 65536 * n + 1024 * f + e
  if d.host.unmasked.contains k then d.msixOut n f e
  else if d.host.pendingBits.contains k then d
  else { d with host := { d.host with pendingBits := k :: d.host.pendingBits } }

/-- MSIX_UNMASK: host software unmasks an entry, and a pending message is sent. -/
def Dev.msixUnmask (d : Dev) (n f e : Nat) : Dev :=
  let k := 65536 * n + 1024 * f + e
  let was := d.host.pendingBits.contains k
  let d : Dev := { d with host := { d.host with
    unmasked := k :: d.host.unmasked.erase k, pendingBits := d.host.pendingBits.erase k } }
  d.when was (·.msixOut n f e)

/-- Vector k of instance i (R548): in mode 1 entry 9 i + k of the physical function, in mode 2 entry k of the instance's. -/
def Dev.vector (d : Dev) (n i k : Nat) : Dev := if d.hostMode n = 1 then d.msixSend n 0 (9 * i + k) else d.msixSend n i k

/-- Set an event bit of an instance; its event vector sends a message in each clock in which a bit that is enabled is set (R549). -/
def Dev.instEvt (d : Dev) (n i bit : Nat) : Dev :=
  let a := R.INST_EVT n i
  let d := d.wr a (BitVec.ofNat 32 (setBit (d.rd a).toNat bit true))
  d.when ((d.rd (R.INST_EVT_EN n i)).getLsbD bit && !d.clk.vectored.contains (n, i)) (fun d =>
    ({ d with clk := { d.clk with vectored := (n, i) :: d.clk.vectored } } : Dev).vector n i (d.qpCount n i))

/-- A queue pair's vector sends when its moderation is satisfied (R548). -/
def Dev.moderate (d : Dev) (n i q : Nat) (passed : Bool) : Dev :=
  let k := qpKey n i q
  let u := Map.get (fun _ => 0) d.host.unreported k
  let a := R.QP_IRQ n i q
  let usec := d.fget a R.QP_IRQ.USEC
  let t : TimerId := ⟨.msixModeration, 64 * n + i, q⟩
  if u = 0 ∨ !d.flag a R.QP_IRQ.EN then d
  else if max 1 (d.fget a R.QP_IRQ.COUNT) ≤ u ∨ usec = 0 ∨ passed then
    (({ d with host := { d.host with unreported := Map.put (fun _ => 0) d.host.unreported k 0 } } : Dev).disarm t).vector n i q
  else if d.armed t then d
  else d.arm t (usec * us)

/-- A write-back of queue pair q has been written. -/
def Dev.wroteBack (d : Dev) (n i q : Nat) : Dev :=
  let k := qpKey n i q
  let u := Map.get (fun _ => 0) d.host.unreported k
  ({ d with host := { d.host with unreported := Map.put (fun _ => 0) d.host.unreported k (u + 1) } } : Dev).moderate n i q false

/-- MSIX_MODERATION_EXPIRY (R548). -/
def Dev.moderationExpiry (d : Dev) (n i q : Nat) : Dev :=
  let t : TimerId := ⟨.msixModeration, 64 * n + i, q⟩
  if d.due t then (d.disarm t).moderate n i q true else d

/-! ## Rings (R536) -/

/-- log2 of a ring's slots: values outside 4 to 12 act as the nearer limit. -/
def ringBits (size : Nat) : Nat := min 12 (max 4 size)
def Dev.txSize (d : Dev) (n i q : Nat) : Nat := 2 ^ ringBits (d.fget (R.TXQ_CFG n i q) R.TXQ_CFG.SIZE)
def Dev.rxSize (d : Dev) (n i q : Nat) : Nat := 2 ^ ringBits (d.fget (R.RXQ_CFG n i q) R.RXQ_CFG.SIZE)
def Dev.txEnabled (d : Dev) (n i q : Nat) : Bool := d.flag (R.TXQ_CFG n i q) R.TXQ_CFG.EN
def Dev.rxEnabled (d : Dev) (n i q : Nat) : Bool := d.flag (R.RXQ_CFG n i q) R.RXQ_CFG.EN

/-- Host address of slot s of a ring. -/
def Dev.slotAddr (d : Dev) (lo hi s : Nat) : Nat := (d.rd lo).toNat / 64 * 64 + 2 ^ 32 * (d.rd hi).toNat + 32 * s
def Dev.txSlotAddr (d : Dev) (n i q s : Nat) : Nat := d.slotAddr (R.TXQ_BASE_LO n i q) (R.TXQ_BASE_HI n i q) s
def Dev.rxSlotAddr (d : Dev) (n i q s : Nat) : Nat := d.slotAddr (R.RXQ_BASE_LO n i q) (R.RXQ_BASE_HI n i q) s

/-- The timers of a queue pair's reads, by kind: 0 of a transmit descriptor, 1 of a transmit frame, 2 of receive descriptors. -/
def dmaTimer (n i q kind : Nat) : TimerId := ⟨.dmaTimeout, 64 * n + i, 3 * q + kind⟩

/-- What comes to a host port applies at the end of the clock. -/
def Dev.askHost (d : Dev) (t : HostTurn) : Dev := { d with clk := { d.clk with host := d.clk.host ++ [t] } }

/-- The slot a transmit ring's next descriptor read is for. -/
def Dev.fetchSlot (d : Dev) (n i q : Nat) : Option Nat :=
  let r := d.txRing n i q
  match r.slots.find? (fun s => s.phase == .again) with
  | some s => some s.slot
  | none => if r.next = (d.rd (R.TXQ_TAIL n i q)).toNat then none else some r.next

/-- A transmit ring with descriptors to read issues a read. -/
def Dev.kick (d : Dev) (n i q : Nat) : Dev :=
  let r := d.txRing n i q
  if r.fetching || !d.txEnabled n i q || !d.instActive n i || !d.dmaUp n then d
  else
    match d.fetchSlot n i q with
    | none => d
    | some s =>
      ((d.setTxRing n i q { r with fetching := true }).emit (.hostRead n i (d.pasid n i) (d.txSlotAddr n i q s) 32)).arm
        (dmaTimer n i q 0) (10 * ms)

/-- Change a slot of a transmit ring. -/
def Dev.modSlot (d : Dev) (n i q s : Nat) (f : TxSlot → TxSlot) : Dev :=
  let r := d.txRing n i q
  d.setTxRing n i q { r with slots := r.slots.map (fun x => if x.slot = s then f x else x) }

/-- TXQ_TAIL_WRITE (R536). -/
def Dev.txTail (d : Dev) (n i q v : Nat) : Dev :=
  if d.qpCount n i ≤ q || !d.instServes n i then d
  else if d.txSize n i q ≤ v % 4096 then d.instEvt n i 2
  else (d.wr (R.TXQ_TAIL n i q) (BitVec.ofNat 32 (v % 4096))).kick n i q

/-- RXQ_TAIL_WRITE (R536). -/
def Dev.rxTail (d : Dev) (n i q v : Nat) : Dev :=
  if d.qpCount n i ≤ q || !d.instServes n i then d
  else if d.rxSize n i q ≤ v % 4096 then d.instEvt n i 2
  else d.wr (R.RXQ_TAIL n i q) (BitVec.ofNat 32 (v % 4096))

/-- A write of TXQ_CFG (R536): SIZE changes only while EN is 0; EN going to 1 clears HEAD and TAIL. -/
def Dev.txCfgWrite (d : Dev) (n i q : Nat) (v : Word) : Dev :=
  let a := R.TXQ_CFG n i q
  let was := d.txEnabled n i q
  let d := d.wr a (if was then (d.rd a &&& 0xF#32) ||| (v &&& 0x10#32) else v &&& 0x1F#32)
  if d.txEnabled n i q && !was then
    ((d.wr (R.TXQ_HEAD n i q) 0).wr (R.TXQ_TAIL n i q) 0).setTxRing n i q TxRing.init
  else d

/-- A write of RXQ_CFG: SIZE and BUF change only while EN is 0. -/
def Dev.rxCfgWrite (d : Dev) (n i q : Nat) (v : Word) : Dev :=
  let a := R.RXQ_CFG n i q
  let was := d.rxEnabled n i q
  let d := d.wr a (if was then (d.rd a &&& 0x3F0F#32) ||| (v &&& 0x10#32) else v &&& 0x3F1F#32)
  if d.rxEnabled n i q && !was then (d.wr (R.RXQ_HEAD n i q) 0).wr (R.RXQ_TAIL n i q) 0 else d

/-! ## Transmit (R537 to R539) -/

/-- The round of a port's transmit rings: among instances first, then among an instance's queue pairs (R538). -/
def Dev.nextTurn (d : Dev) (n : Nat) : Option (Nat × Nat × TxSlot) :=
  let last := Map.get (fun _ => 511) d.host.turn n
  let first := fun (i q : Nat) => ((d.txRing n i q).slots.find? (fun s => s.phase == .again || s.phase == .turn || s.phase == .reading)).bind
    (fun s => if s.phase == .turn then some s else none)
  let ofInst := fun (i : Nat) =>
    let q0 := if i = last / 8 then last % 8 else 7
    ((List.range 8).map (fun k => (q0 + 1 + k) % 8)).findSome? (fun q => (first i q).map (fun s => (i, q, s)))
  if (Map.get (fun _ => none) d.host.hand n).isSome then none
  else ((List.range 64).map (fun k => (last / 8 + 1 + k) % 64)).findSome? ofInst

/-- A frame in hand ends: its slot takes a phase, and the hand is free. -/
def Dev.handDone (d : Dev) (n : Nat) (h : TxHand) (p : TxPhase) : Dev :=
  ((d.modSlot n h.inst h.qp h.slot (fun s => { s with phase := p })).disarm (dmaTimer n h.inst h.qp 1)).setHand n none

/-- The frame in hand has its landing charge, waits for it, or has lost its grains (R299, R303): with the charge its read is
issued. -/
def Dev.handLanded (d : Dev) (n : Nat) : Dev :=
  match d.hand n with
  | none => d
  | some h =>
    match (d.txRing n h.inst h.qp).slots.find? (fun s => s.slot == h.slot && s.phase == .turn) with
    | none => d
    | some s =>
      match d.frame.landing.find? (fun l => l.id == h.landing) with
      | none => d.handDone n h (.ready 2 none)
      | some l =>
        if l.waiting then d
        else
          ((d.modSlot n h.inst h.qp h.slot (fun s => { s with phase := .reading })).emit
            (.hostRead n h.inst (d.pasid n h.inst) s.addr s.length)).arm (dmaTimer n h.inst h.qp 1) (10 * ms)

/-- The port serves its transmit rings: the next frame takes its landing charge (R538, R302). -/
def Dev.txServe (d : Dev) (n : Nat) : Dev :=
  if !d.dmaUp n then d
  else
    match d.nextTurn n with
    | none => d
    | some (i, q, s) =>
      let id := d.newId
      let gen := d.instGen n i
      let l : Landing :=
        { id := id.1, origin := .host n i, region := n, src := 32, readyAtBegin := true, maxLen := s.length, cutAt := none,
          begunAt := d.now, looped := none, hash := none, fifoFull := false, stamps := [], need := grainsFor s.length, waiting := true, waitCounted := false, chargeCls := 0,
          pool := 0, minGr := 0, grains := [], head := [], ended := false, bytes := [], phase := .landing, pre := none,
          vote := none, computeFcs := true,
          tsReq := if s.tsReq then some { base := s.tb, owner := .ring n i q s.slot gen } else none,
          direct := s.direct.map (fun x => (x.1, some x.2)),
          notice := some { n := n, inst := i, qp := q, slot := s.slot, gen := gen } }
      let d : Dev := { id.2 with host := { id.2.host with turn := Map.put (fun _ => 511) id.2.host.turn n (8 * i + q) } }
      let d := (d.setHand n (some ⟨i, q, s.slot, l.id⟩)).addLanding l
      d.askGranary (.landing l.id)

/-- A completion of an instance that carries an earlier generation is discarded and counted (R533). -/
def Dev.staleCpl (d : Dev) (n i : Nat) : Dev := (d.bump (R.INST_STALE_CPL n i)).bump (R.HST_STALE_CPL n)

/-- A completion of a read of an instance (R533): one that carries an earlier generation is discarded; one that meets a reset in its clock is
discarded by the reset (R534). -/
def Dev.completes (d : Dev) (n i gen : Nat) (act : Dev → Dev) : Dev :=
  if gen ≠ d.instGen n i then d.staleCpl n i
  else
    let d : Dev := { d with clk := { d.clk with completed := (n, i) :: d.clk.completed } }
    if d.clk.host.contains (.reset n i) then d else act d

/-- The fields of a transmit descriptor (Table 13-5), and whether R537 accepts it. -/
def parseTx (w : List Word) (slot : Nat) (grant : Bool) : TxSlot × Bool :=
  let v := fun (k : Nat) => (w.getD k 0).toNat
  let len := bits (v 2) 0 14
  let direct := (v 2).testBit 17
  let dest := bits (v 4) 0 12
  let ok := len != 0 && decide (len ≤ 9216) && bits (v 2) 18 14 == 0 && bits (v 4) 15 17 == 0 && v 5 == 0 && v 6 == 0
    && v 7 == 0 && (if direct then grant && decide (dest < 134) else v 4 == 0)
  ({ slot := slot, addr := v 0 + 2 ^ 32 * v 1, length := len, tsReq := (v 2).testBit 14, tb := bits (v 2) 15 2,
     direct := if direct then some (dest, bits (v 4) 12 3) else none, cookie := v 3, phase := .turn }, ok)

/-- TX_DESCRIPTOR_FETCH (R537): the descriptor of a ring's outstanding read arrives. -/
def Dev.txDescriptor (d : Dev) (n i q gen : Nat) (w : List Word) : Dev :=
  d.completes n i gen fun d =>
    let r := d.txRing n i q
    match (if r.fetching && d.instActive n i then d.fetchSlot n i q else none) with
    | none => d
    | some s =>
      let p := parseTx w s (d.flag (R.INSTE_GRANT n i) R.INSTE_GRANT.DIRECT)
      let x := if p.2 then p.1 else { p.1 with phase := .ready 4 none }
      let known := r.slots.any (fun y => y.slot == s)
      let r' := { r with
        fetching := false, slots := if known then r.slots.map (fun y => if y.slot = s then x else y) else r.slots ++ [x],
        next := if known then r.next else (r.next + 1) % d.txSize n i q }
      let d := (d.setTxRing n i q r').disarm (dmaTimer n i q 0)
      let d := d.when (!p.2) (fun d => (d.bump (R.INST_DESC_ERR n i)).instEvt n i 2)
      (d.kick n i q).txServe n

/-- The address is in a valid MAC entry of the instance, or the instance does not check (R538). -/
def Dev.sourceAllowed (d : Dev) (n i : Nat) (b : List Byte) : Bool :=
  !d.flag (R.INSTE_FILT n i) R.INSTE_FILT.SA_CHECK || d.instHasMac n i (beAt b 6 6)

/-- TX_FRAME_READ_COMPLETE (R538): the frame in hand has been read, and enters the pipeline. -/
def Dev.txFrameRead (d : Dev) (n i gen : Nat) (b : List Byte) : Dev :=
  d.completes n i gen fun d =>
    match d.hand n with
    | none => d
    | some h =>
      match (d.txRing n i h.qp).slots.find? (fun s => s.slot == h.slot && s.phase == .reading),
            d.frame.landing.find? (fun l => l.id == h.landing) with
      | some s, some l =>
        if h.inst ≠ i ∨ b.length ≠ s.length then d
        else
          let d := d.handDone n h .entered
          let d :=
            if d.sourceAllowed n i b then
              let l := { l with ended := true, bytes := b, head := b.take 64, phase := .offered }
              let g := (d.setLanding l).growLanding l
              match g.1 with
              | some _ => g.2
              | none => g.2.tellSender l false
            else (d.bump (R.HST_TX_SPOOF n)).releaseLanding l
          d.txServe n
      | _, _ => d

/-- News of a host frame: accepted or discarded (R533, R539). -/
def Dev.txHeard (d : Dev) (x : TxNotice) (accepted : Bool) : Dev :=
  if x.gen ≠ d.instGen x.n x.inst then d.staleCpl x.n x.inst
  else
    match (d.txRing x.n x.inst x.qp).slots.find? (fun s => s.slot == x.slot && s.phase == .entered) with
    | none => d
    | some s =>
      let set := fun (p : TxPhase) (d : Dev) => d.modSlot x.n x.inst x.qp x.slot (fun s => { s with phase := p })
      if !accepted then set (.ready 2 none) d
      else
        let d := (d.bump (R.QP_TX_FRAMES x.n x.inst x.qp)).bump (R.QP_TX_BYTES x.n x.inst x.qp) s.length
        if s.tsReq then (set .stamp d).arm ⟨.tsWait, 64 * x.n + x.inst, 4096 * x.qp + x.slot⟩
          (max 1 (d.fget (R.HST_TIMING x.n) R.HST_TIMING.TS_WAIT_US) * us)
        else set (.ready 0 none) d

/-- A transmit timestamp returns, or the news that there is none (R150, R539). -/
def Dev.txStamped (d : Dev) (n i q s gen : Nat) (v : Option Nat) : Dev :=
  if gen ≠ d.instGen n i then d.staleCpl n i
  else
    match (d.txRing n i q).slots.find? (fun y => y.slot == s && y.phase == .stamp) with
    | none => d
    | some _ =>
      let p : TxPhase := match v with | some t => .ready 1 (some t) | none => .ready 3 none
      (d.modSlot n i q s (fun y => { y with phase := p })).disarm ⟨.tsWait, 64 * n + i, 4096 * q + s⟩

/-- TS_WAIT_EXPIRY (R539): the wait ends with the clock. -/
def Dev.tsWaitExpiry (d : Dev) (n i q s : Nat) : Dev :=
  d.when (d.due ⟨.tsWait, 64 * n + i, 4096 * q + s⟩) (·.askHost (.stampWait n i q s))

/-- The wait of a slot ends, unless a timestamp came in the same clock (R534). -/
def Dev.tsWaitEnd (d : Dev) (n i q s : Nat) : Dev :=
  let t : TimerId := ⟨.tsWait, 64 * n + i, 4096 * q + s⟩
  if d.stillDue t then
    (d.disarm t).modSlot n i q s (fun y => if y.phase = .stamp then { y with phase := .ready 3 none } else y)
  else d

/-- What the frame path has to tell the rings: acceptances, discards and timestamps, in order. -/
def Dev.hostNews (d : Dev) : Dev :=
  let heard := d.frame.heard
  let back := d.frame.tsBack.filter (fun x => match x.owner with | .ring .. => true | _ => false)
  let d : Dev := { d with frame := { d.frame with
    heard := [], tsBack := d.frame.tsBack.filter (fun x => match x.owner with | .ring .. => false | _ => true) } }
  let d := d.each heard (fun x d => d.txHeard x.1 x.2)
  d.each back (fun x d =>
    match x.owner with
    | .ring n i q s g => d.txStamped n i q s g x.stamp
    | _ => d)

/-- The words of a transmit write-back (Table 13-6). -/
def txWords (s : TxSlot) (status : Nat) (ts : Option Nat) (gen : Nat) : List Nat :=
  [ts.getD 0, (if ts.isSome then s.tb + 4 else 0) + status * 16, s.cookie, 0, 0, 0, 0, gen * 256 + 2 ^ 31]

/-- TX_WRITEBACK (R539): the ring's oldest slot receives its write-back, and HEAD advances. -/
def Dev.txWriteback (d : Dev) (n i q : Nat) : Dev :=
  if !d.dmaUp n || !(d.instActive n i || d.instState n i == 3) then d
  else
    let r := d.txRing n i q
    match r.slots with
    | [] => d
    | s :: rest =>
      match s.phase with
      | .ready status ts =>
        let w := (txWords s status ts (d.instGen n i)).flatMap (leBytes 4)
        let d := (d.emit (.hostWrite n i (d.pasid n i) (d.txSlotAddr n i q s.slot) w)).setTxRing n i q { r with slots := rest }
        let d := d.wr (R.TXQ_HEAD n i q) (BitVec.ofNat 32 ((s.slot + 1) % d.txSize n i q))
        let d := d.when (status == 2 || status == 4 || status == 5) (·.bump (R.QP_TX_DISCARDED n i q))
        d.wroteBack n i q
      | _ => d

/-! ## Receive (R541 to R546) -/

/-- Buffers for a frame's bytes from the descriptors at the head of a receive ring: each answers its distance from HEAD and
the address and bytes of its buffer, or none for a descriptor that is skipped (R541). -/
def placeBuffers (buf : Nat) : List (List Word) → Nat → List Byte → Option (List (Nat × Option (Nat × List Byte)))
  | _, _, [] => some []
  | [], _, _ :: _ => none
  | w :: rest, k, b =>
    let bad := (w.getD 0 0).toNat % 64 != 0 || (w.drop 2).any (· != 0)
    if bad then (placeBuffers buf rest (k + 1) b).map (fun l => (k, none) :: l)
    else (placeBuffers buf rest (k + 1) (b.drop buf)).map (fun l =>
      (k, some ((w.getD 0 0).toNat + 2 ^ 32 * (w.getD 1 0).toNat, b.take buf)) :: l)

/-- RXQ_CFG.BUF in bytes. -/
def Dev.rxBuf (d : Dev) (n i q : Nat) : Nat :=
  let k := d.fget (R.RXQ_CFG n i q) R.RXQ_CFG.BUF
  256 * (if k = 0 then 64 else k)

/-- Descriptors posted on a receive ring. -/
def Dev.rxPosted (d : Dev) (n i q : Nat) : Nat :=
  let size := d.rxSize n i q
  ((d.rd (R.RXQ_TAIL n i q)).toNat + size - (d.rd (R.RXQ_HEAD n i q)).toNat % size) % size

/-- The frame's bytes as the host receives them: without FCS, with the tag changes of its target. -/
def HostFrame.body (h : HostFrame) : List Byte :=
  let b := if h.descr.computeFcs then h.bytes else h.bytes.take (h.bytes.length - 4)
  applyDei h.descr (applyTag h.descr b)

/-- The frame at the head of a queue pair. -/
def Dev.rxHead (d : Dev) (n i q : Nat) : Option HostFrame := (d.hostFrames n).find? (fun h => h.recipients.contains (i, q))

/-- A frame at the head of a queue pair has to wait (R545). -/
def Dev.rxWaits (d : Dev) (n i q : Nat) (h : HostFrame) : Bool :=
  !d.rxEnabled n i q || !d.instActive n i
    || decide (d.rxPosted n i q * d.rxBuf n i q < h.descr.length - (if h.descr.computeFcs then 0 else 4))

/-- An earlier guarded frame of the lane holds the frame back (R546). -/
def Dev.laneHolds (d : Dev) (n : Nat) (h : HostFrame) : Bool :=
  h.descr.guarded && (d.hostFrames n).any (fun y => y.descr.guarded && y.descr.ingress == h.descr.ingress && y.descr.cls == h.descr.cls
    && y.descr.uid != h.descr.uid && seqAfter 32 h.descr.seq y.descr.seq)

/-- The wait of R545 runs for each queue pair whose head is a waiting frame that is not guarded. -/
def Dev.refreshRxWait (d : Dev) (n : Nat) : Dev :=
  let limit := d.fget (R.HST_TIMING n) R.HST_TIMING.RX_WAIT_US
  let pairs := ((d.hostFrames n).flatMap (·.recipients)).eraseDups
  let stale := d.timers.filter (fun x => x.1.kind == .rxWait && x.1.a / 64 == n && !pairs.contains (x.1.a % 64, x.1.b))
  let d := d.each stale (fun x d => d.disarm x.1)
  d.each pairs (fun p d =>
    let t : TimerId := ⟨.rxWait, 64 * n + p.1, p.2⟩
    match d.rxHead n p.1 p.2 with
    | some h =>
      if !h.descr.guarded && d.rxWaits n p.1 p.2 h && limit != 0 then (if d.armed t then d else d.arm t (limit * us)) else d.disarm t
    | none => d)

/-! ### The order of service (R546) -/

def Dev.rxHand (d : Dev) (n : Nat) : Option (Nat × Nat × Nat) := Map.get (fun _ => none) d.host.rxHand n
def Dev.setRxHand (d : Dev) (n : Nat) (h : Option (Nat × Nat × Nat)) : Dev :=
  { d with host := { d.host with rxHand := Map.put (fun _ => none) d.host.rxHand n h } }

/-- The frame that a queue pair has ready: its head, read from its grains, that nothing holds back. -/
def Dev.rxReady (d : Dev) (n i q : Nat) : Option HostFrame :=
  (d.rxHead n i q).filter (fun h => h.readsLeft == 0 && !d.rxWaits n i q h && !d.laneHolds n h)

/-- The queue pair with a frame ready whose turn it is: among instances first, then among an instance's queue pairs. -/
def Dev.rxNext (d : Dev) (n : Nat) : Option (Nat × Nat × HostFrame) :=
  let last := Map.get (fun _ => 511) d.host.rxTurn n
  let ofInst := fun (i : Nat) =>
    let q0 := if i = last / 8 then last % 8 else 7
    ((List.range 8).map (fun k => (q0 + 1 + k) % 8)).findSome? (fun q => (d.rxReady n i q).map (fun h => (i, q, h)))
  ((List.range 64).map (fun k => (last / 8 + 1 + k) % 64)).findSome? ofInst

/-- The port takes the next frame in hand: the read of the descriptors it needs is issued. -/
def Dev.rxTake (d : Dev) (n : Nat) : Dev :=
  match d.rxNext n with
  | none => d
  | some (i, q, h) =>
    let need := (h.body.length + d.rxBuf n i q - 1) / d.rxBuf n i q
    let d : Dev := { d with host := { d.host with rxTurn := Map.put (fun _ => 511) d.host.rxTurn n (8 * i + q) } }
    ((d.setRxHand n (some (i, q, h.descr.uid))).emit
      (.hostRead n i (d.pasid n i) (d.rxSlotAddr n i q (d.rd (R.RXQ_HEAD n i q)).toNat) (32 * need))).arm
      (dmaTimer n i q 2) (10 * ms)

/-- The frame in hand goes from it. -/
def Dev.rxDrop (d : Dev) (n : Nat) : Dev :=
  match d.rxHand n with
  | some (i, q, _) => (d.disarm (dmaTimer n i q 2)).setRxHand n none
  | none => d

/-- The port serves its queue pairs (R546): a frame that is no longer ready goes from its hand, and an empty hand takes the next. -/
def Dev.rxServe (d : Dev) (n : Nat) : Dev :=
  let keeps := match d.rxHand n with
    | some (i, q, uid) => d.dmaUp n && (match d.rxReady n i q with | some h => h.descr.uid == uid | none => false)
    | none => false
  if keeps then d
  else
    let d := d.rxDrop n
    d.when (d.dmaUp n) (·.rxTake n)

/-- A recipient has taken a frame, or loses it. -/
def Dev.recipientDone (d : Dev) (n uid i q : Nat) (took : Bool) : Dev :=
  let d := d.setHostFrames n ((d.hostFrames n).map (fun h =>
    if h.descr.uid = uid then { h with recipients := h.recipients.erase (i, q), handed := h.handed || took } else h))
  (d.hostSettle n ((d.hostFrames n).length + 1)).disarm ⟨.rxWait, 64 * n + i, q⟩

/-- The words of a receive write-back (Table 13-7): words 1 to 6 only at EOP. -/
def rxWords (x : Descr) (len total gen : Nat) (sop eop : Bool) : List Nat :=
  let w0 := len + b2n sop * 2 ^ 14 + b2n eop * 2 ^ 15 + x.cls * 2 ^ 16 + x.dec.colour * 2 ^ 19 + b2n x.guarded * 2 ^ 21
    + b2n x.cong * 2 ^ 22 + b2n x.dec.xtrunc * 2 ^ 23
  let ts := x.stamps.head?
  let tail := if eop then
      [(ts.map (·.2)).getD 0, (match ts with | some t => t.1 + 4 | none => 0) + x.dec.tag * 65536,
       x.dec.vid + x.dec.pattern % 16384 * 65536, if x.guarded then x.seq else 0, x.origin.destCode.getD 0x0FF, total]
    else [0, 0, 0, 0, 0, 0]
  [w0] ++ tail ++ [gen * 256 + 2 ^ 31]

/-- RX_HANDOVER (R542): the frame at the head of a queue pair is written into the buffers of the descriptors read, each
buffer before its write-back, and handed over with its EOP write-back. -/
def Dev.rxHandover (d : Dev) (n i q : Nat) (descs : List (List Word)) : Dev :=
  match d.rxHead n i q with
  | none => d
  | some h =>
    if (d.rxReady n i q).isNone || !d.dmaUp n || d.rxHand n ≠ some (i, q, h.descr.uid) then d
    else
      let b := h.body
      match placeBuffers (d.rxBuf n i q) (descs.take (d.rxPosted n i q)) 0 b with
      | none => d
      | some places =>
        let head := (d.rd (R.RXQ_HEAD n i q)).toNat
        let size := d.rxSize n i q
        let gen := d.instGen n i
        let good := places.filterMap (fun x => if x.2.isSome then some x.1 else none)
        let d := d.each places (fun x d =>
          let a := d.rxSlotAddr n i q ((head + x.1) % size)
          let d :=
            match x.2 with
            | some (addr, part) =>
              let w := rxWords h.descr part.length b.length gen (good.head? == some x.1) (good.getLast? == some x.1)
              (d.emit (.hostWrite n i (d.pasid n i) addr part)).emit (.hostWrite n i (d.pasid n i) a (w.flatMap (leBytes 4)))
            | none =>
              let w := [2 ^ 24, 0, 0, 0, 0, 0, 0, gen * 256 + 2 ^ 31]
              (d.emit (.hostWrite n i (d.pasid n i) a (w.flatMap (leBytes 4)))).instEvt n i 2
          d.wroteBack n i q)
        let d := (d.rxDrop n).wr (R.RXQ_HEAD n i q) (BitVec.ofNat 32 ((head + places.length) % size))
        let d := (d.bump (R.QP_RX_FRAMES n i q)).bump (R.QP_RX_BYTES n i q) b.length
        (d.recipientDone n h.descr.uid i q true).refreshRxWait n

/-- RX_WAIT_EXPIRY (R545). -/
def Dev.rxWaitExpiry (d : Dev) (n i q : Nat) : Dev :=
  if d.due ⟨.rxWait, 64 * n + i, q⟩ then
    match d.rxHead n i q with
    | some h =>
      if h.descr.guarded then d
      else ((d.bump (R.QP_RX_NODESC_DROP n i q)).recipientDone n h.descr.uid i q false).refreshRxWait n
    | none => d
  else d

/-! ## Instance life (R530 to R535) -/

/-- Unlist the words of an instance page whose offset meets a condition, so that they hold their Cold values. -/
def Dev.instPageCold (d : Dev) (n i : Nat) (p : Nat → Bool) : Dev :=
  let a := instPage n i
  let mine := fun (k : Nat) => decide (a ≤ k ∧ k < a + 0x400) && p (k - a)
  { d with regs := d.regs.filter (fun x => !mine x.1), cellCtl := d.cellCtl.filter (fun x => !mine x.1) }

/-- A landing frame of an instance goes without news to its ring. -/
def Dev.dropHostLanding (d : Dev) (p : Landing → Bool) : Dev :=
  d.each (d.frame.landing.filter (fun l => p l)) (fun l d =>
    let d : Dev := { d with frame := { d.frame with votes := d.frame.votes.map (fun v => (v.1, v.2.filter (· != l.id))) } }
    d.releaseLanding { l with notice := none })

/-- What an instance has under way is discarded: rings, waiting frames, timers, messages (R532). -/
def Dev.instDiscard (d : Dev) (n i : Nat) : Dev :=
  let d := d.askTasks (.posted n i)
  let d := d.dropHostLanding (fun l => l.origin == .host n i)
  let d := match d.hand n with
    | some h => if h.inst = i then d.setHand n none else d
    | none => d
  let mine := fun (k : Nat) => k / 8 == 64 * n + i
  let d : Dev := { d with
    host := { d.host with rings := d.host.rings.filter (fun x => !mine x.1), unreported := d.host.unreported.filter (fun x => !mine x.1) },
    timers := d.timers.filter (fun x => !((x.1.kind == .dmaTimeout || x.1.kind == .tsWait || x.1.kind == .rxWait
      || x.1.kind == .msixModeration) && x.1.a == 64 * n + i)) }
  let hit := (d.hostFrames n).filter (fun h => h.recipients.any (fun r => r.1 == i))
  d.each hit (fun h d =>
    let left := h.recipients.filter (fun r => r.1 != i)
    let d := d.setHostFrames n ((d.hostFrames n).map (fun y => if y.descr.uid = h.descr.uid then { y with recipients := left } else y))
    let d := d.when (left.isEmpty && !h.descr.guarded && !h.handed) (·.bump (R.HST_RESET_DROP n))
    d.hostSettle n ((d.hostFrames n).length + 1))

/-- An instance reset (R531, R532): one reset while RESETTING. -/
def Dev.instReset (d : Dev) (n i : Nat) : Dev :=
  if d.instState n i = 0 ∨ d.instState n i = 1 then d
  else
    let a := R.INST_STAT n i
    let d := (d.fset a R.INST_STAT.STATE 1).fset a R.INST_STAT.GEN (d.instGen n i + 1)
    let d := (d.fset a R.INST_STAT.ERR_CAUSE 0).bump (R.HST_INST_RESETS n)
    let d := d.instDiscard n i
    let d := d.instPageCold n i (fun o => decide (0x0C ≤ o ∧ o < 0x18 ∨ 0x40 ≤ o))
    (d.each (d.clk.completed.filter (· == (n, i))) (fun _ d => d.staleCpl n i)).txServe n

/-- An instance's reset begins with the end of this clock: several causes make one (R531), and what the instance did in this clock came
before (R534). -/
def Dev.askReset (d : Dev) (n i : Nat) : Dev :=
  d.when (d.instState n i != 0 && d.instState n i != 1) (·.askHost (.reset n i))

/-- INST_RESET_COMPLETE (R532). -/
def Dev.instResetDone (d : Dev) (n i : Nat) : Dev :=
  if d.instState n i = 1 then (d.fset (R.INST_STAT n i) R.INST_STAT.STATE 2).instEvt n i 0 else d

/-- INST_CTL.RESET through the instance's own page. -/
def Dev.instCtlReset (d : Dev) (n i : Nat) : Dev := if d.instServes n i then d.askReset n i else d

/-- Bring the states of a port's instances in line with what exists (Table 13-4): one newly enabled is RESETTING, one that
ceases to exist is DISABLED. -/
def Dev.instEnable (d : Dev) (n : Nat) : Dev :=
  d.each (List.range 64) (fun i d =>
    let s := d.instState n i
    if d.instExists n i then (if s = 0 then d.fset (R.INST_STAT n i) R.INST_STAT.STATE 1 else d)
    else if s = 0 then d
    else (d.instReset n i).fset (R.INST_STAT n i) R.INST_STAT.STATE 0)

/-- A port reset (R524): every instance is reset. -/
def Dev.portReset (d : Dev) (n : Nat) : Dev :=
  (d.each (List.range 64) (fun i d => d.askReset n i)).setFlag (R.HST_EVT n) R.HST_EVT.PORT_RESET true

/-- The link leaves DL_Active: the port is not ready (R543). -/
def Dev.hostLinkGone (d : Dev) (n : Nat) : Dev :=
  if d.flag (R.HST_STAT n) R.HST_STAT.LINK_UP then
    ((d.setFlag (R.HST_STAT n) R.HST_STAT.LINK_UP false).setFlag (R.HST_EVT n) R.HST_EVT.LINK_DOWN true).hostNotReady n
  else d

/-- PCIE_PERST: the link and the configuration space are reset too. -/
def Dev.pciePerst (d : Dev) (n : Nat) : Dev :=
  let d := d.hostLinkGone n
  let a := R.HST_STAT n
  let d := ((d.setFlag a R.HST_STAT.VF_ENABLE false).fset a R.HST_STAT.NUM_VFS 0).setFlag a R.HST_STAT.PASID_EN false
  let mine := fun (k : Nat) => k / 65536 == n
  let d : Dev := { d with host := { d.host with
    unmasked := d.host.unmasked.filter (fun k => !mine k), pendingBits := d.host.pendingBits.filter (fun k => !mine k) } }
  (d.portReset n).askHost (.enable n)

/-- PCIE_LINK_DOWN: a port reset, unless a shedding stage disables the link. -/
def Dev.pcieLinkDown (d : Dev) (n : Nat) : Dev :=
  if !d.flag (R.HST_STAT n) R.HST_STAT.LINK_UP then d
  else
    let d := d.hostLinkGone n
    if d.flag (R.HST_STAT n) R.HST_STAT.SHED then d else d.portReset n

/-- PF_FLR: a port reset that also clears VF Enable. -/
def Dev.pfFlr (d : Dev) (n : Nat) : Dev :=
  ((d.setFlag (R.HST_STAT n) R.HST_STAT.VF_ENABLE false).portReset n).askHost (.enable n)

/-- VF_FLR: that instance alone. -/
def Dev.vfFlr (d : Dev) (n i : Nat) : Dev := if d.hostMode n = 2 ∧ i ≠ 0 then d.askReset n i else d

/-- The reads of a queue pair: of a transmit descriptor, of a transmit frame, of receive descriptors. -/
def Dev.readFails (d : Dev) (n i q kind : Nat) : Option Dev :=
  match kind with
  | 0 =>
    let r := d.txRing n i q
    if r.fetching then some ((d.setTxRing n i q { r with fetching := false }).disarm (dmaTimer n i q 0)) else none
  | 1 =>
    match d.hand n with
    | some h =>
      if h.inst = i ∧ h.qp = q ∧ (d.txRing n i q).slots.any (fun s => s.slot == h.slot && s.phase == .reading) then
        some ((d.dropHostLanding (fun l => l.id == h.landing)).handDone n h (.ready 5 none))
      else none
    | none => none
  | _ => if (d.rxHand n).any (fun h => h.1 == i && h.2.1 == q) then some (d.rxDrop n) else none

/-- A DMA request of an instance ends in an error (R535). -/
def Dev.dmaError (d : Dev) (n i q kind gen cause : Nat) : Dev :=
  d.completes n i gen fun d =>
    match (if d.instState n i = 2 ∨ d.instState n i = 3 then d.readFails n i q kind else none) with
    | none => d
    | some d =>
      let a := R.INST_STAT n i
      let d := (d.fset a R.INST_STAT.STATE 3).fset a R.INST_STAT.ERR_CAUSE cause
      let d := ((d.bump (R.INST_DMA_ERR n i)).bump (R.HST_DMA_ERR n)).setFlag (R.HST_EVT n) R.HST_EVT.DMA_ERR true
      ((d.instEvt n i 1).txServe n).refreshRxWait n

/-- DMA_COMPLETION_TIMEOUT (R535): no completion within 10 ms. -/
def Dev.dmaTimeout (d : Dev) (n i q kind : Nat) : Dev :=
  if d.due (dmaTimer n i q kind) then (d.disarm (dmaTimer n i q kind)).dmaError n i q kind (d.instGen n i) 4 else d

/-- INST_MSG_SEND (R547): a HOSTMSG task for INSTE_MSGQ of the instance's region. -/
def Dev.instMsg (d : Dev) (n i : Nat) : Dev :=
  if !d.instServes n i || d.flag (R.INST_STAT n i) R.INST_STAT.MSG_BUSY then d
  else if !d.flag (R.INSTE_GRANT n i) R.INSTE_GRANT.MSG || !(d.rl n).engFw then d.bump (R.INST_MSG_REFUSED n i)
  else
    let body := (List.range 4).map (fun w => (d.rd (R.INST_MSG n i w)).toNat)
    let d : Dev := { d.setFlag (R.INST_STAT n i) R.INST_STAT.MSG_BUSY true with clk := { d.clk with posted := (n, i) :: d.clk.posted } }
    d.enterTask n (d.fget (R.INSTE_MSGQ n i) R.INSTE_MSGQ.QUEUE)
      (Task.make 4 (bodyWords (i + d.instGen n i * 256) 0 body) none (some i))

/-! ## Configuration and events (R521 to R523, R553 to R555) -/

/-- PCIE_CONFIG_REQUEST (R522, R523): a read of dword `reg` of a function's configuration space, or a write that sets VF
Enable and NumVFs or PASID Enable; before READY at a cold start, and for 50 ms of a RESET_N low (R571), it is answered with
retry status. -/
def Dev.pcieConfig (d : Dev) (n : Nat) (r : PcieConfig) : Dev :=
  if d.chip.state == .held && d.armed ⟨.resetSafe, 0, 0⟩ && d.hostPowered n then d.emit (.cfgCompletion n true 0)
  else if d.chip.state == .held || d.chip.state == .off || !d.hostPowered n then d
  else if !d.flag (R.HST_STAT n) R.HST_STAT.READY then (d.bump (R.HST_CFG_RETRY n)).emit (.cfgCompletion n true 0)
  else
    let vendor := Config.pciVendor.toNat
    match r with
    | .deviceId vf => d.emit (.cfgCompletion n false (vendor + (if vf then 0x9665 else 0x9664) * 65536))
    | .classRev => d.emit (.cfgCompletion n false (0x02800000 + d.fget R.ID_DEVICE R.ID_DEVICE.REV))
    | .vfCounts => d.emit (.cfgCompletion n false ((d.hostCount n - 1) * 65537))
    | .vfOffsetStride => d.emit (.cfgCompletion n false 0x00010001)
    | .vfControl en num =>
      let a := R.HST_STAT n
      let two := d.hostMode n == 2
      let d := (d.setFlag a R.HST_STAT.VF_ENABLE (en && two)).fset a R.HST_STAT.NUM_VFS
        (if two then min num.toNat (d.hostCount n - 1) else 0)
      (d.askHost (.enable n)).emit (.cfgCompletion n false 0)
    | .pasidEnable en =>
      (d.setFlag (R.HST_STAT n) R.HST_STAT.PASID_EN (en && d.hostMode n == 1)).emit (.cfgCompletion n false 0)

/-- PCIE_LINK_UP (R543). -/
def Dev.pcieLinkUp (d : Dev) (n speed width : Nat) : Dev :=
  let a := R.HST_STAT n
  if d.chip.state == .held || d.chip.state == .off || !d.hostPowered n || d.flag a R.HST_STAT.SHED then d
  else
    let d := ((d.setFlag a R.HST_STAT.LINK_UP true).fset a R.HST_STAT.SPEED speed).fset a R.HST_STAT.WIDTH width
    d.setFlag (R.HST_EVT n) R.HST_EVT.LINK_UP true

/-- Reads outstanding at a restart or a shedding stage are void, and the rings go back to their oldest slots without a
write-back: an accepted frame's slot keeps OK, or is TS_MISSED when it asked for a timestamp, the others are read again (R554). -/
def Dev.hostVoid (d : Dev) (n : Nat) : Dev :=
  let d := d.hostNews.rxDrop n
  let d := (d.dropHostLanding (fun l => match l.origin with | .host m _ => m == n | _ => false)).setHand n none
  let back := fun (s : TxSlot) =>
    match s.phase with
    | .ready 0 _ => s
    | .ready 1 _ | .ready 3 _ | .stamp => { s with phase := .ready 3 none }
    | _ => { s with phase := .again }
  { d with
    host := { d.host with rings := d.host.rings.map (fun x =>
      if x.1 / 512 = n then (x.1, { x.2 with fetching := false, slots := x.2.slots.map back }) else x) },
    frame := { d.frame with heard := d.frame.heard.filter (fun x => x.1.n != n) },
    timers := d.timers.filter (fun x => !((x.1.kind == .dmaTimeout || x.1.kind == .tsWait) && x.1.a / 64 == n)) }

/-- A contained restart of the host block (Table 13-8): frames waiting for instances are read again. -/
def Dev.hostContained (d : Dev) (n : Nat) : Dev :=
  let d := d.hostVoid n
  let d := d.setHostFrames n ((d.hostFrames n).map (fun h => { h with bytes := [], readsLeft := h.descr.grains, reread := false }))
  d.setFlag (R.HST_STAT n) R.HST_STAT.RESTART true

/-- Every ACTIVE instance sets RESUMED (R553, R555). -/
def Dev.hostResumed (d : Dev) (n : Nat) : Dev :=
  d.each ((List.range 64).filter (fun i => d.instActive n i)) (fun i d => d.instEvt n i 3)

/-- The host block works again after its restart: the frames that wait are read again. -/
def Dev.hostRestarted (d : Dev) (n : Nat) : Dev :=
  let d := d.setFlag (R.HST_STAT n) R.HST_STAT.RESTART false
  let d := d.each (d.hostFrames n) (fun h d => d.readFrame n 9 h.descr.owner h.descr.head h.descr.grains (.host h.descr.uid))
  d.hostResumed n

/-- A shedding stage takes port n down (R553): the link is disabled, no instance is reset. -/
def Dev.hostShed (d : Dev) (n : Nat) : Dev := ((d.setFlag (R.HST_STAT n) R.HST_STAT.SHED true).hostLinkGone n).hostVoid n

/-- The stage is left: the link retrains, and the instances resume. -/
def Dev.hostUnshed (d : Dev) (n : Nat) : Dev := (d.setFlag (R.HST_STAT n) R.HST_STAT.SHED false).hostResumed n

/-- The chip enters HELD: the link is down and the instances are lost. -/
def Dev.hostHeld (d : Dev) (n : Nat) : Dev :=
  let d := (d.hostLinkGone n).hostVoid n
  d.each (List.range 64) (fun i d => (d.instDiscard n i).instPageCold n i (fun _ => true))

/-! ## The end of a clock (R534) -/

/-- What came to the host ports in a clock applies: each reset asked once, then the functions that exist, then the waits that end; messages
posted have left. -/
def Dev.hostEnd (d : Dev) : Dev :=
  let l := d.clk.host.eraseDups
  let posted := d.clk.posted
  let d := d.each l (fun t d => match t with | .reset n i => d.instReset n i | _ => d)
  let d := d.each l (fun t d => match t with | .enable n => d.instEnable n | _ => d)
  let d := d.each l (fun t d => match t with | .stampWait n i q s => d.tsWaitEnd n i q s | _ => d)
  let d := d.each posted (fun p d => d.setFlag (R.INST_STAT p.1 p.2) R.INST_STAT.MSG_BUSY false)
  { d with clk := { d.clk with host := [], posted := [], completed := [] } }

end Sys2Proof.Machine
end

