-- ==== Sys2Proof/Machine/Crypto.lean ====
section
/-! DEFINITION. The digest and the signature that the loader checks (R95): SHA-384 and ECDSA over P-384. The spec names both
and gives neither, so both are PRESUMED as FIPS 180-4 and FIPS 186 define them (assumption log 24). -/

namespace Sys2Proof.Machine

/-- The first forty round constants of SHA-384. -/
def sha384K0 : List Nat := [0x428A2F98D728AE22, 0x7137449123EF65CD, 0xB5C0FBCFEC4D3B2F, 0xE9B5DBA58189DBBC,
  0x3956C25BF348B538, 0x59F111F1B605D019, 0x923F82A4AF194F9B, 0xAB1C5ED5DA6D8118,
  0xD807AA98A3030242, 0x12835B0145706FBE, 0x243185BE4EE4B28C, 0x550C7DC3D5FFB4E2,
  0x72BE5D74F27B896F, 0x80DEB1FE3B1696B1, 0x9BDC06A725C71235, 0xC19BF174CF692694,
  0xE49B69C19EF14AD2, 0xEFBE4786384F25E3, 0x0FC19DC68B8CD5B5, 0x240CA1CC77AC9C65,
  0x2DE92C6F592B0275, 0x4A7484AA6EA6E483, 0x5CB0A9DCBD41FBD4, 0x76F988DA831153B5,
  0x983E5152EE66DFAB, 0xA831C66D2DB43210, 0xB00327C898FB213F, 0xBF597FC7BEEF0EE4,
  0xC6E00BF33DA88FC2, 0xD5A79147930AA725, 0x06CA6351E003826F, 0x142929670A0E6E70,
  0x27B70A8546D22FFC, 0x2E1B21385C26C926, 0x4D2C6DFC5AC42AED, 0x53380D139D95B3DF,
  0x650A73548BAF63DE, 0x766A0ABB3C77B2A8, 0x81C2C92E47EDAEE6, 0x92722C851482353B]

/-- The last forty round constants of SHA-384. -/
def sha384K1 : List Nat := [0xA2BFE8A14CF10364, 0xA81A664BBC423001, 0xC24B8B70D0F89791, 0xC76C51A30654BE30,
  0xD192E819D6EF5218, 0xD69906245565A910, 0xF40E35855771202A, 0x106AA07032BBD1B8,
  0x19A4C116B8D2D0C8, 0x1E376C085141AB53, 0x2748774CDF8EEB99, 0x34B0BCB5E19B48A8,
  0x391C0CB3C5C95A63, 0x4ED8AA4AE3418ACB, 0x5B9CCA4F7763E373, 0x682E6FF3D6B2B8A3,
  0x748F82EE5DEFB2FC, 0x78A5636F43172F60, 0x84C87814A1F0AB72, 0x8CC702081A6439EC,
  0x90BEFFFA23631E28, 0xA4506CEBDE82BDE9, 0xBEF9A3F7B2C67915, 0xC67178F2E372532B,
  0xCA273ECEEA26619C, 0xD186B8C721C0C207, 0xEADA7DD6CDE0EB1E, 0xF57D4F7FEE6ED178,
  0x06F067AA72176FBA, 0x0A637DC5A2C898A6, 0x113F9804BEF90DAE, 0x1B710B35131C471B,
  0x28DB77F523047D84, 0x32CAAB7B40C72493, 0x3C9EBE0A15C9BEBC, 0x431D67C49C100D4C,
  0x4CC5D4BECB3E42B6, 0x597F299CFC657E2A, 0x5FCB6FAB3AD6FAEC, 0x6C44198C4A475817]

/-- The initial hash value of SHA-384. -/
def sha384H : List Nat := [0xCBBB9D5DC1059ED8, 0x629A292A367CD507, 0x9159015A3070DD17, 0x152FECD8F70E5939,
  0x67332667FFC00B31, 0x8EB44A8768581511, 0xDB0C2E0D64F98FA7, 0x47B5481DBEFA4FA4]

/-- Rotate a 64-bit number right. -/
def rotr64 (x k : Nat) : Nat := x / 2 ^ k + x % 2 ^ k * 2 ^ (64 - k)

/-- Add modulo 2^64. -/
def add64 (l : List Nat) : Nat := l.foldl (fun a b => (a + b) % 2 ^ 64) 0

/-- One more word of the message schedule; the schedule is held newest first. -/
def sha384Expand (w : List Nat) : List Nat :=
  let a := w.getD 14 0
  let b := w.getD 1 0
  let s0 := Nat.xor (Nat.xor (rotr64 a 1) (rotr64 a 8)) (a / 2 ^ 7)
  let s1 := Nat.xor (Nat.xor (rotr64 b 19) (rotr64 b 61)) (b / 2 ^ 6)
  add64 [s1, w.getD 6 0, s0, w.getD 15 0] :: w

/-- The message schedule extended by k words. -/
def sha384Schedule : Nat → List Nat → List Nat
  | 0, w => w
  | k + 1, w => sha384Schedule k (sha384Expand w)

/-- One round on the eight working values. -/
def sha384Round (v : List Nat) (kw : Nat × Nat) : List Nat :=
  match v with
  | [a, b, c, d, e, f, g, h] =>
    let s1 := Nat.xor (Nat.xor (rotr64 e 14) (rotr64 e 18)) (rotr64 e 41)
    let ch := Nat.xor (Nat.land e f) (Nat.land (2 ^ 64 - 1 - e) g)
    let t1 := add64 [h, s1, ch, kw.1, kw.2]
    let s0 := Nat.xor (Nat.xor (rotr64 a 28) (rotr64 a 34)) (rotr64 a 39)
    let mj := Nat.xor (Nat.xor (Nat.land a b) (Nat.land a c)) (Nat.land b c)
    [add64 [t1, s0, mj], a, b, c, add64 [d, t1], e, f, g]
  | _ => v

/-- One block of 128 bytes. -/
def sha384Block (h : List Nat) (block : List Byte) : List Nat :=
  let w := ((List.range 16).map (fun i => beAt block (8 * i) 8)).reverse
  let w := (sha384Schedule 64 w).reverse
  let v := ((sha384K0 ++ sha384K1).zip w).foldl sha384Round h
  (h.zip v).map (fun x => (x.1 + x.2) % 2 ^ 64)

/-- The blocks of a message, of which `k` are left. -/
def sha384Blocks : Nat → List Nat → List Byte → List Nat
  | 0, h, _ => h
  | k + 1, h, l => sha384Blocks k (sha384Block h (l.take 128)) (l.drop 128)

/-- The SHA-384 digest of a message: 48 bytes. -/
def sha384 (l : List Byte) : List Byte :=
  let pad := (239 - l.length % 128) % 128
  let m := l ++ [0x80] ++ List.replicate pad 0 ++ beBytes 16 (8 * l.length)
  ((sha384Blocks (m.length / 128) sha384H m).take 6).flatMap (beBytes 8)

/-! ## P-384 -/

/-- The prime of P-384. -/
def p384P : Nat := 0xFFFFFFFFFFFFFFFFFFFFFFFFFFFFFFFFFFFFFFFFFFFFFFFFFFFFFFFFFFFFFFFEFFFFFFFF0000000000000000FFFFFFFF
/-- The order of P-384. -/
def p384N : Nat := 0xFFFFFFFFFFFFFFFFFFFFFFFFFFFFFFFFFFFFFFFFFFFFFFFFC7634D81F4372DDF581A0DB248B0A77AECEC196ACCC52973
/-- The coefficient b of P-384. -/
def p384B : Nat := 0xB3312FA7E23EE7E4988E056BE3F82D19181D9C6EFE8141120314088F5013875AC656398D8A2ED19D2A85C8EDD3EC2AEF
/-- The base point of P-384. -/
def p384G : Nat × Nat :=
  (0xAA87CA22BE8B05378EB1C71EF320AD746E1D3B628BA79B9859F741E082542A385502F25DBF55296C3A545E3872760AB7,
   0x3617DE4A96262C6F5D9E98BF9292DC29F8F41DBD289A147CE9DA3113B5F0B8C00A60B1CE1D7E819D7A431D7C90EA0E5F)

/-- b^e modulo m, from the lowest of k bits of e. -/
def powMod (m : Nat) : Nat → Nat → Nat → Nat
  | 0, _, _ => 1 % m
  | k + 1, b, e =>
    let r := powMod m k (b * b % m) (e / 2)
    if e % 2 = 1 then b * r % m else r

/-- The inverse modulo a prime of 384 bits. -/
def invMod (m a : Nat) : Nat := powMod m 384 (a % m) (m - 2)

/-- Add two points, each given by X, Y, Z for x = X/Z and y = Y/Z, with Z = 0 for the point at infinity. One formula serves
all points of P-384, equal, opposite and infinite ones too; the coefficient a is -3, written with multiples of the prime. -/
def addPoint (a b : Nat × Nat × Nat) : Nat × Nat × Nat :=
  let xx := a.1 * b.1 % p384P
  let yy := a.2.1 * b.2.1 % p384P
  let zz := a.2.2 * b.2.2 % p384P
  let xy := (a.1 * b.2.1 + b.1 * a.2.1) % p384P
  let yz := (a.2.1 * b.2.2 + b.2.1 * a.2.2) % p384P
  let xz := (a.1 * b.2.2 + b.1 * a.2.2) % p384P
  let u := (3 * p384B * zz + (p384P - 3) * xz) % p384P
  let v := (3 * p384B * xz + (p384P - 3) * xx + (p384P - 9) * zz) % p384P
  let w := (3 * xx + (p384P - 3) * zz) % p384P
  let less := yy + p384P - u
  ((xy * less + (p384P - yz) * v) % p384P, (w * v + (yy + u) * less) % p384P, (yz * (yy + u) + xy * w) % p384P)

/-- k times a point, from the lowest of the bits of k. -/
def mulPoint : Nat → Nat → Nat × Nat × Nat → Nat × Nat × Nat
  | 0, _, _ => (0, 1, 0)
  | f + 1, k, a =>
    let r := mulPoint f (k / 2) (addPoint a a)
    if k % 2 = 1 then addPoint a r else r

/-- ECDSA over P-384: whether (r, s) signs the message under the public key (x, y). -/
def ecdsaVerify (x y r s : Nat) (message : List Byte) : Bool :=
  let onCurve := decide (x < p384P ∧ y < p384P) &&
    y * y % p384P == (x * x % p384P * x + (p384P - 3) * x + p384B) % p384P
  if !onCurve || r == 0 || s == 0 || decide (p384N ≤ r) || decide (p384N ≤ s) then false
  else
    let e := beAt (sha384 message) 0 48
    let w := invMod p384N s
    let q := addPoint (mulPoint 384 (e * w % p384N) (p384G.1, p384G.2, 1)) (mulPoint 384 (r * w % p384N) (x, y, 1))
    q.2.2 != 0 && q.1 * invMod p384P q.2.2 % p384P % p384N == r

end Sys2Proof.Machine
end

