-- ==== Sys2Proof/Machine/Image.lean ====
section
/-! DEFINITION. The layout image (chapter 2): its header, directory, sections and records, the layout that its fixed parts
give, and every check the loader makes on it, with the refusal codes of Table 2-15. -/

namespace Sys2Proof.Machine

/-- A section, as its directory entry gives it (Table 2-4), with its bytes. -/
structure ImgSection where
  type : Nat
  scope : Nat
  sver : Nat
  offset : Nat
  length : Nat
  crc : Nat
  body : List Byte
deriving DecidableEq, Repr

/-- A record of a section (Table 2-7). -/
structure ImgRecord where
  kind : Nat
  space : Nat
  count : Nat
  addr : Nat
  data : List Nat
deriving DecidableEq, Repr

/-- The bytes of one 8 MiB copy. -/
def copySize : Nat := 0x800000

/-- Where a copy lies in flash (Table 2-1). -/
def copyBase : FlashCopy → Nat
  | .a => 0
  | .b => 0x800000

/-- `k` bytes of a byte store from address `a`; an unlisted byte reads 0xFF. -/
def cellSlice : Nat → Nat → List Host.Cell → List Byte
  | 0, _, _ => []
  | k + 1, a, l =>
    match l.dropWhile (fun c => decide (c.1 < a)) with
    | [] => 0xFF :: cellSlice k (a + 1) []
    | c :: rest => if c.1 = a then c.2 :: cellSlice k (a + 1) rest else 0xFF :: cellSlice k (a + 1) (c :: rest)

/-- The bytes from a position of a list all read zero. -/
def zeroAt (b : List Byte) (o n : Nat) : Bool := (List.range n).all (fun i => byteAt b (o + i) == 0)

/-! ## Header and directory (Tables 2-3 to 2-5) -/

def imageLen (b : List Byte) : Nat := leAt b 0x8 4
def imageSeq (b : List Byte) : Nat := leAt b 0xC 4
def imageSvn (b : List Byte) : Nat := byteAt b 0x14
def imageKeySlot (b : List Byte) : Nat := byteAt b 0x15
def imageDirCount (b : List Byte) : Nat := leAt b 0x16 2
def imagePubkey (b : List Byte) : List Byte := (b.drop 0x340).take 97

/-- MAGIC, FORMAT, HDR_LEN and HDR_CRC are all correct. -/
def headerValid (b : List Byte) : Bool :=
  leAt b 0 4 == 0x4D494C50 && leAt b 4 2 == 1 && leAt b 6 2 == 0x400 && leAt b 0x3FC 4 == crc32c (b.take 0x3FC)

/-- IMAGE_LEN lies within the range of Table 2-3. -/
def imageLenOk (b : List Byte) : Bool := decide (0x1000 ≤ imageLen b ∧ imageLen b ≤ copySize)

/-- What the loader reads of a copy (R106): IMAGE_LEN bytes, or the whole 8 MiB where the header or the length is bad. -/
def readCopy (flash : List Host.Cell) (c : FlashCopy) : List Byte :=
  let h := cellSlice 0x400 (copyBase c) flash
  cellSlice (if headerValid h && imageLenOk h then imageLen h else copySize) (copyBase c) flash

/-- Entry i of the directory. -/
def imageEntry (b : List Byte) (i : Nat) : ImgSection :=
  let o := 0x40 + 16 * i
  { type := leAt b o 2, scope := byteAt b (o + 2), sver := byteAt b (o + 3), offset := leAt b (o + 4) 4,
    length := leAt b (o + 8) 4, crc := leAt b (o + 12) 4,
    body := (b.drop (leAt b (o + 4) 4)).take (leAt b (o + 8) 4) }

/-- The sections that the directory lists. -/
def imageSections (b : List Byte) : List ImgSection := (List.range (min 48 (imageDirCount b))).map (imageEntry b)

/-- Whether a type of Table 2-6 has chip scope, and the length of its fixed part. -/
def sectionInfo (t : Nat) : Option (Bool × Nat) :=
  [(0x01, true, 12), (0x02, true, 4), (0x03, true, 40), (0x04, true, 4), (0x05, true, 40), (0x06, true, 0), (0x07, true, 0),
   (0x08, true, 0), (0x09, true, 0), (0x10, false, 20), (0x11, false, 64), (0x12, false, 40), (0x13, false, 0),
   (0x14, false, 0), (0x15, false, 0), (0x16, false, 68), (0x17, false, 0)].lookup t

/-- The chip section of a type. -/
def chipSection (l : List ImgSection) (t : Nat) : Option ImgSection := l.find? (fun x => x.type == t)

/-- The bytes of an optional section: none where it is absent. -/
def sectionBytes (x : Option ImgSection) : List Byte :=
  match x with
  | some x => x.body
  | none => []

/-- The regions that PARTITION enables. -/
def enabledRegions (l : List ImgSection) : Nat := byteAt (sectionBytes (chipSection l 1)) 0 % 16

/-- The effective section of a region-scope type for region n (R77): its own, else, for an enabled region, the one of scope
0xFE. -/
def effective (l : List ImgSection) (t n : Nat) : Option ImgSection :=
  match l.find? (fun x => x.type == t && x.scope == n) with
  | some x => some x
  | none => if (enabledRegions l).testBit n then l.find? (fun x => x.type == t && x.scope == 0xFE) else none

/-! ## The layout that the fixed parts give (Tables 2-8, 2-9) -/

/-- The layout of region n. -/
def regionLayoutOf (l : List ImgSection) (n : Nat) : RegionLayout :=
  let reg := sectionBytes (effective l 0x10 n)
  let carve := sectionBytes (effective l 0x11 n)
  let buf := sectionBytes (effective l 0x12 n)
  let inst := sectionBytes (effective l 0x16 n)
  let four := List.range 4
  { pbMode := four.map (fun j => bits (leAt reg (4 * j) 4) 0 8), pbFec := four.map (fun j => bits (leAt reg (4 * j) 4) 8 2),
    pbLanes := four.map (fun j => bits (leAt reg (4 * j) 4) 10 4), backbone := leAt reg 0x10 4,
    bankOwner := (List.range 64).map (fun b => byteAt carve b % 16), bankIndex := (List.range 64).map (fun b => byteAt carve b / 16),
    bufMode := byteAt buf 0, pools := byteAt buf 1, poolGrains := (List.range 8).map (fun p => leAt buf (4 + 2 * p) 2),
    classPool := (List.range 8).map (fun c => byteAt buf (0x14 + c)), balesOwn := leAt buf 0x1C 4,
    balesMirror := leAt buf 0x20 4, instMode := byteAt inst 0, instCount := byteAt inst 1,
    qp := (List.range 64).map (fun i => byteAt inst (4 + i)), engFw := (effective l 0x17 n).isSome }

/-- The layout of an image. -/
def layoutOf (l : List ImgSection) : Layout :=
  let part := sectionBytes (chipSection l 1)
  let master := sectionBytes (chipSection l 2)
  let live := sectionBytes (chipSection l 3)
  let cls := sectionBytes (chipSection l 4)
  let shed := sectionBytes (chipSection l 5)
  let regions := enabledRegions l
  { regions := regions, silo := (byteAt part 1).testBit 0, chMib := (List.range 4).map (fun n => leAt part (4 + 2 * n) 2),
    masterPort := byteAt master 0, masterInst := byteAt master 1, liveChip := leAt live 0 8,
    liveRgn := (List.range 4).map (fun n => leAt live (8 + 8 * n) 8), guarded := byteAt cls 0, held := byteAt cls 1,
    sheddable := leAt shed 0 16, vitalPort := leAt shed 0x10 16, keepEng := (List.range 8).map (fun k => byteAt shed (0x20 + k)),
    rgn := (List.range 4).map (fun n => if regions.testBit n then regionLayoutOf l n else RegionLayout.none_) }

/-- The bytes that a tag covers for the chip: its sections in type order (R103). -/
def chipTagBytes (l : List ImgSection) : List Byte :=
  [1, 2, 3, 4, 5, 6, 7, 8, 9].flatMap (fun t => sectionBytes (chipSection l t))

/-- The types of a region's sections, in type order. -/
def regionTypes : List Nat := [0x10, 0x11, 0x12, 0x13, 0x14, 0x15, 0x16, 0x17]

/-- The bytes that a tag covers for region n. -/
def regionTagBytes (l : List ImgSection) (n : Nat) : List Byte :=
  regionTypes.flatMap (fun t => sectionBytes (effective l t n))

/-- Two images differ in a chip section. -/
def chipDiffers (a b : List ImgSection) : Bool :=
  [1, 2, 3, 4, 5, 6, 7, 8, 9].any (fun t => (chipSection a t).map (·.body) != (chipSection b t).map (·.body))

/-- Two images differ in an effective section of region n. -/
def regionDiffers (a b : List ImgSection) (n : Nat) : Bool :=
  regionTypes.any (fun t => (effective a t n).map (·.body) != (effective b t n).map (·.body))

/-! ## Records (Table 2-7, R78, R79) -/

/-- The 32-bit little-endian words of a list of bytes, `k` of them. -/
def leWords : Nat → List Byte → List Nat
  | 0, _ => []
  | k + 1, l => leAt l 0 4 :: leWords k (l.drop 4)

/-- The records of a section after its fixed part; none where one is malformed. The first number bounds how many there are. -/
def parseRecords : Nat → List Byte → Option (List ImgRecord)
  | _, [] => some []
  | 0, _ :: _ => none
  | f + 1, b :: l =>
    let h := b :: l
    let kind := byteAt h 0
    let count := leAt h 2 2
    let words := if kind = 1 ∨ kind = 3 then count else 1
    if kind = 0 || decide (4 < kind) || count == 0 || (decide (kind ≤ 2) && byteAt h 1 != 0) then none
    else if (h.drop (7 + 4 * words)).length < 1 then none
    else
      (parseRecords f (h.drop (8 + 4 * words))).map (fun rest =>
        { kind := kind, space := byteAt h 1, count := count, addr := leAt h 4 4, data := leWords words (h.drop 8) } :: rest)

/-- The records of a section. -/
def ImgSection.records (x : ImgSection) : Option (List ImgRecord) :=
  match sectionInfo x.type with
  | none => none
  | some (_, fixed) => parseRecords (x.length / 4 + 1) (x.body.drop fixed)

/-- The words that a record writes: address and value, in order. -/
def ImgRecord.writes (r : ImgRecord) : List (Nat × Nat) :=
  (List.range r.count).map (fun i => (r.addr + 4 * i, if r.kind = 1 ∨ r.kind = 3 then r.data.getD i 0 else r.data.getD 0 0))

/-- The mask of a list of fields. -/
def maskOf (fs : List FieldDesc) : Nat := fs.foldl (fun m f => Nat.lor m ((2 ^ f.fld.width - 1) * 2 ^ f.fld.lo)) 0

/-- The bits of a word that a record may write (R79): fields whose Cold value is img or whose access is RWL. -/
def recordMask (a : Nat) : Nat :=
  match regAt a with
  | none => 0
  | some r => maskOf (r.fields.filter (fun f => f.cold == .img || f.access == .rwl))

/-- The bits of a word that an image gives at a warm start: fields whose Warm value is img. -/
def warmMask (a : Nat) : Nat :=
  match regAt a with
  | none => 0
  | some r => maskOf (r.fields.filter (fun f => f.warm == .img))

/-- The span of an indirect space that records may write, in a region of a layout: a banked table ends with its banks. -/
def recordSpan (rl : RegionLayout) (code : Nat) : Nat :=
  let banks := fun (o : Nat) => (rl.bankOwner.filter (fun x => x == o)).length
  match code with
  | 0x04 => 0x100000
  | 0x20 => 0x20000 * banks 2
  | 0x21 => 0x20000 * banks 3
  | 0x30 => 0x20000 * banks 1
  | 0x31 => 0x200
  | 0x32 => 0x8000
  | 0x33 => 0x80000
  | 0x34 => 0x4500
  | 0x35 => 0x100000
  | 0x40 => 0x480
  | 0x45 => 0x2100
  | 0x46 => 0x10000
  | 0x61 => 0x1000
  | 0x66 => 0x400
  | 0x70 => 512 * banks 4 * 32
  | 0x78 => 0x40000
  | 0x79 => 0x40000
  | _ => 0

/-- Word k of a list of masks, for entries of as many words. -/
def entryMask (masks : List Nat) (off : Nat) : Nat := masks.getD (off / 4 % masks.length) 0

/-- The bits that the layout of an entry names, of a word of an indirect space that records write: an automaton of Tables 5-1 and
5-2, whose words from 72 on are told apart by no address (DEDUCED: any bit of theirs may be given), rules of Table 5-3, stash
entries (R255), VLANs of Table 6-3, groups (R260), policers of Table 8-2, streams of Table 8-5, task queues (R450) and Loft index
entries of Table 11-7. -/
def spaceMask (code off : Nat) : Nat :=
  match code with
  | 0x20 => entryMask [0x3FFF0003, 0x7FFFFFFF, 0x1FFFF, 0xFFFF00FF, 0, 0, 0, 0] off
  | 0x21 =>
    let w := off / 4
    if w = 0 then 0xFFFF077F else if w = 1 then 0x3FFFF else if w ≤ 70 then 0x3F3F3F3F else if w = 71 then 0 else 0xFFFFFFFF
  | 0x31 => entryMask [0xFFFFFFFF, 0xFFFFFFFF, 0xFFF, 0] off
  | 0x32 => entryMask [0x3FFFFFFF, 0x3FFF3FFF] off
  | 0x33 => entryMask [0xFFFFFFFF, 0xFFFFFFFF, 0xFFFFFFFF, 0xFFFFFFFF, 0x3F, 0, 0, 0] off
  | 0x35 => entryMask [0xFFFFFF, 0xFFFFFF, 0xFFFFFFFF, 0xF] off
  | 0x61 => entryMask [0xFFFFFFFF, 0x7FFFFFFF, 0x3F0FFF, 0xFFFF] off
  | 0x66 => 0x7FFFFFFF
  | 0x70 => entryMask [0xFFFFFFFF, 0xFFFFFFFF, 0x3701FF, 0xFFFFFFFF, 0xFFFFFFFF, 0xFFFFFFFF, 0xFFFF, 0xFFFFFFFF] off
  | _ => 0xFFFFFFFF

/-- The bits of a word of an indirect space that a record may write; none where it may not address the word. -/
def recordSpaceMask (rl : RegionLayout) (code n off : Nat) : Option Nat :=
  if recordSpan rl code ≤ off then none
  else if code = 0x45 ∨ code = 0x46 then
    let m := recordMask (spWord code n + off)
    if m = 0 then none else some m
  else some (spaceMask code off)

/-- The indirect spaces that a section type may target (Table 2-6). -/
def sectionSpaces (t : Nat) : List Nat :=
  match t with
  | 0x08 => [0x04]
  | 0x12 => [0x40, 0x45]
  | 0x13 => [0x30, 0x31, 0x32, 0x33, 0x34, 0x35]
  | 0x14 => [0x20, 0x21, 0x61]
  | 0x15 => [0x46]
  | 0x17 => [0x78, 0x79, 0x66, 0x70]
  | _ => []

/-- The registers that a section type may target, by word address (Table 2-6). -/
def sectionTargets (lay : Layout) (t a : Nat) : Bool :=
  let page := a / 0x10000 % 0x100
  let pos := a % 0x10000
  let rgn := decide (0x01000000 ≤ a)
  let enabled := rgn && lay.regions.testBit (a / 0x01000000 - 1)
  match t with
  | 0x04 => enabled && page == 9
  | 0x06 => !rgn && page == 6
  | 0x07 => !rgn && page == 9
  | 0x09 => !rgn && [4, 7, 8, 0xC, 0xD, 0xE].contains page
  | 0x10 => rgn && decide (page ≤ 4)
  | 0x12 => rgn && page == 8
  | 0x13 => rgn && page == 7
  | 0x14 => rgn && page == 9
  | 0x15 => rgn && page == 8
  | 0x16 => rgn && page == 10
  | 0x17 => rgn && (page == 5 || page == 6 || (page == 9 && decide (0xA00 ≤ pos ∧ pos < 0xC00))
      || (page == 7 && decide (0x380 ≤ pos ∧ pos < 0x400)))
  | _ => false

/-- Where a record's write falls: the key of a word, with the bits it may write. Chip-scope sections address the 64 MiB of
BAR0, region-scope sections the 16 MiB of region n. -/
def recordTarget (lay : Layout) (t n : Nat) (r : ImgRecord) (addr : Nat) : Option (Nat × Nat) :=
  let chip := decide (t < 0x10)
  if addr % 4 ≠ 0 then none
  else if r.kind ≤ 2 then
    if (if chip then 0x04000000 else 0x01000000) ≤ addr then none
    else
      match decodeOffset (if chip then addr else 0x01000000 * (n + 1) + addr) with
      | none => none
      | some a => if sectionTargets lay t a && recordMask a != 0 then some (a, recordMask a) else none
  else if (sectionSpaces t).contains r.space then
    (recordSpaceMask (lay.rgn.getD n RegionLayout.none_) r.space n addr).map (fun m => (spWord r.space n + addr, m))
  else none

/-- A record stays within R79. -/
def recordOk (lay : Layout) (t n : Nat) (r : ImgRecord) : Bool :=
  r.writes.all (fun w =>
    match recordTarget lay t n r w.1 with
    | none => false
    | some (_, m) => Nat.land w.2 (Nat.xor m 0xFFFFFFFF) == 0)

/-! ## Structural checks (Table 2-14) -/

/-- A port block's word of REGCFG obeys Table 2-10 (R81). -/
def pbOk (w : Nat) : Bool :=
  let mode := bits w 0 8
  let fec := bits w 8 2
  let lanes := bits w 10 4
  w / 2 ^ 14 == 0 &&
    (match mode with
     | 0 => lanes == 0 && fec == 0
     | 1 | 2 | 3 => fec == 0
     | 4 | 5 => decide (fec ≤ 1)
     | 6 => (lanes == 3 || lanes == 12 || lanes == 15) && decide (fec ≤ 1)
     | 7 => lanes == 15 && decide (fec ≤ 1)
     | 8 => lanes == 15 && (fec == 0 || fec == 2)
     | 9 | 10 => decide (popCount 4 lanes ≤ 2) && fec == 0
     | _ => false)

/-- PARTITION (R82, R83), with CLASSMAP.HELD. -/
def partitionOk (b : List Byte) (lay : Layout) : Bool :=
  let regions := byteAt b 0
  let sum := lay.chMib.foldl (· + ·) 0
  regions.testBit 0 && decide (regions < 16) && decide (byteAt b 1 ≤ 1) && zeroAt b 2 2
    && lay.chMib.all (fun m => [0, 512, 1024, 2048, 4096].contains m)
    && (List.range 4).all (fun n => regions.testBit n || lay.chMib.getD n 0 == 0)
    && (if lay.silo then decide (2048 ≤ sum ∧ sum ≤ 16384 ∧ 512 ≤ lay.chMib.getD 0 0) else sum == 0 && lay.held == 0)

/-- CARVE (R90). -/
def carveOk (b : List Byte) (guarded : Nat) : Bool :=
  let idx := fun (o : Nat) => ((List.range 64).filter (fun k => byteAt b k % 16 == o)).map (fun k => byteAt b k / 16)
  let count := fun (o : Nat) => (idx o).length
  let full := fun (o : Nat) => (List.range (count o)).all (fun i => (idx o).contains i)
  (List.range 64).all (fun k => decide (byteAt b k % 16 ≤ 5)) && (idx 0).all (fun i => i == 0)
    && [2, 4, 8, 16].contains (count 1) && decide (1 ≤ count 2 ∧ count 2 ≤ 4) && decide (1 ≤ count 3 ∧ count 3 ≤ 8)
    && decide (count 4 ≤ 16) && decide (count 5 ≤ 16) && (guarded == 0 || decide (2 ≤ count 5))
    && [1, 2, 3, 4, 5].all full

/-- BUFFER (R88). -/
def bufferOk (b : List Byte) : Bool :=
  let pools := byteAt b 1
  let g := (List.range 8).map (fun p => leAt b (4 + 2 * p) 2)
  decide (byteAt b 0 ≤ 1) && decide (1 ≤ pools ∧ pools ≤ 8) && zeroAt b 2 2 && zeroAt b 0x24 4
    && (List.range 8).all (fun p =>
        if p < pools then g.getD p 0 != 0 && g.getD p 0 % 64 == 0 && (p == 0 || decide (g.getD (p - 1) 0 ≤ g.getD p 0))
        else g.getD p 0 == 0)
    && decide (g.foldl (· + ·) 0 ≤ 49152) && (List.range 8).all (fun c => decide (byteAt b (0x14 + c) < pools))

/-- INSTANCE (R86). -/
def instanceOk (b : List Byte) : Bool :=
  let mode := byteAt b 0
  let count := byteAt b 1
  decide (mode ≤ 2) && zeroAt b 2 2 && (if mode = 0 then count == 0 else decide (1 ≤ count ∧ count ≤ 64))
    && (List.range 64).all (fun i =>
        let q := byteAt b (4 + i)
        if i < count then decide (1 ≤ q ∧ q ≤ 8) else q == 0)

/-- SHED (R85). -/
def shedOk (b : List Byte) (lay : Layout) : Bool :=
  Nat.land lay.sheddable lay.vitalPort == 0
    && (List.range 4).all (fun n =>
        let x := byteAt b (0x20 + 2 * n)
        let y := byteAt b (0x21 + 2 * n)
        if lay.regions.testBit n then x != y && x / 16 == n && y / 16 == n else x == 0xFF && y == 0xFF)

/-- The fixed part of one section. -/
def fixedOk (x : ImgSection) (lay : Layout) : Bool :=
  match x.type with
  | 0x01 => partitionOk x.body lay
  | 0x02 => decide (byteAt x.body 0 ≤ 3) && decide (byteAt x.body 1 ≤ 63) && zeroAt x.body 2 2
  | 0x03 => decide (lay.liveChip < 2 ^ 6) && lay.liveRgn.all (fun m => decide (m < 2 ^ 12))
  | 0x04 => zeroAt x.body 2 2
  | 0x05 => shedOk x.body lay
  | 0x10 => (List.range 4).all (fun j => pbOk (leAt x.body (4 * j) 4))
  | 0x11 => carveOk x.body lay.guarded
  | 0x12 => bufferOk x.body
  | 0x16 => instanceOk x.body
  | _ => true

/-- The bales of region n's channel suffice (R89). -/
def balesOk (lay : Layout) (n : Nat) : Bool :=
  let rl := lay.rgn.getD n RegionLayout.none_
  let all := lay.chMib.getD n 0 * 448
  if n = 0 then rl.balesOwn + rl.balesMirror == 0 || decide (rl.balesOwn + rl.balesMirror + 32768 ≤ all)
  else decide (rl.balesOwn + rl.balesMirror ≤ all)

/-- The instance that MASTER names exists (R87). -/
def masterOk (lay : Layout) : Bool :=
  let rl := lay.rgn.getD lay.masterPort RegionLayout.none_
  lay.regions.testBit lay.masterPort && rl.instMode != 0 && decide (lay.masterInst < rl.instCount)

/-- One section's directory entry, CRC, length and records. -/
def sectionOk (x : ImgSection) (lay : Layout) : Bool :=
  match sectionInfo x.type with
  | none => false
  | some (chip, fixed) =>
    (if chip then x.scope == 0xFF else x.scope == 0xFE || (decide (x.scope ≤ 3) && lay.regions.testBit x.scope))
      && x.sver == 1 && decide (fixed ≤ x.length) && crc32c x.body == x.crc && x.records.isSome && fixedOk x lay

/-- Every type at most once per scope (R76). -/
def scopesOk : List ImgSection → Bool
  | [] => true
  | x :: rest => rest.all (fun y => x.type != y.type || x.scope != y.scope) && scopesOk rest

/-- Every other check of Table 2-14 (code 0x08). -/
def structureOk (b : List Byte) (l : List ImgSection) : Bool :=
  let lay := layoutOf l
  decide (imageSvn b ≤ 63) && zeroAt b 0x18 8 && zeroAt b 0x30 16 && zeroAt b 0x3A1 91 && byteAt b 0x340 == 4
    && zeroAt (b.drop (imageLen b - 128)) 0x64 28
    && scopesOk l && l.all (fun x => sectionOk x lay)
    && [1, 4, 5, 8, 9].all (fun t => (chipSection l t).isSome)
    && (List.range 4).all (fun n => !lay.regions.testBit n ||
        ([0x10, 0x11, 0x12].all (fun t => (effective l t n).isSome) && balesOk lay n))
    && masterOk lay

/-- Directory and bounds (code 0x07; R74, R75). -/
def boundsOk (b : List Byte) (l : List ImgSection) : Bool :=
  let count := imageDirCount b
  imageLenOk b && imageLen b % 64 == 0 && decide (1 ≤ count ∧ count ≤ 48)
    && (List.range 48).all (fun i => if i < count then leAt b (0x40 + 16 * i) 2 != 0 else zeroAt b (0x40 + 16 * i) 16)
    && l.all (fun x => x.offset % 64 == 0 && decide (0x400 ≤ x.offset) && x.length % 4 == 0
        && decide (x.offset + x.length ≤ imageLen b - 128))
    && (List.range l.length).all (fun i => (l.drop (i + 1)).all (fun y =>
        match l[i]? with
        | none => true
        | some x => decide (x.offset + x.length ≤ y.offset ∨ y.offset + y.length ≤ x.offset)))

/-- The regions that a section's records are checked for: those it is effective for; a section of scope 0xFE that every enabled
region overrides applies to none and is checked for all of them (DESIGN CHOICE, log 79). -/
def sectionRegions (l : List ImgSection) (x : ImgSection) : List Nat :=
  if x.scope ≤ 3 then [x.scope]
  else if x.type < 0x10 then [0]
  else
    let on := (List.range 4).filter (fun n => (enabledRegions l).testBit n)
    let mine := on.filter (fun n => !l.any (fun y => y.type == x.type && y.scope == n))
    if mine.isEmpty then on else mine

/-- Every record stays within its targets (code 0x09). -/
def recordsOk (l : List ImgSection) : Bool :=
  let lay := layoutOf l
  l.all (fun x =>
    match x.records with
    | none => false
    | some rs => (sectionRegions l x).all (fun n => rs.all (fun r => recordOk lay x.type n r)))

/-! ## Authenticity (R95 to R97) -/

/-- A fuse key slot. -/
def Fuses.slot (f : Fuses) (s : Nat) : KeySlot := f.keys.getD s { hash := [], programmed := false, revoked := false }

/-- No key slot is programmed (R96). -/
def Fuses.open_ (f : Fuses) : Bool := !f.keys.any (·.programmed)

/-- The count of blown security-version fuses. -/
def Fuses.svnCount (f : Fuses) : Nat := popCount 64 f.svn.toNat

/-- The 48 digest bytes of a key slot's twelve words (Table 16-8). -/
def KeySlot.digest (k : KeySlot) : List Byte := k.hash.flatMap (fun w => leBytes 4 w.toNat)

/-- The slot named by KEY_SLOT is programmed and its hash is that of PUBKEY. -/
def keyOk (f : Fuses) (b : List Byte) : Bool :=
  let s := imageKeySlot b
  decide (s ≤ 3) && (f.open_ || ((f.slot s).programmed && sha384 (imagePubkey b) == (f.slot s).digest))

/-- The signature and the image CRC. -/
def signatureOk (b : List Byte) : Bool :=
  let n := imageLen b - 128
  let t := b.drop n
  let pub := imagePubkey b
  leAt t 0x60 4 == crc32c (b.take n)
    && ecdsaVerify (beAt pub 1 48) (beAt pub 49 48) (beAt t 0 48) (beAt t 0x30 48) (b.take n)

/-- The refusal code of a copy (Table 2-15, R105): the lowest among the checks it fails, 0 when it passes all. -/
def refusalCode (f : Fuses) (b : List Byte) (readFailed : Bool) : Nat :=
  let l := imageSections b
  if readFailed then 0x0A
  else if !headerValid b then 1
  else if leAt b 0x10 4 ≠ 0x9664 then 2
  else if !keyOk f b then 3
  else if !f.open_ && (f.slot (imageKeySlot b)).revoked then 4
  else if imageSvn b < f.svnCount then 5
  else if !signatureOk b then 6
  else if !boundsOk b l then 7
  else if !structureOk b l then 8
  else if !recordsOk l then 9
  else 0

end Sys2Proof.Machine
end

