-- ==== Sys2Proof/Machine/Loader.lean ====
section
/-! DEFINITION. The loader (chapter 2): applying the sections of an image, the retained store, VERIFY, the fuse commands,
re-layout and the flash device (R67 to R119, R663). -/

namespace Sys2Proof.Machine

/-! ## Applying an image (R78, R101) -/

/-- The indirect space of a word key, if it lies in one. -/
def spaceOfKey (a : Nat) : Option Nat := if a < 0x200000000 then none else some ((a - 0x200000000) / 0x04000000)

/-- The region of a word key: of a register page or of a region's space; none at chip level. -/
def regionOfKey (a : Nat) : Option Nat :=
  match spaceOfKey a with
  | none => regionOf a
  | some 0x04 => none
  | some _ => some ((a - 0x200000000) / 0x01000000 % 4)

/-- The bits of a word that an image gives at a warm start; the instruction memories and the supervisor's memory are written at
every start (R475, R479). -/
def warmKeyMask (a : Nat) : Nat :=
  match spaceOfKey a with
  | none => warmMask a
  | some code =>
    if code = 0x04 ∨ code = 0x78 ∨ code = 0x79 then 0xFFFFFFFF
    else if code = 0x45 ∨ code = 0x46 then warmMask a else 0

/-- Write the bits of a mask in a word. -/
def Dev.putBits (d : Dev) (a mask v : Nat) : Dev :=
  if mask = 0 then d
  else d.wrMem a (BitVec.ofNat 32 (Nat.lor (Nat.land (d.rd a).toNat (Nat.xor mask 0xFFFFFFFF)) (Nat.land v mask)))

/-- Apply records of a section type for region n to the words that `pick` names: to every field that records may write where
`cold` holds for the word's region, else to the fields whose Warm value is img. -/
def Dev.applyRecords (d : Dev) (t n : Nat) (cold : Option Nat → Bool) (pick : Nat → Bool) (rs : List ImgRecord) : Dev :=
  let lay := d.loader.layout
  d.each rs (fun r d => d.each r.writes (fun w d =>
    match recordTarget lay t n r w.1 with
    | none => d
    | some (a, m) =>
      if !pick a then d else d.putBits a (if cold (regionOfKey a) then m else Nat.land m (warmKeyMask a)) w.2))

/-- Apply an optional section for region n. -/
def Dev.applySection (d : Dev) (x : Option ImgSection) (n : Nat) (cold : Option Nat → Bool) (pick : Nat → Bool) : Dev :=
  match x with
  | none => d
  | some x => d.applyRecords x.type n cold pick (x.records.getD [])

/-- DRC_CFG.SIZE of a fitted capacity (Table 9-4). -/
def sizeCode (mib : Nat) : Nat := if mib = 512 then 1 else if mib = 1024 then 2 else if mib = 2048 then 3 else if mib = 4096 then 4 else 0

/-- The fixed fields of region n that its structural sections give. -/
def Dev.deriveRegion (d : Dev) (n : Nat) : Dev :=
  let lay := d.loader.layout
  let rl := d.rl n
  let d := d.each [0, 1, 2, 3] (fun j d =>
    let b := 4 * n + j
    let mode := rl.pbMode.getD j 0
    let lanes := rl.pbLanes.getD j 0
    let cells := (List.range 8).foldl (fun m k => m + b2n (!(cellLanes mode lanes k).isEmpty) * 2 ^ k) 0
    (((d.fset (R.PB_MODE b) R.PB_MODE.MODE mode).fset (R.PB_MODE b) R.PB_MODE.FEC (rl.pbFec.getD j 0)).fset (R.PB_MODE b)
      R.PB_MODE.LANE_EN lanes).fset (R.PB_STAT b) R.PB_STAT.PRESENT cells)
  let d := d.fset (R.TBL_STAT n) R.TBL_STAT.FDB_BANKS (d.bankCount n 1)
  let d := d.fset (R.LOFT_STAT n) R.LOFT_STAT.SLOTS (512 * d.bankCount n 4)
  let d := (d.fset (R.GRN_CFG n) R.GRN_CFG.MODE rl.bufMode).fset (R.GRN_CFG n) R.GRN_CFG.POOLS rl.pools
  let d := d.fset (R.GRN_RESERVE n) R.GRN_RESERVE.GRAINS (49152 - rl.poolGrains.foldl (· + ·) 0)
  let d := d.each (List.range 8) (fun p d => d.fset (R.GRN_POOL_CFG n p) R.GRN_POOL_CFG.GRAINS (rl.poolGrains.getD p 0))
  let mib := lay.chMib.getD n 0
  let d := (d.fset (R.DRC_CFG n) R.DRC_CFG.EN (b2n (lay.silo && mib != 0))).fset (R.DRC_CFG n) R.DRC_CFG.SIZE (sizeCode mib)
  let d := (d.fset (R.WNW_STAT n) R.WNW_STAT.RULE_BANKS (d.bankCount n 2)).fset (R.WNW_STAT n) R.WNW_STAT.AUT_BANKS (d.bankCount n 3)
  let d := ((d.fset (R.ACC_STAT n) R.ACC_STAT.GUARDING (b2n (lay.guarded != 0 && d.bankCount n 5 != 0))).fset (R.ACC_STAT n)
    R.ACC_STAT.JBANKS (d.bankCount n 5)).fset (R.ACC_STAT n) R.ACC_STAT.GUARDED lay.guarded
  let d := ((d.fset (R.HST_CFG n) R.HST_CFG.MODE rl.instMode).fset (R.HST_CFG n) R.HST_CFG.COUNT rl.instCount).fset (R.HST_CFG n)
    R.HST_CFG.MASTER (b2n (lay.masterPort == n))
  d.each (List.range 64) (fun i d =>
    if i < rl.instCount then
      (((d.fset (R.INST_ID n i) R.INST_ID.INSTANCE i).fset (R.INST_ID n i) R.INST_ID.PORT n).fset (R.INST_ID n i)
        R.INST_ID.MODE rl.instMode).fset (R.INST_ID n i) R.INST_ID.QP (rl.qp.getD i 0)
    else d.wr (R.INST_ID n i) 0)

/-- The fixed fields of the chip pages; the run-time copies of the SHED marks are written at a cold start. -/
def Dev.deriveChip (d : Dev) (b : List Byte) (cold : Bool) : Dev :=
  let lay := d.loader.layout
  let d := ((d.fset R.ID_CONFIG R.ID_CONFIG.REGIONS lay.regions).setFlag R.ID_CONFIG R.ID_CONFIG.SILO_PRESENT lay.silo).fset
    R.ID_CONFIG R.ID_CONFIG.TWIN_MODE (d.fget R.TWN_CFG R.TWN_CFG.MODE)
  let d := (d.fset R.ID_CONFIG R.ID_CONFIG.MASTER_PORT lay.masterPort).fset R.ID_CONFIG R.ID_CONFIG.MASTER_INST lay.masterInst
  let d := d.wr R.LDR_RUN (BitVec.ofNat 32 (imageSeq b))
  let d := ((d.fset R.LDR_RUN_INFO R.LDR_RUN_INFO.SVN (imageSvn b)).fset R.LDR_RUN_INFO R.LDR_RUN_INFO.KEY_SLOT
    (imageKeySlot b)).fset R.LDR_RUN_INFO R.LDR_RUN_INFO.REGIONS lay.regions
  let d := d.wr R.DUMP_BASE (BitVec.ofNat 32 ((lay.chMib.getD 0 0 * 448 - 32768) * 2048))
  d.when cold (fun d => d.each [0, 1, 2, 3] (fun i d =>
    (d.wr (R.PWR_SHEDDABLE i) (BitVec.ofNat 32 (lay.sheddable / 2 ^ (32 * i)))).wr (R.PWR_VITAL i)
      (BitVec.ofNat 32 (lay.vitalPort / 2 ^ (32 * i)))))

/-- The registers that show fuses (Tables 2-18, 2-22, 16-10). -/
def Dev.fuseRegs (d : Dev) (fu : Fuses) : Dev :=
  let mask := fun (p : KeySlot → Bool) => (List.range 4).foldl (fun m s => m + b2n (p (fu.slot s)) * 2 ^ s) 0
  let d := (d.fset R.ID_DEVICE R.ID_DEVICE.REV fu.rev.toNat).fset R.ID_DEVICE R.ID_DEVICE.GRADE fu.grade.toNat
  let d := (d.wr R.ID_SERIAL_LO (BitVec.ofNat 32 fu.serial.toNat)).wr R.ID_SERIAL_HI (BitVec.ofNat 32 (fu.serial.toNat / 2 ^ 32))
  let d := d.setFlag R.LDR_STAT R.LDR_STAT.KEYS_OPEN fu.open_
  ((d.fset R.LDR_FUSE R.LDR_FUSE.SLOT_PROG (mask (·.programmed))).fset R.LDR_FUSE R.LDR_FUSE.SLOT_REVOKED
    (mask (·.revoked))).fset R.LDR_FUSE R.LDR_FUSE.SVN_FUSE fu.svnCount

/-- The sections of region n are applied, in the order of R101, and Winnow checks its automaton (R225). A field that a section's
fixed part gives keeps the fixed part's value where a record writes it as well (DESIGN CHOICE, log 82). -/
def Dev.applyRegion (d : Dev) (l : List ImgSection) (n : Nat) (cold : Option Nat → Bool) : Dev :=
  let d := d.each [0x10, 0x11, 0x12, 0x16, 0x13, 0x14, 0x15, 0x17] (fun t d =>
    d.applySection (effective l t n) n cold (fun _ => true))
  let d := d.deriveRegion n
  let d := d.setWnw n { d.wnw n with effective := (effective l 0x14 n).isSome }
  d.autHeaderCheck n

/-- Set the retained layout tags from an image (R103). -/
def Dev.setTags (d : Dev) (l : List ImgSection) : Dev :=
  let lay := d.loader.layout
  { d with loader := { d.loader with
      chipTag := BitVec.ofNat 32 (crc32c (chipTagBytes l)),
      rgnTag := (List.range 4).map (fun n =>
        if lay.regions.testBit n then BitVec.ofNat 32 (crc32c (regionTagBytes l n)) else 0) } }

/-- IMAGE_APPLY (R101): the layout is taken and the sections are applied in their fixed order. -/
def Dev.applyImage (d : Dev) (b : List Byte) (cold : Option Nat → Bool) : Dev :=
  let l := imageSections b
  let lay := layoutOf l
  let d := { d with loader := { d.loader with layout := lay, applied := true } }
  let d := d.each [1, 2, 3, 4, 5, 6, 7, 8, 9] (fun t d =>
    let x := chipSection l t
    d.applySection x 0 cold (fun _ => true))
  let d := d.each [0, 1, 2, 3] (fun n d =>
    if d.regionEnabled n then d.applyRegion l n cold else d.fset (R.RGN_STAT n) R.RGN_STAT.STATE 2)
  (d.deriveChip b (cold none)).setTags l

/-! ## The retained store -/

/-- The bytes of the RUNNING slot. -/
def Dev.runningSlot (d : Dev) : StoreSlot := if d.loader.runningOne then d.loader.slot1 else d.loader.slot0
/-- The bytes of the STAGED slot. -/
def Dev.stagedSlot (d : Dev) : StoreSlot := if d.loader.runningOne then d.loader.slot0 else d.loader.slot1

/-- Write the RUNNING slot. -/
def Dev.setRunning (d : Dev) (x : StoreSlot) : Dev :=
  { d with loader := if d.loader.runningOne then { d.loader with slot1 := x } else { d.loader with slot0 := x } }
/-- Write the STAGED slot. -/
def Dev.setStaged (d : Dev) (x : StoreSlot) : Dev :=
  { d with loader := if d.loader.runningOne then { d.loader with slot0 := x } else { d.loader with slot1 := x } }

/-- RUN_COPY shows the copy of the running image. -/
def Dev.setRunCopy (d : Dev) : Dev := d.setFlag R.LDR_STAT R.LDR_STAT.RUN_COPY (d.runningSlot.copy == .b)

/-- SLOT_EXCHANGE (R116): STAGED and RUNNING exchange roles, whatever a VERIFY since ARM has put into STAGED; the candidate is
then the running image and counts as one no more (DESIGN CHOICE, log 81). -/
def Dev.exchangeSlots (d : Dev) : Dev :=
  let d := ({ d with loader := { d.loader with runningOne := !d.loader.runningOne, candidate := false } } : Dev)
  let b := d.runningSlot.bytes
  let d := (d.fset R.LDR_RUN_INFO R.LDR_RUN_INFO.SVN (imageSvn b)).fset R.LDR_RUN_INFO R.LDR_RUN_INFO.KEY_SLOT (imageKeySlot b)
  d.setRunCopy.wr R.LDR_RUN (BitVec.ofNat 32 (imageSeq b))

/-- The RUNNING slot check of a warm start (R103). -/
def Dev.runningSlotGood (d : Dev) : Bool :=
  let b := d.runningSlot.bytes
  imageLenOk b && b.length == imageLen b && leAt (b.drop (imageLen b - 128)) 0x60 4 == crc32c (b.take (imageLen b - 128))

/-- The words of the instruction memory of engine block k = 2n + j are rewritten from the region's ENGFW records (R478). -/
def Dev.rewriteImem (d : Dev) (k : Nat) : Dev :=
  let n := k / 2
  let code := 0x78 + k % 2
  let base := spWord code n
  let mine := fun (a : Nat) => decide (base ≤ a ∧ a < base + 0x40000)
  let d := ({ d with regs := d.regs.filter (fun x => !mine x.1), faults := d.faults.filter (fun x => !mine x.1) } : Dev)
  d.applySection (effective (imageSections d.runningSlot.bytes) 0x17 n) n (fun _ => true) mine

/-- The index entry of Loft slot s is rewritten from the region's ENGFW records, with FILLED at 0. -/
def Dev.rewriteLoftSlot (d : Dev) (n s : Nat) : Dev :=
  let base := spWord 0x70 n + 32 * s
  let mine := fun (a : Nat) => decide (base ≤ a ∧ a < base + 32)
  let d := ({ d with regs := d.regs.filter (fun x => !mine x.1), faults := d.faults.filter (fun x => !mine x.1) } : Dev)
  d.applySection (effective (imageSections d.runningSlot.bytes) 0x17 n) n (fun _ => true) mine

/-! ## Refusals (R105) -/

/-- A refused copy is logged with its code, and RESULT reads REFUSED. -/
def Dev.imageRefused (d : Dev) (c : FlashCopy) (code : Nat) : Dev :=
  (d.logChip 0x0020 (code + 256 * b2n (c == .b))).fset R.LDR_STAT R.LDR_STAT.RESULT 3

/-! ## VERIFY (R107 to R109) -/

/-- The loader takes no LDR_CMD while a VERIFY runs or a re-layout is active (R109). -/
def Dev.ldrBusy (d : Dev) : Bool :=
  d.fget R.LDR_STAT R.LDR_STAT.RESULT == 1 || d.flag R.LDR_RELAYOUT R.LDR_RELAYOUT.ACTIVE

/-- VERIFY_A and VERIFY_B: the loader begins to read the copy. -/
def Dev.verifyCopy (d : Dev) (c : FlashCopy) : Dev :=
  if d.ldrBusy then d
  else
    let d := d.fset R.LDR_STAT R.LDR_STAT.RESULT 1
    { d with loader := { d.loader with verifying := some c, reading := true } }

/-- DIFF, CHIP_DIFF and LDR_CAND of a candidate. -/
def Dev.setCandidate (d : Dev) (diff : Nat) (chip : Bool) (seq : Nat) : Dev :=
  ((d.fset R.LDR_STAT R.LDR_STAT.DIFF diff).setFlag R.LDR_STAT R.LDR_STAT.CHIP_DIFF chip).wr R.LDR_CAND (BitVec.ofNat 32 seq)

/-- VERIFY_COMPLETE: the candidate is accepted into the STAGED slot, or refused. -/
def verifyComplete (s : State) (readFailed : Bool) : Dev :=
  let d := s.dev
  match d.loader.verifying with
  | none => d
  | some c =>
    let b := readCopy s.flash c
    let code := refusalCode s.fuses b readFailed
    let d := ({ d with loader := { d.loader with verifying := none, reading := false } } : Dev)
    if code = 0 then
      let now := imageSections d.runningSlot.bytes
      let new := imageSections b
      let diff := (List.range 4).foldl (fun m n => m + b2n (regionDiffers now new n) * 2 ^ n) 0
      let d := d.setStaged ⟨b, c⟩
      let d := ({ d with loader := { d.loader with candidate := true } } : Dev)
      (d.setCandidate diff (chipDiffers now new) (imageSeq b)).fset R.LDR_STAT R.LDR_STAT.RESULT 2
    else
      let d := ({ d with loader := { d.loader with candidate := false } } : Dev)
      (d.imageRefused c code).setCandidate 0 false 0

/-! ## Fuse commands (R98) -/

/-- The number of the lowest fuses that make a count of n blown ones, given which are blown. -/
def blowUpTo (svn n : Nat) : Nat :=
  (List.range 64).foldl (fun v i => if popCount 64 v < n then setBit v i true else v) svn

/-- ADVANCE_SVN. -/
def advanceSvn (s : State) : State :=
  let d := s.dev
  let svn := d.fget R.LDR_RUN_INFO R.LDR_RUN_INFO.SVN
  if d.ldrBusy then s
  else if svn ≤ s.fuses.svnCount then { s with dev := d.logChip 0x0021 3 }
  else
    let fu := { s.fuses with svn := BitVec.ofNat 64 (blowUpTo s.fuses.svn.toNat svn) }
    { s with fuses := fu, dev := d.fuseRegs fu }

/-- REVOKE_SLOT. While the built-in recovery image runs, LDR_RUN_INFO.KEY_SLOT, which then reads 0, counts as the running image's
slot (DESIGN CHOICE, log 80). -/
def revokeSlot (s : State) (k : Nat) : State :=
  let d := s.dev
  let good := fun (j : Nat) => (s.fuses.slot j).programmed && !(s.fuses.slot j).revoked
  let ignored := d.fget R.LDR_RUN_INFO R.LDR_RUN_INFO.KEY_SLOT == k || !(s.fuses.slot k).programmed
    || (good k && !(List.range 4).any (fun j => j != k && good j))
  if d.ldrBusy then s
  else if ignored then { s with dev := d.logChip 0x0021 (4 + 16 * k) }
  else
    let fu := { s.fuses with keys := modAt s.fuses.keys k (fun x => { x with revoked := true }) }
    { s with fuses := fu, dev := d.fuseRegs fu }

/-! ## Re-layout (R112 to R115) -/

/-- The last accepted candidate is eligible for region n. -/
def Dev.candidateEligible (d : Dev) (n : Nat) : Bool :=
  let now := imageSections d.runningSlot.bytes
  let new := imageSections d.stagedSlot.bytes
  d.loader.candidate && !d.flag R.LDR_STAT R.LDR_STAT.CHIP_DIFF && d.fget R.LDR_STAT R.LDR_STAT.DIFF == 2 ^ n
    && d.regionEnabled n && (layoutOf new).regions.testBit n
    && (d.loader.layout.masterPort != n || (effective now 0x16 n).map (·.body) == (effective new 0x16 n).map (·.body))

/-- RELAYOUT_ARM: a write of LDR_RELAYOUT with ARM at 1. -/
def Dev.relayoutArm (d : Dev) (n drainMs : Nat) : Dev :=
  if d.candidateEligible n then
    ((d.fset R.LDR_RELAYOUT R.LDR_RELAYOUT.REGION n).fset R.LDR_RELAYOUT R.LDR_RELAYOUT.DRAIN_MS drainMs).setFlag
      R.LDR_RELAYOUT R.LDR_RELAYOUT.ARMED true
  else d.logChip 0x0023 n

/-- The re-layout of region n is armed (R113): the region is the one LDR_RELAYOUT.REGION names, whatever it named when ARM was
written (DESIGN CHOICE, log 81). -/
def Dev.relayoutArmed (d : Dev) (n : Nat) : Bool :=
  d.flag R.LDR_RELAYOUT R.LDR_RELAYOUT.ARMED && d.fget R.LDR_RELAYOUT R.LDR_RELAYOUT.REGION == n

/-- The readiness of region n's ports is judged anew (R134). -/
def Dev.refreshRegion (d : Dev) (n : Nat) : Dev := d.each (regionPorts n) (fun p d => d.refreshReady p)

/-- RELAYOUT_DRAIN_START: the restart of an armed region begins with a drain (R113). -/
def Dev.drainStart (d : Dev) (n : Nat) : Dev :=
  let d := d.setFlag R.LDR_RELAYOUT R.LDR_RELAYOUT.ACTIVE true
  let d := ({ d with loader := { d.loader with draining := some n } } : Dev)
  (d.arm ⟨.relayoutDrain, n, 0⟩ (max 1 (d.fget R.LDR_RELAYOUT R.LDR_RELAYOUT.DRAIN_MS) * ms)).refreshRegion n

/-- The re-layout in its drain is abandoned (R115, Table 2-17). -/
def Dev.drainAbandon (d : Dev) : Dev :=
  match d.loader.draining with
  | none => d
  | some n =>
    let d := (d.setFlag R.LDR_RELAYOUT R.LDR_RELAYOUT.ARMED false).setFlag R.LDR_RELAYOUT R.LDR_RELAYOUT.ACTIVE false
    let d := d.setFlag R.LDR_STAT R.LDR_STAT.ABANDONED true
    let d := ({ d with loader := { d.loader with draining := none } } : Dev)
    (d.disarm ⟨.relayoutDrain, n, 0⟩).refreshRegion n

/-- The drain of region n is complete (R114): no unretired journal entry, no guarded frame in its egress queues. -/
def Dev.drained (d : Dev) (n : Nat) : Bool :=
  !(d.journalUsed n).any (fun i => (d.jentry n i).unretired) && !(d.regionFrames n).any (fun x => x.guarded)

/-! ## The flash device (R72, R73, R663) -/

/-- Program one byte: a program clears bits and sets none (PRESUMED: NOR flash). -/
def programByte (l : List Host.Cell) (a v : Nat) : List Host.Cell :=
  let old := (Map.get (fun _ => (0xFF : Byte)) l a).toNat
  Map.put (fun _ => (0xFF : Byte)) l a (BitVec.ofNat 8 (Nat.land old v))

/-- Program the bytes of a list from address a. -/
def programBytes (l : List Host.Cell) (a : Nat) (b : List Byte) : List Host.Cell :=
  (List.range b.length).foldl (fun l i => programByte l (a + i) (byteAt b i)) l

/-- Erase the bytes of a range: they read 0xFF. -/
def eraseRange (l : List Host.Cell) (a n : Nat) : List Host.Cell := l.filter (fun c => !decide (a ≤ c.1 ∧ c.1 < a + n))

/-- The smallest erase unit that contains an address: its start and its size. -/
def Sfdp.unitOf (f : Sfdp) (a : Nat) : Nat × Nat :=
  let u := max 1 f.eraseUnit
  (a / u * u, u)

/-- The bytes that a host flash operation changes. -/
def FlashOp.range (o : FlashOp) (f : Sfdp) : Nat × Nat := if o.kind = 2 then f.unitOf o.addr else (o.addr, 4)

/-- A program or erase falls within the running copy, in SERVICE, with no recovery image running (R72). -/
def Dev.inRunningCopy (d : Dev) (r : Nat × Nat) : Bool :=
  let base := if d.flag R.LDR_STAT R.LDR_STAT.RUN_COPY then 0x800000 else 0
  d.chip.state == .service && !d.chip.recoveryImage && decide (r.1 < base + copySize ∧ base < r.1 + r.2)

/-- FLASH_OPERATION_START: the oldest waiting operation starts once no loader read is under way; one that falls in the running
copy is ignored and logged. -/
def flashStart (s : State) : State × Option FlashOp :=
  let d := s.dev
  if d.loader.reading || d.loader.flashOps.any (·.started) then (s, none)
  else
    match d.loader.flashOps with
    | [] => (s, none)
    | o :: rest =>
      if d.inRunningCopy (o.range s.sfdp) then
        let d := d.logChip 0x0022 o.addr
        ({ s with dev := { d with loader := { d.loader with flashOps := rest } } }, some o)
      else ({ s with dev := { d with loader := { d.loader with flashOps := { o with started := true } :: rest } } }, none)

/-- FLASH_OPERATION_COMPLETE: the operation under way takes effect; answers it. -/
def flashComplete (s : State) : State × Option FlashOp :=
  let d := s.dev
  match d.loader.flashOps with
  | [] => (s, none)
  | o :: rest =>
    if !o.started then (s, none)
    else
      let r := o.range s.sfdp
      let flash := if o.kind = 2 then eraseRange s.flash r.1 r.2 else programBytes s.flash o.addr (leBytes 4 o.word.toNat)
      ({ s with flash := flash, dev := { d with loader := { d.loader with flashOps := rest } } }, some o)

end Sys2Proof.Machine
end

