-- ==== Sys2Proof/Machine/Twin.lean ====
section
/-! DEFINITION. The Abaide link, the lease in native and compatibility mode, and the held outputs (chapter 12, R493 to
R518). -/

namespace Sys2Proof.Machine

def Dev.setLink (d : Dev) (l : AbaidePart) : Dev := { d with twin := { d.twin with link := l } }
def Dev.setLease (d : Dev) (l : LeasePart) : Dev := { d with twin := { d.twin with lease := l } }

/-- TWN_CFG.MODE: 3 acts as 0. -/
def Dev.twinMode (d : Dev) : Nat := let m := d.fget R.TWN_CFG R.TWN_CFG.MODE; if m = 3 then 0 else m

/-- TWN_STAT.STATE (Table 12-5). -/
def Dev.leaseState (d : Dev) : Nat := d.fget R.TWN_STAT R.TWN_STAT.STATE
def Dev.setLeaseState (d : Dev) (s : Nat) : Dev := d.fset R.TWN_STAT R.TWN_STAT.STATE s

/-- The highest EPOCH seen (R511). -/
def Dev.epoch (d : Dev) : Nat := d.fget R.TWN_STAT R.TWN_STAT.EPOCH

/-- The device's serial number, and its peer's from the last valid HELLO. -/
def Dev.ownSerial (d : Dev) : Nat := (d.rd R.ID_SERIAL_LO).toNat + 2 ^ 32 * (d.rd R.ID_SERIAL_HI).toNat
def Dev.peerSerial (d : Dev) : Nat := (d.rd R.TWN_PEER_LO).toNat + 2 ^ 32 * (d.rd R.TWN_PEER_HI).toNat

/-- The link is in service (R496). -/
def Dev.linkUp (d : Dev) : Bool := d.flag R.ABD_STAT R.ABD_STAT.IN_SERVICE

def Dev.abdLanes (d : Dev) : Nat := d.fget R.ABD_STAT R.ABD_STAT.LANE_UP

/-- Healthy: SERVICE or SHED-1 to SHED-4, and MODE not 0. -/
def Dev.healthy (d : Dev) : Bool := d.chip.state.serving && d.twinMode != 0

/-- A regular event of the twin page. -/
def Dev.twnEvt (d : Dev) (f : Fld) : Dev := d.setFlag R.TWN_EVT f true

/-! ## Held outputs (R516 to R518) -/

/-- Set alarm source i of Table 12-8. -/
def Dev.alarm (d : Dev) (i : Nat) : Dev := d.setFieldBit R.OUT_ASRC R.OUT_ASRC.SRC i true

/-- The safe state of R517 and R518 is in force. -/
def Dev.outSafe (d : Dev) : Bool := d.flag R.OUT_STAT R.OUT_STAT.SAFE

/-- The level of ALARM_N. -/
def Dev.alarmN (d : Dev) : Bool :=
  !(d.outSafe || d.flag R.OUT_CTL R.OUT_CTL.ALARM
    || (d.fget R.OUT_ASRC R.OUT_ASRC.SRC).land (d.fget R.OUT_AEN R.OUT_AEN.EN) != 0)

/-- OUT_STAT: the levels of BYP_DRV, LINK_IND and ALARM_N. -/
def Dev.outStat (d : Dev) : Word :=
  if d.outSafe then 0x00020000#32
  else (d.rd R.OUT_CTL &&& 0xFFFF#32) ||| (if d.alarmN then 0x00010000#32 else 0)

/-- Put the held outputs in the safe state, or let them follow OUT_CTL. -/
def Dev.setSafe (d : Dev) (b : Bool) : Dev := d.setFlag R.OUT_STAT R.OUT_STAT.SAFE b

/-- A write of OUT_CTL ends the safe state that a cold start began with. -/
def Dev.outCtlWritten (d : Dev) : Dev := d.setSafe false

/-- RESET_SAFE_STATE_EXPIRY (R518): RESET_N has been low for 50 ms. -/
def Dev.resetSafe (d : Dev) : Dev :=
  if d.due ⟨.resetSafe, 0, 0⟩ then (d.disarm ⟨.resetSafe, 0, 0⟩).setSafe true else d

/-! ## Sending (R494, R495, R498, R499) -/

/-- The place of a message in the order of R498. -/
def abdRank (t : Nat) : Nat :=
  if 2 ≤ t ∧ t ≤ 6 then 0 else if t = 1 ∨ t = 7 ∨ t = 0x11 then 1 else if t = 0x20 then 2 else if t = 0x10 then 3 else 4

/-- The frame that leaves next: by rank, LOFT frames by region from the one after the last, then in order of arrival. -/
def nextAbd (last : Nat) (q : List AbdFrame) : Option AbdFrame :=
  let key := fun (f : AbdFrame) => 4 * abdRank f.type + (if f.type = 0x10 then (f.region + 3 - last) % 4 else 0)
  q.foldl (fun best f =>
    match best with
    | none => some f
    | some b => if key f < key b then some f else some b) none

/-- The words of a frame: header (Table 12-3), payload and CRC-32C. -/
def Dev.abdWords (d : Dev) (f : AbdFrame) : List Nat :=
  let version := if d.twinMode = 2 then 1 else 2
  let head := [f.type + version * 256 + f.region * 4096 + 4 * f.payload.length * 65536, d.twin.link.nextSeq, d.epoch, 0]
  let w := head ++ f.payload
  w ++ [crc32c (w.flatMap (leBytes 4))]

/-- Start the next queued frame on every lane that is UP. -/
def Dev.abdStart (d : Dev) : Dev :=
  let l := d.twin.link
  match nextAbd l.loftLast l.queue with
  | none => d.setLink { l with sending := none }
  | some f =>
    let w := d.abdWords f
    let d := d.each ([0, 1].filter (fun i => d.abdLanes.testBit i)) (fun i d => d.emit (.abaide i f.type w))
    let d := d.setLink { l with
      queue := l.queue.erase f, sending := some f, nextSeq := (l.nextSeq + 1) % 2 ^ 32,
      loftLast := if f.type = 0x10 then f.region else l.loftLast }
    let d := d.when (f.type == 0x20) (·.setFlag R.ABD_STAT R.ABD_STAT.TX_BUSY false)
    d.bump R.ABD_TX_FRAMES

/-- Queue a frame; an idle transmitter starts it at once, and with no lane UP it is lost. -/
def Dev.abdSend (d : Dev) (type region : Nat) (payload : List Nat) : Dev :=
  let l := d.twin.link
  if d.abdLanes = 0 then d.when (type == 0x20) (·.setFlag R.ABD_STAT R.ABD_STAT.TX_BUSY false)
  else
    let d := d.setLink { l with queue := l.queue ++ [⟨type, region, payload⟩] }
    if l.sending.isSome then d else d.abdStart

/-- ABAIDE_FRAME_TX: the frame in transmission ends, and the next one starts (R498). -/
def Dev.abdFrameTx (d : Dev) : Dev := if d.twin.link.sending.isSome then d.abdStart else d

/-- The low and high words of a 64-bit serial number. -/
def serialWords (s : Nat) : List Nat := [s % 2 ^ 32, s / 2 ^ 32]

/-- Send HELLO (Table 12-4); its flags have no stated value. -/
def Dev.sendHello (d : Dev) : Dev :=
  let f := d.fresh
  f.2.abdSend 0x01 0 (serialWords f.2.ownSerial ++ [0x9664, f.1.toNat])

/-- Send STATUS with a role (R514). -/
def Dev.sendStatus (d : Dev) (role : Nat) : Dev := d.abdSend 0x07 0 (serialWords d.ownSerial ++ [role])

/-- ABD_TX_CMD with SEND at 1 (R499). -/
def Dev.abdTxSend (d : Dev) (queue region : Nat) : Dev :=
  if d.flag R.ABD_STAT R.ABD_STAT.TX_BUSY then d.setFlag R.ABD_STAT R.ABD_STAT.OVERRUN true
  else if !d.linkUp || d.twinMode != 1 then d.bump R.ABD_TX_DROP
  else
    let body := (List.range 4).map (fun w => (d.rd (R.ABD_TX_MSG w)).toNat)
    (d.setFlag R.ABD_STAT R.ABD_STAT.TX_BUSY true).abdSend 0x20 region (queue :: body)

/-- KEEPALIVE_TIMER (R496): 100 µs have passed. -/
def Dev.keepaliveTimer (d : Dev) : Dev :=
  if d.due ⟨.keepalive, 0, 0⟩ then
    let idle := d.twin.link.queue.isEmpty && d.twin.link.sending.isNone
    (d.arm ⟨.keepalive, 0, 0⟩ (100 * us)).when idle (·.abdSend 0x08 0 [])
  else d

/-- HELLO_RESEND_TIMER (Table 12-4): 10 ms have passed and no HELLO has been accepted. -/
def Dev.helloTimer (d : Dev) : Dev :=
  if d.due ⟨.helloResend, 0, 0⟩ then
    if d.twin.link.hello then d.disarm ⟨.helloResend, 0, 0⟩
    else
      let d := d.when (d.fget R.ABD_STAT R.ABD_STAT.PEER_CAUSE == 0) (·.fset R.ABD_STAT R.ABD_STAT.PEER_CAUSE 1)
      (d.sendHello).arm ⟨.helloResend, 0, 0⟩ (10 * ms)
  else d

/-! ## Claiming and yielding (R501 to R510, R514) -/

/-- A region in VITAL_DOWN (R490) keeps an AUTO_YIELD device from claiming. -/
def Dev.vitalAway (d : Dev) : Bool :=
  d.flag R.TWN_CFG R.TWN_CFG.AUTO_YIELD
    && [0, 1, 2, 3].any (fun n => d.regionEnabled n && d.flag (R.VOTE_STAT n) R.VOTE_STAT.VITAL_DOWN)

/-- The view deadline of R505 has not passed. -/
def Dev.viewValid (d : Dev) : Bool :=
  match d.deadline ⟨.view, 0, 0⟩ with
  | some t => decide (d.now < t)
  | none => false

/-- Set the view deadline 24 ms from now (R505). -/
def Dev.setView (d : Dev) : Dev := d.arm ⟨.view, 0, 0⟩ (24 * ms)

/-- Arm the limits of R504: 22 ms after the last RENEW sent and, with the link in service, after the last acknowledged one. -/
def Dev.armOwnLease (d : Dev) : Dev :=
  let l := d.twin.lease
  let t := if d.linkUp then min l.lastSent l.lastAcked else l.lastSent
  if d.leaseState = 3 ∧ d.twinMode = 1 then d.arm ⟨.ownLease, 0, 0⟩ (t + 22 * ms - d.now) else d.disarm ⟨.ownLease, 0, 0⟩

/-- The device begins to act: its first RENEW follows 8 ms after the CLAIM or the direct entry (R503). -/
def Dev.enterActive (d : Dev) : Dev :=
  let d := ((d.setLeaseState 3).disarm ⟨.claimResend, 0, 0⟩).disarm ⟨.view, 0, 0⟩
  if d.twinMode = 1 then
    let l := d.twin.lease
    let d := d.setLease { l with lastSent := l.claimAt, lastAcked := l.claimAt, renews := [], barred := false }
    ((d.twnEvt R.TWN_EVT.CLAIMED).arm ⟨.renew, 0, 0⟩ (l.claimAt + 8 * ms - d.now)).armOwnLease
  else d

/-- The device stops acting and stands by. -/
def Dev.standBy (d : Dev) : Dev :=
  let d := ((d.setLeaseState 1).setFlag R.TWN_STAT R.TWN_STAT.DUAL false).disarm ⟨.renew, 0, 0⟩
  let d := ((d.disarm ⟨.ownLease, 0, 0⟩).disarm ⟨.claimResend, 0, 0⟩).disarm ⟨.compatDual, 0, 0⟩
  (d.disarm ⟨.compatYield, 0, 0⟩).setLease { d.twin.lease with yielding := false }

/-- Send CLAIM, and again when no answer comes within 2 ms (R506, R508). -/
def Dev.sendClaim (d : Dev) : Dev :=
  (d.abdSend 0x02 0 (serialWords d.ownSerial)).arm ⟨.claimResend, 0, 0⟩ (2 * ms)

/-- A STANDBY device claims when R506 or rule 1 of R514 holds. -/
def Dev.tryClaim (d : Dev) : Dev :=
  if d.leaseState != 1 || !d.healthy || !d.flag R.TWN_CFG R.TWN_CFG.CLAIM_EN then d
  else if d.twinMode = 2 then if d.armed ⟨.compatActive, 0, 0⟩ then d else d.enterActive
  else if d.armed ⟨.view, 0, 0⟩ || d.vitalAway || (d.twin.lease.barred && !d.linkUp) then d
  else
    let d := (d.fset R.TWN_STAT R.TWN_STAT.EPOCH (d.epoch + 1)).bump R.TWN_CLAIMS
    let d := d.setLease { d.twin.lease with claimAt := d.now }
    if d.linkUp then (d.setLeaseState 2).sendClaim else d.enterActive

/-- Something comes to the lease that applies at the end of the clock (R512). -/
def Dev.askTwin (d : Dev) (t : TwinTurn) : Dev := { d with clk := { d.clk with twin := d.clk.twin ++ [t] } }

/-- The view expires, unless a RENEW has set its deadline anew in this clock (R505, R506, R512). -/
def Dev.viewExpiry (d : Dev) : Dev :=
  if d.stillDue ⟨.view, 0, 0⟩ then
    (((d.disarm ⟨.view, 0, 0⟩).bump R.TWN_PEER_EXPIRED).twnEvt R.TWN_EVT.PEER_EXPIRED).tryClaim
  else d

/-- CLAIM_RESEND_TIMER (R508). -/
def Dev.claimTimer (d : Dev) : Dev :=
  if d.due ⟨.claimResend, 0, 0⟩ && d.leaseState == 2 then d.sendClaim else d

/-- RENEW_TIMER (R503): an ACTIVE and healthy device sends RENEW every 8 ms. -/
def Dev.renewTimer (d : Dev) : Dev :=
  if d.due ⟨.renew, 0, 0⟩ && d.leaseState == 3 && d.twinMode == 1 then
    let d := d.arm ⟨.renew, 0, 0⟩ (8 * ms)
    if d.healthy then
      let seq := ((d.rd R.TWN_LEASE).toNat + 1) % 2 ^ 32
      let l := d.twin.lease
      let d := (d.wr R.TWN_LEASE (BitVec.ofNat 32 seq)).setLease { l with
        lastSent := d.now, renews := ((seq, d.now) :: l.renews).take 4 }
      ((d.bump R.TWN_RENEW_TX).abdSend 0x04 0 [seq]).armOwnLease
    else d
  else d

/-- The own lease ends, unless an acknowledgement has set its limit anew in this clock (R504, R512). -/
def Dev.ownLeaseExpiry (d : Dev) : Dev :=
  if d.stillDue ⟨.ownLease, 0, 0⟩ && d.leaseState == 3 then
    let d := ((d.standBy.bump R.TWN_OWN_EXPIRED).twnEvt R.TWN_EVT.OWN_EXPIRED).alarm 2
    (d.setLease { d.twin.lease with barred := !d.linkUp }).tryClaim
  else d

/-- A yield (R510, rule 4 of R514): by TWN_CMD.YIELD, at the entry into RECOVERY or SHED-5, or on VITAL_DOWN with AUTO_YIELD
at 1. -/
def Dev.yieldLease (d : Dev) : Dev :=
  if d.leaseState != 3 then d
  else if d.twinMode = 2 then
    ((d.sendStatus 2).setLease { d.twin.lease with yielding := true }).arm ⟨.compatYield, 0, 0⟩ (150 * ms)
  else (((d.abdSend 0x06 0 []).standBy.setView).bump R.TWN_YIELDS).twnEvt R.TWN_EVT.YIELDED

/-- A region enters VITAL_DOWN with AUTO_YIELD at 1 (Table 12-14). -/
def Dev.vitalYield (d : Dev) : Dev := d.when (d.flag R.TWN_CFG R.TWN_CFG.AUTO_YIELD) (·.yieldLease)

/-! ## The link (R493, R495, R496) -/

/-- The link leaves service (R496): alarm source 4, TWN_EVT.LINK_LOST; a CLAIMING device enters ACTIVE (R506). -/
def Dev.linkLost (d : Dev) : Dev :=
  let d := d.setLink { d.twin.link with hello := false, high := none, missing := [], lost := [] }
  let d : Dev := { d with timers := d.timers.filter (fun x => x.1.kind != .abdGap && x.1.kind != .abdSilence) }
  let d := d.when (d.abdLanes != 0) (·.arm ⟨.helloResend, 0, 0⟩ (10 * ms))
  if !d.linkUp then d
  else
    let d := (d.setFlag R.ABD_STAT R.ABD_STAT.IN_SERVICE false).twnEvt R.TWN_EVT.LINK_LOST
    let d := (d.when (d.twinMode != 0) (·.alarm 4)).armOwnLease
    if d.leaseState = 2 then (d.setLease { d.twin.lease with claimAt := d.now }).enterActive else d.tryClaim

/-- A lane is enabled by ABD_CFG. -/
def Dev.laneEnabled (d : Dev) (i : Nat) : Bool :=
  if i = 0 then d.flag R.ABD_CFG R.ABD_CFG.A0_EN else d.flag R.ABD_CFG R.ABD_CFG.A1_EN

/-- ABAIDE_LANE_UP (R493): the lane is UP, and a HELLO is sent. -/
def Dev.abdLaneUp (d : Dev) (i : Nat) : Dev :=
  if !d.laneEnabled i || d.chip.state == .held || d.chip.state == .off then d
  else
    let d := d.setFieldBit R.ABD_STAT R.ABD_STAT.LANE_UP i true
    if d.twinMode = 0 then d
    else
      let d := d.when (!d.armed ⟨.keepalive, 0, 0⟩) (·.arm ⟨.keepalive, 0, 0⟩ (100 * us))
      let d := d.when (!d.twin.link.hello) (·.arm ⟨.helloResend, 0, 0⟩ (10 * ms))
      d.sendHello

/-- ABAIDE_LANE_DOWN (R496): with no lane UP, what waits for transmission is lost and the link leaves service with the
clock (R512). -/
def Dev.abdLaneDown (d : Dev) (i : Nat) : Dev :=
  let d := d.setFieldBit R.ABD_STAT R.ABD_STAT.LANE_UP i false
  if d.abdLanes != 0 then d
  else
    let d := d.setLink { d.twin.link with queue := [], sending := none }
    let d := (d.setFlag R.ABD_STAT R.ABD_STAT.TX_BUSY false).disarm ⟨.keepalive, 0, 0⟩
    (d.disarm ⟨.helloResend, 0, 0⟩).askTwin .lost

/-- The link has been silent (R496), unless a frame has been accepted in this clock. -/
def Dev.abdSilence (d : Dev) : Dev :=
  if d.stillDue ⟨.abdSilence, 0, 0⟩ then (d.disarm ⟨.abdSilence, 0, 0⟩).linkLost else d

/-- ABAIDE_GAP_EXPIRY (R495, R500): the number is given up, and a resync is requested. -/
def Dev.abdGap (d : Dev) (seq : Nat) : Dev :=
  if d.due ⟨.abdGap, seq, 0⟩ then
    let l := d.twin.link
    let d := (d.disarm ⟨.abdGap, seq, 0⟩).setLink { l with missing := l.missing.erase seq, lost := (seq :: l.lost).take 4096 }
    (d.bump R.ABD_GAP).when (d.twinMode == 1) (·.abdSend 0x11 0 [])
  else d

/-- A frame is discarded for its CRC or its TYPE (R494, R497). -/
def Dev.abdBad (d : Dev) : Dev := d.bump R.ABD_CRC_ERR

/-- A TYPE that the mode uses (Table 12-4). -/
def abdTypeUsed (mode type : Nat) : Bool :=
  (mode == 1 && [1, 2, 3, 4, 5, 6, 8, 0x10, 0x11, 0x20].contains type) || (mode == 2 && [1, 7, 8].contains type)

/-- ABAIDE_BAD_FRAME: a frame whose CRC fails, or whose TYPE is unknown or unused in the mode. -/
def Dev.abdBadFrame (d : Dev) (lane : Nat) (crcGood : Bool) (type : Nat) : Dev :=
  if d.abdLanes.testBit lane && (!crcGood || !abdTypeUsed d.twinMode type) then d.abdBad else d

/-- A frame is accepted or is a later copy (R495): numbers skipped within the window become missing. -/
def Dev.abdAccept (d : Dev) (seq : Nat) : Bool × Dev :=
  let l := d.twin.link
  let gap := max 1 (d.fget R.ABD_CFG R.ABD_CFG.GAP_US) * us
  let ok := fun (l : AbaidePart) (d : Dev) => (true, ((d.setLink l).bump R.ABD_RX_FRAMES).arm ⟨.abdSilence, 0, 0⟩
    (max 1 (d.fget R.ABD_CFG R.ABD_CFG.SILENCE_US) * us))
  match l.high with
  | none => ok { l with high := some seq } d
  | some h =>
    let ahead := (seq + 2 ^ 32 - h) % 2 ^ 32
    let behind := (h + 2 ^ 32 - seq) % 2 ^ 32
    if ahead ≠ 0 ∧ ahead < 2 ^ 31 then
      let skipped := (List.range (min (ahead - 1) 4095)).map (fun i => (seq + 2 ^ 32 - 1 - i) % 2 ^ 32)
      let d := d.each skipped (fun s d => d.arm ⟨.abdGap, s, 0⟩ gap)
      ok { l with high := some seq, missing := l.missing ++ skipped.reverse } d
    else if l.missing.contains seq then ok { l with missing := l.missing.erase seq } (d.disarm ⟨.abdGap, seq, 0⟩)
    else if l.lost.contains seq then (false, d)
    else if behind < 4096 then (false, d.bump R.ABD_RX_DUP)
    else ok { l with high := some seq, missing := [], lost := [] } d

/-- A message arrives with a valid CRC on a lane that is UP, or was as the clock began: its TYPE must be used in the mode (R497), its number is judged (R495),
and its EPOCH compared (R511; a HELLO is judged by R496 alone). -/
def Dev.abdReceive (d : Dev) (lane type seq epoch : Nat) (act : Dev → Dev) : Dev :=
  if !(d.abdLanes.testBit lane || d.was.abdLanes.testBit lane) then d
  else if !abdTypeUsed d.twinMode type then d.abdBad
  else
    let r := d.abdAccept seq
    if !r.1 then r.2
    else if d.twinMode = 2 ∨ epoch = d.epoch then act r.2
    else if seqAfter 16 epoch d.epoch then act (r.2.fset R.TWN_STAT R.TWN_STAT.EPOCH epoch)
    else if type = 1 then act r.2
    else r.2.bump R.TWN_STALE

/-! ## Messages received -/

/-- HELLO (R496). -/
def Dev.hello (d : Dev) (serial device version : Nat) : Dev :=
  let dev := if d.twinMode = 2 then 0x8420 else 0x9664
  let cause := if device ≠ dev then 2 else if serial = d.ownSerial then 3
    else if version ≠ (if d.twinMode = 2 then 1 else 2) then 4 else 0
  let d := d.fset R.ABD_STAT R.ABD_STAT.PEER_CAUSE cause
  if cause ≠ 0 then d.twnEvt R.TWN_EVT.PEER_BAD
  else
    let d := (d.wr R.TWN_PEER_LO (BitVec.ofNat 32 serial)).wr R.TWN_PEER_HI (BitVec.ofNat 32 (serial / 2 ^ 32))
    let d := (d.setLink { d.twin.link with hello := true }).disarm ⟨.helloResend, 0, 0⟩
    if d.linkUp then d
    else
      let d := d.setFlag R.ABD_STAT R.ABD_STAT.IN_SERVICE true
      let d := d.setLease { d.twin.lease with barred := false }
      let d := d.when d.loftLink (fun d => d.each ([0, 1, 2, 3].filter d.regionEnabled) (fun n d => d.loftResyncAll n))
      d.armOwnLease.tryClaim

/-- A CLAIM is answered, after a yield of its clock (R507, R512). -/
def Dev.claim (d : Dev) (serial : Nat) : Dev :=
  let ack := fun (d : Dev) => d.abdSend 0x03 0 (serialWords serial)
  match d.leaseState with
  | 1 => (ack d).setView
  | 3 => ((ack d.standBy).setView).twnEvt R.TWN_EVT.YIELDED
  | 2 =>
    if d.ownSerial < serial then d
    else ((((ack d.standBy).setView).bump R.TWN_SIMUL).twnEvt R.TWN_EVT.SIMUL).twnEvt R.TWN_EVT.YIELDED
  | _ => d

/-- CLAIM_ACK (R508). -/
def Dev.claimAck (d : Dev) (serial : Nat) : Dev :=
  if d.leaseState = 2 ∧ serial = d.ownSerial then d.enterActive else d

/-- RENEW (R505, R509). -/
def Dev.renew (d : Dev) (lseq : Nat) : Dev :=
  let note := fun (d : Dev) => d.wr R.TWN_LEASE (BitVec.ofNat 32 lseq)
  match d.leaseState with
  | 1 => ((note d).abdSend 0x05 0 [lseq]).setView
  | 2 => (((note d.standBy).abdSend 0x05 0 [lseq]).setView).twnEvt R.TWN_EVT.YIELDED
  | 3 =>
    let d := d.twnEvt R.TWN_EVT.DUAL
    if d.peerSerial < d.ownSerial then ((note d.standBy).setView).twnEvt R.TWN_EVT.YIELDED
    else d.setFlag R.TWN_STAT R.TWN_STAT.DUAL true
  | _ => d

/-- RENEW_ACK (R511): it applies when its LSEQ is one of the last four RENEWs sent. -/
def Dev.renewAck (d : Dev) (lseq : Nat) : Dev :=
  let l := d.twin.lease
  match (if d.leaseState = 3 then l.renews.find? (fun x => x.1 == lseq) else none) with
  | none => d
  | some (_, t) =>
    let d := (d.setLease { l with lastAcked := max l.lastAcked t }).bump R.TWN_RENEW_ACK_RX
    (d.setFlag R.TWN_STAT R.TWN_STAT.DUAL false).armOwnLease

/-- YIELD of the peer (R505): the view deadline is the current clock. -/
def Dev.peerYield (d : Dev) : Dev :=
  if d.leaseState = 1 ∨ d.leaseState = 2 then d.arm ⟨.view, 0, 0⟩ 0 else d.setFlag R.TWN_STAT R.TWN_STAT.DUAL false

/-- STATUS of a PX8420 (R514). -/
def Dev.status (d : Dev) (serial role : Nat) : Dev :=
  if role ≠ 1 then (d.setFlag R.TWN_STAT R.TWN_STAT.DUAL false).disarm ⟨.compatDual, 0, 0⟩
  else
    let d := d.arm ⟨.compatActive, 0, 0⟩ (150 * ms)
    if d.leaseState ≠ 3 then d
    else if d.twin.lease.yielding then d.standBy
    else
      let d := (d.twnEvt R.TWN_EVT.DUAL).setFlag R.TWN_STAT R.TWN_STAT.DUAL true
      if serial < d.ownSerial then d.standBy
      else d.when (!d.armed ⟨.compatDual, 0, 0⟩) (·.arm ⟨.compatDual, 0, 0⟩ (150 * ms))

/-- LOFT (R474): the records are applied in the header's region. -/
def Dev.loftMsg (d : Dev) (n : Nat) (records : List LoftRec) : Dev :=
  if d.regionEnabled n && d.regionRuns n && d.flag (R.LOFT_CFG n) R.LOFT_CFG.TWIN_APPLY then
    d.each records (fun r d => d.askLoft (.twin n r))
  else d

/-- RESYNC_REQ (Table 12-4). -/
def Dev.resyncReq (d : Dev) : Dev := d.each ([0, 1, 2, 3].filter d.regionEnabled) (fun n d => d.loftResyncAll n)

/-- TWINMSG (R499): a task of KIND 0x5, or dropped. -/
def Dev.twinMsg (d : Dev) (n queue : Nat) (body : List Nat) : Dev :=
  if d.regionEnabled n && (d.rl n).engFw then d.enterTask n queue (Task.make 5 (bodyWords 0 0 body) none none)
  else d.bump R.ABD_TX_DROP

/-! ## Mirroring (R471 to R473) and compatibility timers (R514) -/

/-- LOFT_MIRROR_SEND: with room, a record of the lowest slot with RESYNC joins the mirror queue; the head of the queue
leaves for the twin. -/
def Dev.loftMirrorSend (d : Dev) (n : Nat) : Dev :=
  if !d.loftLink then d
  else
    let d := match (d.loftSlotsWith n (fun s => d.loftResync n s)).head? with
      | some s => if (d.mirrorQ n).length < 1024 then
          (d.setMirrorQ n (d.mirrorQ n ++ [d.loftRecord n s])).setLoftBit n s 18 false else d
      | none => d
    match d.mirrorQ n with
    | [] => d
    | r :: rest =>
      let words := (List.range ((r.data.length + 3) / 4)).map (fun i => leAt (r.data ++ [0, 0, 0]) (4 * i) 4)
      ((d.setMirrorQ n rest).bump (R.LOFT_MIRROR_TX n)).abdSend 0x10 n ([r.slot, r.seq, r.length] ++ words)

/-- COMPAT_STATUS_TIMER: STATUS every 8 ms. -/
def Dev.compatStatus (d : Dev) : Dev :=
  if d.due ⟨.compatStatus, 0, 0⟩ && d.twinMode == 2 then
    let role := if d.leaseState = 3 then (if d.twin.lease.yielding then 2 else 1) else 0
    (d.arm ⟨.compatStatus, 0, 0⟩ (8 * ms)).sendStatus role
  else d

/-- COMPAT_ACTIVE_TIMEOUT (rule 1). -/
def Dev.compatActive (d : Dev) : Dev :=
  if d.due ⟨.compatActive, 0, 0⟩ then (d.disarm ⟨.compatActive, 0, 0⟩).tryClaim else d

/-- COMPAT_DUAL_TIMEOUT (rule 3). -/
def Dev.compatDual (d : Dev) : Dev :=
  if d.due ⟨.compatDual, 0, 0⟩ && d.leaseState == 3 then (d.standBy.twnEvt R.TWN_EVT.COMPAT_OVER).alarm 3 else d

/-- COMPAT_YIELD_TIMEOUT (rule 4). -/
def Dev.compatYieldFail (d : Dev) : Dev :=
  if d.due ⟨.compatYield, 0, 0⟩ then
    ((d.disarm ⟨.compatYield, 0, 0⟩).setLease { d.twin.lease with yielding := false }).twnEvt R.TWN_EVT.YIELD_FAIL
  else d

/-! ## Chip events (Table 12-6) -/

/-- The lease at the beginning of a start: STANDBY with the view deadline 24 ms away, or DISABLED (R505, R514). -/
def Dev.leaseStart (d : Dev) : Dev :=
  if d.twinMode = 0 then d.standBy.setLeaseState 0
  else
    let d := d.standBy.setView
    let d := d.setLease { d.twin.lease with barred := false, renews := [] }
    if d.twinMode = 2 then
      ((d.disarm ⟨.view, 0, 0⟩).arm ⟨.compatActive, 0, 0⟩ (150 * ms)).arm ⟨.compatStatus, 0, 0⟩ (8 * ms)
    else d

/-- The chip enters HELD: the transmitters switch off and the lease's state is lost. -/
def Dev.twinHeld (d : Dev) : Dev :=
  let d := (d.abdLaneDown 0).abdLaneDown 1
  let d := (if d.twinMode = 0 then d else d.standBy).disarm ⟨.view, 0, 0⟩
  (d.disarm ⟨.compatActive, 0, 0⟩).disarm ⟨.compatStatus, 0, 0⟩

/-- What comes to the lease in a clock, at its end (R512): an acknowledgement, a RENEW, a yield and a CLAIM_ACK of the clock have come
before. -/
def TwinTurn.act (t : TwinTurn) (d : Dev) : Dev :=
  match t with
  | .view => d.viewExpiry
  | .own => d.ownLeaseExpiry
  | .silence => d.abdSilence
  | .lost => if d.abdLanes = 0 then d.linkLost else d
  | .claim serial => d.claim serial

/-- The lease and the link at the end of a clock: CLAIMs first, in the order they came. -/
def Dev.twinEnd (d : Dev) : Dev :=
  let l := d.clk.twin
  let isClaim := fun (t : TwinTurn) => match t with | .claim _ => true | _ => false
  let d : Dev := { d with clk := { d.clk with twin := [] } }
  (d.each (l.filter isClaim) TwinTurn.act).each (l.filter (fun t => !isClaim t)) TwinTurn.act

end Sys2Proof.Machine
end

