-- ==== Sys2Proof/Machine/Voter.lean ====
section
/-! DEFINITION. The decision channels and the voter (chapter 12, R484 to R492). -/

namespace Sys2Proof.Machine

/-- A decision record as its 176 bits, the fields in the order of Table 12-1 from bit 0. -/
def VoteRecord.pack (r : VoteRecord) : Nat :=
  r.outcome % 4 + r.cause % 16 * 2 ^ 2 + r.vid % 4096 * 2 ^ 6 + r.targets % 2 ^ 134 * 2 ^ 18 + r.engQ % 256 * 2 ^ 152
    + r.ichk % 65536 * 2 ^ 160

/-- The record of 176 bits. -/
def VoteRecord.unpack (v : Nat) : VoteRecord :=
  { outcome := bits v 0 2, cause := bits v 2 4, vid := bits v 6 12, targets := bits v 18 134, engQ := bits v 152 8,
    ichk := bits v 160 16 }

/-- The fields in which two records differ, bit i for field i of Table 12-1. -/
def voteFields (a b : Nat) : Nat :=
  let x := VoteRecord.unpack a
  let y := VoteRecord.unpack b
  b2n (x.outcome != y.outcome) + 2 * b2n (x.cause != y.cause) + 4 * b2n (x.vid != y.vid) + 8 * b2n (x.targets != y.targets)
    + 16 * b2n (x.engQ != y.engQ) + 32 * b2n (x.ichk != y.ichk)

def VoterPart.init : VoterPart := { disagree := 0 }
def Dev.voter (d : Dev) (n : Nat) : VoterPart := Map.get (fun _ => VoterPart.init) d.twin.voters n
def Dev.setVoter (d : Dev) (n : Nat) (v : VoterPart) : Dev :=
  { d with twin := { d.twin with voters := Map.put (fun _ => VoterPart.init) d.twin.voters n v } }

/-- Strike counts, odd-channel counters and counts of the channels A, B and C. -/
def strikeField (c : Nat) : Fld := if c = 0 then R.VOTE_STAT.STRIKE_A else if c = 1 then R.VOTE_STAT.STRIKE_B else R.VOTE_STAT.STRIKE_C
def oddCell (n c : Nat) : Nat := if c = 0 then R.VOTE_ODD_A n else if c = 1 then R.VOTE_ODD_B n else R.VOTE_ODD_C n

/-- Set an event bit of the voter. -/
def Dev.voteEvt (d : Dev) (n : Nat) (f : Fld) : Dev := d.setFlag (R.VOTE_EVT n) f true

/-- Discard the whole decision queue: counted in VOTE_DOWN_DROP when the region is in VITAL_DOWN. -/
def Dev.dropVotes (d : Dev) (n : Nat) (counted : Bool) : Dev :=
  let ids := d.voteQueue n
  let d : Dev := { d with frame := { d.frame with votes := Map.put (fun _ => []) d.frame.votes n [] } }
  d.each ids (fun i d =>
    match d.frame.landing.find? (fun l => l.id == i) with
    | some l => (d.when counted (·.bump (R.VOTE_DOWN_DROP n))).discardLanding l true
    | none => d)

/-- The region enters VITAL_DOWN (R490, R491). -/
def Dev.enterVitalDown (d : Dev) (n : Nat) : Dev :=
  let d := ((d.setFlag (R.VOTE_STAT n) R.VOTE_STAT.VITAL_DOWN true).voteEvt n R.VOTE_EVT.VITAL_DOWN).alarm 1
  (d.dropVotes n true).vitalYield

/-- A channel in service takes a strike (R489): at STRIKES it is retired, while all three are in service. -/
def Dev.strike (d : Dev) (n c : Nat) : Dev :=
  let serving := d.fget (R.VOTE_STAT n) R.VOTE_STAT.IN_SERVICE
  if !serving.testBit c then d
  else
  let d := d.bump (oddCell n c)
  let k := d.fget (R.VOTE_STAT n) (strikeField c) + 1
  let d := (d.fset (R.VOTE_STAT n) (strikeField c) (min 15 k)).arm ⟨.strikeClear, n, c⟩ (1000 * ms)
  if max 1 (d.fget (R.VOTE_CFG n) R.VOTE_CFG.STRIKES) ≤ k ∧ serving % 8 = 7 then
    let d := d.setFieldBit (R.VOTE_STAT n) R.VOTE_STAT.IN_SERVICE c false
    (d.voteEvt n R.VOTE_EVT.RETIRED).logEntry 0x0032 n 8 c
  else d

/-- A disagreement in 2-of-2 (R487, R490). -/
def Dev.disagreement (d : Dev) (n : Nat) : Dev :=
  let d := ((d.bump (R.VOTE_DISAGREE2 n)).voteEvt n R.VOTE_EVT.DISAGREE2).alarm 0
  let k := (d.voter n).disagree + 1
  let d := (d.setVoter n { d.voter n with disagree := k }).arm ⟨.disagreeClear, n, 0⟩ (1000 * ms)
  d.when (decide (max 1 (d.fget (R.VOTE_CFG n) R.VOTE_CFG.DOWN_LIMIT) ≤ k)) (·.enterVitalDown n)

/-- VOTE_LAST at an event that is not a full agreement. -/
def Dev.voteLast (d : Dev) (n odd kind fields : Nat) : Dev :=
  ((d.fset (R.VOTE_LAST n) R.VOTE_LAST.ODD odd).fset (R.VOTE_LAST n) R.VOTE_LAST.KIND kind).fset (R.VOTE_LAST n)
    R.VOTE_LAST.FIELDS fields

/-- The destinations of a TARGETS field. -/
def maskDests (m : Nat) : List Nat := (List.range 134).filter (fun p => m.testBit p)

/-- A record is released: it replaces the single-path outcome (R484, R487). -/
def Dev.released (d : Dev) (l : Landing) (dec : Decision) (r : VoteRecord) : Dev :=
  let n := l.region
  let d := d.bump (R.VOTE_RELEASED n)
  let v := d.vlan n r.vid
  let untag := if v.testBit 3 then some (bits v 32 14) else none
  d.conclude l { dec with vid := r.vid } r.outcome (maskDests r.targets) r.engQ untag dec.namedQueue

/-- The fields in which any two of the records that arrived differ. -/
def allFields (l : List Nat) : Nat := l.foldl (fun m a => l.foldl (fun m b => m.lor (voteFields a b)) m) 0

/-- No two records of three channels are equal: the frame is discarded. -/
def Dev.noMajority (d : Dev) (l : Landing) (have_ : List Nat) : Dev :=
  let n := l.region
  (((d.voteLast n 7 1 (allFields have_)).bump (R.VOTE_NO_MAJORITY n)).voteEvt n R.VOTE_EVT.NO_MAJORITY).discardLanding l true

/-- Two records of three agree on v: it is released, and channel c, which differs or is missing, takes a strike. -/
def Dev.majority (d : Dev) (l : Landing) (dec : Decision) (v c : Nat) (other : Option Nat) : Dev :=
  let d := d.voteLast l.region (2 ^ c) 0 (match other with | some w => voteFields v w | none => 0)
  (d.strike l.region c).released l dec (VoteRecord.unpack v)

/-- Both records arrived and are equal. -/
def sameRecord (x y : Option Nat) : Bool := x.isSome && x == y

/-- The voter judges a frame with the channels in service and their records (Table 12-2). -/
def Dev.judge (d : Dev) (l : Landing) (dec : Decision) (serving : List Nat) (records : Nat → Option Nat) : Dev :=
  let n := l.region
  match serving with
  | [a, b, c] =>
    let x := records a
    let y := records b
    let z := records c
    if sameRecord x y && sameRecord y z then d.released l dec (VoteRecord.unpack (x.getD 0))
    else if sameRecord x y then d.majority l dec (x.getD 0) c z
    else if sameRecord x z then d.majority l dec (x.getD 0) b y
    else if sameRecord y z then d.majority l dec (y.getD 0) a x
    else d.noMajority l (serving.filterMap records)
  | [a, b] =>
    if sameRecord (records a) (records b) then d.released l dec (VoteRecord.unpack ((records a).getD 0))
    else ((d.voteLast n (2 ^ a + 2 ^ b) 2 (allFields (serving.filterMap records))).discardLanding l true).disagreement n
  | _ => (d.bump (R.VOTE_DOWN_DROP n)).discardLanding l true

/-- VOTE (R487): the judgement of a frame takes its turn at the end of the clock (R492). -/
def Dev.askVote (d : Dev) (n : Nat) (masks : List (Option Nat)) : Dev :=
  { d with clk := { d.clk with votes := d.clk.votes ++ [(n, masks)] } }

/-- The frame at the front of the decision queue is judged with the channels in service as the clock began (R492). Each channel's record
is the one its inputs give, changed by its mask, or missing (R488). -/
def Dev.vote (d : Dev) (n : Nat) (masks : Nat → Option Nat) : Dev :=
  match d.voteQueue n with
  | [] => d
  | id :: rest =>
    let d : Dev := { d with frame := { d.frame with votes := Map.put (fun _ => []) d.frame.votes n rest } }
    match d.frame.landing.find? (fun l => l.id == id) with
    | none => d
    | some l =>
      match l.pre, l.vote with
      | some dec, some r =>
        let serving := [0, 1, 2].filter (fun c => (d.was.fget (R.VOTE_STAT n) R.VOTE_STAT.IN_SERVICE).testBit c)
        d.judge l dec serving (fun c => (masks c).map (fun m => r.pack ^^^ m))
      | _, _ => d

/-- STRIKE_CLEAR (R489). -/
def Dev.strikeClear (d : Dev) (n c : Nat) : Dev :=
  if d.due ⟨.strikeClear, n, c⟩ then (d.disarm ⟨.strikeClear, n, c⟩).fset (R.VOTE_STAT n) (strikeField c) 0 else d

/-- DISAGREE_CLEAR (R490). -/
def Dev.disagreeClear (d : Dev) (n : Nat) : Dev :=
  if d.due ⟨.disagreeClear, n, 0⟩ then (d.disarm ⟨.disagreeClear, n, 0⟩).setVoter n { d.voter n with disagree := 0 } else d

/-- The channels of a region begin their self-test (R491): the decision queue stays empty meanwhile. -/
def Dev.selfTestStart (d : Dev) (n : Nat) : Dev :=
  (d.dropVotes n false).setFlag (R.VOTE_STAT n) R.VOTE_STAT.TESTING true

/-- CHANNEL_SELF_TEST (R491): the channels that gave every known answer enter service. -/
def Dev.selfTestDone (d : Dev) (n pass : Nat) : Dev :=
  if !d.flag (R.VOTE_STAT n) R.VOTE_STAT.TESTING then d
  else
    let good := [0, 1, 2].filter (fun c => pass.testBit c)
    let d := d.each good (fun c d => (d.fset (R.VOTE_STAT n) (strikeField c) 0).disarm ⟨.strikeClear, n, c⟩)
    let d := (d.fset (R.VOTE_STAT n) R.VOTE_STAT.IN_SERVICE pass).fset (R.VOTE_STAT n) R.VOTE_STAT.TEST_FAIL (7 - pass % 8)
    let d := (d.setFlag (R.VOTE_STAT n) R.VOTE_STAT.TESTING false).when (decide (good.length < 3)) (·.voteEvt n R.VOTE_EVT.TEST_FAIL)
    if good.length < 2 then d.enterVitalDown n
    else (d.setFlag (R.VOTE_STAT n) R.VOTE_STAT.VITAL_DOWN false).tryClaim

/-- The votes of a clock at its end; a restart of the pipeline block that begins in it has discarded the frames (R492). -/
def Dev.votesEnd (d : Dev) : Dev :=
  let l := d.clk.votes
  let d : Dev := { d with clk := { d.clk with votes := [] } }
  d.each l (fun x d => d.vote x.1 (fun c => x.2.getD c none))

end Sys2Proof.Machine
end

