-- ==== Sys2Proof/Machine/Restart.lean ====
section
/-! DEFINITION. The mechanics of restarts: the chip state, contained restarts of blocks and restarts of regions with the
parts every unit plays in them (R46 to R66, R163, R245 to R248, R286 to R288, R332, R333, R378, R407, R430 to R433, R478,
R479, R553), and the re-layout of a region (R113 to R119). -/

namespace Sys2Proof.Machine

/-! ## Chip states (R5) -/

/-- What a state entered from `old` starts and ends: the retained state may be used once SERVICE is entered (R560); the 10 s of R575 count
while a serving state lasts without a break; exit actions of stages end with what takes their place. -/
def Dev.stateEntered (d : Dev) (old : ChipState) : Dev :=
  let d := d.when (d.chip.state == .service) (·.setFlag R.STR_STAT R.STR_STAT.RETAIN_OK true)
  if d.chip.state.serving then d.when (!old.serving) (·.arm ⟨.failClear, 0, 0⟩ (10000 * ms))
  else (d.when (d.chip.state != .test) (fun d => { d with supply := { d.supply with exiting := 0 } })).disarm ⟨.failClear, 0, 0⟩

/-- A change of the chip state: logged, with the readiness of every port judged anew (R134). -/
def Dev.toState (d : Dev) (s : ChipState) : Dev :=
  if d.chip.state = s then d
  else
    let d := d.logChip 0x0008 (d.chip.state.code + 16 * s.code)
    let old := d.chip.state
    let d := ({ d with chip := { d.chip with prev := old, state := s, since := d.now } } : Dev).stateEntered old
    d.each allPorts (fun p d => d.refreshReady p)

/-! ## Contained restarts of blocks (R50) -/

/-- The engine block that block 4 or 5 of a region is. -/
def engineBlock (n k : Nat) : Nat := 2 * n + (k - 4)

/-- The ports of a block follow its restart (R163). -/
def Dev.blockPortsFollow (d : Dev) (n k : Nat) : Dev := d.each (blockPorts n k) (fun p d => d.refreshEnabled p)

/-- The ports of a block stop: what they send is cut, what they receive goes uncounted (R163). -/
def Dev.blockPortsStop (d : Dev) (n k : Nat) : Dev :=
  (d.each (blockPorts n k) (fun p d => (d.transmitCut p).dropReception p)).blockPortsFollow n k

/-- The frames of region n whose search has been made and that are not yet committed are discarded as its pipeline or table block
restarts, their slots wasted (R245, Table 15-4) and the frames counted (R332, Table 10-5); head windows that wait stay (DEDUCED, log
89). -/
def Dev.freeTaken (d : Dev) (n : Nat) : Dev :=
  let l := d.frame.landing.filter (fun l =>
    l.region == n && !(l.phase == .landing || l.phase == .offered || l.phase == .gone))
  d.each l (fun x d => (d.discardLanding x true).bump (R.GRN_RESTART_FREED n))

/-- What block k of region n does as its contained restart begins (Tables 1-9, 6-7, 7-8, 8-6, 9-4, 10-5, 13-8). -/
def Dev.blockStops (d : Dev) (n k : Nat) : Dev :=
  if k < 4 then (d.setFlag (R.PB_STAT (4 * n + k)) R.PB_STAT.RESTART true).blockPortsStop n k
  else if k < 6 then
    let b := engineBlock n k
    ((d.enginesStop (fun e => e / 8 == b)).engineContained b).rewriteImem b
  else if k = 6 then
    let d := (((d.abortTbl n).wnwAbort n).abortPol n).tblContained n
    let d := d.freeTaken n
    let d := d.each (d.failingWords n) (fun key d => d.rewriteFailing n key)
    ((d.loftRepair n (fun s d => d.rewriteLoftSlot n s)).repairPolicers n).fillPolicers n
  else if k = 7 then ((d.dramContained n).cutSending n).granaryContained n
  else if k = 8 then
    let d := (d.wnwAbort n).abortPol n
    (((d.freeTaken n).selfTestStart n).repairPolicers n).fillPolicers n
  else (d.hostContained n).blockPortsStop n k

/-- A contained restart of block k of region n begins: the block is isolated and its Floor tags are void (R46). -/
def Dev.containedBegin (d : Dev) (n k cell addr : Nat) : Dev :=
  let d := (d.bump R.ERR_CONTAINED).logEntry 0x0002 n k (cell % 65536 * 65536 + addr % 65536)
  if d.blockInRestart n k then d
  else
    let d := d.setFieldBit (R.RGN_STAT n) R.RGN_STAT.BLOCK_RESTART k true
    (((d.arm ⟨.containedBound, n, k⟩ (200 * us)).voidTags n k).cellsRestart n k).blockStops n k

/-- What block k of region n does as its contained restart ends. -/
def Dev.blockResumes (d : Dev) (n k : Nat) : Dev :=
  if k < 4 then
    ((d.setFlag (R.PB_STAT (4 * n + k)) R.PB_STAT.RESTART false).i2cStartClear (4 * n + k)).blockPortsFollow n k
  else if k < 6 then d.engineRestarted (engineBlock n k)
  else if k = 6 ∨ k = 8 then (d.wnwStartRebuild n).requestReplay n none
  else if k = 7 then d.replayToward n
  else (d.hostRestarted n).blockPortsFollow n k

/-- CONTAINED_RESTART_END: the block resumes, and RGN_ERR.CONTAINED is set. -/
def Dev.containedEnd (d : Dev) (n k : Nat) : Dev :=
  if !d.blockInRestart n k then d
  else
    let d := (d.setFieldBit (R.RGN_STAT n) R.RGN_STAT.BLOCK_RESTART k false).disarm ⟨.containedBound, n, k⟩
    (d.setFieldBit (R.RGN_ERR n) R.RGN_ERR.CONTAINED k true).blockResumes n k

/-! ## Region restarts (R11, R47 to R49, R433) -/

/-- The contained restarts of region n are over: a higher restart takes their place. -/
def Dev.dropContained (d : Dev) (n : Nat) : Dev :=
  let d := d.fset (R.RGN_STAT n) R.RGN_STAT.BLOCK_RESTART 0
  let d := d.each [0, 1, 2, 3] (fun k d => d.setFlag (R.PB_STAT (4 * n + k)) R.PB_STAT.RESTART false)
  d.each (List.range 10) (fun k d => d.disarm ⟨.containedBound, n, k⟩)

/-- The region's units as a warm restart of the region, or of the chip, begins. -/
def Dev.regionUnits (d : Dev) (n : Nat) : Dev :=
  let d := d.regionFloorReset n
  let d := ((d.abortTbl n).wnwAbort n).abortPol n
  let d := d.enginesStop (fun e => e / 16 == n)
  let d := ((d.engineRestart n).rewriteImem (2 * n)).rewriteImem (2 * n + 1)
  let d := ((d.freeUncommitted n).selfTestStart n).loftRestart n
  let d := (d.dramContained n).granaryRestart n
  let d := d.custodyWalk n (fun x d => Dev.place n x d)
  let d := (d.hostVoid n).hostNotReady n
  (((d.startVerify n).wnwStartRebuild n).repairPolicers n).fillPolicers n

/-- The readiness bits of the region's units that a restart takes away. -/
def Dev.regionNotReady (d : Dev) (n : Nat) : Dev :=
  (((d.setFlag (R.ACC_STAT n) R.ACC_STAT.READY false).setFlag (R.GRN_STAT n) R.GRN_STAT.READY false).setFlag
    (R.ENG_BLK_STAT (2 * n)) R.ENG_BLK_STAT.READY false).setFlag (R.ENG_BLK_STAT (2 * n + 1)) R.ENG_BLK_STAT.READY false

/-- The engine blocks whose ENGFW records are applied are ready (R481), but for one whose memory failed its test (R564). -/
def Dev.enginesReady (d : Dev) (n : Nat) : Dev :=
  d.each [0, 1] (fun j d =>
    d.setFlag (R.ENG_BLK_STAT (2 * n + j)) R.ENG_BLK_STAT.READY ((d.rl n).engFw && !d.start.testedOff.contains (16 * n + 4 + j)))

/-- A region initialised as at a cold start within a warm one (R104, R568): its words, tables, frames, custody, engines, Loft and
rings are gone, but for the words that are kept. -/
def Dev.regionCleared (d : Dev) (n : Nat) (keep : Nat → Bool) : Dev :=
  let mine := fun (a : Nat) => regionOfKey a == some n && !keep a
  let d := (((d.granaryClear n).custodyClear n).engineClear n).loftClear n
  let d := ({ d with
    regs := d.regs.filter (fun x => !mine x.1), cellCtl := d.cellCtl.filter (fun x => !mine x.1),
    faults := d.faults.filter (fun x => !mine x.1),
    host := { d.host with rings := d.host.rings.filter (fun x => x.1 / 512 != n),
                          unreported := d.host.unreported.filter (fun x => x.1 / 512 != n) } } : Dev)
  let d := (d.setTbl n TablePart.init).setVoter n VoterPart.init
  d.each [0, 1, 2, 3] (fun j d => d.setFlag (R.PB_STAT (4 * n + j)) R.PB_STAT.REFCLK_OK (!d.mgmt.refLost.testBit (4 * n + j)))

/-- A frame record or a state bit of region n's grains cannot be read (R568). -/
def Dev.grainsBad (d : Dev) (n : Nat) : Bool :=
  d.faults.any (fun x => x.2 == 2 && regionOfKey x.1 == some n && (spaceOfKey x.1 == some 0x43 || spaceOfKey x.1 == some 0x44))

/-- The words of region n's port blocks and of its Ethernet host port, which run on through a region restart (R563). -/
def portWord (n a : Nat) : Bool :=
  [0, 1, 2, 3].any (fun j => a / 0x10000 == R.PB_STAT (4 * n + j) / 0x10000)
    || decide (R.HST_CFG n + 0x1800 ≤ a ∧ a < R.HST_CFG n + 0x2000)

/-- A region restart finds the region's grains unreadable: the region is initialised cold (R568). -/
def Dev.regionFresh (d : Dev) (n : Nat) : Dev :=
  (d.regionCleared n (portWord n)).applyRegion (imageSections d.runningSlot.bytes) n (fun _ => true)

/-- A restart of region n begins: its generation advances (R11) and its Floor port serves no more (R47). -/
def Dev.regionRestart (d : Dev) (n : Nat) : Dev :=
  let d := if d.loader.draining = some n then d.drainAbandon else d
  let d := d.when (d.grainsBad n) (·.regionFresh n)
  let d := (d.dropContained n).fset (R.RGN_STAT n) R.RGN_STAT.STATE 1
  let d := d.setFieldBit R.FLR_STAT R.FLR_STAT.IN_RESTART n true
  let d := (d.advanceGen n).saturatingAdd (R.RGN_STAT n) R.RGN_STAT.REGION_RESTARTS 1
  let d := (d.arm ⟨.regionBound, n, 0⟩ (20 * ms)).regionNotReady n
  (d.regionUnits n).refreshRegion n

/-- What REGION_RESTART_END waits for: the Floor port, the pattern map and the tables of region n. -/
def Dev.regionUnitsReady (d : Dev) (n : Nat) : Bool :=
  (d.fget R.FLR_STAT R.FLR_STAT.PORT_UP).testBit n && d.flag (R.WNW_STAT n) R.WNW_STAT.READY
    && d.flag (R.TBL_STAT n) R.TBL_STAT.READY

/-- The layout tag of a region that a re-layout has restarted becomes the candidate's (R117). -/
def Dev.setRegionTag (d : Dev) (n : Nat) : Dev :=
  let w := BitVec.ofNat 32 (crc32c (regionTagBytes (imageSections d.runningSlot.bytes) n))
  { d with loader := { d.loader with rgnTag := setAt d.loader.rgnTag n w } }

/-- REGION_RESTART_END: the region returns to RUN, its Floor port serves again, and the replays of Table 10-5 begin. -/
def Dev.regionEnd (d : Dev) (n : Nat) : Dev :=
  if !d.armed ⟨.regionBound, n, 0⟩ || !d.regionUnitsReady n then d
  else
    let d := (d.disarm ⟨.regionBound, n, 0⟩).fset (R.RGN_STAT n) R.RGN_STAT.STATE 0
    let d := d.setFieldBit R.FLR_STAT R.FLR_STAT.IN_RESTART n false
    let d := d.setFlag (R.RGN_ERR n) R.RGN_ERR.REGION_FATAL true
    let d := (d.setFlag (R.ACC_STAT n) R.ACC_STAT.READY true).setFlag (R.GRN_STAT n) R.GRN_STAT.READY true
    let d := (d.requestReplay n none).replayToward n
    let d := (d.enginesReady n).bootRegion n 2
    let d := (d.hostRestarted n).instEnable n
    let d := d.each (regionPorts n) (fun p d => d.refreshEnabled p)
    if d.loader.relaying = some n then
      let d := d.setFlag R.LDR_RELAYOUT R.LDR_RELAYOUT.ACTIVE false
      let d := d.setRegionTag n
      let d : Dev := { d with loader := { d.loader with relaying := none } }
      d.setFlag R.LDR_STAT R.LDR_STAT.RELAYOUT_DONE true
    else d

/-! ## Re-layout (R116 to R118) -/

/-- A word with every field whose Cold value is img at zero. -/
def withoutImg (a : Nat) (w : Word) : Word :=
  match regAt a with
  | none => w
  | some r => BitVec.ofNat 32 (Nat.land w.toNat (Nat.xor (maskOf (r.fields.filter (fun f => f.cold == .img))) 0xFFFFFFFF))

/-- The spaces of a region whose words come from the image. -/
def imageSpaces : List Nat :=
  [0x20, 0x21, 0x30, 0x31, 0x32, 0x33, 0x34, 0x35, 0x40, 0x45, 0x46, 0x61, 0x66, 0x70, 0x78, 0x79]

/-- Every field of region n whose Cold value is img is cleared, to take the candidate's value. -/
def Dev.clearImg (d : Dev) (n : Nat) : Dev :=
  let mine := fun (a : Nat) => regionOfKey a == some n
  let gone := fun (a : Nat) => mine a && (match spaceOfKey a with | some c => imageSpaces.contains c | none => false)
  let d := ({ d with regs := d.regs.filter (fun x => !gone x.1), faults := d.faults.filter (fun x => !gone x.1) } : Dev)
  d.each ((d.regs.filter (fun x => mine x.1 && (spaceOfKey x.1).isNone)).map (·.1)) (fun a d => d.wr a (withoutImg a (d.rd a)))

/-- The candidate's effective sections are applied to region n, with the words of its pipeline block that CLASSMAP gives. The
counter cells of MAC cells that the new mode does not create keep their counts (DESIGN CHOICE, log 83). -/
def Dev.relayout (d : Dev) (n : Nat) : Dev :=
  let l := imageSections d.runningSlot.bytes
  let old := d.rl n
  let d := ({ d with loader := { d.loader with
      layout := { d.loader.layout with rgn := setAt d.loader.layout.rgn n (regionLayoutOf l n) } } } : Dev)
  let new := d.rl n
  let changed := (List.range 4).filter (fun j => (old.pbMode.getD j 0, old.pbFec.getD j 0, old.pbLanes.getD j 0)
    != (new.pbMode.getD j 0, new.pbFec.getD j 0, new.pbLanes.getD j 0))
  let d := d.each changed (fun j d => d.each (blockPorts n j) (fun p d => d.portDisable p true))
  let d := (d.clearImg n).applySection (chipSection l 4) 0 (fun _ => true) (fun a => regionOfKey a == some n)
  d.applyRegion l n (fun _ => true)

/-- RELAYOUT_DRAIN_COMPLETE: the slots exchange roles, and the region restarts with the candidate (R114, R116). -/
def Dev.drainComplete (d : Dev) (n : Nat) : Dev :=
  if d.loader.draining = some n ∧ d.drained n then
    let d := (d.disarm ⟨.relayoutDrain, n, 0⟩).setFlag R.LDR_RELAYOUT R.LDR_RELAYOUT.ARMED false
    let d := ({ d with loader := { d.loader with draining := none, relaying := some n } } : Dev)
    (d.exchangeSlots.relayout n).regionRestart n
  else d

/-- RELAYOUT_DRAIN_TIMEOUT (R115). -/
def Dev.drainTimeout (d : Dev) (n : Nat) : Dev := if d.due ⟨.relayoutDrain, n, 0⟩ then d.drainAbandon else d

/-- RGN_RESTART_WARM: a planned restart, or the drain of an armed re-layout (R66, R113). -/
def Dev.restartWarm (d : Dev) (n : Nat) : Dev :=
  if !d.regionRuns n || d.loader.draining == some n then d
  else if d.relayoutArmed n then d.drainStart n
  else d.regionRestart n

end Sys2Proof.Machine
end

