-- ==== Sys2Proof/Machine/TimeBase.lean ====
section
/-! DEFINITION. Time bases, the MAINS and ODO axes and the capture inputs (chapter 4). -/

namespace Sys2Proof.Machine

/-! ## Time bases (R168 to R180) -/

/-- The limit of R169. -/
def rateLimit : Int := 0x400000

/-- The rate in force: the nearer limit where the register holds a value outside (R169). -/
def Dev.tbRate (d : Dev) (t : Nat) : Int := max (-rateLimit) (min rateLimit (signed 32 (d.rd (R.TB_RATE t)).toNat))

/-- A base counts: EN, which acts as 1 before the image's records (R179, R180). -/
def Dev.tbCounts (d : Dev) (t : Nat) : Bool :=
  d.time.counting && (!d.loader.applied || d.flag (R.TB_CFG t) R.TB_CFG.EN)

/-- One clock of a time base (R168). -/
def Dev.tbTick (d : Dev) (t : Nat) : Dev :=
  if d.tbCounts t then
    let b := d.tbase t
    let v : Int := (b.value : Int) + 2 ^ 32 + d.tbRate t
    let adv : Int := v / 2 ^ 32 - (b.value / 2 ^ 32 : Nat)
    d.setTbase t ⟨wrapTo 64 v, b.acc + adv⟩
  else d

/-- A write of TB_RATE (R169, R177): by the owner or a privileged master, which the register's privilege ensures. -/
def Dev.tbRateWrite (d : Dev) (t : Nat) (v : Word) : Dev :=
  let r := signed 32 v.toNat
  let d := d.wr (R.TB_RATE t) v
  let d := d.setFlag (R.TB_STAT t) R.TB_STAT.RATE_CLAMPED (decide (r < -rateLimit ∨ rateLimit < r))
  let d := d.setFlag (R.TB_STAT t) R.TB_STAT.HOLDOVER false
  d.armHoldWatch t

/-- What every SET and STEP leaves (R174). -/
def Dev.tbAdjusted (d : Dev) (t : Nat) : Dev := (d.setFlag (R.TB_STAT t) R.TB_STAT.STEPPED true).bump (R.TB_ADJ_CNT t)

/-- TB_CMD.SET (R173, R174, R193). -/
def Dev.tbSet (d : Dev) (t : Nat) : Dev :=
  let b := d.tbase t
  let ns := (d.rd (R.TB_SET_NS t)).toNat
  let d := d.setTbase t ⟨ns * 2 ^ 32 + (d.rd (R.TB_SET_FRAC t)).toNat, b.acc + signed 32 (ns + 2 ^ 32 - b.ns)⟩
  let d := (d.setFlag (R.TB_STAT t) R.TB_STAT.VALID true).tbAdjusted t
  (d.reanchor t).refreshAxis t

/-- TB_CMD.STEP (R173, R193): the positions of the users move with the reading. -/
def Dev.tbStep (d : Dev) (t : Nat) : Dev :=
  let b := d.tbase t
  let st := signed 32 (d.rd (R.TB_STEP t)).toNat
  let d := d.setTbase t ⟨wrapTo 64 ((b.value : Int) + st * 2 ^ 32), b.acc + st⟩
  (d.tbAdjusted t).refreshAxis t

/-- HOLDOVER_WATCHDOG_EXPIRY (R177). -/
def Dev.tbWatchExpire (d : Dev) (t : Nat) : Dev :=
  if d.due ⟨.tbWatch, t, 0⟩ then (d.disarm ⟨.tbWatch, t, 0⟩).holdover t else d

/-! ## MAINS (R181 to R188) -/

def Dev.setMains (d : Dev) (m : Mains) : Dev := { d with time := { d.time with mains := m } }

def Dev.mainsOn (d : Dev) : Bool := d.flag R.PH_MAINS_CFG R.PH_MAINS_CFG.EN
def Dev.mainsState (d : Dev) : Nat := d.fget R.PH_MAINS_STAT R.PH_MAINS_STAT.STATE
def Dev.mainsPeriod (d : Dev) : Nat := d.fget R.PH_MAINS_PERIOD R.PH_MAINS_PERIOD.NS
/-- WIN: values below 64 act as 64. -/
def Dev.mainsWin (d : Dev) : Nat := max 64 (d.fget R.PH_MAINS_CFG R.PH_MAINS_CFG.WIN)
/-- LOSS_CNT: 0 acts as 1. -/
def Dev.mainsLoss (d : Dev) : Nat := max 1 (d.fget R.PH_MAINS_CFG R.PH_MAINS_CFG.LOSS_CNT)
def Mains.phase (m : Mains) : Nat := m.value % 65536

/-- The axis moves on by k units in one clock: the windows it passes whole are counted (R208, R209). -/
def Dev.mainsAdvance (d : Dev) (k : Nat) : Dev :=
  let before := d
  let m := d.time.mains
  let d := d.setMains { m with value := (m.value + k) % 2 ^ 32, acc := m.acc + k }
  if k ≤ 1 then d
  else
    let d := d.each (List.range 8) (fun s d =>
      let u := d.slotUser s
      if d.slotOn s && d.slotAxis s == 4 && !u.active && !d.windowNow s && !d.slotBad s && d.usersRun &&
          (let c := before.slotCycle s
           let pos := before.position 4 u.origin c
           let op := (before.rd (R.SCH_OPEN s)).toNat % c
           let len := (before.rd (R.SCH_LEN s)).toNat
           len != 0 && decide ((op + c - pos) % c ≤ k ∧ (op + c - pos) % c ≠ 0)) then d.countOpening s else d)
    d.refreshAxis 4

/-- Write PERIOD. -/
def Dev.setPeriod (d : Dev) (p : Nat) : Dev := d.fset R.PH_MAINS_PERIOD R.PH_MAINS_PERIOD.NS p

/-- The next cycle begins at phase 0: a new PERIOD applies from here (R182, R183). -/
def Dev.mainsNextCycle (d : Dev) : Dev :=
  let m := d.time.mains
  let d := if m.nextPeriod = 0 then d else d.setPeriod m.nextPeriod
  (d.setMains { m with progress := 0, holding := false, beginNext := false, nextPeriod := 0 }).mainsAdvance 1

/-- One clock of the axis (R182, R184): progress counts in 65,536ths of PERIOD. -/
def Dev.mainsTick (d : Dev) : Dev :=
  let m := d.time.mains
  if !d.mainsOn || d.mainsState == 0 then d
  else if m.beginNext then d.mainsNextCycle
  else
    let p := m.progress + 65536
    if m.holding then d.setMains { m with progress := p }
    else if p < d.mainsPeriod then d.setMains { m with progress := p }
    else if m.phase = 65535 then
      if d.mainsState = 1 then d.setMains { m with holding := true, progress := p - d.mainsPeriod }
      else (d.setMains { m with progress := p - d.mainsPeriod }).mainsAdvance 1
    else (d.setMains { m with progress := p - d.mainsPeriod }).mainsAdvance 1

/-- The remaining units of the cycle are compressed into this clock, and the next cycle begins in the following one. -/
def Dev.mainsCompressCycle (d : Dev) : Dev :=
  let k := 65535 - d.time.mains.phase
  let d := d.mainsAdvance k
  d.setMains { d.time.mains with holding := false, beginNext := true }

/-- Usable intervals (R181). -/
def usableInterval (n : Nat) : Bool := decide (ms ≤ n ∧ n ≤ 100 * ms)

/-- MAINS_EDGE in LOCKED (R183): PERIOD of the next cycle is the mean of the last four usable intervals between
consecutive edges that each ended a cycle (R182); with fewer than four since the lock PERIOD stays (DESIGN CHOICE, log 38). A
stray edge is counted and otherwise ignored. -/
def Dev.mainsLockedEdge (d : Dev) : Dev :=
  let m := d.time.mains
  if m.holding || decide (65536 - d.mainsWin ≤ m.phase) then
    let iv := match m.lastCycleEdge with
      | some t => if usableInterval (d.now - t) then ((d.now - t) :: m.intervals).take 4 else m.intervals
      | none => m.intervals
    let np := if iv.length = 4 then (iv.foldl (· + ·) 0) / 4 else 0
    let d := d.setMains { m with intervals := iv, lastCycleEdge := some d.now, lastEdge := some d.now, misses := 0,
                                 nextPeriod := np }
    d.mainsCompressCycle
  else d.bump R.PH_MAINS_STRAY

/-- Two successive usable intervals lock the axis when they differ by no more than a sixteenth of the earlier (R186). -/
def locks (earlier later : Nat) : Bool :=
  decide ((if earlier ≤ later then later - earlier else earlier - later) * 16 ≤ earlier)

/-- MAINS_EDGE in ACQUIRE and LOST (R186, R187). -/
def Dev.mainsMeasure (d : Dev) : Dev :=
  let m := d.time.mains
  match m.lastEdge with
  | none => d.setMains { m with lastEdge := some d.now, intervals := [] }
  | some t =>
    let n := d.now - t
    if !usableInterval n then d.setMains { m with lastEdge := some d.now, intervals := [] }
    else
      match m.intervals with
      | e :: _ =>
        if locks e n then
          let lost := d.mainsState == 2
          let d := (d.setPeriod ((e + n) / 2)).fset R.PH_MAINS_STAT R.PH_MAINS_STAT.STATE 1
          let d := (d.setFlag R.PH_MAINS_STAT R.PH_MAINS_STAT.LOCK_EVT true).bump R.PH_MAINS_RESYNC
          let d := d.setMains { m with lastEdge := some d.now, intervals := [], misses := 0, nextPeriod := 0,
                                       lastCycleEdge := if lost then some d.now else none }
          if lost then (d.bump R.PH_MAINS_COMPRESSED (65535 - m.phase)).mainsCompressCycle else d
        else d.setMains { m with lastEdge := some d.now, intervals := [n] }
      | [] => d.setMains { m with lastEdge := some d.now, intervals := [n] }

/-- MAINS_EDGE: an edge of CYC_IN counts when it has the polarity of EDGE and the level held for FILT µs (R181). -/
def Dev.mainsEdge (d : Dev) (rising : Bool) (heldUs : Nat) : Dev :=
  let falling := d.flag R.PH_MAINS_CFG R.PH_MAINS_CFG.EDGE
  if !d.mainsOn || rising == falling || decide (heldUs < d.fget R.PH_MAINS_CFG R.PH_MAINS_CFG.FILT) then d
  else if d.mainsState = 1 then d.mainsLockedEdge
  else d.mainsMeasure

/-- MAINS_MISS (R184, R185): WIN units of PERIOD have passed since the end of unit 65,535. In LOST the first interval measured
counts from the last edge that ended a cycle in LOCKED (DESIGN CHOICE, log 38). -/
def Dev.mainsMiss (d : Dev) : Dev :=
  let m := d.time.mains
  if !d.mainsOn || d.mainsState != 1 || !m.holding || decide (m.progress < d.mainsWin * d.mainsPeriod) then d
  else
    let win := d.mainsWin
    let excess := m.progress - win * d.mainsPeriod
    let d := d.bump R.PH_MAINS_MISSED
    let d := if m.nextPeriod = 0 then d else d.setPeriod m.nextPeriod
    let d := d.setMains { m with misses := m.misses + 1, holding := false, progress := excess, nextPeriod := 0 }
    let d := d.mainsAdvance (win + 1)
    if d.mainsLoss ≤ m.misses + 1 then
      let d := (d.fset R.PH_MAINS_STAT R.PH_MAINS_STAT.STATE 2).setFlag R.PH_MAINS_STAT R.PH_MAINS_STAT.LOST_EVT true
      d.setMains { d.time.mains with intervals := [] }
    else d

/-- A write of PH_MAINS_CFG that sets EN (R188): LOST with a PERIOD, ACQUIRE without. -/
def Dev.mainsEnabled (d : Dev) : Dev :=
  let d := d.fset R.PH_MAINS_STAT R.PH_MAINS_STAT.STATE (if d.mainsPeriod = 0 then 0 else 2)
  d.setMains { d.time.mains with lastEdge := none, lastCycleEdge := none, intervals := [], holding := false,
                                 beginNext := false, nextPeriod := 0, misses := 0 }

/-! ## ODO (R189 to R191) -/

def Dev.setOdo (d : Dev) (o : Odo) : Dev := { d with time := { d.time with odo := o } }

/-- STILL_10MS: 0 acts as 1. -/
def Dev.odoStillClocks (d : Dev) : Nat := max 1 (d.fget R.PH_ODO_CFG R.PH_ODO_CFG.STILL_10MS) * 10 * ms

/-- ODO_EDGE: a rising edge of ODO_IN that stayed high for `high` units of 100 ns, ODO_DIR at `dir` (R189). -/
def Dev.odoEdge (d : Dev) (high : Nat) (dir : Bool) : Dev :=
  if !d.flag R.PH_ODO_CFG R.PH_ODO_CFG.EN then d
  else if high < d.fget R.PH_ODO_CFG R.PH_ODO_CFG.FILT then d.bump R.PH_ODO_GLITCH
  else
    let back := dir != d.flag R.PH_ODO_CFG R.PH_ODO_CFG.DIR_POL
    let o := d.time.odo
    let st : Int := if back then -1 else 1
    let d := d.setOdo ⟨o.acc + st, wrapTo 32 ((o.value : Int) + st)⟩
    let d : Dev := { d with clk := { d.clk with odoSteps := d.clk.odoSteps + st } }
    let d := d.bump (if back then R.PH_ODO_REV else R.PH_ODO_FWD)
    let d := (d.setFlag R.PH_ODO_STAT R.PH_ODO_STAT.DIR back).setFlag R.PH_ODO_STAT R.PH_ODO_STAT.STILL false
    (d.arm ⟨.odoStill, 0, 0⟩ d.odoStillClocks).refreshAxis 5

/-- PH_ODO_CMD.SET (R190, R193): the edges counted in the same clock move the position that is set. -/
def Dev.odoSet (d : Dev) : Dev :=
  let o := d.time.odo
  let v := wrapTo 32 (((d.rd R.PH_ODO_SET).toNat : Int) + d.clk.odoSteps)
  let d := d.setOdo ⟨o.acc + signed 32 (v + 2 ^ 32 - o.value), v⟩
  (d.reanchor 5).refreshAxis 5

/-- ODO_STILL_EXPIRY (R191). -/
def Dev.odoStill (d : Dev) : Dev :=
  if d.due ⟨.odoStill, 0, 0⟩ then (d.disarm ⟨.odoStill, 0, 0⟩).setFlag R.PH_ODO_STAT R.PH_ODO_STAT.STILL true else d

/-! ## Captures (R202 to R204) -/

/-- The FIFO of input i. -/
def Dev.captures (d : Dev) (i : Nat) : List CaptureEntry := Map.get (fun _ => []) d.time.capture i

def Dev.setCaptures (d : Dev) (i : Nat) (l : List CaptureEntry) : Dev :=
  { d with time := { d.time with capture := Map.put (fun _ => []) d.time.capture i l } }

/-- LEVEL, HEAD_EDGE and the head entry's registers follow the FIFO; with no entry the head registers keep their words. -/
def Dev.refreshCapture (d : Dev) (i : Nat) : Dev :=
  let l := d.captures i
  let d := d.fset (R.CAP_STAT i) R.CAP_STAT.LEVEL l.length
  match l with
  | [] => d
  | e :: _ =>
    let d := d.setFlag (R.CAP_STAT i) R.CAP_STAT.HEAD_EDGE e.rising
    let d := d.each [0, 1, 2, 3] (fun t d => d.wr (R.CAP_TB i t) (BitVec.ofNat 32 (e.tb.getD t 0)))
    (d.wr (R.CAP_MAINS i) (BitVec.ofNat 32 e.mains)).wr (R.CAP_ODO i) (BitVec.ofNat 32 e.odo)

/-- CAPTURE_EDGE (R202): an edge that passes takes the axes' values of this clock, the same for both inputs, whatever is set or
counted in it. Captures are taken in every state but OFF and HELD (Table 4-6). The entry joins its FIFO as the clock ends,
after a POP of the same clock (R204). -/
def Dev.captureEdge (d : Dev) (i : Nat) (rising : Bool) (held : Nat) : Dev :=
  let ed := d.fget (R.CAP_CFG i) R.CAP_CFG.EDGE
  if !ed.testBit (if rising then 0 else 1) || decide (held < d.fget (R.CAP_CFG i) R.CAP_CFG.FILT) || !d.usersRun then d
  else
    let w := d.was
    let e : CaptureEntry := { tb := w.tbAll, mains := w.time.mains.value, odo := w.time.odo.value, rising := rising }
    { d with clk := { d.clk with captured := d.clk.captured ++ [(i, e)] } }

/-- A capture joins its FIFO, or is dropped and counted where the FIFO is full (R203). -/
def Dev.captureEnters (d : Dev) (i : Nat) (e : CaptureEntry) : Dev :=
  let l := d.captures i
  if 16 ≤ l.length then
    (d.setFlag (R.CAP_STAT i) R.CAP_STAT.OVERFLOW true).saturatingAdd (R.CAP_STAT i) R.CAP_STAT.DROPPED 1
  else (d.setCaptures i (l ++ [e])).refreshCapture i

/-- CAP_CFG.POP (R204). When the FIFO runs empty the spec names no head entry: the head registers then hold free values. -/
def Dev.capturePop (d : Dev) (i : Nat) : Dev :=
  match d.captures i with
  | [] => d
  | _ :: rest =>
    let d := (d.setCaptures i rest).refreshCapture i
    if rest.isEmpty then
      let d := d.each [0, 1, 2, 3] (fun t d => let r := d.fresh; r.2.wr (R.CAP_TB i t) r.1)
      let r := d.fresh
      let d := r.2.wr (R.CAP_MAINS i) r.1
      let r := d.fresh
      let d := r.2.wr (R.CAP_ODO i) r.1
      let r := d.freshBool
      r.2.setFlag (R.CAP_STAT i) R.CAP_STAT.HEAD_EDGE r.1
    else d

/-! ## One clock of the time page -/

def Dev.timeTick (d : Dev) : Dev := (d.each [0, 1, 2, 3] (fun t d => d.tbTick t)).mainsTick

/-- The image of a cold start has written the time page: bases are watched, and the axis, the outputs and the slots it enables
start (R177, R188, R192, R207). -/
def Dev.timeEnabled (d : Dev) : Dev :=
  let d := d.each [0, 1, 2, 3] (fun t d => d.armHoldWatch t)
  let d := d.when d.mainsOn (·.mainsEnabled)
  let d := d.each (List.range 4) (fun j d => if d.pulseOn j then d.enablePulse j else d.pulseRefresh j)
  d.each (List.range 8) (fun s d => if d.flag (R.SCH_CFG s) R.SCH_CFG.EN then d.enableSlot s else d)

/-- HELD (Table 4-6): every output at its inactive level, no window open. -/
def Dev.timeHeld (d : Dev) : Dev :=
  let d := d.each (List.range 4) (fun j d => d.pulseRefresh j)
  d.each (List.range 8) (fun s d =>
    (d.setSlotUser s { d.slotUser s with active := false, fallback := false }).refreshSlotStat s)

/-- A warm start: the bases count on, every base in holdover (R177, Table 4-6). -/
def Dev.timeWarm (d : Dev) : Dev := d.each [0, 1, 2, 3] (fun t d => (d.holdover t).armHoldWatch t)

/-- The fuse-read step of a cold start: every base at 0.0, counting (R180); axes at 0 and STILL set (Table 4-6). -/
def Dev.timeCold (d : Dev) : Dev :=
  let d := { d with time := TimePart.init true }
  d.each [0, 1, 2, 3] (fun t d => d.armHoldWatch t)

end Sys2Proof.Machine
end

