-- ==== Sys2Proof/Machine/Start.lean ====
section
/-! DEFINITION. Starts (R558 to R568), failed starts and the built-in recovery image (R573 to R576), and calibration (R577 to
R581). -/

namespace Sys2Proof.Machine

/-! ## User calibration (R577, R578) -/

/-- The bytes of copy A (false) or B (true) of the user calibration. -/
def calBytes (flash : List Host.Cell) (b : Bool) : List Byte := cellSlice 1668 (0x1000000 + 0x20000 * b2n b) flash

/-- A copy is valid (R577). -/
def calValid (fu : Fuses) (b : List Byte) : Bool :=
  leAt b 0 4 == 0x4C414355 && leAt b 4 2 == 1 && leAt b 8 4 == 0x684 && leAt b 0x680 4 == crc32c (b.take 0x680)
    && leAt b 0x10 8 == fu.serial.toNat

/-- The copy a cold start uses, with which of the two it is. -/
def calChoice (s : State) : Option (Bool × List Byte) :=
  let a := calBytes s.flash false
  let b := calBytes s.flash true
  match calValid s.fuses a, calValid s.fuses b with
  | true, true => if seqAfter 32 (leAt b 0xC 4) (leAt a 0xC 4) then some (true, b) else some (false, a)
  | true, false => some (false, a)
  | false, true => some (true, b)
  | false, false => none

/-- Lane record l of a copy (Table 14-8), and the DRAM record of channel n (Table 14-9). -/
def laneRecord (b : List Byte) (l : Nat) : List Byte := (b.drop (0x40 + 16 * l)).take 16
def dramRecord (b : List Byte) (n : Nat) : List Byte := (b.drop (0x480 + 128 * n)).take 128

/-- The settings of lane l at step 6 of a cold start (R578): its user record, or the fuse defaults, whose values the spec does
not give. -/
def Dev.calLane (d : Dev) (l : Nat) : Dev :=
  let r := match d.start.userCal with | some b => laneRecord b l | none => []
  let v := byteAt r 0
  if v.testBit 0 then
    let d := (d.hwPut (R.LN_CFG l) R.LN_CFG.TX_INV (b2n (v.testBit 1))).hwPut (R.LN_CFG l) R.LN_CFG.RX_INV (b2n (v.testBit 2))
    let d := (d.hwPut (R.LN_TXEQ l) R.LN_TXEQ.PRE (byteAt r 1)).hwPut (R.LN_TXEQ l) R.LN_TXEQ.POST (byteAt r 2)
    (d.hwPut (R.LN_TXEQ l) R.LN_TXEQ.MAIN (byteAt r 3)).setFlag R.CAL_STAT R.CAL_STAT.LANES_USER true
  else
    let x := d.fresh
    let w := x.1.toNat
    ((x.2.hwPut (R.LN_TXEQ l) R.LN_TXEQ.PRE w).hwPut (R.LN_TXEQ l) R.LN_TXEQ.POST (w / 32)).hwPut (R.LN_TXEQ l)
      R.LN_TXEQ.MAIN (w / 1024)

/-- Channel n has a valid DRAM record in the copy used (R578). -/
def Dev.calDram (d : Dev) (n : Nat) : Bool :=
  match d.start.userCal with
  | some b => let r := dramRecord b n; (byteAt r 0).testBit 0 && byteAt r 1 == d.fget (R.DRC_CFG n) R.DRC_CFG.SIZE
  | none => false

/-! ## Register words through a start (R20, Table 0-9) -/

/-- The bits of a word that a cold start leaves as the hardware has them: AUX-domain fields of the chip status, start and dump
pages whose Cold entry is hw. -/
def coldKept (a : Nat) (w : Word) : Word :=
  match regAt a with
  | none => 0
  | some r => r.fields.foldl (fun acc f => if f.cold == .hw then f.fld.put acc (f.fld.get w) else acc) (coldWord a)

/-- A word at a warm start: numbered fields take their values, img fields wait for the image, the others keep theirs. -/
def warmWord (a : Nat) (w : Word) : Word :=
  match regAt a with
  | none => w
  | some r => r.fields.foldl (fun acc f =>
      match f.warm with
      | .num v => f.fld.put acc v
      | .img => f.fld.put acc 0
      | _ => acc) w

/-- Every listed register word takes its Warm value. -/
def Dev.warmRegs (d : Dev) : Dev := d.each (d.regs.map (·.1)) (fun a d => d.wr a (warmWord a (d.rd a)))

/-! ## Beginning a start -/

/-- Retained state may be used (R560). -/
def Dev.retainOk (d : Dev) : Bool := d.flag R.STR_STAT R.STR_STAT.RETAIN_OK

/-- A device with nothing in it but what a cold start keeps; no start writes the Silo's data (R623). -/
def Dev.emptied (d : Dev) : Dev :=
  let kept := d.regs.filter (fun x => [1, 10, 14].contains (x.1 / 0x10000))
  let e : Dev := { Dev.initial with
    now := d.now, free := d.free, chip := { d.chip with recoveryImage := false, laneStep := false }, log := d.log,
    dump := { d.dump with active := false },
    loader := { LoaderPart.init with slot0 := d.loader.slot0, slot1 := d.loader.slot1, runningOne := d.loader.runningOne,
                                     chipTag := d.loader.chipTag, rgnTag := d.loader.rgnTag },
    mgmt := { MgmtPart.init with refLost := d.mgmt.refLost }, supply := d.supply,
    engine := { EnginePart.init with loftZero := d.now }, out := d.out, raised := d.raised, clk := d.clk, before := d.before }
  let e := e.each kept (fun x e => e.wr x.1 (coldKept x.1 x.2))
  let e := e.each [0, 1, 2, 3] (fun n e => e.setDram n { DramPart.init with array := (d.dramOf n).array })
  e.each (List.range 16) (fun b e => e.setFlag (R.PB_STAT b) R.PB_STAT.REFCLK_OK (!d.mgmt.refLost.testBit b))

/-- A start finds the retention area lost: a dump it held is no longer valid (R624). -/
def Dev.dumpLost (d : Dev) : Dev :=
  let d' : Dev := { d with supply := { d.supply with sramLost := false } }
  d'.when (d.supply.sramLost && d.flag R.DUMP_STAT R.DUMP_STAT.ON_CHIP) (·.setFlag R.DUMP_STAT R.DUMP_STAT.VALID false)

/-- A cold start begins at a step, with its cause (R558). -/
def coldStart (s : State) (cause step : Nat) : State :=
  let d := (s.dev.toState .startCold).emptied
  let a := R.STR_STAT
  let d := (d.setFlag a R.STR_STAT.RETAIN_OK false).fset a R.STR_STAT.LAST_KIND 0
  let d := (d.fset a R.STR_STAT.CAUSE cause).bump R.STR_COLD_CNT
  let d := d.dumpLost
  let cal := calChoice s
  let d := d.setFlag R.CAL_STAT R.CAL_STAT.COPY ((cal.map (·.1)).getD false)
  let d := (d.setFlag R.CAL_STAT R.CAL_STAT.NO_COPY cal.isNone).setFlag R.CAL_STAT R.CAL_STAT.LANES_USER false
  let d := d.fset R.CAL_STAT R.CAL_STAT.DRAM_USER 0
  let d := ({ d with start := { StartPart.at d.now step with userCal := cal.map (·.2) } } : Dev)
  let d := if step ≤ 1 then d else d.timeCold
  { s with dev := d.arm ⟨.startLimit, 0, 0⟩ (4000 * ms) }

/-- Timers that run on through a warm start. -/
def warmTimers : List TimerKind :=
  [.odoStill, .schedGap, .recoveryReset, .gapSkip, .retry, .sagLadder, .abdSilence, .abdGap, .keepalive, .helloResend, .shedDwell]

/-- Buffer bank cells taken out by BIST stay out of the return reserve (R564). -/
def Dev.shrinkReserve (d : Dev) (n : Nat) : Dev :=
  let k := (d.start.lostGrainBanks.filter (fun x => x / 64 == n)).length
  d.fset (R.GRN_RESERVE n) R.GRN_RESERVE.GRAINS (d.fget (R.GRN_RESERVE n) R.GRN_RESERVE.GRAINS - 1024 * k)

/-- A region whose layout holds stands in the start until what it needs is ready; one left DOWN stays so. -/
def Dev.regionStarts (d : Dev) (n : Nat) : Dev :=
  if d.regionEnabled n && !d.start.downRegions.testBit n then d.fset (R.RGN_STAT n) R.RGN_STAT.STATE 1
  else d.fset (R.RGN_STAT n) R.RGN_STAT.STATE 2

/-- The lease stands by from the start edge (R505). -/
def Dev.leaseAtStart (d : Dev) : Dev :=
  let d := d.leaseStart
  if d.armed ⟨.view, 0, 0⟩ then d.arm ⟨.view, 0, 0⟩ (24 * ms - (d.now - d.start.edge)) else d

/-- The read mode the loader takes from the flash's SFDP table (R68, R69, Table 2-2): the first mode the flash declares, at
the lower of 100 MHz and the flash's maximum; without a valid signature the 1-1-1 read at 25 MHz. -/
def Sfdp.readMode (f : Sfdp) : Nat × Nat :=
  if f.valid then (if f.mode114 then 0x6C else if f.mode112 then 0x3C else 0x0C, min 100 f.maxMhz) else (0x13, 25)

/-- A cold start reads the SFDP table: the read mode, and for 1-1-4 quad enable, set by the method the table names (R68). -/
def State.readSfdp (s : State) : State :=
  let m := s.sfdp.readMode
  let quad := if m.1 = 0x6C then some s.sfdp.quadMethod else s.dev.loader.quadSet
  { s with dev := { s.dev with loader := { s.dev.loader with readMode := m, quadSet := quad } } }

/-- The image of the RUNNING slot is applied: all of it in a cold start; in a warm one regions whose layout tag differs or whose grains cannot be read are
initialised as at a cold start (R104, R568). -/
def Dev.imageApplied (d : Dev) : Dev :=
  let b := d.runningSlot.bytes
  let l := imageSections b
  let warm := d.runState == .startWarm
  let cold := (List.range 4).filter (fun n => !warm ||
    ((enabledRegions l).testBit n && (BitVec.ofNat 32 (crc32c (regionTagBytes l n)) != d.loader.rgnTag.getD n 0 || d.grainsBad n)))
  let mask := cold.foldl (fun m n => m + 2 ^ n) 0
  let d := if warm then d.each cold (fun n d => d.regionCleared n (fun _ => false)) else d
  let d := ({ d with start := { d.start with coldRegions := mask } } : Dev)
  let d := d.applyImage b (fun o => match o with | none => !warm | some n => cold.contains n)
  let d := (d.each [0, 1, 2, 3] (fun n d => (d.regionStarts n).shrinkReserve n)).leaseAtStart.setRunCopy
  let d := d.when (!warm) (·.timeEnabled)
  if warm then d.each ((List.range 4).filter (fun n => d.regionEnabled n && !cold.contains n)) (fun n d => d.regionUnits n) else d

/-- The image of the RUNNING slot is applied at a start; a warm one whose chip tag differs proceeds as a cold start (R104). -/
def imageAtStart (s : State) : State :=
  let d := s.dev
  let tag := BitVec.ofNat 32 (crc32c (chipTagBytes (imageSections d.runningSlot.bytes)))
  if d.runState == .startWarm && tag != d.loader.chipTag then
    let s := (coldStart s (d.fget R.STR_STAT R.STR_STAT.CAUSE) 3).readSfdp
    { s with dev := (s.dev.fuseRegs s.fuses).imageApplied }
  else { s with dev := d.imageApplied }

/-- A warm start begins (R559, R103): the fuses are read again, and the RUNNING slot is checked; a slot that fails is loaded
from flash; what the command registers hold of commands ended by the start is gone with their Warm values. Where the retained state may not be used, a cold start begins instead (R560). -/
def warmStart (s : State) (cause : Nat) (clear : Bool) : State :=
  if !s.dev.retainOk then coldStart s 9 1
  else
    let d := s.dev.each [0, 1, 2, 3] (fun n d => ((d.abortTbl n).wnwAbort n).abortPol n)
    let d := (d.toState .startWarm).warmRegs
    let a := R.STR_STAT
    let d := ((d.fset a R.STR_STAT.LAST_KIND (if clear then 2 else 1)).fset a R.STR_STAT.CAUSE cause).bump R.STR_WARM_CNT
    let good := d.runningSlotGood
    let d : Dev := { d with
      latches := [], ind := [], mboxOut := false, uart := { rx := [], tx := [], sending := none }, floor := FloorPart.init,
      timers := d.timers.filter (fun t => warmTimers.contains t.1.kind),
      chip := { d.chip with recoveryImage := false, laneStep := false },
      dump := { d.dump with active := false },
      start := { d.start with edge := d.now, step := if good then 3 else 2, done := [], calDone := 0, clearCustody := clear,
                              coldRegions := 0, accepted := false, saving := none, drove := false },
      loader := { d.loader with candidate := false, verifying := none, reading := false, toTry := [], draining := none,
                                relaying := none, applied := false, flashOps := [] } }
    let d := d.each [0, 1, 2, 3] (fun n d => d.advanceGen n)
    let d := (d.each allPorts (fun p d => (d.dropReception p).portDisable p true)).each [0, 1, 2, 3] (fun n d =>
      (d.setFlag (R.HST_STAT n) R.HST_STAT.READY false).regionNotReady n)
    let d := (d.fset R.FLR_STAT R.FLR_STAT.PORT_UP 0).setFlag R.FLR_STAT R.FLR_STAT.CHIP_PORT_UP false
    let d := (d.setThread supCore 0 Thread.init).setFlag R.SUP_STAT R.SUP_STAT.MODE false
    let d := (d.standBy.timeWarm.fuseRegs s.fuses).arm ⟨.startLimit, 0, 0⟩ (1000 * ms)
    let s := { s with dev := d }
    if good then
      let s := imageAtStart s
      { s with dev := s.dev.setFlag R.LDR_STAT R.LDR_STAT.FROM_STORE true }
    else s

/-! ## Failed starts (R573, R574, R576) -/

/-- The step of Table 14-1 in progress, 1 to 11. -/
def Dev.failStep (d : Dev) : Nat :=
  if d.start.step ≤ 5 then max 1 d.start.step
  else if d.start.calDone = 0 then 6
  else
    let k := Map.get (fun _ => 0) d.start.done 0
    if k = 0 then 8 else if k = 1 ∧ d.chip.state = .startWarm then 9 else 11

/-- The built-in recovery image starts (R576). -/
def recoveryImage (s : State) : State :=
  let d := s.dev.emptied.toState .recovery
  let d : Dev := { d with
    chip := { d.chip with recoveryImage := true },
    loader := { d.loader with layout := { Layout.none_ with regions := 1 } },
    start := StartPart.at d.now 0 }
  let a := R.STR_STAT
  let d := ((d.setFlag a R.STR_STAT.RETAIN_OK false).fset a R.STR_STAT.LAST_KIND 3).fset a R.STR_STAT.CAUSE 7
  let d := (d.setFlag R.SUP_STAT R.SUP_STAT.MODE true).setFlag R.LDR_STAT R.LDR_STAT.RECOVERY true
  let d := ((d.timeCold.fuseRegs s.fuses).setFlag (R.HST_STAT 0) R.HST_STAT.READY true).alarm 5
  { s with dev := d.supervisorStart }

/-- A start, warm or cold, has failed at a step (R573): recorded, and escalated under R574. -/
def failStart (s : State) (warm : Bool) (step cause : Nat) : State :=
  let a := R.STR_CAUSE
  let d := ((s.dev.fset a R.STR_CAUSE.FAIL_CAUSE cause).fset a R.STR_CAUSE.FAIL_KIND (b2n warm)).fset a R.STR_CAUSE.FAIL_STEP step
  let d := d.logChip 0x0014 (cause + 256 * step)
  let f := if warm then R.STR_STAT.WARM_FAILS else R.STR_STAT.COLD_FAILS
  let k := d.fget R.STR_STAT f + 1
  let d := d.fset R.STR_STAT f k
  if k < 3 then
    if warm then warmStart { s with dev := d } 10 d.start.clearCustody else coldStart { s with dev := d } 10 1
  else if warm then coldStart { s with dev := d.fset R.STR_STAT f 0 } 6 1
  else recoveryImage { s with dev := d }

/-- The start in progress fails. -/
def startFail (s : State) (cause : Nat) : State :=
  if s.dev.chip.state.starting then failStart s (s.dev.chip.state == .startWarm) s.dev.failStep cause else s

/-! ## Step by step (R561, R562) -/

/-- The header reads at the start of step 3 (R70), in the read mode a cold start takes from the SFDP table: the copies to be
tried in their order; one whose header is invalid is refused at once, and with none to try the start fails (R71). -/
def headerReads (s : State) : State :=
  let h := fun (c : FlashCopy) => cellSlice 1024 (copyBase c) s.flash
  let ok := fun (c : FlashCopy) => headerValid (h c)
  let d := (if s.dev.runState = .startCold then s.readSfdp else s).dev
  let d := ([FlashCopy.a, FlashCopy.b].filter (fun c => !ok c)).foldl (fun (d : Dev) c => d.imageRefused c 1) d
  let order := if ok .a && ok .b && seqAfter 32 (imageSeq (h .b)) (imageSeq (h .a)) then [FlashCopy.b, FlashCopy.a]
    else [FlashCopy.a, FlashCopy.b]
  let l := order.filter ok
  let d : Dev := { d with
    loader := { d.loader with toTry := l, reading := !l.isEmpty },
    start := { d.start with step := 3 } }
  if l.isEmpty then startFail { s with dev := d } 1 else { s with dev := d }

/-- IMAGE_COPY_CHECKED (R71, R102, R106): the copy tried is accepted into the RUNNING slot and applied, or refused. -/
def imageCopyChecked (s : State) (c : FlashCopy) (readFailed : Bool) : State :=
  let d := s.dev
  if !d.runState.starting || d.start.step != 3 || d.loader.applied || d.loader.toTry.head? != some c then s
  else
    let b := readCopy s.flash c
    let code := refusalCode s.fuses b readFailed
    if code = 0 then
      let d := ({ d with loader := { d.loader with toTry := [], reading := false } } : Dev)
      let s := imageAtStart { s with dev := d.setRunning ⟨b, c⟩ }
      { s with dev := s.dev.setFlag R.LDR_STAT R.LDR_STAT.FROM_STORE false }
    else
      let rest := d.loader.toTry.drop 1
      let d := (({ d with loader := { d.loader with toTry := rest, reading := !rest.isEmpty } } : Dev).imageRefused c code)
      if rest.isEmpty then startFail { s with dev := d } 1 else { s with dev := d }

/-- A region is left DOWN (R564). -/
def Dev.leaveDown (d : Dev) (n : Nat) : Dev :=
  ({ d with start := { d.start with downRegions := setBit d.start.downRegions n true } } : Dev).fset (R.RGN_STAT n)
    R.RGN_STAT.STATE 2

/-- A unit that memory BIST takes out. -/
def Dev.takeOut (d : Dev) (n k : Nat) : Dev :=
  { d with start := { d.start with testedOff := d.start.testedOff ++ [16 * n + k] } }

/-- A failing table bank, or a spare bank that serves for one, is retired in favour of the lowest spare bank, or the region is left DOWN
(R564). -/
def Dev.bistTable (d : Dev) (n b : Nat) : Dev :=
  let used := (d.tbl n).retired.map (·.2)
  if (d.banksOf n 0).contains b && !used.contains b then d.modTbl n (fun t => { t with retired := t.retired ++ [(b, b)] })
  else
    match (d.banksOf n 0).find? (fun s => !used.contains s) with
    | some s =>
      let a := R.TBL_SPARE_STAT n
      ((d.modTbl n (fun t => { t with retired := t.retired ++ [(b, s)] })).fset a R.TBL_SPARE_STAT.LAST_RETIRED b).saturatingAdd a
        R.TBL_SPARE_STAT.RETIRED 1
    | none => d.leaveDown n

/-- A failing buffer bank cell: its 1,024 grains stay out of the rings, or the region is left DOWN (R564). -/
def Dev.bistBuffer (d : Dev) (n b : Nat) : Dev :=
  let lost := d.start.lostGrainBanks ++ [64 * n + b]
  let k := (lost.filter (fun x => x / 64 == n)).length
  let pools := (d.rl n).poolGrains.foldl (· + ·) 0
  let d := ({ d with start := { d.start with lostGrainBanks := lost } } : Dev)
  if 49152 - 1024 * k < pools then d.leaveDown n
  else
    let d := d.fset (R.GRN_RESERVE n) R.GRN_RESERVE.GRAINS (d.fget (R.GRN_RESERVE n) R.GRN_RESERVE.GRAINS - 1024)
    d.each (List.range 1024) (fun i d => d.setGrain n (48 * i + b) { Grain.init with held := true })

/-- One failing SRAM found by memory BIST (R564): the memories of the table and buffer blocks numbered from 0 are their banks. -/
def Dev.bistFail (d : Dev) (x : BistFail) : Dev :=
  let m := x.memory.toNat
  match x.unit with
  | .chip => d.logEntry 0x0012 0 0xF m
  | .region n => (d.logEntry 0x0012 n 0xF m).leaveDown n
  | .block n k =>
    let d := d.logEntry 0x0012 n k m
    if k.val = 6 ∧ m < 64 then d.bistTable n m
    else if k.val = 7 ∧ m < 48 then d.bistBuffer n m
    else if k.val < 6 ∨ k.val = 9 then d.takeOut n k
    else d.leaveDown n

/-- The regions that start: those of the layout not left DOWN. -/
def Dev.startRegions (d : Dev) : List Nat :=
  (List.range 4).filter (fun n => d.regionEnabled n && !d.start.downRegions.testBit n)

/-- Region n starts cold: the whole start is cold, or the region is initialised so in a warm one. -/
def Dev.regionCold (d : Dev) (n : Nat) : Bool := d.start.coldRegions.testBit n

/-- A host block is ready once the image is applied (R523, Table 14-3). -/
def Dev.hostBlocksReady (d : Dev) : Dev :=
  d.each (d.startRegions.filter (fun n => !d.start.testedOff.contains (16 * n + 9))) (fun n d =>
    (d.setFlag (R.HST_STAT n) R.HST_STAT.READY true).instEnable n)

/-- The link tests of the Floor ports pass, and steps 6, 7 and 8 begin together (R562). -/
def Dev.startParallel (d : Dev) : Dev :=
  let cold := d.runState == .startCold
  let d : Dev := { d with start := { d.start with step := 6 }, chip := { d.chip with laneStep := true } }
  let l := d.startRegions
  let d := (d.fset R.FLR_STAT R.FLR_STAT.PORT_UP (l.foldl (fun m n => m + 2 ^ n) 0)).setFlag R.FLR_STAT R.FLR_STAT.CHIP_PORT_UP true
  let d := d.when cold (fun d => d.each userLanes (fun l d => d.calLane l))
  let d := d.each l (fun n d =>
    let c := d.regionCold n
    let saved := c && cold && d.calDram n
    let d := d.when saved (·.setFieldBit R.CAL_STAT R.CAL_STAT.DRAM_USER n true)
    let d := d.dramStart n c saved
    if c then
      let d := ((d.rebuildGranary n).selfTestStart n).wnwStartRebuild n
      (d.setFlag (R.ACC_STAT n) R.ACC_STAT.READY true).setFlag (R.GRN_STAT n) R.GRN_STAT.READY true
    else d)
  let d := d.each (l.flatMap (fun n => [4 * n, 4 * n + 1, 4 * n + 2, 4 * n + 3])) (fun b d => d.i2cStartClear b)
  d.each allPorts (fun p d => d.refreshEnabled p)

/-- The regions whose functions of Table 14-3 are all ready return to RUN. -/
def Dev.refreshRegions (d : Dev) : Dev :=
  d.each d.startRegions (fun n d =>
    if d.inRestart n && !d.restarting n && (d.fget R.FLR_STAT R.FLR_STAT.PORT_UP).testBit n
        && d.flag (R.WNW_STAT n) R.WNW_STAT.READY && d.flag (R.TBL_STAT n) R.TBL_STAT.READY
        && d.flag (R.GRN_STAT n) R.GRN_STAT.READY && d.flag (R.ACC_STAT n) R.ACC_STAT.READY then
      ((d.fset (R.RGN_STAT n) R.RGN_STAT.STATE 0).hostRestarted n).refreshRegion n
    else d)

/-- The index of a port block's bit in calDone: 16 and 17 for the blocks of H4 and H5. -/
def calIndex (n k : Nat) : Nat := if k < 4 then 4 * n + k else if n = 1 then 16 else 17

/-- Step 6 of a port block ends: bring-up goes on from CAL (step 11). -/
def Dev.blockCalibrated (d : Dev) (n k : Nat) : Dev :=
  let d := ({ d with start := { d.start with calDone := setBit d.start.calDone (calIndex n k) true } } : Dev)
  d.each (blockPorts n k) (fun p d => d.calComplete p)

/-- Step 8 of region n ends: its tables are usable, its engines boot and its Loft is ready. -/
def Dev.tablesReady (d : Dev) (n : Nat) : Dev :=
  let c := d.regionCold n
  let ready := d.flag (R.WNW_STAT n) R.WNW_STAT.READY && !d.flag (R.VOTE_STAT n) R.VOTE_STAT.TESTING
    && (c || d.flag (R.TBL_STAT n) R.TBL_STAT.READY)
  if !d.startRegions.contains n || Map.get (fun _ => 0) d.start.done n != 0 || !ready then d
  else
    let d := ({ d with start := { d.start with done := Map.put (fun _ => 0) d.start.done n 1 } } : Dev)
    let d := d.when c (fun d => ((d.setFlag (R.TBL_STAT n) R.TBL_STAT.READY true).fset (R.TBL_FDB_COUNT n)
      R.TBL_FDB_COUNT.VALID (d.countKeys n)).refreshStash n)
    let d := (d.enginesReady n).setFlag (R.LOFT_STAT n) R.LOFT_STAT.READY (d.rl n).engFw
    d.refreshRegions.bootRegion n (if d.runState == .startCold then 0 else 1)

/-- Custody is cleared instead of replayed after SHED-5 (R591): every frame is released and counted. -/
def Dev.clearCustodyOf (d : Dev) (n : Nat) : Dev :=
  let mine := fun (k : Nat) => k / 0x1000000 == n
  let gone := d.frame.records.filter (fun x => mine x.1 && x.2.committed)
  let d := d.each gone (fun x d => (d.freeFrame n (x.1 % 0x1000000)).bump (R.GRN_RESTART_FREED n))
  let d : Dev := { d with frame := { d.frame with
    queues := d.frame.queues.map (fun x => if mine x.1 then (x.1, { x.2 with frames := [], chain := [], mchain := [] }) else x),
    bales := Map.put (fun _ => BaleStore.init) d.frame.bales n BaleStore.init,
    mirrorList := Map.put (fun _ => []) d.frame.mirrorList n [],
    hostRx := Map.put (fun _ => []) d.frame.hostRx n [],
    releases := Map.put (fun _ => []) d.frame.releases n [] } }
  d.custodyClear n

/-- Step 9 of region n ends (R433, R591). -/
def Dev.buffersReady (d : Dev) (n : Nat) : Dev :=
  if Map.get (fun _ => 0) d.start.done n != 1 || d.regionCold n then d
  else
    let d := ({ d with start := { d.start with done := Map.put (fun _ => 0) d.start.done n 2 } } : Dev)
    let d := d.when d.start.clearCustody (·.clearCustodyOf n)
    let d := (d.setFlag (R.ACC_STAT n) R.ACC_STAT.READY true).setFlag (R.GRN_STAT n) R.GRN_STAT.READY true
    (d.when (!d.start.clearCustody) (·.requestReplay n none)).refreshRegions

/-- Memory BIST of a step reports (R564, R565). -/
def Dev.bist (d : Dev) (l : List BistFail) : Dev := d.each l (fun x d => d.bistFail x)

/-- START_STEP_COMPLETE (R562). -/
def startStepComplete (s : State) (step : Nat) (u : StepUnit) (fails : List BistFail) : State :=
  let d := s.dev
  let put := fun (d : Dev) => ({ s with dev := d } : State)
  if step ≤ 5 then
    if !d.runState.starting || d.start.step != step then s
    else if step = 1 then put ({ d.timeCold with start := { d.start with step := 2 } })
    else if step = 2 then
      let host := fails.filter (fun x => match x.unit with | .block _ k => k.val == 9 | _ => false)
      headerReads (put ((d.fuseRegs s.fuses).bist (if d.runState = .startCold then host else [])))
    else if step = 3 then
      if !d.loader.applied then s
      else
        let d := d.hostBlocksReady.supervisorStart
        if d.runState = .startCold then put { d with start := { d.start with step := 4 } } else put d.startParallel
    else if step = 4 then
      let d := d.bist (fails.filter (fun x => match x.unit with | .block _ k => k.val != 9 | _ => true))
      let d := ({ d with start := { d.start with step := 5 } } : Dev)
      if fails.any (fun x => x.unit == .chip) || d.start.downRegions.testBit 0 then startFail (put d) 4 else put d
    else put ({ d with log := { EventLog.init with intake := d.log.intake } } : Dev).startParallel
  else if d.start.step != 6 then s
  else
    match u with
    | .block n k => if step = 6 ∧ (k.val < 4 ∨ k.val = 9) then put (d.blockCalibrated n k) else s
    | .region n =>
      if step = 7 then put (d.trainingComplete n true)
      else if step = 8 then put (d.tablesReady n)
      else if step = 9 then put (d.buffersReady n)
      else s
    | .chip => s

/-- The minimal service set (R567). -/
def Dev.minimalSet (d : Dev) : Bool :=
  d.loader.applied && d.start.step == 6 && (d.thread supCore 0).state != .halt && d.regionRuns 0
    && (List.range 4).any (fun j => d.start.calDone.testBit j && (d.rl 0).pbMode.getD j 0 != 0)

/-- ENTER_SERVICE (R567). -/
def Dev.enterService (d : Dev) : Dev :=
  if !d.chip.state.starting || !d.minimalSet then d
  else
    let d := ((d.toState .service).setFlag R.STR_STAT R.STR_STAT.MIN_SET true).wr R.STR_TIME (BitVec.ofNat 32 ((d.now - d.start.edge) / us))
    (d.disarm ⟨.startLimit, 0, 0⟩).tryClaim

/-- START_TIMEOUT (R573). -/
def startTimeout (s : State) : State := if s.dev.due ⟨.startLimit, 0, 0⟩ then startFail s 3 else s

/-- WARM_FAILS and COLD_FAILS clear (R575). -/
def Dev.clearFails (d : Dev) : Dev :=
  (d.fset R.STR_STAT R.STR_STAT.WARM_FAILS 0).fset R.STR_STAT R.STR_STAT.COLD_FAILS 0

/-- FAIL_COUNT_CLEAR (R575): 10 s in service. -/
def Dev.failCountClear (d : Dev) : Dev :=
  if d.due ⟨.failClear, 0, 0⟩ && d.chip.state.serving then d.clearFails.disarm ⟨.failClear, 0, 0⟩ else d

/-- RETENTION_LOSS (R560, R623): VDD_SRAM, which also feeds the retention area of a dump, or VDD_CORE has fallen below its retention
threshold; the command does not say which, so that is a free value. -/
def Dev.retentionLoss (d : Dev) : Dev :=
  let (sram, d) := d.freshBool
  ({ d with supply := { d.supply with sramLost := d.supply.sramLost || sram } } : Dev).setFlag R.STR_STAT R.STR_STAT.RETAIN_OK false

/-- A start can begin: supplies are there and RESET_N, SHED-5 hold nothing. -/
def Dev.mayStart (d : Dev) : Bool := d.chip.state != .off && d.chip.state != .held

/-- STR_CMD.COLD (R558, R575). -/
def strCmdCold (s : State) : State :=
  if s.dev.mayStart then coldStart { s with dev := s.dev.clearFails } 4 1 else s

/-- STR_CMD.WARM (R559): in SERVICE alone. -/
def strCmdWarm (s : State) : State := if s.dev.chip.state = .service then warmStart s 5 false else s

/-! ## Saving calibration (R579 to R581) -/

/-- CAL_CMD is taken (R581). -/
def Dev.calTaken (d : Dev) : Bool := d.chip.state == .service && d.fget R.CAL_STAT R.CAL_STAT.RESULT != 1

/-- A lane record of the settings now (Table 14-8): lanes without lane registers have no record. -/
def Dev.laneNow (d : Dev) (l : Nat) : List Byte :=
  if userLanes.contains l then
    let inv := b2n (d.flag (R.LN_CFG l) R.LN_CFG.TX_INV) * 2 + b2n (d.flag (R.LN_CFG l) R.LN_CFG.RX_INV) * 4
    let t := R.LN_TXEQ l
    let bytes := [1 + inv, d.fget t R.LN_TXEQ.PRE, d.fget t R.LN_TXEQ.POST, d.fget t R.LN_TXEQ.MAIN,
      d.fget (R.LN_RXEQ l) R.LN_RXEQ.CTLE]
    bytes.map (BitVec.ofNat 8) ++ List.replicate 11 0
  else List.replicate 16 0

/-- A DRAM record of the PHY's settings now (Table 14-9), with the die temperature at training. -/
def Dev.dramNow (d : Dev) (n : Nat) : List Byte :=
  if (d.rd (phyKey n 0x84)).getLsbD 0 then
    leBytes 1 1 ++ leBytes 1 (d.fget (R.DRC_CFG n) R.DRC_CFG.SIZE) ++ leBytes 2 (d.dramOf n).trainTemp ++ leBytes 4 (d.rd (phyKey n 0x80)).toNat
      ++ ((List.range 4).flatMap (fun l => (List.range 4).flatMap (fun w => leBytes 4 (d.rd (phyKey n (0x20 * l + 4 * w))).toNat)))
      ++ List.replicate 56 0
  else List.replicate 128 0

/-- Bytes the spec does not give. -/
def Dev.freshBytes (d : Dev) : Nat → List Byte × Dev
  | 0 => ([], d)
  | k + 1 =>
    let x := d.fresh
    let r := Dev.freshBytes x.2 k
    (x.1.setWidth 8 :: r.1, r.2)

/-- The copy a save writes and its bytes with a board tag (R579), which the spec does not give. -/
def calSaveCopy (s : State) (tag : List Byte) : Bool × List Byte :=
  let d := s.dev
  let a := calBytes s.flash false
  let b := calBytes s.flash true
  let pick := match calValid s.fuses a, calValid s.fuses b with
    | true, true =>
      if seqAfter 32 (leAt b 0xC 4) (leAt a 0xC 4) then (false, leAt b 0xC 4 + 1) else (true, leAt a 0xC 4 + 1)
    | true, false => (true, leAt a 0xC 4 + 1)
    | false, true => (false, leAt b 0xC 4 + 1)
    | false, false => (false, 1)
  let head := leBytes 4 0x4C414355 ++ leBytes 2 1 ++ leBytes 2 0x40 ++ leBytes 4 0x684 ++ leBytes 4 pick.2
    ++ leBytes 8 s.fuses.serial.toNat ++ tag ++ List.replicate 24 0
  let body := head ++ (List.range 68).flatMap d.laneNow ++ (List.range 4).flatMap d.dramNow
  (pick.1, body ++ leBytes 4 (crc32c body))

/-- CAL_CMD.SAVE: the supervisor core begins to save. -/
def calSave (s : State) : State :=
  let d := s.dev
  if d.calTaken then
    let x := d.freshBytes 16
    let c := calSaveCopy s x.1
    let d := ({ x.2 with start := { x.2.start with saving := some (0x1000000 + 0x20000 * b2n c.1, c.2) } } : Dev)
    { s with dev := d.fset R.CAL_STAT R.CAL_STAT.RESULT 1 }
  else s

/-- Erase whole units until a range is erased. -/
def eraseUnits (f : Sfdp) (flash : List Host.Cell) (a n : Nat) : List Host.Cell :=
  let u := max 1 f.eraseUnit
  eraseRange flash (a / u * u) ((a + n + u - 1) / u * u - a / u * u)

/-- CAL_SAVE_COMPLETE (R579): the copy is in flash, or what its bytes then hold is not known. -/
def calSaveComplete (s : State) (good : Bool) : State :=
  let d := s.dev
  match d.start.saving with
  | none => s
  | some (a, b) =>
    let d := ({ d with start := { d.start with saving := none } } : Dev)
    let flash := eraseUnits s.sfdp s.flash a b.length
    if good then
      let d := (d.fset R.CAL_STAT R.CAL_STAT.RESULT 2).setFlag R.CAL_STAT R.CAL_STAT.FACTORY_PENDING false
      { s with flash := programBytes flash a b, dev := d }
    else
      let x := d.freshBytes b.length
      { s with flash := programBytes flash a x.1, dev := x.2.fset R.CAL_STAT R.CAL_STAT.RESULT 3 }

/-- CAL_CMD.RESTORE_FACTORY (R580): the first sector of both copies is erased. -/
def calRestoreFactory (s : State) : State :=
  if s.dev.calTaken then
    { s with
      flash := eraseUnits s.sfdp (eraseUnits s.sfdp s.flash 0x1000000 1) 0x1020000 1,
      dev := s.dev.setFlag R.CAL_STAT R.CAL_STAT.FACTORY_PENDING true }
  else s

end Sys2Proof.Machine
end

