-- ==== Sys2Proof/Machine/Supply.lean ====
section
/-! DEFINITION. RESET_N and HELD (R569 to R572), supply shedding (R582 to R591, R674 to R677) and TEST (R686, R687). -/

namespace Sys2Proof.Machine

/-! ## What is requested (R582 to R584) -/

/-- The ladder time of stage k in clocks: a time below that of the stage before acts as that time (R582). -/
def Dev.ladderTime (d : Dev) : Nat → Nat
  | 0 => 0
  | k + 1 =>
    let t := match k with
      | 0 => d.fget R.PWR_LADDER0 R.PWR_LADDER0.T1_MS
      | 1 => d.fget R.PWR_LADDER0 R.PWR_LADDER0.T2_MS
      | 2 => d.fget R.PWR_LADDER0 R.PWR_LADDER0.T3_MS
      | 3 => d.fget R.PWR_LADDER0 R.PWR_LADDER0.T4_MS
      | _ => d.fget R.PWR_LADDER1 R.PWR_LADDER1.T5_MS
    max (t * ms) (d.ladderTime k)

/-- The stage SAG_N requests. -/
def Dev.sagRequest (d : Dev) : Nat :=
  if d.supply.sag && d.flag R.PWR_CFG R.PWR_CFG.SAG_EN then min d.supply.ladder (min 5 (d.fget R.PWR_CFG R.PWR_CFG.SAG_MAX)) else 0

/-- The deepest stage a monitor requests. -/
def Dev.monitorRequest (d : Dev) : Nat := d.supply.rails.foldl (fun m x => max m x.2) d.supply.thermal

/-- The requested stage (R584). -/
def Dev.requested (d : Dev) : Nat := max d.sagRequest d.monitorRequest

/-- SHED-1 to SHED-4 are in force. -/
def Dev.shedStage (d : Dev) : Nat := d.chip.state.stage

/-- The exit dwell (R588) and the dwell in HELD (R591) run while what they wait for lasts. -/
def Dev.refreshDwell (d : Dev) : Dev :=
  let n := max 1 (d.fget R.PWR_CFG R.PWR_CFG.DWELL_MS) * ms
  let d := if d.requested < d.shedStage then (if d.armed ⟨.shedDwell, 0, 0⟩ then d else d.arm ⟨.shedDwell, 0, 0⟩ n)
    else d.disarm ⟨.shedDwell, 0, 0⟩
  if d.chip.state = .held ∧ d.supply.fromShed5 ∧ !d.supply.sag ∧ d.monitorRequest < 5 then
    (if d.armed ⟨.heldExit, 0, 0⟩ then d else d.arm ⟨.heldExit, 0, 0⟩ n)
  else d.disarm ⟨.heldExit, 0, 0⟩

/-- A trigger has changed from `old` in monitor requests: a new request sets PWR_EVT.MON (R583). -/
def Dev.monitorChanged (d : Dev) (old new : Nat) : Dev :=
  (d.when (decide (old < new)) (·.setFlag R.PWR_EVT R.PWR_EVT.MON true)).refreshDwell

/-- SAG_N_FALL (R582): recognised low; the ladder counts from here. -/
def Dev.sagFall (d : Dev) : Dev :=
  if d.supply.sag then d
  else
    let d := (d.bump R.PWR_SAG_CNT).setFlag R.PWR_EVT R.PWR_EVT.SAG true
    let now := ((List.range 6).filter (fun k => d.ladderTime k == 0)).foldl max 0
    let d := ({ d with supply := { d.supply with sag := true, ladder := now } } : Dev)
    (d.each ((List.range 6).filter (fun k => decide (now < k))) (fun k d => d.arm ⟨.sagLadder, k, 0⟩ (d.ladderTime k))).refreshDwell

/-- SAG_N_RISE: recognised high; SAG_N requests nothing. -/
def Dev.sagRise (d : Dev) : Dev :=
  let d := ({ d with supply := { d.supply with sag := false, ladder := 0 } } : Dev)
  (d.each (List.range 6) (fun k d => d.disarm ⟨.sagLadder, k, 0⟩)).refreshDwell

/-- SAG_LADDER_EXPIRY: the ladder time of a stage has passed. -/
def Dev.ladderExpiry (d : Dev) (k : Nat) : Dev :=
  if d.due ⟨.sagLadder, k, 0⟩ then
    (({ d with supply := { d.supply with ladder := max d.supply.ladder k } } : Dev).disarm ⟨.sagLadder, k, 0⟩).refreshDwell
  else d

/-- The thresholds of a rail in mV (Table 17-4a), rails in the order of Table 17-3: stage, entry and exit. -/
def railThresholds (rail : Nat) : List (Nat × Nat × Nat) :=
  let t := [[720, 731, 705, 716, 683, 694], [768, 780, 752, 764, 728, 740], [864, 878, 846, 860, 819, 833],
    [1152, 1170, 1128, 1146, 1092, 1110], [480, 488, 470, 478, 455, 463], [1728, 1755, 1692, 1719, 1638, 1665],
    [3168, 3218, 3102, 3152, 3003, 3053]].getD rail []
  [(1, t.getD 0 0, t.getD 1 0), (3, t.getD 2 0, t.getD 3 0), (5, t.getD 4 0, t.getD 5 0)]

/-- RAIL_MONITOR_CROSSING (R583, R676): the rail has stayed at a level for 1 µs; each stage's request has its hysteresis. -/
def Dev.railCrossing (d : Dev) (rail mv : Nat) : Dev :=
  let old := Map.get (fun _ => 0) d.supply.rails rail
  let new := ((railThresholds rail).filter (fun t => decide (mv ≤ t.2.1) || (decide (t.1 ≤ old) && decide (mv ≤ t.2.2)))).foldl
    (fun m t => max m t.1) 0
  let d := ({ d with supply := { d.supply with rails := Map.put (fun _ => 0) d.supply.rails rail new } } : Dev)
  d.monitorChanged old new

/-- THERMAL_MONITOR_CROSSING (R677): the die temperature in units of 0.25 °C has stayed past a threshold for its time; CHIP_TEMP
shows it. -/
def Dev.thermalCrossing (d : Dev) (temp : Nat) : Dev :=
  let t := signed 11 temp
  let old := d.supply.thermal
  let at_ := fun (k : Nat) (entry exit_ : Int) => decide (entry ≤ t) || (decide (k ≤ old) && decide (exit_ ≤ t))
  let new := if at_ 5 620 560 then 5 else if at_ 4 612 596 then 4 else if at_ 1 604 588 then 1 else 0
  let d := d.fset R.CHIP_TEMP R.CHIP_TEMP.TEMP temp
  let d := d.when (decide (signed 11 (d.fget R.CHIP_TEMP_PEAK R.CHIP_TEMP_PEAK.PEAK) < t)) (·.fset R.CHIP_TEMP_PEAK
    R.CHIP_TEMP_PEAK.PEAK temp)
  ({ d with supply := { d.supply with thermal := new } } : Dev).monitorChanged old new

/-! ## HELD -/

/-- Entry into HELD (R570): what runs stops; the SRAMs, the time elements and the held outputs stay as they are. -/
def Dev.enterHeld (d : Dev) : Dev :=
  let d := d.drainAbandon.toState .held
  let d := d.each allPorts (fun p d => ((d.transmitCut p).dropReception p).portDisable p true)
  let d := (d.each [0, 1, 2, 3] (fun n d => ((d.dropContained n).regionNotReady n).dramSleep n .reset)).setThread supCore 0 Thread.init
  let d : Dev := { d with
    chip := { d.chip with laneStep := false, recoveryImage := false },
    start := { d.start with step := 0, saving := none }, dump := { d.dump with active := false }, uart := { d.uart with tx := [], sending := none } }
  let d := d.twinHeld
  let d := ({ d with timers := d.timers.filter (fun t => warmTimers.contains t.1.kind) } : Dev).each [0, 1, 2, 3]
    (fun n d => d.hostVoid n)
  d.timeHeld

/-- The HELD row of Table 13-8: links down, instances lost. -/
def Dev.heldHosts (d : Dev) : Dev := d.each [0, 1, 2, 3] (fun n d => d.hostHeld n)

/-- RESET_N_FALL (R569, R570): a low of 1 µs is recognised. -/
def Dev.resetFall (d : Dev) : Dev :=
  if d.supply.resetLow then d
  else
    let d := ({ d with supply := { d.supply with resetLow := true, resetAt := d.now - us } } : Dev)
    let d := if d.chip.state = .held then d else d.enterHeld
    (d.arm ⟨.resetSafe, 0, 0⟩ (50 * ms - us)).refreshDwell

/-- RESET_SAFE_STATE_EXPIRY (R518, R571): RESET_N has been low for 50 ms. -/
def Dev.resetLong (d : Dev) : Dev := if d.due ⟨.resetSafe, 0, 0⟩ then d.resetSafe.heldHosts else d

/-- RESET_N_RISE after a low of that many clocks (R569, R572): a glitch is logged; else a warm or cold start begins, unless SHED-5
is still requested (R590); a warm start that leaves HELD after SHED-5 clears custody (R591). -/
def resetRise (s : State) (low : Nat) : State :=
  let d := s.dev
  if !d.supply.resetLow then (if low < us then { s with dev := d.logChip 0x0013 low } else s)
  else if low < us then s
  else
    let d := ({ d with supply := { d.supply with resetLow := false } } : Dev).disarm ⟨.resetSafe, 0, 0⟩
    if d.supply.fromShed5 && d.requested == 5 then { s with dev := d.refreshDwell }
    else
      let clear := d.supply.fromShed5
      let d := ({ d with supply := { d.supply with fromShed5 := false } } : Dev)
      if low < 50 * ms then warmStart { s with dev := d } 2 clear else coldStart { s with dev := d } 1 1

/-! ## Stages (R584 to R588) -/

/-- The entry of stage k in force: counted, with PWR_EVT.STAGE_UP. -/
def Dev.stageCounted (d : Dev) (k : Nat) : Dev :=
  (d.bump ([R.PWR_ENTER1, R.PWR_ENTER1, R.PWR_ENTER2, R.PWR_ENTER3, R.PWR_ENTER4, R.PWR_ENTER5].getD k R.PWR_ENTER5)).setFlag
    R.PWR_EVT R.PWR_EVT.STAGE_UP true

/-- The ports follow the stage in force. -/
def Dev.portsFollowStage (d : Dev) : Dev := d.each allPorts (fun p d => d.refreshEnabled p)

/-- The entry actions of SHED-1 to SHED-4 (Table 14-10). -/
def Dev.enterStage (d : Dev) (k : Nat) : Dev :=
  let d := d.drainAbandon
  match k with
  | 1 => ((d.toState .shed1).stageCounted 1).portsFollowStage
  | 2 =>
    let d := (d.toState .shed2).stageCounted 2
    (d.enginesStop (fun e => d.shedHalted e)).engineShed
  | 3 =>
    let d := ((d.toState .shed3).stageCounted 3).each [0, 1, 2, 3] (fun n d => d.dramSleep n .shed)
    ((d.hostShed 2).hostShed 3).portsFollowStage
  | _ => ((((d.toState .shed4).stageCounted 4).portsFollowStage).hostShed 0).hostShed 1

/-- The entry actions of SHED-5: the lease yields, transmissions in progress complete, the entry is logged, the held outputs go
to the safe state, and the chip enters HELD. -/
def Dev.enterShed5 (d : Dev) : Dev :=
  let who := b2n (d.sagRequest == 5) + 2 * b2n (d.monitorRequest == 5)
  let d := (d.drainAbandon.yieldLease.toState .shed5).stageCounted 5
  let d := d.each allPorts (fun p d => if (d.eport p).sending.isSome && (d.eport p).readsLeft == 0 then d.transmitComplete p else d)
  let d := ((d.logChip 0x0015 who).setSafe true).enterHeld.heldHosts
  ({ d with supply := { d.supply with fromShed5 := true } } : Dev).refreshDwell

/-- The state that a cause for a change meets (R7): TEST shows the state it suspended, and HELD, in the clock it is entered in, the
state it was entered from, so that what it overtakes is recorded. -/
def Dev.causeState (d : Dev) : ChipState :=
  if d.chip.state = .test then d.chip.testFrom
  else if d.chip.state = .held ∧ d.chip.since = d.now then d.chip.prev
  else d.chip.state

/-- A cause for a change of state arises; the clock's causes are ranked as it ends (R6). -/
def Dev.noteCause (d : Dev) (c : Cause) : Dev :=
  if d.clk.causes.contains c then d else { d with clk := { d.clk with causes := d.clk.causes ++ [c] } }

/-- The stage that begins next (R584, R589): one stage of those requested; during a start, in RECOVERY or during a dump only
SHED-5 does, at once. Exit actions are under way first (R588). -/
def Dev.stageNext (d : Dev) : Option Nat :=
  let r := d.requested
  let st := d.causeState
  if st = .held ∨ st = .off then none
  else if st.serving then (if st.stage + 1 ≤ r && decide (d.supply.exiting ≤ st.stage) then some (st.stage + 1) else none)
  else if r = 5 then some 5
  else none

/-- SHED_STAGE_ENTRY: the cause of the next stage arises. -/
def Dev.shedEntry (d : Dev) : Dev :=
  match d.stageNext with
  | some k => d.noteCause (.deeper k)
  | none => d

/-- The next stage is entered. -/
def Dev.enterDeeper (d : Dev) (k : Nat) : Dev := if k = 5 then d.enterShed5 else (d.enterStage k).refreshDwell

/-- The state that shows a stage in force. -/
def stageState : Nat → ChipState
  | 0 => .service | 1 => .shed1 | 2 => .shed2 | 3 => .shed3 | 4 => .shed4 | _ => .shed5

/-- SHED_DWELL_EXPIRY (R588): the cause arises for every stage deeper than the requested one to be left. -/
def Dev.shedDwell (d : Dev) : Dev :=
  if d.due ⟨.shedDwell, 0, 0⟩ && decide (d.requested < d.causeState.stage) then d.noteCause (.shallower d.requested) else d

/-- The exit actions of stage k (R588). -/
def Dev.exitStage (d : Dev) (k : Nat) : Dev :=
  let d : Dev := { d with supply := { d.supply with exiting := if k ≤ d.runState.stage + 1 then 0 else k - 1 } }
  match k with
  | 4 => ((d.hostUnshed 1).hostUnshed 0).portsFollowStage
  | 3 => (((d.each [0, 1, 2, 3] (fun n d => d.dramWake n)).hostUnshed 3).hostUnshed 2).portsFollowStage
  | 2 => d.engineUnshed
  | _ => d.portsFollowStage

/-- The exit actions of the deepest stage left begin, one stage in a clock (R588). -/
def Dev.exitNext (d : Dev) : Dev := if d.runState.stage < d.supply.exiting then d.exitStage d.supply.exiting else d

/-- Every stage deeper than r is left: the exit actions of the deepest begin. -/
def Dev.leaveTo (d : Dev) (r : Nat) : Dev :=
  let old := d.shedStage
  let d := ((d.disarm ⟨.shedDwell, 0, 0⟩).toState (stageState r)).setFlag R.PWR_EVT R.PWR_EVT.STAGE_DOWN true
  ({ d with supply := { d.supply with exiting := old } } : Dev).exitNext.refreshDwell

/-- HELD_EXIT (R591): SHED-5 is no longer requested for the dwell, and RESET_N is high. -/
def heldExit (s : State) : State :=
  let d := s.dev
  if !d.due ⟨.heldExit, 0, 0⟩ || d.chip.state != .held || !d.supply.fromShed5 || d.supply.resetLow then s
  else
    let d := ({ d with supply := { d.supply with fromShed5 := false } } : Dev).disarm ⟨.heldExit, 0, 0⟩
    warmStart { s with dev := d } 8 true

/-! ## Supplies lost and back (R558, R674) -/

/-- VDD_AUX_LOSS (R674): the chip is OFF; nothing of the device's state is left, and its clocks stop. -/
def Dev.auxLoss (d : Dev) : Dev :=
  { Dev.initial with free := d.free, mgmt := { MgmtPart.init with refLost := d.mgmt.refLost },
                     chip := { Dev.initial.chip with prev := d.chip.state } }

/-- POWER_ON (R558, R671): every rail has come into range in sequence, and the power-on reset releases. -/
def powerOn (s : State) : State := if s.dev.chip.state = .off then coldStart s 0 2 else s

/-! ## TEST (R686, R687) -/

/-- TEST_ENTRY: an instruction other than BYPASS and IDCODE is loaded; `drives` for one that may drive balls. -/
def Dev.testEntry (d : Dev) (drives : Bool) : Dev :=
  if d.chip.state = .test then { d with start := { d.start with drove := d.start.drove || drives } }
  else if d.causeState = .off ∨ d.causeState = .held then d
  else d.noteCause (.test drives)

/-- TEST is entered; the state left is the one to return to. -/
def Dev.enterTest (d : Dev) (drives : Bool) : Dev :=
  let from_ := d.chip.state
  if from_ = .test then { d with start := { d.start with drove := d.start.drove || drives } }
  else
    let d := d.toState .test
    { d with chip := { d.chip with testFrom := from_ }, start := { d.start with drove := drives } }

/-- TEST_EXIT: a cold start after balls were driven, else the state before. -/
def testExit (s : State) : State :=
  let d := s.dev
  if d.chip.state ≠ .test then s
  else if d.start.drove then coldStart s 11 1
  else { s with dev := d.toState d.chip.testFrom }

end Sys2Proof.Machine
end

