-- ==== Sys2Proof/Machine/Reads.lean ====
section
/-! DEFINITION. What a read of a register or of an indirect space finds (chapters 15 and 16): stored words, and the words
that show the state of a unit. -/

namespace Sys2Proof.Machine

/-- The number of the place a word address takes in an array of places, if it takes one. -/
def placeOf (a base stride count : Nat) : Option Nat :=
  if base ≤ a ∧ (a - base) % stride = 0 ∧ (a - base) / stride < count then some ((a - base) / stride) else none

/-- A number with bit i set for each i below n that satisfies p. -/
def bitsWhere (n : Nat) (p : Nat → Bool) : Nat := (List.range n).foldl (fun m i => m + b2n (p i) * 2 ^ i) 0

/-! ## Interrupts (R603, Table 15-2) -/

/-- Some bit of an event register is 1 with its enable at 1. -/
def Dev.eventOn (d : Dev) (evt en : Nat) : Bool := d.rd evt &&& d.rd en != 0

/-- The interrupt of block k of region n. -/
def Dev.blockInt (d : Dev) (n k : Nat) : Bool :=
  if k < 4 then d.eventOn (R.PB_EVT (4 * n + k)) (R.PB_EVT_EN (4 * n + k))
  else if k < 6 then d.eventOn (R.ENG_BLK_EVT (2 * n + k - 4)) (R.ENG_BLK_EVT_EN (2 * n + k - 4))
  else if k = 7 then d.eventOn (R.GRN_EVT n) (R.GRN_EVT_EN n) || d.eventOn (R.DRC_EVT n) (R.DRC_EVT_EN n)
  else if k = 8 then d.eventOn (R.ACC_EVT n) (R.ACC_EVT_EN n) || d.eventOn (R.VOTE_EVT n) (R.VOTE_EVT_EN n)
  else if k = 9 then d.eventOn (R.HST_EVT n) (R.HST_EVT_EN n)
  else false

/-- INT_RGN_STAT of region n. -/
def Dev.intRegion (d : Dev) (n : Nat) : Nat :=
  let err := Nat.land (d.rd (R.RGN_ERR n)).toNat (d.fget (R.INT_RGN_EN n) R.INT_RGN_EN.REGION_MASK)
  bitsWhere 10 (d.blockInt n) + 1024 * b2n (err != 0)

/-- Entries of the event log. -/
def Dev.logLevel (d : Dev) : Nat := d.log.entries.length

/-- INT_CHIP_STAT. -/
def Dev.intChip (d : Dev) : Nat :=
  let irq := d.fget R.LOG_CFG R.LOG_CFG.IRQ_LEVEL
  bitsWhere 12 (fun i =>
    if i < 4 then Nat.land (d.intRegion i) (d.fget (R.INT_RGN_EN i) R.INT_RGN_EN.EN) != 0
    else if i = 4 then Nat.land (d.rd R.FLR_ERR).toNat 15 != 0
    else if i = 5 then d.flag R.LDR_STAT R.LDR_STAT.ABANDONED || d.flag R.LDR_STAT R.LDR_STAT.RELAYOUT_DONE
    else if i = 6 then d.eventOn R.TWN_EVT R.TWN_EVT_EN
    else if i = 7 then d.eventOn R.PWR_EVT R.PWR_EVT_EN
    else if i = 8 then (irq != 0 && decide (irq ≤ d.logLevel)) || d.flag R.LOG_STAT R.LOG_STAT.LOG_FULL
    else if i = 9 then d.flag R.DUMP_STAT R.DUMP_STAT.UNREAD
    else if i = 10 then d.mboxOut
    else !d.uart.rx.isEmpty || Nat.land (d.rd R.UART_STAT).toNat 0x70000 != 0)

/-- The chip summary (R604). -/
def Dev.intSummary (d : Dev) : Bool := Nat.land d.intChip (d.fget R.INT_CHIP_EN R.INT_CHIP_EN.EN) != 0

/-- The PCIe host port that takes the chip's message: the master's, when MASTER names its physical function (R604). -/
def Dev.intPort (d : Dev) : Option Nat :=
  if d.loader.layout.masterInst = 0 ∧ d.loader.layout.masterPort < 4 then some d.loader.layout.masterPort else none

/-- The message can be sent: the port is ready and the chip is not in HELD (R606). -/
def Dev.intDeliverable (d : Dev) : Bool :=
  match d.intPort with
  | some n => d.intSummary && d.hostReady n && d.chip.state != .held && d.chip.state != .off
  | none => false

/-! ## The event log's words (Table 15-5) -/

/-- The four words of an entry. -/
def LogEntry.words (e : LogEntry) : List Nat :=
  [e.code + e.state.code * 2 ^ 16 + e.region * 2 ^ 20 + e.block * 2 ^ 22 + b2n e.tbValid * 2 ^ 26, e.seq, e.time, e.data]

/-! ## Readiness (Tables 16-13 to 16-15) -/

/-- RDY_CHIP. -/
def Dev.readyChip (d : Dev) : Nat :=
  b2n (d.loader.applied || d.chip.recoveryImage)
    + 2 * b2n (d.chip.recoveryImage || d.start.step == 6 || (d.loader.applied && 4 ≤ d.start.step) || d.chip.state.serving)
    + 4 * d.fget R.STR_STAT R.STR_STAT.MIN_SET + 8 * b2n d.chip.state.serving
    + 2 ^ 4 * d.fget R.FLR_STAT R.FLR_STAT.PORT_UP + 2 ^ 8 * d.fget R.FLR_STAT R.FLR_STAT.CHIP_PORT_UP
    + 2 ^ 9 * bitsWhere 4 d.regionRuns
    + 2 ^ 13 * bitsWhere 4 (fun n => d.flag (R.GRN_STAT n) R.GRN_STAT.SILO_READY)
    + 2 ^ 17 * bitsWhere 4 (fun n => d.flag (R.HST_STAT n) R.HST_STAT.READY)
    + 2 ^ 21 * bitsWhere 2 (fun j => d.portReady (132 + j))
    + 2 ^ 23 * d.fget R.ABD_STAT R.ABD_STAT.IN_SERVICE
    + 2 ^ 24 * bitsWhere 4 (fun t => d.flag (R.TB_STAT t) R.TB_STAT.VALID)

/-- RDY_REGION of region n. -/
def Dev.readyRegion (d : Dev) (n : Nat) : Nat :=
  b2n (d.flag (R.WNW_STAT n) R.WNW_STAT.READY && d.flag (R.TBL_STAT n) R.TBL_STAT.READY)
    + 2 * d.fget (R.GRN_STAT n) R.GRN_STAT.READY + 4 * d.fget (R.ACC_STAT n) R.ACC_STAT.READY
    + 8 * d.fget (R.LOFT_STAT n) R.LOFT_STAT.READY + 16 * d.fget (R.VOTE_STAT n) R.VOTE_STAT.IN_SERVICE
    + 128 * d.fget (R.VOTE_STAT n) R.VOTE_STAT.VITAL_DOWN
    + 256 * bitsWhere 2 (fun j => d.flag (R.ENG_BLK_STAT (2 * n + j)) R.ENG_BLK_STAT.READY)
    + 2 ^ 16 * bitsWhere 16 (fun k => d.flag (R.ENG_CTL (16 * n + k)) R.ENG_CTL.FW_READY)

/-! ## The scheduler's status (Table 8-12) -/

/-- The port with local number k in region n: 32 is the region's Ethernet host port, where it has one. -/
def localPort (n k : Nat) : Option Nat :=
  if k < 32 then some (32 * n + k) else if n = 1 then some 132 else if n = 3 then some 133 else none

/-- SCH_PSTAT of local port k of region n. -/
def Dev.schStat (d : Dev) (n k : Nat) : Nat :=
  match localPort n k with
  | none => 0
  | some p =>
    let q := fun (i : Nat) => d.queue n (portQueue p i)
    let g := if p < 128 then d.gate p else GateRun.init
    bitsWhere 8 (fun i => !(q i).frames.isEmpty) + 2 ^ 8 * d.gates p + 2 ^ 16 * bitsWhere 8 (d.eligible p)
      + 2 ^ 24 * b2n g.active.isSome + 2 ^ 25 * g.active.getD 0 + 2 ^ 26 * b2n g.armed.isSome
      + 2 ^ 27 * d.fget (R.SCH_PSTAT n k) R.SCH_PSTAT.BADCFG
      + 2 ^ 28 * b2n ((List.range 8).any (fun i => p < 128 && d.heldQueue n (portQueue p i)))

/-- Q_STAT of queue i of local port k of region n. -/
def Dev.queueStat (d : Dev) (n k i : Nat) : Nat :=
  match localPort n k with
  | none => 0
  | some p =>
    let head := (d.queue n (portQueue p i)).frames.head?
    b2n (head.any (fun x => d.fenced p i x)) + 2 * b2n (head.any (fun x => x.tier == .bales || x.tier == .spilling))
      + 4 * b2n (d.queueShaped p i) + 8 * b2n (decide (i < 5) && d.eligible p i)

/-! ## Words of the register pages -/

/-- The words of chip pages that show the state of a unit; none for stored words. -/
def Dev.chipWord (d : Dev) (m : Master) (a : Nat) : Option Nat :=
  let latch := Map.get (fun _ => 0) d.latches (2 ^ 40 * masterId m + a)
  if a = R.ID_WHOAMI then some (masterId m + 256 * b2n (d.privileged m a))
  else if a = R.CHIP_STATE then some (d.chip.state.code + 16 * d.chip.prev.code)
  else if a = R.CHIP_STATE_US then some (min 0xFFFFFFFF ((d.now - d.chip.since) / us))
  else if a = R.RDY_CHIP then some d.readyChip
  else if a / 0x10000 = 2 then
    match placeOf a (R.RDY_REGION 0) 4 4, placeOf a (R.RDY_PORT 0) 4 4 with
    | some n, _ => some (d.readyRegion n)
    | none, some i => some (bitsWhere 32 (fun k => d.portReady (32 * i + k)))
    | none, none => none
  else if a / 0x10000 = 6 then
    match placeOf a (R.TB_NS 0) 0x40 4, placeOf a (R.TB_FRAC 0) 0x40 4 with
    | some t, _ => some (d.tbase t).ns
    | none, some _ => some latch.toNat
    | none, none =>
      if a = R.PH_MAINS_NOW then some d.time.mains.value else if a = R.PH_ODO_POS then some d.time.odo.value else none
  else if a = R.TWN_STAT then
    let w := R.TWN_STAT.ACTING.put (d.rd a) (b2n d.acting)
    some (R.TWN_STAT.VIEW_VALID.put w (b2n d.viewValid)).toNat
  else if a = R.OUT_STAT then some d.outStat.toNat
  else if a = R.PWR_STAT then
    let stage := if d.chip.state = .held ∧ d.supply.fromShed5 then 5 else d.shedStage
    some (stage + 8 * d.requested + 64 * b2n d.supply.sag + 128 * d.monitorRequest + 2048 * b2n (d.armed ⟨.shedDwell, 0, 0⟩))
  else if a = R.INT_CHIP_STAT then some d.intChip
  else if a / 0x10000 = 11 then (placeOf a (R.INT_RGN_STAT 0) 4 4).map d.intRegion
  else if a = R.LOG_STAT then some (R.LOG_STAT.LEVEL.put (d.rd a) d.logLevel).toNat
  else if a / 0x10000 = 12 then
    (placeOf a (R.LOG_HEAD 0) 4 4).map (fun w => ((d.log.entries.head?.map LogEntry.words).getD []).getD w 0)
  else if a = R.UART_STAT then
    some (R.UART_STAT.TX_LEVEL.put (R.UART_STAT.RX_LEVEL.put (d.rd a) d.uart.rx.length) d.uart.tx.length).toNat
  else if a = R.UART_RX then
    some (match d.uart.rx with | [] => 0 | b :: _ => b.toNat + 256)
  else none

/-- The words of engine block pages that show the state of a unit: block k, byte position pos. -/
def Dev.engineWord (d : Dev) (k pos : Nat) : Option Nat :=
  if pos = 4 then
    some (d.fget (R.ENG_BLK_STAT k) R.ENG_BLK_STAT.READY + 2 * b2n (d.blockInRestart (k / 2) (4 + k % 2))
      + 4 * bitsWhere 8 (fun i => (d.fget (R.ENG_BLK_CFG k) R.ENG_BLK_CFG.EN).testBit i && !d.shedHalted (8 * k + i))
      + 1024 * bitsWhere 8 (fun i => d.flag (R.ENG_CTL (8 * k + i)) R.ENG_CTL.FW_READY))
  else
    match placeOf pos 0x104 16 8 with
    | some i =>
      let e := 8 * k + i
      some (bitsWhere 8 (fun t => (d.thread e t).task.isSome) + 256 * bitsWhere 8 (fun t => (d.thread e t).state == .wait)
        + 65536 * b2n (d.shedHalted e))
    | none => none

/-- The words of table block pages that show the state of a unit. -/
def Dev.tableWord (d : Dev) (m : Master) (n a : Nat) : Option Nat :=
  let t := d.tbl n
  if a = R.TBL_STAT n then some (R.TBL_STAT.RESTART.put (d.rd a) (b2n (d.blockInRestart n 6))).toNat
  else if a = R.TBL_GLN_STAT n then some (R.TBL_GLN_STAT.BURSTS.put (d.rd a) (d.bursts n).length).toNat
  else if a = R.TBL_GLN_MISMATCH n then some (match t.mismatch with | [] => 0 | x :: _ => x.1 + 8192 * x.2)
  else if a = R.LOFT_STAT n then
    let w := R.LOFT_STAT.RESYNC_PENDING.put (d.rd a) (b2n (!(d.loftSlotsWith n (d.loftResync n)).isEmpty))
    some (R.LOFT_STAT.MQ_LEVEL.put w (d.mirrorQ n).length).toNat
  else if a = R.LOFT_US_LO n then some (d.loftUs % 2 ^ 32)
  else if a = R.LOFT_US_HI n then some (Map.get (fun _ => 0) d.latches (2 ^ 40 * masterId m + a)).toNat
  else (placeOf a (R.TBL_LRN_HEAD n 0) 4 4).map (fun w =>
    (((t.learn.head?.map Learn.words).getD []).getD w 0).toNat)

/-- The words of buffer block pages that show the state of a unit. -/
def Dev.bufferWord (d : Dev) (n a : Nat) : Option Nat :=
  let h := d.holdOf n
  if a = R.GRN_STAT n then
    let w := R.GRN_STAT.SPILL_STOPPED.put (d.rd a) (b2n (!d.spillOpen n))
    let w := R.GRN_STAT.HOLD.put w (b2n h.active)
    let w := R.GRN_STAT.REBUILD.put w (b2n (d.blockInRestart n 7 || d.restarting n))
    let w := R.GRN_STAT.BALE_REBUILD.put w (b2n (d.channelState n == 2 && !d.flag a R.GRN_STAT.SILO_READY))
    some (R.GRN_STAT.PARTNER_OK.put w (b2n (d.partnerOk n))).toNat
  else if a = R.GRN_RESERVE n then some (R.GRN_RESERVE.USED.put (d.rd a) (Map.get (fun _ => 0) d.frame.reserveUsed n)).toNat
  else if a = R.GRN_BALE_OWN n then
    some (if d.flag (R.GRN_STAT n) R.GRN_STAT.SILO_READY then (d.baleStore n).own.baleCount (d.rl n).balesOwn else 0)
  else if a = R.GRN_BALE_MIRROR n then some ((d.baleStore n).mirror.baleCount (d.rl n).balesMirror)
  else if a = R.GRN_HOLD_STAT n then
    some (b2n h.active + 2 * b2n h.releasing + 65536 * min 65535 ((if h.active then d.now - h.since else h.lasted) / ms))
  else (placeOf a (R.GRN_POOL_USED n 0) 16 8).map (fun p => (d.pool n p).charged + 65536 * (d.pool n p).shared)

/-- The words of pipeline block pages that show the state of a unit. -/
def Dev.pipeWord (d : Dev) (n a : Nat) : Option Nat :=
  if a = R.WNW_FREE n then some (d.wnwFree n).toNat
  else if a = R.VOTE_STAT n then some (R.VOTE_STAT.QLEVEL.put (d.rd a) (d.voteQueue n).length).toNat
  else if a = R.ACC_JRNL n then some (d.journalUsed n).length
  else if a = R.ACC_STORE n then some (d.held n).length
  else if a = R.TSK_STAT n then
    let l := (d.taskPart n).tasks
    some ((l.filter (·.pooled)).length + 65536 * (l.filter (fun t => t.finishedBy.isSome)).length)
  else none

/-- The word at a register address as a master reads it. -/
def Dev.readReg (d : Dev) (m : Master) (a : Nat) : Word :=
  let shown :=
    if a < 0x100000 then d.chipWord m a
    else if a < 0x05000000 then
      let n := a / 0x01000000 - 1
      let page := a / 0x10000 % 0x100
      if page = 0 then none
      else if page < 5 then
        if a % 0x10000 = 0 then some (R.PB_MODE (4 * n + page - 1) |> fun b => (R.PB_MODE.REFSEL.put (d.rd b)
          (b2n (2 ≤ n))).toNat) else none
      else if page < 7 then d.engineWord (2 * n + page - 5) (a % 0x10000)
      else if page = 7 then d.tableWord m n a
      else if page = 8 then d.bufferWord n a
      else if page = 9 then d.pipeWord n a
      else none
    else none
  match shown with
  | some v => BitVec.ofNat 32 v
  | none => d.rd a

end Sys2Proof.Machine
end

