-- ==== Sys2Proof/Machine/Spaces.lean ====
section
/-! DEFINITION. The indirect spaces (R660 to R664, Table 16-7): who may read and write each, its span, and the words found
there. -/

namespace Sys2Proof.Machine

/-- What an indirect write of a space does (Table 16-7): nothing writes it but the image's records or the device itself, or
the rule of the space names. -/
inductive SpaceWrite where
  | never | flash | erase | fuse | testJtag | control | list | live | task | loft | silo
deriving DecidableEq, Repr

/-- A row of Table 16-7: chip or region scope, open to every reader, readable at all, and its write rule. -/
structure SpaceRow where
  chip : Bool
  openRead : Bool
  readable : Bool
  write : SpaceWrite
deriving DecidableEq, Repr

/-- Table 16-7 by space code. -/
def spaceRow (code : Nat) : Option SpaceRow :=
  match code with
  | 0x01 => some ⟨true, false, true, .flash⟩
  | 0x02 => some ⟨true, false, false, .erase⟩
  | 0x03 => some ⟨true, false, true, .fuse⟩
  | 0x04 => some ⟨true, false, true, .testJtag⟩
  | 0x05 => some ⟨true, false, true, .control⟩
  | 0x06 => some ⟨true, false, true, .list⟩
  | 0x07 | 0x08 => some ⟨true, false, true, .never⟩
  | 0x10 | 0x23 | 0x47 | 0x60 => some ⟨false, true, true, .never⟩
  | 0x40 | 0x45 | 0x46 => some ⟨false, false, true, .live⟩
  | 0x51 => some ⟨false, false, true, .silo⟩
  | 0x66 => some ⟨false, false, true, .task⟩
  | 0x70 => some ⟨false, false, true, .loft⟩
  | 0x20 | 0x21 | 0x22 | 0x30 | 0x31 | 0x32 | 0x33 | 0x34 | 0x35 | 0x41 | 0x42 | 0x43 | 0x44 | 0x50 | 0x61 | 0x62 | 0x63
  | 0x64 | 0x65 | 0x67 | 0x71 | 0x78 | 0x79 => some ⟨false, false, true, .never⟩
  | _ => none

/-- Bytes of the data space of channel n (448 bales of 2,048 bytes to a MiB). -/
def Dev.siloSpan (d : Dev) (n : Nat) : Nat := d.loader.layout.chMib.getD n 0 * 448 * 2048

/-- The span of a space of region n in bytes: a banked space ends with the banks the region's CARVE gives it. -/
def State.spaceSpan (s : State) (code n : Nat) : Nat :=
  match code with
  | 0x01 => s.sfdp.density
  | 0x02 => s.sfdp.density
  | 0x03 => 0x400
  | 0x04 => 0x100000
  | 0x05 => 2 ^ 32
  | 0x06 => 0x400
  | 0x07 => 0x2000
  | 0x08 => 0x200000
  | 0x10 => 0x440
  | 0x22 => 0x10000
  | 0x23 => 0x10000
  | 0x41 => 0x480
  | 0x42 => 0x800
  | 0x43 => 0x60000
  | 0x44 => 0x1800
  | 0x47 => 0x2000
  | 0x50 => 0x88
  | 0x51 => s.dev.siloSpan n
  | 0x60 => 0x100000
  | 0x62 => 0x2000
  | 0x63 => 32 * s.dev.journalSize n
  | 0x64 => 0x10C0
  | 0x65 => 0x4400
  | 0x67 => 0x400
  | 0x71 => 512 * 256 * s.dev.bankCount n 4
  | _ => recordSpan (s.dev.rl n) code

/-- The region of a region-scope space answers: enabled, and neither DOWN nor in region restart (R660). -/
def Dev.spaceRegionUp (d : Dev) (n : Nat) : Bool :=
  d.regionEnabled n && d.fget (R.RGN_STAT n) R.RGN_STAT.STATE != 2 && !d.restarting n

/-- A master counts as privileged for a space (R645, R459). -/
def Dev.spacePrivileged (d : Dev) (m : Master) (code n : Nat) : Bool :=
  match m with
  | .supervisor => true
  | .jtag => d.chip.state == .test
  | .pf h => d.loader.layout.masterPort == h.val && d.loader.layout.masterInst == 0
  | .pe e => (code == 0x66 || code == 0x70 || code == 0x71) && n == e.val / 16

/-- An address lies in a space: in the counter control space, the address of a counter cell. -/
def State.inSpan (s : State) (code n addr : Nat) : Bool :=
  decide (addr < s.spaceSpan code n) && (code != 0x05 || (counterCell addr).isSome)

/-- A read of a word of a space is accepted (R660). -/
def State.mayRead (s : State) (m : Master) (code n addr : Nat) : Bool :=
  match spaceRow code with
  | none => false
  | some r => r.readable && (r.openRead || s.dev.spacePrivileged m code n) && (r.chip || s.dev.spaceRegionUp n)
      && s.inSpan code n addr

/-- A write of a word of a space reaches the space's own rule (R660). -/
def State.mayWrite (s : State) (m : Master) (code n addr : Nat) : Bool :=
  match spaceRow code with
  | none => false
  | some r => r.write != .never && s.dev.spacePrivileged m code n && (r.chip || s.dev.spaceRegionUp n)
      && s.inSpan code n addr

/-! ## Contents -/

/-- A word of the fuse space (Table 16-8): a slot that is not programmed shows the hash staged for it. -/
def State.fuseWord (s : State) (addr : Nat) : Nat :=
  if addr < 0x100 then
    let k := s.fuses.slot (addr / 0x40)
    let w := addr % 0x40 / 4
    if w < 12 then (if k.programmed then (k.hash.getD w 0).toNat else (s.dev.rd (spWord 0x03 0 + addr)).toNat)
    else if w = 12 then b2n k.programmed + 2 * b2n k.revoked else 0
  else if addr = 0x100 then s.fuses.svn.toNat % 2 ^ 32
  else if addr = 0x104 then s.fuses.svn.toNat / 2 ^ 32
  else if 0x200 ≤ addr then (Map.get (fun _ => 0#32) s.fuses.cal ((addr - 0x200) / 4)).toNat
  else 0

/-- The control word of the counter cell at a counter address (Table 15-17). -/
def Dev.controlWord (d : Dev) (addr : Nat) : Nat :=
  match counterCell addr with
  | none => 0
  | some a => (Map.get (fun _ => 0#32) d.cellCtl a).toNat + 4 * b2n (chainable a) + 8 * b2n (d.chainedUp a)

/-- A word of the snapshot buffer space (Table 15-3). -/
def Dev.snapWord (d : Dev) (addr : Nat) : Nat :=
  let b := d.snap.getD (addr / 0x1000) Snapshot.none_
  let w := addr % 0x1000 / 4
  if w < 4 then b.tb.getD w 0
  else if w = 4 then b.mains else if w = 5 then b.odo else if w = 6 then b.number else if w = 7 then b.cells.length
  else
    let c := b.cells.getD ((w - 8) / 2) (0, 0)
    if w % 2 = 0 then c.1 else c.2

/-- Word 0 of a lane of the lane analog space: the trims read from fuses, in a format the spec does not give. -/
def laneTrim (n addr : Nat) : Nat :=
  let l := addr / 0x40
  if addr % 0x40 = 0 ∧ (l < 16 ∨ (l = 16 ∧ n % 2 = 1)) then (Config.undefinedWord 0x10 (16 * n + l)).toNat % 2 ^ 22 else 0

/-- The words of a frame record (Table 7-2). -/
def FrameRec.number (r : FrameRec) : Nat :=
  r.ref % 256 + 2 ^ 8 * (r.pool % 8) + 2 ^ 11 * (r.grains % 64) + 2 ^ 17 * (r.minGr % 64) + 2 ^ 23 * (r.src % 64)
    + 2 ^ 29 * (r.cls % 8) + 2 ^ 32 * (r.length % 16384) + 2 ^ 46 * (r.gen % 256) + 2 ^ 54 * b2n r.guarded
    + 2 ^ 55 * b2n r.cong + 2 ^ 56 * b2n r.committed

/-- The code of a journal entry's state (Table 10-2). -/
def JState.code : JState → Nat
  | .free => 0 | .reserved => 1 | .sent => 2 | .resend => 3 | .spilled => 4 | .holding => 5 | .lost => 7

/-- Word w of a journal entry's copy (Table 10-2). -/
def JEntry.word (x : JEntry) (w : Nat) : Nat :=
  if w = 0 then x.state.code + 8 * (x.cls % 8) + 64 * (x.src % 64) + 65536 * (x.head % 65536)
  else if w = 1 then x.seq
  else if w = 2 then x.dest % 256 + 256 * (x.commitGen % 256) + 65536 * (x.length % 16384)
  else x.first % 65536 + 65536 * (x.pending % 256)

/-- The destination code of destination index k of region n. -/
def destOfLocal (n k : Nat) : Nat := if k < 32 then 32 * n + k else if k = 32 then 128 + n else if n = 1 then 132 else 133

/-- A word of the egress lane space (Table 10-13). -/
def Dev.laneWord (d : Dev) (n addr : Nat) : Nat :=
  let q := addr / 16
  let l := Map.get (fun _ => Lane.init) d.frame.laneEgress (rkey n q)
  let w := addr % 16 / 4
  let mine := (d.held n).filter (fun h => h.inLane (q / 272) (destOfLocal n (q % 272 / 8)) (q % 8))
  if w = 0 then l.next
  else if w = 1 then l.done
  else if w = 2 then min 65535 mine.length
  else
    match earliest (mine.map (fun h => h.descr.seq)) with
    | none => 0
    | some s => min 65535 (((mine.find? (fun h => h.descr.seq == s)).map (fun h => (d.now - h.since) / ms)).getD 0)

/-- A word of the scheduler space (Table 8-12). -/
def Dev.schWord (d : Dev) (n addr : Nat) : Nat :=
  let k := addr / 0x100
  let o := addr % 0x100
  if o = 0x14 then d.schStat n k
  else if 0x20 ≤ o ∧ o < 0xA0 ∧ o % 16 = 12 then d.queueStat n k ((o - 0x20) / 16)
  else (d.rd (spWord 0x45 n + addr)).toNat

/-- A word of the stream state space (Table 8-15). -/
def Dev.streamStateWord (d : Dev) (n addr : Nat) : Nat :=
  let x := d.stream n (addr / 32)
  let w := addr % 32 / 4
  if w = 0 then x.genNext % 65536 + 65536 * (x.last % 65536)
  else if w = 1 then x.hist % 2 ^ 32
  else if w = 2 then b2n x.takeAny
  else (d.rd (spWord 0x62 n + addr)).toNat

/-- The word at an address of a space of region n (chip-scope spaces ignore the region). -/
def State.spaceWord (s : State) (code n addr : Nat) : Nat :=
  let d := s.dev
  match code with
  | 0x01 => leAt (cellSlice 4 addr s.flash) 0 4
  | 0x03 => s.fuseWord addr
  | 0x04 => (d.rd (spWord 0x04 0 + addr)).toNat
  | 0x05 => d.controlWord addr
  | 0x06 => (d.rd (spWord 0x06 0 + addr)).toNat
  | 0x07 => d.snapWord addr
  | 0x08 => (d.dump.area.getD (addr / 4) (Config.undefinedWord 0x08 (addr / 4))).toNat
  | 0x10 => laneTrim n addr
  | 0x41 => let a := Map.get (fun _ => Account.init) d.frame.accounts (rkey n (addr / 4)); a.minUsed + 65536 * a.shared
  | 0x42 => let q := d.queue n (addr / 8); if addr % 8 = 0 then q.onChip else q.spilled
  | 0x43 => (d.frec n (addr / 8)).number / 2 ^ (32 * (addr % 8 / 4)) % 2 ^ 32
  | 0x44 => bitsWhere 32 (fun i => (d.grain n (8 * addr + i)).held)
  | 0x45 => d.schWord n addr
  | 0x62 => d.streamStateWord n addr
  | 0x63 => (d.jentry n (addr / 32)).word (addr / 4 % 4)
  | 0x64 => (Map.get (fun _ => Lane.init) d.frame.laneNext (rkey n (addr / 4))).next
  | 0x65 => d.laneWord n addr
  | 0x67 =>
    let p := d.taskPart n
    (p.tasks.filter (·.counts (addr / 4))).length % 4096 + 4096 * Map.get (fun _ => 0) p.tickets (addr / 4)
  | _ => (d.rd (spWord code n + addr)).toNat

/-- The words of a space of region n, from its first to the end of its span. -/
def State.spaceWordsAll (s : State) (code n : Nat) : List Word :=
  (List.range (s.spaceSpan code n / 4)).map (fun i => BitVec.ofNat 32 (s.spaceWord code n (4 * i)))

end Sys2Proof.Machine
end

