-- ==== Sys2Proof/Machine/Dump.lean ====
section
/-! DEFINITION. Chip-fatal events, RECOVERY and the fatal dump (R596 to R602, R621 to R627). -/

namespace Sys2Proof.Machine

/-! ## Sections (Table 15-8) -/

/-- The addresses of the listed registers of chip page k, in offset order. -/
def chipPageRegs (k : Nat) : List Nat :=
  ((List.range (chipMask k / 4 + 1)).map (fun i => chipPage k + 4 * i)).filter (fun a => (regAt a).isSome)

/-- The addresses of the listed registers of page k of region n. -/
def rgnPageRegs (n k : Nat) : List Nat :=
  ((List.range (rgnMask k / 4 + 1)).map (fun i => rgnPage n k + 4 * i)).filter (fun a => (regAt a).isSome)

/-- The word of a register as the dump routine copies it. -/
def Dev.dumpReg (d : Dev) (a : Nat) : Word := d.readReg .supervisor a

/-- The counter address of a counter cell (R607). -/
def counterAddr (a : Nat) : Nat :=
  if a < 0x04000000 then a
  else if a < 0x05000000 then a - 0x04000000 + 0x800000
  else
    let x := a - 0x200000000
    2 ^ 31 + 2 ^ 28 * (x / 0x01000000 % 4) + 2 ^ 20 * (x / 0x04000000) + x % 0x01000000

/-- The counter cells of a dump: every cell but those of the policer counter space and the hit space. -/
def Dev.dumpCells (d : Dev) : List Nat :=
  let ns := [0, 1, 2, 3].filter d.regionEnabled
  let regs := (List.range 16).flatMap chipPageRegs ++ ns.flatMap (fun n => (List.range 11).flatMap (rgnPageRegs n))
  let spaces := ns.flatMap (fun n => (List.range 0x800).map (fun i => spWord 0x47 n + 4 * i)
    ++ (List.range 0x800).map (fun i => spWord 0x62 n + 4 * i))
  (regs ++ spaces).filter isCell

/-- The state codes of a thread in the engine section (DESIGN CHOICE: the spec gives the section no layout). -/
def ThreadState.code : ThreadState → Nat
  | .idle => 0 | .ready => 1 | .wait => 2 | .halt => 3

/-- The words of one engine in the engine section: each thread's state, PC and task record, then ENG_FAULT. -/
def Dev.dumpEngine (d : Dev) (e : Nat) : List Word :=
  let n := e / 16
  (List.range 8).flatMap (fun t =>
    let x := d.thread e t
    let task := x.task.bind (d.findTask n)
    [BitVec.ofNat 32 x.state.code, BitVec.ofNat 32 x.pc]
      ++ (List.range 16).map (fun w => BitVec.ofNat 32 ((task.map (·.word w)).getD 0)))
    ++ [d.rd (R.ENG_FAULT e)]

/-- The words of a section of a dump. The spec gives a section's content and not its word order: the model takes regions,
units and addresses in ascending order (DESIGN CHOICE). -/
def sectionWords (s : State) (type : Nat) : List Word :=
  let d := s.dev
  let ns := [0, 1, 2, 3].filter d.regionEnabled
  let spaces := fun (l : List Nat) => ns.flatMap (fun n => l.flatMap (fun c => s.spaceWordsAll c n))
  match type with
  | 0x01 => (R.FLR_ERR :: [0, 1, 2, 3].map R.RGN_ERR ++ [R.FLR_STAT, R.SUP_STAT] ++ [0, 1, 2, 3].map R.RGN_STAT).map d.dumpReg
  | 0x02 => ((List.range 16).flatMap chipPageRegs).map d.dumpReg
  | 0x03 => ((ns.flatMap (fun n => (List.range 11).flatMap (rgnPageRegs n))).filter (fun a => !isCell a)).map d.dumpReg
  | 0x04 => d.dumpCells.flatMap (fun a => [BitVec.ofNat 32 (counterAddr a), d.rd a])
  | 0x05 => d.log.entries.flatMap (fun e => e.words.map (BitVec.ofNat 32))
  | 0x06 =>
    let x := d.thread supCore 0
    (List.range 32).map x.reg ++ [BitVec.ofNat 32 x.pc, d.dumpReg R.SUP_STAT]
      ++ (List.range 0x20000).map (fun i => d.rd (supKey (4 * i)))
  | 0x07 => (ns.flatMap (fun n => (List.range 16).flatMap (fun k => d.dumpEngine (16 * n + k)))) ++ spaces [0x67]
  | 0x08 => ns.flatMap (fun n => [0, 1].flatMap (fun j => (List.range 0x8000).map (fun i => d.dataWord (2 * n + j) (4 * i))))
  | 0x09 => spaces [0x63]
  | 0x0A => spaces [0x64, 0x65] ++ ns.flatMap (fun n => (d.held n).flatMap (fun h =>
      [BitVec.ofNat 32 (h.ingress + 256 * h.descr.target.dest), BitVec.ofNat 32 h.descr.cls, BitVec.ofNat 32 h.descr.seq,
       BitVec.ofNat 32 h.descr.entry]))
  | 0x0B => spaces [0x42, 0x41, 0x45]
  | 0x0C => spaces [0x70]
  | 0x0D => spaces [0x34] ++ ns.flatMap (fun n => (d.tbl n).mismatch.map (fun m => BitVec.ofNat 32 (m.1 + 8192 * m.2)))
  | _ => []

/-- The section types of a dump: an on-chip one holds 0x01 to 0x07. -/
def sectionTypes (onChip : Bool) : List Nat := (List.range (if onChip then 7 else 13)).map (· + 1)

/-- Every section of a dump, complete. -/
def dumpSections (s : State) (onChip : Bool) : List DumpSection :=
  (sectionTypes onChip).map (fun t => { type := t, words := sectionWords s t, complete := true })

/-! ## The dump's words (R621, Table 15-7) -/

/-- Words padded to the next 64-byte boundary. -/
def pad64 (l : List Word) : List Word := l ++ List.replicate ((16 - l.length % 16) % 16) 0

/-- CRC-32C over words. -/
def crcWords (l : List Word) : Nat := crc32c (l.flatMap (fun w => leBytes 4 w.toNat))

/-- The directory entries of sections that start at a byte offset. -/
def dumpDir : List DumpSection → Nat → List Word
  | [], _ => []
  | x :: rest, o =>
    [BitVec.ofNat 32 (x.type + 65536 * b2n x.complete), BitVec.ofNat 32 o, BitVec.ofNat 32 (4 * x.words.length),
      BitVec.ofNat 32 (crcWords x.words)] ++ dumpDir rest (o + 4 * (pad64 x.words).length)

/-- FLAGS of a dump. -/
def Dump.flags (x : Dump) : Nat :=
  b2n x.complete + 2 * b2n x.onChip + 4 * b2n x.cold + 8 * b2n x.rom + 16 * b2n x.truncated + 32 * b2n x.second

/-- The header of a dump (Table 15-7); `serial` is the device's. -/
def Dump.header (x : Dump) (serial : Nat) : List Word :=
  let l := [0x504D5544, 1 + 65536 * 0x200, x.length, x.seq, serial % 2 ^ 32, serial / 2 ^ 32, x.imageSeq, x.chipTag]
    ++ (List.range 4).map (fun n => x.rgnTag.getD n 0)
    ++ [x.gen.toNat, x.cause + 256 * x.prevState.code + 65536 * x.flags + 2 ^ 24 * x.sections.length, x.errUnit, x.errAddr]
    ++ (List.range 4).map (fun t => x.tb.getD t 0) ++ [x.tbValid, x.mains, x.odo, x.strStat.toNat, x.dumpUs, 0, 0, 0]
  let w := l.map (BitVec.ofNat 32) ++ dumpDir x.sections 0x200
  let w := w ++ List.replicate (127 - w.length) 0
  w ++ [BitVec.ofNat 32 (crcWords w)]

/-- All words of a dump: the header and its sections, each from a 64-byte boundary. -/
def Dump.words (x : Dump) (serial : Nat) : List Word := x.header serial ++ x.sections.flatMap (fun y => pad64 y.words)

/-- Words put over the first words of the retention area. -/
def overArea (area l : List Word) : List Word := l ++ area.drop l.length

/-- The dump is stored where it belongs: the retention area, or the Silo dump area from DUMP_BASE on. -/
def Dev.storeDump (d : Dev) : Dev :=
  let w := d.dump.words d.ownSerial
  if d.dump.onChip then { d with dump := { d.dump with area := overArea d.dump.area w } }
  else
    let x := d.dramOf 0
    d.setDram 0 { x with array := putBursts x.array ((d.rd R.DUMP_BASE).toNat / 64) (w.length / 16 + 1) w }

/-! ## Where it goes and how it ends (R598 to R601) -/

/-- For the dump, the Silo is down (R406). -/
def Dev.siloDown (d : Dev) : Bool := d.channelState 0 != 2 || (d.dramOf 0).sleep == .shed

/-- The survey of R600 finds an uncorrectable word in the chip-level retained state. -/
def Dev.surveyBad (d : Dev) : Bool :=
  d.faults.any (fun x => x.2 == 2 && (x.1 < 0x100000 || (spaceOfKey x.1).any (fun c => [0x43, 0x44, 0x63, 0x64, 0x65].contains c)))
    || d.frame.journal.any (fun x => x.2.badA && x.2.badB)
    || d.frame.laneNext.any (fun x => x.2.badA && x.2.badB) || d.frame.laneEgress.any (fun x => x.2.badA && x.2.badB)

/-- The start that follows a dump is cold (R600, R601). -/
def Dev.restartCold (d : Dev) : Bool := !d.retainOk || d.dump.second || d.surveyBad

/-- The restart that ends RECOVERY: a failed start where the event arose in one (R602), else a warm or cold start. -/
def fatalRestart (s : State) : State :=
  let d := s.dev
  let d := ({ d with dump := { d.dump with active := false } } : Dev).disarm ⟨.dumpMax, 0, 0⟩
  let d := d.each [0, 1, 2, 3] (fun n d => d.dramSleep n .reset)
  if d.dump.duringStart ∧ !d.dump.second then
    failStart { s with dev := d } (d.dump.prevState == .startWarm) d.dump.failStep 5
  else if d.restartCold then coldStart { s with dev := d } 3 1
  else warmStart { s with dev := d } 3 false

/-- The dump ends with the sections written, and the restart begins: VALID and UNREAD are set, and DUMP_WRITTEN is logged
(R624, R626). -/
def dumpEnd (s : State) (sections : List DumpSection) (complete truncated second : Bool) : State :=
  let d := s.dev
  let x := { d.dump with sections := sections, complete := complete, truncated := truncated, second := second }
  let d := ({ d with dump := x } : Dev)
  let len := 0x200 + 4 * (sections.flatMap (fun y => pad64 y.words)).length
  let x := { x with length := len, dumpUs := min 0xFFFFFFFF ((d.now - x.since) / us), cold := d.restartCold }
  let d := ({ d with dump := x } : Dev).storeDump
  let a := R.DUMP_STAT
  let d := ((d.setFlag a R.DUMP_STAT.VALID true).setFlag a R.DUMP_STAT.UNREAD true).setFlag a R.DUMP_STAT.COMPLETE complete
  let d := (d.setFlag a R.DUMP_STAT.ON_CHIP x.onChip).fset a R.DUMP_STAT.CAUSE x.cause
  let d := d.fset R.DUMP_LEN R.DUMP_LEN.BYTES len
  fatalRestart { s with dev := d.logChip 0x0033 (b2n x.onChip + 2 * b2n complete + 256 * ((len + 1023) / 1024)) }

/-- DUMP_COMPLETE (R597): the dump routine has written every section. -/
def dumpComplete (s : State) : State :=
  if s.dev.dump.active then dumpEnd s (dumpSections s s.dev.dump.onChip) true false false else s

/-- A dump cut short: how many sections were complete and how many words of the next were written is not given, so both
are free values (R599, R601, R622). -/
def dumpCut (s : State) (truncated second : Bool) : State :=
  let all := dumpSections s s.dev.dump.onChip
  let r := s.dev.fresh
  let k := r.1.toNat % (all.length + 1)
  let r' := r.2.fresh
  let part := (all[k]?).map (fun (y : DumpSection) =>
    { y with words := y.words.take (r'.1.toNat % (y.words.length + 1)), complete := false })
  dumpEnd { s with dev := r'.2 } (all.take k ++ part.toList) false truncated second

/-- DUMP_TIMEOUT (R599). -/
def dumpTimeout (s : State) : State := if s.dev.due ⟨.dumpMax, 0, 0⟩ then dumpCut s true false else s

/-- DUMP_RELEASE (R624): UNREAD clears. -/
def Dev.dumpRelease (d : Dev) : Dev := d.setFlag R.DUMP_STAT R.DUMP_STAT.UNREAD false

/-- Channel 0 fails during a Silo dump: the dump starts again in the retention area (R598). -/
def Dev.dumpFollowsSilo (d : Dev) : Dev :=
  if d.dump.active && !d.dump.onChip && d.siloDown then
    (({ d with dump := { d.dump with onChip := true } } : Dev).setFlag R.DUMP_STAT R.DUMP_STAT.ON_CHIP true).storeDump
  else d

/-! ## The event (R596, R601, R602, R627) -/

/-- ERR_UNIT of a chip-fatal event in a region, for those that name one; the caller gives chip-level units themselves. -/
def Dev.fatalCounted (d : Dev) (cause : Nat) : Dev := (d.bump R.ERR_CHIP_FATAL).logChip 0x0004 cause

/-- The header's fields at the event. -/
def Dev.dumpHeader (d : Dev) (cause unit addr : Nat) : Dev :=
  let starting := d.chip.state.starting
  { d with dump := { d.dump with
      active := true, since := d.now, duringStart := starting, seq := (d.dump.seq + 1) % 2 ^ 32, cause := cause,
      prevState := d.chip.state, onChip := d.siloDown, complete := false, cold := false, rom := cause == 5 || cause == 6,
      truncated := false, second := false, length := 0, errUnit := unit, errAddr := addr,
      imageSeq := (d.rd R.LDR_RUN).toNat, chipTag := d.loader.chipTag.toNat, rgnTag := d.loader.rgnTag.map (·.toNat),
      gen := d.rd R.FLR_GEN, tb := d.tbAll, tbValid := bitsWhere 4 (fun t => d.flag (R.TB_STAT t) R.TB_STAT.VALID),
      mains := d.time.mains.value, odo := d.time.odo.value, strStat := d.rd R.STR_STAT, dumpUs := 0, sections := [],
      failStep := 0 } }

/-- Entry into RECOVERY (R596): the lease yields, every port is not ready, and what a start or a re-layout had under way
ends. -/
def Dev.enterRecovery (d : Dev) : Dev :=
  let d := ((d.toState .recovery).alarm 5).yieldLease.drainAbandon
  let d := d.each [0, 1, 2, 3] (fun n d => d.setFlag (R.HST_STAT n) R.HST_STAT.READY false)
  let d := ((d.disarm ⟨.startLimit, 0, 0⟩).disarm ⟨.failClear, 0, 0⟩).disarm ⟨.shedDwell, 0, 0⟩
  { d with start := { d.start with step := 0 } }

/-- A chip-fatal event is taken (R596): RECOVERY is entered and the dump begins with its header (R621), or is skipped under R627. -/
def fatalTaken (s : State) (cause unit addr : Nat) : State :=
  let d := s.dev
  let starting := d.chip.state.starting
  let step := if starting then d.failStep else 0
  if d.flag R.DUMP_CFG R.DUMP_CFG.KEEP_FIRST ∧ d.flag R.DUMP_STAT R.DUMP_STAT.UNREAD then
    let d := (d.fatalCounted cause).logChip 0x0034 d.dump.seq
    let prev := d.chip.state
    let d := d.enterRecovery
    fatalRestart { s with dev := { d with dump := { d.dump with
      duringStart := starting, second := false, prevState := prev, failStep := step } } }
  else
    let d := ((d.fatalCounted cause).dumpHeader cause unit addr).enterRecovery
    let d := ({ d with dump := { d.dump with failStep := step } } : Dev)
    let d := (d.fset R.DUMP_SEQ R.DUMP_SEQ.SEQ d.dump.seq).setFlag R.DUMP_STAT R.DUMP_STAT.COMPLETE false
    let d := (d.setFlag R.DUMP_STAT R.DUMP_STAT.ON_CHIP d.dump.onChip).fset R.DUMP_STAT R.DUMP_STAT.CAUSE cause
    let d := d.storeDump.arm ⟨.dumpMax, 0, 0⟩ (max 1 (d.fget R.DUMP_CFG R.DUMP_CFG.MAX_MS) * ms)
    { s with dev := d.when d.dump.rom (·.supervisorStart) }

/-- A chip-fatal event (R596, R601, R602): absorbed in HELD; while the built-in recovery image runs it restarts that
image; a second one during a dump ends the dump with a cold start. -/
def chipFatal (s : State) (cause unit addr : Nat) : State :=
  let d := s.dev
  if d.chip.state = .off then s
  else if d.chip.state = .held then { s with dev := ((d.bump R.ERR_CHIP_FATAL).bump R.ERR_ABSORBED).logChip 0x0005 3 }
  else if d.chip.recoveryImage then { s with dev := (d.fatalCounted cause).supervisorStart }
  else if d.dump.active then dumpCut { s with dev := d.fatalCounted cause } false true
  else fatalTaken s cause unit addr

end Sys2Proof.Machine
end

