-- ==== Sys2Proof/Machine/Indirect.lean ====
section
/-! DEFINITION. The indirect pair (R654 to R664): each master's context, prefetches and writes, accesses that wait on BUSY, and
what a write does in each space. -/

namespace Sys2Proof.Machine

/-- A context at its Cold value (R644). -/
def IndContext.init : IndContext :=
  { ctl := 0, addr := 0, buffer := 0, busy := false, fetching := false, writing := none, overrun := false, early := false,
    waiting := [] }

/-- The context of a master, by its identity. -/
def Dev.ctx (d : Dev) (m : Nat) : IndContext := Map.get (fun _ => IndContext.init) d.ind m

/-- Replace the context of a master. -/
def Dev.setCtx (d : Dev) (m : Nat) (c : IndContext) : Dev := { d with ind := Map.put (fun _ => IndContext.init) d.ind m c }

/-- Change the context of a master. -/
def Dev.modCtx (d : Dev) (m : Nat) (g : IndContext → IndContext) : Dev := d.setCtx m (g (d.ctx m))

/-- The master with an identity of Table 16-4. -/
def masterOf (id : Nat) : Master :=
  if id < 4 then .pf (Fin.ofNat 4 id) else if 0x10 ≤ id ∧ id < 0x50 then .pe (Fin.ofNat 64 (id - 0x10))
  else if id = 0x50 then .supervisor else .jtag

/-- Space, region and address of a context. -/
def IndContext.space (c : IndContext) : Nat := R.IND_CTL.SPACE.get c.ctl
def IndContext.region (c : IndContext) : Nat := R.IND_CTL.REGION.get c.ctl
def IndContext.at_ (c : IndContext) : Nat := c.addr.toNat
/-- NOPF of a context. -/
def IndContext.noPrefetch (c : IndContext) : Bool := R.IND_CTL.NOPF.get c.ctl == 1
/-- The advance of a context in bytes. -/
def IndContext.stride (c : IndContext) : Nat := [0, 4, 8, 16].getD (R.IND_CTL.STRIDE.get c.ctl) 0

/-- The word of the indirect page at position w, as its master reads it; a read of IND_DATA goes through `indRead`. -/
def Dev.indWord (d : Dev) (m w : Nat) : Word :=
  let c := d.ctx m
  if w = 0 then c.ctl else if w = 1 then c.addr else if w = 2 then c.buffer
  else BitVec.ofNat 32 (b2n c.busy + 2 * b2n c.overrun + 4 * b2n c.early)

/-- The timer of the wait limit of R659 of a master. -/
def waitTimer (m : Nat) : TimerId := ⟨.indWait, m, 0⟩

/-! ## Prefetches -/

/-- A prefetch of the word at the context's address starts (R656), unless NOPF is 1; one that is refused leaves zero in the
buffer, with BUSY at 0 (R660). The Silo data space is read through the channel's controller. -/
def State.prefetch (s : State) (m : Nat) : State :=
  let c := s.dev.ctx m
  if c.noPrefetch then { s with dev := s.dev.setCtx m { c with busy := false, fetching := false, writing := none } }
  else if !s.mayRead (masterOf m) c.space c.region c.at_ then
    { s with dev := s.dev.setCtx m { c with busy := false, fetching := false, writing := none, buffer := 0 } }
  else
    let d := s.dev.setCtx m { c with busy := true, fetching := true, writing := none }
    { s with dev := if c.space = 0x51 then d.dramRead c.region (c.at_ / 64) true else d }

/-- The address advances by the stride, modulo 2^32 (R657). -/
def State.indAdvance (s : State) (m : Nat) : State :=
  { s with dev := s.dev.modCtx m (fun c => { c with addr := c.addr + BitVec.ofNat 32 c.stride }) }

/-! ## Writes of a space -/

/-- The staged hash of a key slot. -/
def Dev.stagedHash (d : Dev) (k : Nat) : List Word := (List.range 12).map (fun w => d.rd (spWord 0x03 0 + 0x40 * k + 4 * w))

/-- A write of 1 to BLOW of a key slot (Table 16-8). -/
def isBlow (code addr : Nat) (v : Word) : Bool := code == 3 && decide (addr < 0x100) && addr % 0x40 == 0x30 && v.getLsbD 31

/-- The space's own rule refuses a write (R72, R99, R308, R660, R664); `aux` says that VDD_AUX lies within its limits. -/
def State.ruleRefuses (s : State) (m : Master) (code n addr : Nat) (v : Word) (aux : Bool) : Bool :=
  let d := s.dev
  match code with
  | 0x01 => d.inRunningCopy (addr, 4)
  | 0x02 => d.inRunningCopy (s.sfdp.unitOf addr)
  | 0x03 =>
    let k := addr / 0x40
    if addr < 0x100 ∧ addr % 0x40 < 0x30 then (s.fuses.slot k).programmed
    else if isBlow code addr v then
      !aux || (s.fuses.slot k).programmed || (d.stagedHash k).all (· == 0)
    else false
  | 0x04 => !(m == .jtag && d.chip.state == .test)
  | 0x40 => d.groupLive (.rgn 8) (spWord 0x40 n) && d.minOver n (addr / 32) (addr / 4 % 8) v
  | 0x51 => d.chip.state != .test
  | _ => false

/-- A BLOW takes effect (R664): the staged hash and PROGRAMMED are blown together, while BUSY stays 1. -/
def State.blow (s : State) (k : Nat) : State :=
  let fu := { s.fuses with keys := modAt s.fuses.keys k (fun x => { x with hash := s.dev.stagedHash k, programmed := true }) }
  { s with fuses := fu, dev := s.dev.fuseRegs fu }

/-- A write of a counter control word (Table 15-17): OVF clears by 1 unless hardware has set it in this clock (R22), CHAIN is written where the cell is chainable. -/
def Dev.controlWrite (d : Dev) (addr : Nat) (v : Word) : Dev :=
  match counterCell addr with
  | none => d
  | some a =>
    let old := Map.get (fun _ => 0#32) d.cellCtl a
    let ovf := b2n (old.getLsbD 0 && (!v.getLsbD 0 || d.clk.hwSet.contains (ctlKey a, 1)))
    let chain := b2n (chainable a && v.getLsbD 1)
    { d with cellCtl := Map.put (fun _ => 0#32) d.cellCtl a (BitVec.ofNat 32 (ovf + 2 * chain)) }

/-- The port's own part of a write of the scheduler space, after the word is stored: buckets are full after a write of their
RATE or BURST (R359), enabling a gate table forgets its banks (R365), and gates take force. -/
def Dev.schFollow (d : Dev) (n k p o : Nat) (was : Word) (v : Word) : Dev :=
  let live5 := d.groupLive (.rgn 5) (spWord 0x45 n)
  let fill := fun (i : Nat) (d : Dev) => d.modQueue n (portQueue p i) (fun q => { q with bucket := 0, bucketAt := d.now })
  let d :=
    if !live5 then d
    else if o = 4 ∨ o = 8 then d.setEport p { d.eport p with bucket := 0, bucketAt := d.now }
    else if o = 0xC then d.schFlush p (bits v.toNat 0 8)
    else if 0x20 ≤ o ∧ o < 0xA0 ∧ (o % 16 = 0 ∨ o % 16 = 4) then fill ((o - 0x20) / 16) d
    else d
  if o = 0x18 ∧ p < 128 then
    let d := d.when (!was.getLsbD 0 && d.flag (R.G_CTRL n k) R.G_CTRL.EN) (·.setGate p GateRun.init)
    let d := d.when (v.getLsbD 4 && d.groupLive (.rgn 6) (spWord 0x45 n)) (·.gateArm p)
    d.gateRefresh p
  else d

/-- A write of the scheduler space (Table 8-12): a new AXIS is ignored and counted while EN is 1 (R363). -/
def Dev.schWrite (d : Dev) (n addr : Nat) (v : Word) : Dev :=
  let a := spWord 0x45 n + addr
  let k := addr / 0x100
  let o := addr % 0x100
  match regAt a, localPort n k with
  | some r, some p =>
    let was := d.rd a
    let axis := R.G_CTRL.AXIS
    if o = 0x18 ∧ was.getLsbD 0 ∧ axis.get was ≠ axis.get v then
      let d := d.when (d.groupLive (.rgn 6) a) (·.bump (pCntKey n k 3))
      (d.storeWord a r (axis.put v (axis.get was))).schFollow n k p o was v
    else (d.storeWord a r v).schFollow n k p o was v
  | _, _ => d

/-- A write of the gate space (Table 8-13): words of the active bank are ignored and counted (R363). -/
def Dev.gateWrite (d : Dev) (n addr : Nat) (v : Word) : Dev :=
  let a := spWord 0x46 n + addr
  let k := addr / 0x800
  let p := 32 * n + k
  match regAt a with
  | none => d
  | some r =>
    if d.gateOn p && (d.gate p).active == some (addr / 0x400 % 2) && d.groupLive (.rgn 6) a then d.bump (pCntKey n k 3)
    else (d.storeWord a r v).gateRefresh p

/-- A write of a minima word (R308); its group is region live group 8. The minima are judged again as the word is stored: another
master's write may have come first. -/
def Dev.minWrite (d : Dev) (n addr : Nat) (v : Word) : Dev :=
  if !d.groupLive (.rgn 8) (spWord 0x40 n) then d.bump R.LDR_LIVE_IGN
  else if d.minOver n (addr / 32) (addr / 4 % 8) v then
    (d.bump R.IND_REFUSED).setFlag (R.GRN_EVT n) R.GRN_EVT.MIN_OVER true
  else
    let d := d.wrMem (minKey n (addr / 32) (addr / 4 % 8)) v
    { d with clk := { d.clk with minima := d.clk.minima ++ [(n, addr / 32, addr / 4 % 8)] } }

/-- A word of a burst replaced. -/
def putBurst (x w : Nat) (v : Word) : Nat := x - x / 2 ^ (32 * w) % 2 ^ 32 * 2 ^ (32 * w) + v.toNat * 2 ^ (32 * w)

/-- A write of the Silo data space in TEST: the word enters its burst, through the controller's
write queue where the channel serves; the rest of a burst never written is free. -/
def Dev.siloWrite (d : Dev) (n addr : Nat) (v : Word) : Dev :=
  let x := d.dramOf n
  let b := addr / 64
  let old := match x.writeQ.find? (fun w => w.burst == b) with
    | some w => w.data
    | none => Map.get (fun b => (Config.undefinedWord (0x51 + 256 * n) b).toNat) x.array b
  let new := putBurst old (addr / 4 % 16) v
  if d.dramAwake n then d.dramWrite n b new else d.setDram n { x with array := Map.ins x.array b new }

/-- A write of a word of a space takes effect (R658). -/
def State.spaceWrite (s : State) (code n addr : Nat) (v : Word) : State :=
  let d := s.dev
  match code with
  | 0x03 => if addr < 0x100 ∧ addr % 0x40 < 0x30 then { s with dev := d.wr (spWord 0x03 0 + addr) v } else s
  | 0x04 => { s with dev := d.wrMem (spWord 0x04 0 + addr) v }
  | 0x05 => { s with dev := d.controlWrite addr v }
  | 0x06 => { s with dev := d.wr (spWord 0x06 0 + addr) v }
  | 0x40 => { s with dev := d.minWrite n addr v }
  | 0x45 => { s with dev := d.schWrite n addr v }
  | 0x46 => { s with dev := d.gateWrite n addr v }
  | 0x51 => { s with dev := d.siloWrite n addr v }
  | 0x66 => { s with dev := d.wrMem (spWord 0x66 n + addr) (v &&& 0x7FFFFFFF#32) }
  | 0x70 => { s with dev := d.askLoft (.config n (addr / 32) (addr / 4 % 8) v) }
  | _ => s

/-- The records of a write that the space's own rule refuses, beside IND_REFUSED. -/
def Dev.refusalRecord (d : Dev) (code n addr : Nat) : Dev :=
  if code = 1 ∨ code = 2 then d.logChip 0x0022 addr
  else if code = 0x40 then d.setFlag (R.GRN_EVT n) R.GRN_EVT.MIN_OVER true
  else d

/-! ## Accesses to the pair -/

/-- A write of IND_DATA is taken (R658): a refused one is counted and does nothing; a flash operation waits its turn, and any
other write is in progress until the space has performed it. -/
def State.indWrite (s : State) (m : Nat) (v : Word) (aux : Bool) : State :=
  let d := s.dev
  let c := d.ctx m
  let code := c.space
  if !s.mayWrite (masterOf m) code c.region c.at_ then
    (State.indAdvance { s with dev := d.bump R.IND_REFUSED } m).prefetch m
  else if s.ruleRefuses (masterOf m) code c.region c.at_ v aux then
    (State.indAdvance { s with dev := (d.bump R.IND_REFUSED).refusalRecord code c.region c.at_ } m).prefetch m
  else
    let d := d.setCtx m { c with busy := true, fetching := false, writing := some v }
    if code = 1 ∨ code = 2 then
      let op : FlashOp := { kind := code, master := m, addr := c.at_, word := v, started := false }
      { s with dev := { d with loader := { d.loader with flashOps := d.loader.flashOps ++ [op] } } }
    else if isBlow code c.at_ v then State.blow { s with dev := d } (c.at_ / 0x40)
    else { s with dev := d }

/-- A read of IND_DATA (R657): the buffer, or zero with NOPF; the address advances and a prefetch starts. A refused read is
counted (R660). -/
def State.indRead (s : State) (m : Nat) : Word × State :=
  let c := s.dev.ctx m
  let v := if c.noPrefetch then 0 else c.buffer
  let d := s.dev.when (!s.mayRead (masterOf m) c.space c.region c.at_) (·.bump R.IND_REFUSED)
  (v, (State.indAdvance { s with dev := d } m).prefetch m)

/-- A read of IND_DATA that came over the Floor is answered; one by the supervisor core ends its wait; a host's read returns
its data. Source 5 stands for the supervisor's own access, with its destination register as tag. -/
def Dev.indReply (d : Dev) (m : Nat) (reply : Option (Nat × Nat × Nat)) (v : Word) : Dev :=
  match reply with
  | none => d.emit (.readData m v)
  | some (src, tag, gen) =>
    if src = 5 then
      let x := d.thread supCore 0
      if x.waits == some .window then d.result supCore 0 { x with state := .ready, waits := none } tag v else d
    else d.send none { src := 4, dst := src, origin := src, gen := gen, tag := tag, body := .cplReg (some v) }

/-- Perform an access to the indirect pair with BUSY at 0. -/
def State.indPerform (s : State) (m : Nat) (a : IndAccess) : State :=
  match a with
  | .ctl v => { s with dev := s.dev.modCtx m (fun c => { c with ctl := v &&& 0x1FFF#32, buffer := 0 }) }
  | .addr v => State.prefetch { s with dev := s.dev.modCtx m (fun c => { c with addr := v &&& 0xFFFFFFFC#32 }) } m
  | .write v => let r := s.dev.freshBool; State.indWrite { s with dev := r.2 } m v r.1
  | .read reply => let r := s.indRead m; { r.2 with dev := r.2.dev.indReply m reply r.1 }

/-- The accesses that waited are performed in order, until one makes the context busy again (R659). -/
def State.indServe (s : State) (m : Nat) : Nat → State
  | 0 => s
  | k + 1 =>
    let c := s.dev.ctx m
    if c.busy then s
    else
      match c.waiting with
      | [] => { s with dev := s.dev.disarm (waitTimer m) }
      | a :: rest => State.indServe (State.indPerform { s with dev := s.dev.setCtx m { c with waiting := rest } } m a) m k

/-- An access to IND_CTL, IND_ADDR or IND_DATA of a master: at once, or waiting while BUSY is 1 (R659). -/
def State.indAccess (s : State) (m : Nat) (a : IndAccess) : State :=
  let c := s.dev.ctx m
  if !c.busy then s.indPerform m a
  else
    let d := s.dev.setCtx m { c with waiting := c.waiting ++ [a] }
    { s with dev := if c.waiting.isEmpty then d.arm (waitTimer m) (2 * us) else d }

/-- BUSY clears, and what waited is performed. -/
def State.indFree (s : State) (m : Nat) : State := s.indServe m ((s.dev.ctx m).waiting.length + 1)

/-! ## Completions -/

/-- A word fetched from a memory of a region: a single-bit error is corrected, an uncorrectable word is reported, and its value
is then not given. -/
def State.fetchWord (s : State) (code n addr : Nat) : Word × State :=
  let v := BitVec.ofNat 32 (s.spaceWord code n addr)
  if [0x20, 0x21, 0x22, 0x30, 0x31, 0x32, 0x33, 0x34, 0x35, 0x61, 0x70, 0x71].contains code then
    let r := s.dev.touch n (spWord code n + addr)
    if r.1 then (v, { s with dev := r.2 }) else let f := r.2.fresh; (f.1, { s with dev := f.2 })
  else (v, s)

/-- Event counter cells read zero for a master that is not privileged in RECOVERY, TEST and the START states (R8). -/
def Dev.cellsHidden (d : Dev) (privileged : Bool) : Bool :=
  !privileged && (d.chip.state == .recovery || d.chip.state == .test || d.chip.state.starting)

/-- The latch of a reader for an address (R644): a master by its identity, or the function of an instance (`pageReader`). -/
def Dev.latch (d : Dev) (id a : Nat) : Word := Map.get (fun _ => 0) d.latches (2 ^ 40 * id + a)
def Dev.setLatch (d : Dev) (id a : Nat) (v : Word) : Dev :=
  { d with latches := Map.put (fun _ => 0) d.latches (2 ^ 40 * id + a) v }

/-- A read of a counter cell (R610): the lower cell of a chained pair latches the upper for its master, whose latch a read of
the upper returns. -/
def Dev.readCell (d : Dev) (id a : Nat) : Word × Dev :=
  if d.chainedUp a then (d.latch id a, d)
  else (d.rd a, d.when (d.chained a) (fun d => d.setLatch id (a + 4) (d.rd (a + 4))))

/-- A prefetch ends with a word in the buffer. -/
def State.fetched (s : State) (m : Nat) (v : Word) : State :=
  State.indFree { s with dev := s.dev.modCtx m (fun c => { c with buffer := v, busy := false, fetching := false }) } m

/-- A write ends: the address advances and a prefetch starts (R658). -/
def State.indWritten (s : State) (m : Nat) : State := ((s.indAdvance m).prefetch m).indFree m

/-- IND_PREFETCH_COMPLETE (R656, R658): the access in progress of a context ends. Flash writes end with the flash's own
report, a flash read waits while the loader reads (R73), and Silo reads end as the controller delivers them. -/
def State.prefetchComplete (s : State) (m : Nat) : State :=
  let c := s.dev.ctx m
  match c.writing with
  | some v =>
    if c.space = 1 ∨ c.space = 2 then s
    else
      let s := s.spaceWrite c.space c.region c.at_ v
      State.indWritten { s with dev := s.dev.modCtx m (fun c => { c with busy := false, writing := none }) } m
  | none =>
    if !c.fetching || c.space == 0x51 || (c.space == 1 && s.dev.loader.reading) then s
    else
      let a := spWord c.space c.region + c.at_
      if isCell a then
        if s.dev.cellsHidden (s.dev.spacePrivileged (masterOf m) c.space c.region) then s.fetched m 0
        else
          let r := s.dev.readCell m a
          State.fetched { s with dev := r.2 } m r.1
      else
        let r := s.fetchWord c.space c.region c.at_
        r.2.fetched m r.1

/-- IND_WAIT_TIMEOUT (R659): the access that waits has waited for 2 µs. -/
def State.waitTimeout (s : State) (m : Nat) : State :=
  let d := s.dev
  let c := d.ctx m
  if !d.due (waitTimer m) then s
  else
    match c.waiting with
    | [] => { s with dev := d.disarm (waitTimer m) }
    | a :: rest =>
      let d := if rest.isEmpty then d.disarm (waitTimer m) else d.arm (waitTimer m) (2 * us)
      match a with
      | .read reply => { s with dev := (d.setCtx m { c with waiting := rest, early := true }).indReply m reply 0 }
      | _ => { s with dev := (d.setCtx m { c with waiting := rest, overrun := true }).bump R.IND_OVERRUN }

/-- A flash operation of the context of its master has ended. -/
def State.flashEnded (s : State) (o : FlashOp) : State :=
  let c := s.dev.ctx o.master
  if c.writing.isSome && (c.space == 1 || c.space == 2) then
    State.indWritten { s with dev := s.dev.modCtx o.master (fun c => { c with busy := false, writing := none }) } o.master
  else s

/-- FLASH_OPERATION_START (R72, R73): an operation that falls in the running copy is ignored, and its BUSY clears. -/
def State.flashStarts (s : State) : State :=
  let r := flashStart s
  match r.2 with
  | some o => r.1.flashEnded o
  | none => r.1

/-- FLASH_OPERATION_COMPLETE (R663). -/
def State.flashCompletes (s : State) : State :=
  let r := flashComplete s
  match r.2 with
  | some o => r.1.flashEnded o
  | none => r.1

/-- The Silo's controller of channel n delivers a burst to the chip port: the contexts that fetch from it take their words; a
burst that could not be read gives zero. -/
def State.siloDelivered (s : State) (n burst : Nat) (data : Option Nat) : State :=
  (s.dev.ind.map (·.1)).foldl (fun s m =>
    let c := s.dev.ctx m
    if c.fetching && c.space == 0x51 && c.region == n && c.at_ / 64 == burst then
      s.fetched m (BitVec.ofNat 32 (data.getD 0 / 2 ^ (32 * (c.at_ / 4 % 16))))
    else s) s

end Sys2Proof.Machine
end

