-- ==== Sys2Proof/Machine/Access.lean ====
section
/-! DEFINITION. A write and a read of a register (chapter 16, R635 to R653): command registers act, registers that are
ignored while something runs keep their words, other words are stored, and the units follow what was written. -/

namespace Sys2Proof.Machine

/-- A word stored by the access codes of its register. -/
def Dev.plain (d : Dev) (a : Nat) (v : Word) : Dev :=
  match regAt a with
  | some r => d.storeWord a r v
  | none => d

/-- Run a change of the device within the state. -/
def State.onDev (s : State) (g : Dev → Dev) : State := { s with dev := g s.dev }

/-- A pulse of a bus clear that the device's model does not know: free. -/
def Dev.freshPulse (d : Dev) : Option (Fin 10) × Dev :=
  let r := d.fresh
  (if r.1.toNat % 11 = 10 then none else some (Fin.ofNat 10 (r.1.toNat % 11)), r.2)

/-- A command that its register's live group guards (R93). -/
def Dev.guarded (d : Dev) (g : LiveGroup) (a : Nat) (act : Dev → Dev) : Dev :=
  if d.groupLive g a then act d else d.bump R.LDR_LIVE_IGN

/-! ## Command registers: a write acts and stores nothing -/

/-- LDR_CMD (R107 to R109). -/
def State.loaderCommand (s : State) (v : Word) : State :=
  match R.LDR_CMD.OP.get v with
  | 1 => s.onDev (·.verifyCopy .a)
  | 2 => s.onDev (·.verifyCopy .b)
  | 3 => advanceSvn s
  | 4 => revokeSlot s (R.LDR_CMD.SLOT.get v)
  | _ => s

/-- TB_CMD: SET and STEP in one write act as SET (R173). -/
def Dev.tbCommand (d : Dev) (t : Nat) (v : Word) : Dev :=
  if v.getLsbD 0 then d.tbSet t else d.when (v.getLsbD 1) (·.tbStep t)

/-- STR_CMD: COLD comes before WARM. -/
def strCommand (s : State) (v : Word) : State :=
  if v.getLsbD 0 then strCmdCold s else if v.getLsbD 1 then strCmdWarm s else s

/-- CAL_CMD. -/
def calCommand (s : State) (v : Word) : State :=
  let s := if v.getLsbD 0 then calSave s else s
  if v.getLsbD 1 then calRestoreFactory s else s

/-- INT_CTL.EOI (R604): written while the summary is 1, it brings a message in the clock after. -/
def Dev.intEoi (d : Dev) : Dev := d.when d.intSummary (fun d => { d with clk := { d.clk with eoi := true } })

/-- The message an EOI of the clock before brings, while the summary is still 1; a change of the summary in the clock of the EOI or now
has sent the one message (R605). -/
def Dev.eoiMessage (d : Dev) : Dev :=
  if d.clk.eoi && !d.clk.messaged && d.intDeliverable then
    match d.intPort with
    | some n => d.msixSend n 0 1023
    | none => d
  else d

/-- LOG_POP (R620): the oldest entry leaves the log. -/
def Dev.logPop (d : Dev) : Dev := { d with log := { d.log with entries := d.log.entries.drop 1 } }

/-- SNAP_CMD: HOLD, TAKE and RELEASE, in that order. -/
def Dev.snapCommand (d : Dev) (v : Word) : Dev :=
  let d := d.when (v.getLsbD 1) (·.snapHold)
  let d := d.when (v.getLsbD 0) (·.snapshot)
  d.when (v.getLsbD 2) (·.snapRelease)

/-- UART_RX_POP. -/
def Dev.uartPop (d : Dev) : Dev := { d with uart := { d.uart with rx := d.uart.rx.drop 1 } }

/-- An enabled transmitter with nothing on its way out takes the next byte; in HELD it stays idle (R633). -/
def Dev.uartNext (d : Dev) : Dev :=
  if d.uart.sending.isSome || !d.flag R.UART_CFG R.UART_CFG.EN || d.chip.state == .held then d
  else { d with uart := { d.uart with sending := d.uart.tx.head?, tx := d.uart.tx.drop 1 } }

/-- UART_TX: a byte enters the transmit FIFO, unless it is full (R633). -/
def Dev.uartWrite (d : Dev) (b : Byte) : Dev :=
  if d.uart.tx.length < 64 then ({ d with uart := { d.uart with tx := d.uart.tx ++ [b] } } : Dev).uartNext else d

/-- MDIO_CMD (R154): the operations of Clause 45 and of Clause 22; an OP that Clause 22 does not define starts nothing. -/
def Dev.mdioCommand (d : Dev) (b : Nat) (v : Word) : Dev :=
  let op := R.MDIO_CMD.OP.get v
  let phy := R.MDIO_CMD.PHY.get v
  let reg := R.MDIO_CMD.REG.get v
  let data := R.MDIO_CMD.DATA.get v
  if R.MDIO_CMD.C45.get v = 1 then d.mdioStart b 0 op phy reg data (2 ≤ op)
  else if op = 1 then d.mdioStart b 1 1 phy reg data false
  else if op = 2 then d.mdioStart b 1 2 phy reg data true
  else d

/-- I2C_CMD (R157, R159): whether and when SDA is high is free here. -/
def Dev.i2cCommand (d : Dev) (b : Nat) (v : Word) : Dev :=
  let r := d.freshPulse
  if R.I2C_CMD.CLEAR.get v = 1 then r.2.i2cClearCmd b r.1
  else r.2.i2cStart b (R.I2C_CMD.ADDR.get v) (R.I2C_CMD.WLEN.get v) (R.I2C_CMD.RLEN.get v) r.1

/-- GRN_HOLD_CMD: with both bits, the hold ends. -/
def Dev.holdCommand (d : Dev) (n : Nat) (v : Word) : Dev :=
  if v.getLsbD 1 then d.holdEnd n else d.when (v.getLsbD 0) (·.holdStart n)

/-- POL_CMD (Table 8-3): WRITE and CLEAR belong to a live group; READ and undefined operations do not change what the group
guards. -/
def Dev.polByOp (d : Dev) (n : Nat) (v : Word) : Dev :=
  let i := R.POL_CMD.INDEX.get v
  match R.POL_CMD.OP.get v with
  | 1 => d.guarded (.rgn 4) (R.POL_CMD n) (·.polCommand n (fun d => d.polWrite n i))
  | 2 => d.polCommand n (fun d => d.polRead n i)
  | 3 => d.guarded (.rgn 4) (R.POL_CMD n) (·.polCommand n (fun d => d.polClear n i))
  | _ => d.polCommand n (fun d => (1, d))

/-- Writes of the command registers of the chip pages; none for a register that is stored. -/
def State.chipCommand (s : State) (a : Nat) (v : Word) : Option State :=
  let on := fun (g : Dev → Dev) => some (s.onDev g)
  if a = R.LDR_CMD then some (s.loaderCommand v)
  else if a = R.LDR_RELAYOUT then
    if v.getLsbD 2 then on (·.relayoutArm (R.LDR_RELAYOUT.REGION.get v) (R.LDR_RELAYOUT.DRAIN_MS.get v)) else none
  else if a = R.TWN_CMD then on (·.when (v.getLsbD 0) (·.yieldLease))
  else if a = R.ABD_TX_CMD then
    on (·.when (v.getLsbD 31) (·.abdTxSend (R.ABD_TX_CMD.QUEUE.get v) (R.ABD_TX_CMD.REGION.get v)))
  else if a = R.STR_CMD then some (strCommand s v)
  else if a = R.CAL_CMD then some (calCommand s v)
  else if a = R.INT_CTL then on (·.when (v.getLsbD 0) (·.intEoi))
  else if a = R.LOG_POP then on (·.when (v.getLsbD 0) (·.logPop))
  else if a = R.SNAP_CMD then on (·.snapCommand v)
  else if a = R.DUMP_CMD then on (·.when (v.getLsbD 0) (·.dumpRelease))
  else if a = R.UART_RX_POP then on (·.when (v.getLsbD 0) (·.uartPop))
  else if a = R.UART_TX then on (·.uartWrite (v.setWidth 8))
  else none

/-- Writes of the command registers of region n's pages; none for a register that is stored. -/
def State.regionCommand (s : State) (n a : Nat) (v : Word) : Option State :=
  let on := fun (g : Dev → Dev) => some (s.onDev g)
  let page := a / 0x10000 % 0x100
  if a = R.RGN_RESTART n then on (·.when (v.getLsbD 0) (·.restartWarm n))
  else if 1 ≤ page ∧ page ≤ 4 then
    let b := 4 * n + page - 1
    if a = R.MDIO_CMD b then on (·.mdioCommand b v) else if a = R.I2C_CMD b then on (·.i2cCommand b v) else none
  else if page = 7 then
    if a = R.TBL_LRN_POP n then on (·.when (v.getLsbD 0) (·.learnPop n))
    else if a = R.TBL_GLN_MISMATCH n then on (·.when (v.getLsbD 31) (·.mismatchPop n))
    else if a = R.TBL_SHADOW_ADJ n then
      on (·.shadowAdjust n (R.TBL_SHADOW_ADJ.WORD.get v) (R.TBL_SHADOW_ADJ.MODE.get v == 1))
    else if a = R.LOFT_CMD n then on (·.when (v.getLsbD 0) (·.loftResyncAll n))
    else (placeOf a (R.TBL_CMD n 0) 64 4).map (fun c => s.onDev (·.startTbl n c (R.TBL_CMD.OP.get v)))
  else if a = R.GRN_HOLD_CMD n then on (·.holdCommand n v)
  else if a = R.DRC_CMD n then on (·.when (v.getLsbD 0) (·.requalify n))
  else if a = R.WNW_CMD n then
    on (·.guarded (.rgn 3) a (·.startRule n (R.WNW_CMD.OP.get v) (R.WNW_CMD.ADDR.get v)))
  else if a = R.POL_CMD n then on (·.polByOp n v)
  else if a = R.TSK_CMD n then on (·.when (R.TSK_CMD.OP.get v == 1) (·.askTasks (.flush n (R.TSK_CMD.QUEUE.get v))))
  else none

/-! ## Registers with conditions, and what follows a write -/

/-- A generator's configuration (R200): while EN is 1 its AXIS, START, PERIOD and WIDTH keep their values, and a change sets
IGNORED. -/
def Dev.pulseCfgWrite (d : Dev) (j : Nat) (v : Word) : Dev :=
  let a := R.PO_CFG j
  let was := d.pulseOn j
  let ax := R.PO_CFG.AXIS
  let keep := was && ax.get v != d.fget a ax
  let d := (d.plain a (if keep then ax.put v (d.fget a ax) else v)).when keep (·.setFlag (R.PO_STAT j) R.PO_STAT.IGNORED true)
  if d.pulseOn j && !was then d.enablePulse j else d.pulseRefresh j

/-- A slot's configuration (R205): while EN is 1 its KIND and AXIS keep their values, and a change sets IGNORED. -/
def Dev.slotCfgWrite (d : Dev) (i : Nat) (v : Word) : Dev :=
  let a := R.SCH_CFG i
  let was := d.flag a R.SCH_CFG.EN
  let gap := d.fget a R.SCH_CFG.MAXGAP_MS
  let kind := R.SCH_CFG.KIND
  let ax := R.SCH_CFG.AXIS
  let keep := was && (ax.get v != d.fget a ax || kind.get v != d.fget a kind)
  let w := if keep then kind.put (ax.put v (d.fget a ax)) (d.fget a kind) else v
  let d := (d.plain a w).when keep (·.setFlag (R.SCH_STAT i) R.SCH_STAT.IGNORED true)
  let on := d.flag a R.SCH_CFG.EN
  if on && !was then d.enableSlot i
  else if was && !on then d.disableSlot i
  else if gap != d.fget a R.SCH_CFG.MAXGAP_MS then (d.refreshSlotStat i).armGap i
  else d.refreshSlotStat i

/-- A write that its unit ignores while EN is 1. -/
def Dev.unless (d : Dev) (on : Bool) (a : Nat) (v : Word) (stat : Nat) (ign : Fld) : Dev :=
  if on then d.setFlag stat ign true else d.plain a v

/-- Writes of the stored registers of the time page. -/
def Dev.timeWrite (d : Dev) (a : Nat) (v : Word) : Dev :=
  if a = R.PH_MAINS_CFG then
    let was := d.mainsOn
    let d := d.plain a v
    d.when (d.mainsOn && !was) (·.mainsEnabled)
  else
    match placeOf a (R.TB_CFG 0) 64 4, placeOf a (R.CAP_CFG 0) 32 2, placeOf a (R.CAP_STAT 0) 32 2 with
    | some t, _, _ =>
      let was := d.fget a R.TB_CFG.HOLD_10MS
      let d := d.plain a v
      d.when (d.fget a R.TB_CFG.HOLD_10MS != was) (·.armHoldWatch t)
    | none, some i, _ => (d.plain a v).when (v.getLsbD 31) (·.capturePop i)
    | none, none, some _ =>
      let was := d.flag a R.CAP_STAT.OVERFLOW
      let d := d.plain a v
      d.when (was && !d.flag a R.CAP_STAT.OVERFLOW) (·.fset a R.CAP_STAT.DROPPED 0)
    | none, none, none =>
      if R.PO_CFG 0 ≤ a ∧ a < R.PO_CFG 4 then
        let j := (a - R.PO_CFG 0) / 32
        if a = R.PO_CFG j then d.pulseCfgWrite j v
        else if a = R.PO_START j ∨ a = R.PO_PERIOD j ∨ a = R.PO_WIDTH j then
          d.unless (d.pulseOn j) a v (R.PO_STAT j) R.PO_STAT.IGNORED
        else d.plain a v
      else if R.SCH_CFG 0 ≤ a ∧ a < R.SCH_CFG 8 then
        let i := (a - R.SCH_CFG 0) / 32
        if a = R.SCH_CFG i then d.slotCfgWrite i v
        else if a = R.SCH_BASE i ∨ a = R.SCH_CYCLE i ∨ a = R.SCH_OPEN i ∨ a = R.SCH_LEN i then
          d.unless (d.flag (R.SCH_CFG i) R.SCH_CFG.EN) a v (R.SCH_STAT i) R.SCH_STAT.IGNORED
        else d.plain a v
      else d.plain a v

/-- A write of the time page takes effect: its commands, the rates, and the stored registers. -/
def Dev.timeEffect (d : Dev) (a : Nat) (v : Word) : Dev :=
  if a = R.PH_ODO_CMD then d.when (v.getLsbD 0) (·.odoSet)
  else
    match placeOf a (R.TB_CMD 0) 0x40 4, placeOf a (R.TB_RATE 0) 0x40 4 with
    | some t, _ => d.tbCommand t v
    | none, some t => d.tbRateWrite t v
    | none, none => d.timeWrite a v

/-- A master's place in the order of R175. -/
def timeRank : Master → Nat
  | .supervisor => 0
  | .pe e => 1 + e.val
  | .pf h => 65 + h.val
  | .jtag => 69

/-- A write put among those that wait: after every one of an earlier clock, and among those of its clock by rank. -/
def queueWrite (w : TimeWrite) : List TimeWrite → List TimeWrite
  | [] => [w]
  | y :: l => if y.clock = w.clock ∧ w.rank < y.rank then w :: y :: l else y :: queueWrite w l

/-- A write arrives at the time page, which takes one in a clock (R175). -/
def Dev.timeArrives (d : Dev) (m : Master) (a : Nat) (v : Word) : Dev :=
  { d with time := { d.time with writes := queueWrite ⟨d.now, timeRank m, a, v⟩ d.time.writes } }

/-- The time page takes the first write that waits. -/
def Dev.serveTime (d : Dev) : Dev :=
  match d.time.writes with
  | [] => d
  | w :: l => ({ d with time := { d.time with writes := l } } : Dev).timeEffect w.addr w.value

/-- A clock of the time page ends: it takes a write, and the captures of the clock join their FIFOs. -/
def Dev.timeEnd (d : Dev) : Dev :=
  let d := d.serveTime.each d.clk.captured (fun x d => d.captureEnters x.1 x.2)
  { d with clk := { d.clk with captured := [], odoSteps := 0 } }

/-- A write of the port marks of shedding (R587): one that would mark a port in both registers is ignored. -/
def Dev.marksWrite (d : Dev) (a i : Nat) (other : Nat) (v : Word) : Dev :=
  if d.groupLive (.chip 1) a && v &&& d.rd other != 0 then d.setFlag R.PWR_EVT R.PWR_EVT.MARK_IGNORED true
  else 
    let d := d.plain a v
    { d with clk := { d.clk with marks := d.clk.marks ++ (List.range 32).map (fun k => 32 * i + k) } }

/-- A write of ABD_CFG: lanes disabled go down. -/
def Dev.abdCfgWrite (d : Dev) (v : Word) : Dev :=
  let d := d.plain R.ABD_CFG v
  d.each [0, 1] (fun l d => d.when (d.abdLanes.testBit l && !d.laneEnabled l) (·.abdLaneDown l))

/-- Writes of the other stored chip registers. -/
def Dev.chipWrite (d : Dev) (m : Master) (a : Nat) (v : Word) : Dev :=
  if a = R.SUP_WDOG then (d.plain a v).when (v.getLsbD 31) (·.supKick)
  else if a = R.SUP_MBOX_IN then (d.plain a v).setFlag R.SUP_STAT R.SUP_STAT.MBOX_FULL true
  else if a = R.SUP_MBOX_OUT then
    if m = .supervisor then { d.wr a v with mboxOut := true } else d
  else if a = R.TWN_CFG then
    let d := d.plain a v
    d.when (d.flag a R.TWN_CFG.CLAIM_EN) (·.tryClaim)
  else if a = R.ABD_CFG then d.abdCfgWrite v
  else if a = R.OUT_CTL then (d.plain a v).outCtlWritten
  else if a = R.UART_CFG then (d.plain a v).uartNext
  else if a = R.PWR_CFG then (d.plain a v).refreshDwell
  else
    match placeOf a (R.PWR_SHEDDABLE 0) 4 4, placeOf a (R.PWR_VITAL 0) 4 4 with
    | some i, _ => d.marksWrite a i (R.PWR_VITAL i) v
    | none, some i => d.marksWrite a i (R.PWR_SHEDDABLE i) v
    | none, none => d.plain a v

/-- What follows a write of a lane's registers: a checker given another pattern has not locked to it, and a loopback that
changes loses what is on the loop (R165). -/
def Dev.laneWritten (d : Dev) (a l : Nat) (old : Word) : Dev :=
  if a = R.LN_PRBS l then
    let chk := R.LN_PRBS.CHK
    let d := d.when (chk.get (d.rd a) != chk.get old) (·.setFlag (R.LN_STAT l) R.LN_STAT.PRBS_LOCK false)
    d.each (d.lanePorts l) (fun p d => d.refreshEnabled p)
  else if a = R.LN_CFG l then d.when (R.LN_CFG.LOOP.get (d.rd a) != R.LN_CFG.LOOP.get old) (·.dropLooped l)
  else d

/-- Writes of the stored registers of a port block's page, and of the registers of H4 and H5. -/
def Dev.portWrite (d : Dev) (a : Nat) (v : Word) (ports lanes : List Nat) : Dev :=
  let old := d.rd a
  let d := match ports.find? (fun p => R.MAC_MCHASH p 0 ≤ a ∧ a ≤ R.MAC_MCHASH p 15) with
    | some p => d.keepHash p
    | none => d
  let d := d.plain a v
  match ports.find? (fun p => a == R.MAC_CFG p), lanes.find? (fun l => a == R.LN_PRBS l || a == R.LN_CFG l) with
  | some p, _ => (d.refreshEnabled p).refreshReady p
  | none, some l => d.laneWritten a l old
  | none, none => d

/-- Writes of the stored registers of engine block k's page. -/
def Dev.engineWrite (d : Dev) (k a : Nat) (v : Word) : Dev :=
  if a = R.ENG_BLK_CFG k then
    let f := R.ENG_BLK_CFG.STOP_ON_FAULT
    let was := d.flag a f
    let d := d.plain a v
    d.when (was && !d.flag a f) (·.faultHaltEnds k)
  else
    match (blockEngines k).find? (fun e => a == R.ENG_CTL e) with
    | some e =>
      let was := d.flag a R.ENG_CTL.HALT
      let d := d.plain a v
      d.when (!was && d.flag a R.ENG_CTL.HALT) (·.engineHalt e)
    | none => d.plain a v

/-- Writes of the stored registers of region n. -/
def Dev.regionWrite (d : Dev) (n a : Nat) (v : Word) : Dev :=
  let page := a / 0x10000 % 0x100
  if 1 ≤ page ∧ page ≤ 4 then
    let b := 4 * n + page - 1
    d.portWrite a v ((List.range 8).map (fun k => 8 * b + k)) ((List.range 4).map (fun k => 4 * b + k))
  else if page = 5 ∨ page = 6 then d.engineWrite (2 * n + page - 5) a v
  else if a = R.DRC_SCHED n then (d.plain a v).refreshDram n
  else if page = 10 ∧ n = 1 then d.portWrite a v [132] [66]
  else if page = 10 ∧ n = 3 then d.portWrite a v [133] [67]
  else d.plain a v

/-- A write of a word of the indirect page by its master (R654, R659). -/
def State.indPageWrite (s : State) (m w : Nat) (v : Word) : State :=
  if w = 0 then s.indAccess m (.ctl v)
  else if w = 1 then s.indAccess m (.addr v)
  else if w = 2 then s.indAccess m (.write v)
  else s.onDev (·.modCtx m (fun c =>
    { c with overrun := c.overrun && !v.getLsbD 1, early := c.early && !v.getLsbD 2 }))

/-- A write of the register at a word address does what it does. -/
def State.writeNow (s : State) (m : Master) (a : Nat) (v : Word) : State :=
  if a / 0x10000 = 3 then s.indPageWrite (masterId m) (a / 4 % 4) v
  else if a / 0x10000 = 6 then s.onDev (·.timeArrives m a v)
  else
    match regionOf a with
    | none => (s.chipCommand a v).getD (s.onDev (·.chipWrite m a v))
    | some n => (s.regionCommand n a v).getD (s.onDev (·.regionWrite n a v))

/-- The fields that a write of the word at `a` stores, of a value. -/
def storedPart (a : Nat) (v : Word) : Word :=
  match regAt a with
  | some r => BitVec.ofNat 32 (Nat.land v.toNat (maskOf (r.fields.filter (fun f => f.access == .rw || f.access == .rwl))))
  | none => 0

/-- Of the writes of a register in this clock, the last in the order of R175, where it comes after a master's in that order. -/
def lastWrite (a : Nat) (m : Master) (l : List (Nat × Master × Word)) : Option (Nat × Master × Word) :=
  l.foldr (fun w acc =>
    let floor := match acc with | some x => timeRank x.2.1 | none => timeRank m + 1
    if w.1 = a ∧ floor ≤ timeRank w.2.1 then some w else acc) none

/-- A write of the register at a word address takes effect. Writes of one register by several masters in one clock take effect in turn, in
the order of R175 (R642): where one that comes after in it has come already, it prevails in the fields it stores. The indirect page has a
context for each master, and the time page keeps the order itself. -/
def State.writeReg (s : State) (m : Master) (a : Nat) (v : Word) : State :=
  if a / 0x10000 = 3 ∨ a / 0x10000 = 6 then s.writeNow m a v
  else
    let last := lastWrite a m s.dev.clk.writers
    let s := s.onDev (fun d => { d with clk := { d.clk with writers := (a, m, v) :: d.clk.writers } })
    let s := s.writeNow m a v
    match last with
    | some w => if storedPart a 0xFFFFFFFF = 0 then s else s.writeNow w.2.1 a (storedPart a w.2.2)
    | none => s

/-- A write of a register by a master (R635 to R653). -/
def State.writeAccess (s : State) (m : Master) (off be : Nat) (v : Word) : State :=
  let r := s.dev.judgeWrite m off be
  let s := { s with dev := r.1 }
  match r.2 with
  | none => s
  | some a => s.writeReg m a v

/-! ## Instance pages (R526, R638) -/

/-- The position of an instance page that an offset reaches: the page decodes 256 words (chapter 13). -/
def pageOffset (off : Nat) : Nat := off &&& 0x3FC

/-- The queue pair that a position of an instance page belongs to: its ring registers, or its counter cells. -/
def pageQueue (o : Nat) : Option Nat :=
  if 0x300 ≤ o then some ((o - 0x300) / 32) else if 0x100 ≤ o then some ((o - 0x100) / 64) else none

/-- An instance's page answers at a position: the page is served and the queue pair of the position exists. -/
def Dev.pageServes (d : Dev) (n i o : Nat) : Bool :=
  d.instServes n i && (match pageQueue o with
    | some q => decide (q < d.qpCount n i)
    | none => true)

/-- A write of an instance page by the instance's own function: partial writes are ignored and counted, and a page that does
not answer ignores every write. -/
def Dev.instWrite (d : Dev) (n i off be : Nat) (v : Word) : Dev :=
  let o := pageOffset off
  let a := instPage n i + o
  let q := (o - 0x100) / 64
  if be ≠ 15 then d.bump R.REG_PARTIAL_WR
  else if !d.pageServes n i o then d
  else if a = R.INST_CTL n i then d.when (v.getLsbD 0) (·.instCtlReset n i)
  else if a = R.INST_MSG_CMD n i then d.when (v.getLsbD 0) (·.instMsg n i)
  else if 0x100 ≤ o ∧ q < 8 then
    if a = R.TXQ_TAIL n i q then d.txTail n i q v.toNat
    else if a = R.RXQ_TAIL n i q then d.rxTail n i q v.toNat
    else if a = R.TXQ_CFG n i q then d.txCfgWrite n i q v
    else if a = R.RXQ_CFG n i q then d.rxCfgWrite n i q v
    else if (a = R.TXQ_BASE_LO n i q ∨ a = R.TXQ_BASE_HI n i q) ∧ d.txEnabled n i q then d
    else if (a = R.RXQ_BASE_LO n i q ∨ a = R.RXQ_BASE_HI n i q) ∧ d.rxEnabled n i q then d
    else if a = R.QP_IRQ n i q then (d.plain a v).moderate n i q false
    else d.plain a v
  else d.plain a v

/-- REGISTER_WRITE. -/
def State.registerWrite (s : State) (m : Master) (t : RegTarget) (be : Nat) (v : Word) : State :=
  match t with
  | .reg off => s.writeAccess m off.toNat be v
  | .inst h i off => s.onDev (·.instWrite h i off.toNat be v)

/-! ## Reads -/

/-- A peak register restarts from what it follows (Table 0-8, RC). -/
def Dev.peakRead (d : Dev) (a : Nat) : Dev :=
  if a = R.CHIP_TEMP_PEAK then d.fset a R.CHIP_TEMP_PEAK.PEAK (d.fget R.CHIP_TEMP R.CHIP_TEMP.TEMP)
  else
    match regionOf a with
    | none => d
    | some n =>
      if a = R.ACC_JRNL_PEAK n then d.fset a R.ACC_JRNL_PEAK.PEAK (d.journalUsed n).length
      else
        match placeOf a (R.GRN_POOL_PEAK n 0) 16 8 with
        | some p => d.fset a R.GRN_POOL_PEAK.PEAK (d.pool n p).charged
        | none => d

/-- What a read of a register leaves behind: peaks cleared by a privileged master (R648), latches (R171, R469), the mailbox
flags. -/
def Dev.readEffect (d : Dev) (m : Master) (a : Nat) : Dev :=
  let d := d.when (d.privileged m a) (·.peakRead a)
  if a = R.SUP_MBOX_OUT then { d with mboxOut := false }
  else if a = R.SUP_MBOX_IN ∧ m = .supervisor then d.setFlag R.SUP_STAT R.SUP_STAT.MBOX_FULL false
  else
    match placeOf a (R.TB_NS 0) 64 4, regionOf a with
    | some t, _ => d.setLatch (masterId m) (R.TB_FRAC t) (BitVec.ofNat 32 (d.tbase t).frac)
    | none, some n => d.when (a == R.LOFT_US_LO n) (·.setLatch (masterId m) (R.LOFT_US_HI n) (BitVec.ofNat 32 (d.loftUs / 2 ^ 32)))
    | none, none => d

/-- A register that holds a peak (R24). -/
def isPeak (a : Nat) : Bool := ((regAt a).map (fun r => r.fields.any (fun f => f.access == .rc))).getD false

/-- The privilege of the register at an address. -/
def regPrivileged (a : Nat) : Bool := ((regAt a).map (fun r => r.priv == .privileged)).getD false

/-- A read of the register at a word address by a master; `reply` says where an answer that comes later goes. -/
def State.readReg (s : State) (m : Master) (a : Nat) (reply : Option (Nat × Nat × Nat)) : Option Word × State :=
  let d := s.dev
  if a / 0x10000 = 3 then
    let w := a / 4 % 4
    let id := masterId m
    if w = 2 then
      if (d.ctx id).busy then (none, s.indAccess id (.read reply))
      else let r := s.indRead id; (some r.1, r.2)
    else (some (d.indWord id w), s)
  else
    let p := d.privileged m a
    if regPrivileged a && !p then (some 0, s.onDev (·.bump R.REG_UNPRIV))
    else if isCell a then
      if d.cellsHidden p then (some 0, s) else let r := d.readCell (masterId m) a; (some r.1, { s with dev := r.2 })
    else (some (if isPeak a then d.was.readReg m a else d.readReg m a), s.onDev (·.readEffect m a))

/-- A read of a register by a master: what answers nothing reads zero. None where the answer comes later. -/
def State.readAccess (s : State) (m : Master) (off : Nat) (reply : Option (Nat × Nat × Nat)) : Option Word × State :=
  if !s.dev.masterServed m then (some 0, s)
  else
    match decodeOffset off with
    | none => (some 0, s)
    | some a =>
      if !s.dev.recoveryServes a || !s.dev.regionServes a then (some 0, s) else s.readReg m a reply

/-- The identity under which a read of an instance page keeps latches: the physical function's for the pages that it maps,
else one of the virtual function's own (DESIGN CHOICE, log 78). -/
def Dev.pageReader (d : Dev) (n i : Nat) : Nat := if d.hostMode n = 1 ∨ i = 0 then n else 0x100 + 64 * n + i

/-- A read of an instance page by the function that maps it (R526, R550): a page or a position that does not answer reads zero;
counter cells read their values in the states that forward frames, with GRANT.CNT of the instance's entry at 1, and zero
otherwise. -/
def Dev.pageRead (d : Dev) (n i off : Nat) : Word × Dev :=
  let o := pageOffset off
  let a := instPage n i + o
  if !d.pageServes n i o then (0, d)
  else if isCell a then
    if d.chip.state.serving && d.flag (R.INSTE_GRANT n i) R.INSTE_GRANT.CNT then d.readCell (d.pageReader n i) a else (0, d)
  else (d.rd a, d)

/-- A read by a host function or JTAG: its data leave the block. -/
def State.hostRead (s : State) (m : Master) (off : Nat) : State :=
  let r := s.readAccess m off none
  match r.1 with
  | some v => r.2.onDev (·.emit (.readData (masterId m) v))
  | none => r.2

/-- A read of a register, or of an instance page by the function that maps it. -/
def State.targetRead (s : State) (m : Master) (t : RegTarget) : State :=
  match t with
  | .reg off => s.hostRead m off.toNat
  | .inst h i off =>
    let r := s.dev.pageRead h i off.toNat
    { s with dev := r.2.emit (.readData (s.dev.pageReader h i) r.1) }

/-! ## Commands of rows of their own -/

/-- A register command with an effect beyond the device: judged as any write, its group live, and then acting. -/
def State.command (s : State) (m : Master) (a : Nat) (g : LiveGroup) (act : State → State) : State :=
  let r := s.dev.judgeWrite m a 15
  let s := { s with dev := r.1 }
  match r.2 with
  | none => s
  | some a => if s.dev.groupLive g a then act s else s.onDev (·.bump R.LDR_LIVE_IGN)

/-- A command that a write of a word of an indirect space gives: judged as that write (R660), its group live. -/
def State.spaceCommand (s : State) (m : Master) (code n addr : Nat) (g : LiveGroup) (act : Dev → Dev) : State :=
  if !s.dev.masterServed m then s
  else if !s.mayWrite m code n addr then s.onDev (·.bump R.IND_REFUSED)
  else s.onDev (·.guarded g (spWord code n) act)

/-- FUSE_BLOW: a master's context is set to BLOW of a key slot and 1 is written there; `aux` says that VDD_AUX lies within its
limits. While BUSY is 1 the write waits its turn. -/
def State.fuseBlow (s : State) (m : Master) (k : Nat) (aux : Bool) : State :=
  let id := masterId m
  if !s.dev.masterServed m then s
  else if (s.dev.ctx id).busy then s.indAccess id (.write 0x80000000#32)
  else
    let c := { s.dev.ctx id with ctl := 3#32, addr := BitVec.ofNat 32 (0x40 * k + 0x30), buffer := 0 }
    State.indWrite { s with dev := s.dev.setCtx id c } id 0x80000000#32 aux

/-! ## The maintenance UART's receiver (R630, R633) -/

/-- UART_FRAME_RX: the samples of the start bit, the data bits and the stop bit of a frame. -/
def Dev.uartFrame (d : Dev) (start : Bool) (b : Byte) (stop : Bool) : Dev :=
  if start || !d.flag R.UART_CFG R.UART_CFG.EN || d.chip.state == .held then d
  else if stop then
    if d.uart.rx.length < 64 then { d with uart := { d.uart with rx := d.uart.rx ++ [b] } }
    else (d.setFlag R.UART_STAT R.UART_STAT.OVERRUN true).bump R.UART_OVERRUN
  else if b = 0 then (d.setFlag R.UART_STAT R.UART_STAT.BREAK true).bump R.UART_BREAK
  else (d.setFlag R.UART_STAT R.UART_STAT.FRAMING true).bump R.UART_FRAMING_ERR

/-- UART_FRAME_TX: the byte on its way out has been sent, and the next one follows. -/
def Dev.uartSent (d : Dev) : Dev :=
  match d.uart.sending with
  | none => d
  | some b => (({ d with uart := { d.uart with sending := none } } : Dev).emit (.uart b)).uartNext

end Sys2Proof.Machine
end

