-- ==== Sys2Proof/Machine/Arrivals.lean ====
section
/-! DEFINITION. Register windows of the cores (R458, R459) and the register messages of the Floor (R41 to R49, R643), and the
arrival of completions and refusals (R311, R322, R426). -/

namespace Sys2Proof.Machine

/-! ## Register windows (Table 11-6) -/

/-- Where a window address of a core leads: a Floor port, or 5 for a direct access, and the offset there. The supervisor core
reaches the register space at its own offsets. -/
def window (e a : Nat) : Option (Nat × Nat) :=
  if e = supCore then (if a < 0x05000000 then some (5, a) else none)
  else if a < 0x01000000 then some (4, a)
  else if a < 0x02000000 then some (5, (e / 16 + 1) * 0x01000000 + a % 0x01000000)
  else if a < 0x06000000 then
    let n := a / 0x01000000 - 2
    some (n, (n + 1) * 0x01000000 + a % 0x01000000)
  else none

/-- The master that a core is. -/
def coreMaster (e : Nat) : Master := if e = supCore then .supervisor else .pe (Fin.ofNat 64 e)

/-- The number a window access carries for its answer: the register it loads (32 for none) with the thread's dispatch. -/
def windowTag (x : Thread) (r : Nat) : Nat := 64 * x.base + r

/-- A window access ends with a value for the register it names; an answer for an earlier task of the thread is dropped. -/
def Dev.windowEnds (d : Dev) (e t tag : Nat) (v : Word) : Dev :=
  let x := d.thread e t
  if x.waits != some .window || x.base != tag / 64 then d
  else if tag % 64 < 32 then d.result e t x (tag % 64) v
  else d.complete e t x

/-- An answer from the Floor for a window access. -/
def SinkUse.windowEnds (u : SinkUse) (v : Word) (d : Dev) : Dev :=
  match u with
  | .engineReg e t tag => d.windowEnds e t tag v
  | _ => d

/-- The thread waits for a window's answer. -/
def Dev.waitWindow (d : Dev) (e t : Nat) (x : Thread) : Dev := d.setThread e t { x with state := .wait, waits := some .window }

/-- A window access that the Floor carries: the request reserves space for its answer, and the thread waits. -/
def Dev.windowRequest (d : Dev) (e t dst tag : Nat) (x : Thread) (body : FloorBody) : Dev :=
  (d.waitWindow e t x).request (e / 16) (4 + e / 8 % 2) (e % 8) (.engineReg e t tag) dst body

/-- The checks of a window address: misaligned is CAUSE 2, outside the windows CAUSE 3. -/
def State.atWindow (s : State) (e t a : Nat) (k : Nat → Nat → State) : State :=
  if a % 4 ≠ 0 then s.onDev (·.threadFault e t 2)
  else
    match window e a with
    | none => s.onDev (·.threadFault e t 3)
    | some (p, off) => k p off

/-- RDX (R458). -/
def State.rdx (s : State) (e t : Nat) : State :=
  match s.dev.issued e t 0x16 with
  | (none, d) => { s with dev := d }
  | (some (w, x), d) =>
    let s := { s with dev := d }
    s.atWindow e t (accessAddr w x) (fun p off =>
      if p < 5 then s.onDev (·.windowRequest e t p (windowTag x (fieldD w)) x (.regr (coreMaster e) (BitVec.ofNat 32 off)))
      else
        let r := s.readAccess (coreMaster e) off (some (5, fieldD w, 0))
        match r.1 with
        | some v => r.2.onDev (·.result e t x (fieldD w) v)
        | none => r.2.onDev (·.waitWindow e t x))

/-- WRX (R458). -/
def State.wrx (s : State) (e t : Nat) : State :=
  match s.dev.issued e t 0x17 with
  | (none, d) => { s with dev := d }
  | (some (w, x), d) =>
    let s := { s with dev := d }
    let v := x.reg (fieldD w)
    s.atWindow e t (accessAddr w x) (fun p off =>
      if p < 5 then s.onDev (·.windowRequest e t p (windowTag x 32) x (.regw (coreMaster e) (BitVec.ofNat 32 off) v))
      else (s.onDev (·.complete e t x)).writeAccess (coreMaster e) off 15 v)

/-! ## Register messages (R47 to R49, R643) -/

/-- A register request reaches its port: a stale one is discarded, a region that answers no register access refuses it with a
NACK, and otherwise it is served. -/
def State.registerArrives (s : State) (src dst : Nat) (isKind : FloorBody → Option Word)
    (serve : FloorMsg → State → State) : State :=
  match s.dev.headMsg true src dst with
  | none => s
  | some m =>
    match isKind m.body with
    | none => s
    | some off =>
      let d := s.dev.takeMsg true src dst
      if d.isStale m then { s with dev := d.staleDiscard m }
      else if !d.regionServes off.toNat then { s with dev := (d.bump R.FLR_NACK_CNT).answer none m (.nack m.body.code none) }
      else serve m { s with dev := d }

/-- REGR_ARRIVAL: the read data return in a CPL, later where the indirect pair is busy. -/
def State.regrArrival (s : State) (src dst : Nat) : State :=
  s.registerArrives src dst (fun b => match b with | .regr _ off => some off | _ => none) (fun m s =>
    match m.body with
    | .regr who off =>
      let r := s.readAccess who off.toNat (some (m.src, m.tag, m.gen))
      match r.1 with
      | some v => r.2.onDev (·.answer (registerBlock off.toNat) m (.cplReg (some v)))
      | none => r.2
    | _ => s)

/-- REGW_ARRIVAL: the write is performed and acknowledged. -/
def State.regwArrival (s : State) (src dst : Nat) : State :=
  s.registerArrives src dst (fun b => match b with | .regw _ off _ => some off | _ => none) (fun m s =>
    match m.body with
    | .regw who off v => (s.writeAccess who off.toNat 15 v).onDev (·.answer (registerBlock off.toNat) m (.cplReg none))
    | _ => s)

/-! ## Completions and refusals -/

/-- CPL_ARRIVAL: a guarded answer for its journal and the release of an owner wait for the end of the clock (R435); the mirror partner's answer, or the answer of a
register access. -/
def Dev.cplArrival (d : Dev) (src dst : Nat) : Dev :=
  d.responseArrives src dst (fun b => b.code == 6) (fun m d =>
    match m.body with
    | .cplGuarded .. | .cplOwner .. => d.keepArrival m
    | .cplMirror uid q => d.mirrorAnswered dst q uid
    | .cplBales uid dest bales => d.mirrorFreed dst uid dest bales
    | .cplReg v => d.sinkInto m (fun u d => u.windowEnds (v.getD 0) d)
    | _ => d)

/-- NACK_ARRIVAL (R48, R643): a register read that is refused returns zero, a write is abandoned. -/
def Dev.nackArrival (d : Dev) (src dst : Nat) : Dev :=
  d.responseArrives src dst (fun b => b.code == 7) (fun m d =>
    match m.body with
    | .nack of x => d.nacked m of x (fun u d => u.windowEnds 0 d)
    | _ => d)

end Sys2Proof.Machine
end

