-- ==== Sys2Proof/Machine/Settle.lean ====
section
/-! DEFINITION. What the end of a clock settles, the errors raised in it (R9, R50 to R55, R593, R594) and the causes for a
change of state (R6, R7); and what the end of a command does, the news units have for one another and the chip's interrupt
message (R604, R606). -/

namespace Sys2Proof.Machine

/-! ## Errors -/

/-- The whole chip restarts or is held: an error inside it is absorbed (R54). -/
def Dev.chipAbsorbs (d : Dev) : Bool := d.chip.state.starting || d.chip.state == .recovery || d.chip.state == .held

/-- An absorbed event: counted in the counter of its severity and in ERR_ABSORBED, and logged (R594). -/
def Dev.absorbed (d : Dev) (cell n k sev : Nat) : Dev := ((d.bump cell).bump R.ERR_ABSORBED).logEntry 0x0005 n k sev

/-- The clocks of a unit's events that lie within an interval before now. -/
def Dev.recent (d : Dev) (l : List (Nat × Nat)) (key span : Nat) : Nat :=
  (l.filter (fun x => x.1 == key && decide (d.now ≤ x.2 + span))).length

/-- Note an event of a unit. -/
def Dev.remember (d : Dev) (l : List (Nat × Nat)) (key span : Nat) : List (Nat × Nat) :=
  l.filter (fun x => decide (d.now ≤ x.2 + span)) ++ [(key, d.now)]

/-- A region-fatal event (R50, R53, R54): absorbed by a restart of the chip; in a region already restarting, or for the third
time within 60 s, chip-fatal; else the region restarts. -/
def Dev.regionFatal (d : Dev) (n cell addr : Nat) : Dev :=
  let span := 60000 * ms
  if d.chipAbsorbs then d.absorbed R.ERR_REGION_FATAL n 0xF 2
  else if d.restarting n || decide (2 ≤ d.recent d.err.regionFatal n span) then
    (d.escalation n 0xF 2 3 4).raise (.chipFatal 0x03 (n + 4 * 0xF + 65536 * (cell % 65536)) addr)
  else
    let d := ({ d with err := { d.err with regionFatal := d.remember d.err.regionFatal n span } } : Dev)
    ((d.bump R.ERR_REGION_FATAL).logEntry 0x0003 n 0xF (cell % 65536 * 65536 + addr % 65536)).regionRestart n

/-- A contained error of block k of region n (R50, R52, R54): absorbed by a higher restart; the third within 1 s is
region-fatal; else the block restarts. -/
def Dev.containedError (d : Dev) (n k cell addr : Nat) : Dev :=
  let key := 16 * n + k
  let span := 1000 * ms
  if d.chipAbsorbs || d.restarting n then d.absorbed R.ERR_CONTAINED n k 1
  else if d.blockInRestart n k then d.containedBegin n k cell addr
  else if 2 ≤ d.recent d.err.contained key span then
    ((d.escalation n k 1 2 3).setFlag (R.RGN_ERR n) R.RGN_ERR.ESCALATED true).regionFatal n cell addr
  else
    let d := ({ d with err := { d.err with contained := d.remember d.err.contained key span } } : Dev)
    d.containedBegin n k cell addr

/-- The severity of a raised error, as a rank. -/
def Raised.rank : Raised → Nat
  | .corrected .. => 0
  | .contained .. => 1
  | .regionFatal .. => 2
  | .chipFatal .. => 3

/-- The next error to handle: the highest severity first, then in the order raised. -/
def nextRaised (l : List Raised) : Option Raised :=
  match l.find? (fun r => r.rank == 3), l.find? (fun r => r.rank == 2), l.find? (fun r => r.rank == 1) with
  | some r, _, _ => some r
  | none, some r, _ => some r
  | none, none, some r => some r
  | none, none, none => l.head?

/-- Of two severities in one unit only the higher is handled (R9): a corrected error in a block with a contained one. -/
def yields (l : List Raised) (r : Raised) : Bool :=
  match r with
  | .corrected n k _ => l.any (fun x => match x with | .contained m j _ _ => m == n && j == k | _ => false)
  | _ => false

/-- A corrected error is handled: the word is corrected in place, and the event is logged (R595). -/
def Dev.correct (d : Dev) (n k : Nat) (word : Option Nat) : Dev :=
  let d := match word with | some key => d.setFault key 0 | none => d
  d.logCorrected n k

/-- Handle one error. -/
def State.handle (s : State) (r : Raised) : State :=
  match r with
  | .corrected n k word => s.onDev (·.correct n k word)
  | .contained n k cell addr => s.onDev (·.containedError n k cell addr)
  | .regionFatal n cell addr => s.onDev (·.regionFatal n cell addr)
  | .chipFatal cause unit addr => chipFatal s cause unit addr

/-- Handle the errors raised, and those that handling them raises, up to a number. -/
def State.handleRaised (s : State) : Nat → State
  | 0 => s
  | fuel + 1 =>
    match nextRaised s.dev.raised with
    | none => s
    | some r => State.handleRaised (State.handle { s with dev := { s.dev with raised := s.dev.raised.erase r } } r) fuel

/-! ## The causes of a clock (R6, R7) -/

/-- The rank of a cause among those of R6: RESET_N is 6, a chip-fatal error 4. -/
def Cause.rank : Cause → Nat
  | .deeper 5 => 5
  | .deeper _ => 3
  | .shallower _ => 2
  | .test _ => 1

/-- The state that a cause asks for. -/
def Cause.state : Cause → ChipState
  | .deeper k => stageState k
  | .shallower r => stageState r
  | .test _ => .test

/-- The rank of the highest cause of this clock. -/
def Dev.topCause (d : Dev) : Nat :=
  let held := if d.chip.state = .held ∧ d.chip.since = d.now then 6 else 0
  let fatal := if d.raised.any (fun r => r.rank == 3) then 4 else 0
  (d.clk.causes.map Cause.rank).foldl max (max held fatal)

/-- The highest cause acts. -/
def Cause.act (c : Cause) (d : Dev) : Dev :=
  match c with
  | .deeper k => d.enterDeeper k
  | .shallower r => d.leaveTo r
  | .test drives => d.enterTest drives

/-- The causes of this clock are resolved: those overtaken are recorded, a chip-fatal error among them counted as well, and
do not act; the highest acts, a chip-fatal error with the clock's other errors. -/
def Dev.resolveCauses (d : Dev) : Dev :=
  let top := d.topCause
  let l := d.clk.causes
  let d := d.each (l.filter (fun c => decide (c.rank < top))) (fun c d => d.logChip 0x0007 c.state.code)
  let d := if 4 < top then
      let d := d.each (d.raised.filter (fun r => r.rank == 3)) (fun _ d =>
        (d.bump R.ERR_CHIP_FATAL).logChip 0x0007 ChipState.recovery.code)
      { d with raised := d.raised.filter (fun r => r.rank != 3) }
    else d
  let d : Dev := { d with clk := { d.clk with causes := [] } }
  match l.find? (fun c => c.rank == top) with
  | some c => c.act d
  | none => d

/-! ## The order of a clock's updates -/

/-- The Granary's updates of this clock in the order of R307, its releases having come first: decision charges and commits, landing
charges, returns from bales; then the minima written in it count (R308). A host frame whose charge is placed goes on (R538). -/
def Dev.granaryEnd (d : Dev) : Dev :=
  let turns := d.clk.granary
  let minima := d.clk.minima
  let d : Dev := { d with clk := { d.clk with granary := [], minima := [] } }
  let d := d.decisionTurns turns
  let d := d.each (d.landingTurns turns) (fun l d =>
    let d := d.landingTurn l.id
    match l.origin with
    | .host n _ => d.handLanded n
    | _ => d)
  let d := d.each turns (fun t d => match t with | .ret n => d.baleReturn n | _ => d)
  d.each minima (fun x d => d.minLowered x.1 x.2.1 x.2.2)

/-- A CPL that came in this clock: it is discarded where its region's restart starts in it (R435, R47). -/
def Dev.judgeCpl (m : FloorMsg) (d : Dev) : Dev :=
  if !d.regionRuns m.dst then d
  else
    match m.body with
    | .cplGuarded entry seq dest cls st => d.applyCpl m.dst entry seq dest cls st
    | .cplOwner h _ => d.queueRelease m.dst h
    | _ => d

/-- An ENQ that came in this clock: it is answered by a NACK where its region's restart starts in it (R435). -/
def Dev.judgeArrival (m : FloorMsg) (d : Dev) : Dev :=
  match m.body with
  | .enq x =>
    if !d.regionRuns m.dst then (d.bump R.FLR_NACK_CNT).answer none m (.nack m.body.code (some x))
    else if x.guarded then d.judgeEnq m.dst x (Dev.place m.dst)
    else Dev.place m.dst x d
  | _ => d

/-- A restart or hold of the whole chip that stops what this clock brought. -/
def Dev.chipStopped (d : Dev) : Bool :=
  d.chip.state == .held || d.chip.state == .recovery || (d.chip.state.starting && d.chip.since == d.now)

/-- The Loft and the task units at the end of a clock. -/
def Dev.enginesEnd (d : Dev) : Dev :=
  if d.chipStopped then { d with engine := { d.engine with turns := [], loftTurns := [] } } else d.loftEnd.tasksEnd

/-- The messages of this clock in the order of R435: CPLs, ENQs, gaps whose limit expires (R423), frames to recover (R375), and the
replay walks. A restart or hold of the whole chip discards them. -/
def Dev.custodyEnd (d : Dev) : Dev :=
  let l := d.frame.arrivals
  let gaps := d.clk.gaps
  let ends := d.clk.walkEnds
  let d : Dev := { d with frame := { d.frame with arrivals := [] }, clk := { d.clk with gaps := [], walkEnds := [] } }
  if d.chipStopped then d
  else
    let d := d.each l Dev.judgeCpl
    let d := d.each l Dev.judgeArrival
    let d := d.each gaps (fun x d => d.gapSkip x.1 x.2 (Dev.place x.1))
    let d := d.recoverEnd.each [0, 1, 2, 3] (fun n d => d.walkTick n)
    d.each ends (fun n d => d.walkEnd n)

/-- The errors raised are handled. -/
def State.handleErrors (s : State) : State :=
  let l := s.dev.raised
  let s : State := { s with dev := { s.dev with raised := l.filter (fun r => !yields l r) } }
  s.handleRaised (s.dev.raised.length + 64)

/-- The end of a clock: the time page takes a write, the snapshot of the clock is taken, the lease takes what came to it, the Granary's updates take their turns, the host ports' resets begin, the causes for a change of state are
resolved and the errors handled; then the clock's votes and custody messages are judged, and the
Loft and the task units take their turns. -/
def State.clockEnd (s : State) : State :=
  let s := (s.onDev (fun d => d.timeEnd.snapEnd.twinEnd.granaryEnd.hostEnd.resolveCauses)).handleErrors
  (s.onDev (fun d => d.votesEnd.custodyEnd.enginesEnd)).handleErrors

/-- ESCALATION_TIMEOUT (R10): a restart exceeds its bound. -/
def Dev.escalationTimeout (d : Dev) (u : ErrUnit) : Dev :=
  match u with
  | .block n k =>
    let t : TimerId := ⟨.containedBound, n, k⟩
    if d.due t then ((d.disarm t).escalation n k 1 2 1).raise (.regionFatal n k 0) else d
  | .region n =>
    let t : TimerId := ⟨.regionBound, n, 0⟩
    if d.due t then ((d.disarm t).escalation n 0xF 2 3 1).raise (.chipFatal 0x04 (n + 4 * 0xF) 0) else d

/-! ## News between units -/

/-- A burst delivered to the chip port. -/
def OutEvent.isSilo : OutEvent → Bool
  | .silo .. => true
  | _ => false

/-- Bursts that the Silo's controllers have delivered to the chip port reach the contexts that fetch from them. -/
def State.siloNews (s : State) : State :=
  let l := s.dev.out.filter (·.isSilo)
  let s : State := { s with dev := { s.dev with out := s.dev.out.filter (fun e => !e.isSilo) } }
  l.foldl (fun s e => match e with | .silo n b v => s.siloDelivered n b v | _ => s) s

/-- Units follow one another: timestamps and news of frames return, waits are judged anew, regions that start come to RUN, and
a dump follows its Silo. -/
def Dev.follow (d : Dev) : Dev :=
  let d := d.txDoneTasks.hostNews
  let d := (d.each [0, 1, 2, 3] (fun n d => (d.refreshRxWait n).rxServe n)).windowPasses
  (d.when d.runState.starting (·.refreshRegions)).dumpFollowsSilo

/-- The chip's message (R604, R606): sent as it becomes deliverable. -/
def Dev.interrupt (d : Dev) (before : Bool) : Dev :=
  match d.intPort with
  | some n => d.when (d.intDeliverable && !before) (fun d =>
      ({ d with clk := { d.clk with messaged := true } } : Dev).msixSend n 0 1023)
  | none => d

/-- The end of a command; `before` says whether the chip's message was deliverable when it began. -/
def State.settle (s : State) (before : Bool) : State := (s.siloNews.onDev (·.follow)).onDev (·.interrupt before)

/-- A command acts on a device that has its supplies; one that is OFF does nothing (R5). The queue is not a command's to
change. -/
def State.run (s : State) (act : State → State) : Host.Outcome State Fault Refusal :=
  .next (if s.dev.chip.state = .off then s else { (act s).settle s.dev.intDeliverable with pending := s.pending })

/-- A command on the device alone. -/
def State.runDev (s : State) (act : Dev → Dev) : Host.Outcome State Fault Refusal := s.run (fun s => s.onDev act)

end Sys2Proof.Machine
end

