-- ==== Sys2Proof/Machine/Commands.lean ====
section
/-! DEFINITION. What the meanings of the commands share: the ports and sources that a command names, records that it
carries, and the few events that no unit's file holds. -/

namespace Sys2Proof.Machine

/-- Codes 128 to 131 name the PCIe host ports, which have no MAC (Table 6-2). -/
def portExists (p : PortId) : Bool := decide (p.val < 128 ∨ 132 ≤ p.val)

/-- A command of a port. -/
def State.runPort (s : State) (p : PortId) (act : Dev → Dev) : Host.Outcome State Fault Refusal :=
  s.runDev (fun d => d.when (portExists p) act)

/-- The origin that a source names. -/
def sourceOrigin : FrameSource → Origin
  | .port p => .port p
  | .host n i => .host n i
  | .engine e => .engine e

/-- Whether a source exists. -/
def sourceExists : FrameSource → Bool
  | .port p => portExists p
  | _ => true

/-- A command of a source of frames. -/
def State.runSource (s : State) (src : FrameSource) (act : Origin → Dev → Dev) : Host.Outcome State Fault Refusal :=
  s.runDev (fun d => d.when (sourceExists src) (act (sourceOrigin src)))

/-- POWER_ON alone acts on a device that is OFF. -/
def State.runPowerOn (s : State) : Host.Outcome State Fault Refusal :=
  .next (if s.dev.chip.state = .off then { (powerOn s).settle false with pending := s.pending } else s)

/-- CALIBRATION_COMPLETE of a port: its block's part of start step 6 has ended too (R562). -/
def Dev.calibrated (d : Dev) (p : Nat) : Dev :=
  let d := d.calComplete p
  { d with start := { d.start with calDone := setBit d.start.calDone (refIndex p) true } }

/-- SERDES_READAPTATION_PASS (R205, R207): the adapted lanes of the region's ports take settings anew, which the spec does not
give, and a fallback window of kind 3 owes the region no more. -/
def Dev.readaptationPass (d : Dev) (n : Nat) : Dev :=
  if !d.workAllowed 3 n then d
  else
    let lanes := ((regionPorts n).flatMap (fun p => d.portLanes p)).eraseDups
    let d := d.each (lanes.filter (fun l => d.flag (R.LN_RXEQ l) R.LN_RXEQ.ADAPTED)) (fun l d =>
      let x := d.fresh
      let y := x.2.fresh
      (y.2.fset (R.LN_RXEQ l) R.LN_RXEQ.CTLE x.1.toNat).fset (R.LN_RXEQ l) R.LN_RXEQ.DFE1 y.1.toNat)
    d.workDone 3 n

/-- The port of region n that the scheduler space names by number: 32 is the region's Ethernet host port (Table 8-12). -/
def flushPort (n k : Nat) : Nat := if k < 32 then 32 * n + k else if n = 1 then 132 else 133

/-- A record of a LOFT message as the Loft takes it. -/
def loftUpdate (r : LoftUpdate) : LoftRec := { slot := r.slot.toNat, seq := r.seq.toNat, length := r.length.toNat, data := r.data }

/-- The four body words of a TWINMSG, the first in the low bits. -/
def messageWords (b : BitVec 128) : List Nat := (List.range 4).map (fun i => bits b.toNat (32 * i) 32)

end Sys2Proof.Machine
end

