-- ==== Sys2Proof/Machine/ExecEngines.lean ====
section
/-! DEFINITION. Commands of the packet engines, the supervisor core, the line directory and the Loft: one core
instruction each, at the PC of its thread. -/

namespace Sys2Proof.Machine

/-- TASK_DISPATCH (R448): The task unit dispatches a task to an idle thread of an engine in its ENGMASK. -/
def execTaskDispatch (n : Fin 4) (s : State) : Host.Outcome State Fault Refusal :=
  s.runDev (fun d => d.askTasks (.dispatch n))

/-- TASK_WATCHDOG_EXPIRY (R452): A task running WDOG_US is aborted and its outputs discarded. -/
def execTaskWatchdogExpiry (e : Fin 64) (t : Fin 8) (s : State) : Host.Outcome State Fault Refusal :=
  s.runDev (fun d => d.askTasks (.expiry e t))

/-- TSK_FLUSH (R453): TSK_CMD FLUSH cancels every task of a queue. -/
def execTskFlush (m : Master) (n : Fin 4) (queue : Byte) (s : State) : Host.Outcome State Fault Refusal :=
  s.run (fun s => s.command m (R.TSK_CMD n) .none (fun s => s.onDev (fun d => d.askTasks (.flush n queue.toNat))))

/-- OPR (R454): Instruction OPR computes d from a and b by the operation FN selects. -/
def execOpr (c : Core) (t : Fin 8) (s : State) : Host.Outcome State Fault Refusal :=
  s.runDev (fun d => d.opr (coreNo c) t)

/-- ADDK (R454): Instruction ADDK adds a sign-extended immediate. -/
def execAddk (c : Core) (t : Fin 8) (s : State) : Host.Outcome State Fault Refusal :=
  s.runDev (fun d => d.addk (coreNo c) t)

/-- ANDK (R454): Instruction ANDK ands a zero-extended immediate. -/
def execAndk (c : Core) (t : Fin 8) (s : State) : Host.Outcome State Fault Refusal :=
  s.runDev (fun d => d.andk (coreNo c) t)

/-- ORK (R454): Instruction ORK ors a zero-extended immediate. -/
def execOrk (c : Core) (t : Fin 8) (s : State) : Host.Outcome State Fault Refusal :=
  s.runDev (fun d => d.ork (coreNo c) t)

/-- XORK (R454): Instruction XORK exclusive-ors a zero-extended immediate. -/
def execXork (c : Core) (t : Fin 8) (s : State) : Host.Outcome State Fault Refusal :=
  s.runDev (fun d => d.xork (coreNo c) t)

/-- INSH (R454): Instruction INSH inserts the immediate as the high half. -/
def execInsh (c : Core) (t : Fin 8) (s : State) : Host.Outcome State Fault Refusal :=
  s.runDev (fun d => d.insh (coreNo c) t)

/-- SHLK (R454): Instruction SHLK shifts left by an immediate. -/
def execShlk (c : Core) (t : Fin 8) (s : State) : Host.Outcome State Fault Refusal :=
  s.runDev (fun d => d.shlk (coreNo c) t)

/-- SHRK (R454): Instruction SHRK shifts right logically by an immediate. -/
def execShrk (c : Core) (t : Fin 8) (s : State) : Host.Outcome State Fault Refusal :=
  s.runDev (fun d => d.shrk (coreNo c) t)

/-- SARK (R454): Instruction SARK shifts right arithmetically by an immediate. -/
def execSark (c : Core) (t : Fin 8) (s : State) : Host.Outcome State Fault Refusal :=
  s.runDev (fun d => d.sark (coreNo c) t)

/-- LTK (R454): Instruction LTK compares signed against an immediate. -/
def execLtk (c : Core) (t : Fin 8) (s : State) : Host.Outcome State Fault Refusal :=
  s.runDev (fun d => d.ltk (coreNo c) t)

/-- SETK (R454): Instruction SETK loads a sign-extended immediate. -/
def execSetk (c : Core) (t : Fin 8) (s : State) : Host.Outcome State Fault Refusal :=
  s.runDev (fun d => d.setk (coreNo c) t)

/-- RDW (R460): Instruction RDW loads a data word, obtaining the line if needed. -/
def execRdw (c : Core) (t : Fin 8) (s : State) : Host.Outcome State Fault Refusal :=
  s.runDev (fun d => d.rdw (coreNo c) t)

/-- RDB (R460): Instruction RDB loads a data byte. -/
def execRdb (c : Core) (t : Fin 8) (s : State) : Host.Outcome State Fault Refusal :=
  s.runDev (fun d => d.rdb (coreNo c) t)

/-- WRW (R463): Instruction WRW stores a data word to an owned line. -/
def execWrw (c : Core) (t : Fin 8) (s : State) : Host.Outcome State Fault Refusal :=
  s.runDev (fun d => d.wrw (coreNo c) t)

/-- WRB (R463): Instruction WRB stores a data byte to an owned line. -/
def execWrb (c : Core) (t : Fin 8) (s : State) : Host.Outcome State Fault Refusal :=
  s.runDev (fun d => d.wrb (coreNo c) t)

/-- RDS (R454): Instruction RDS reads a scratch word. -/
def execRds (c : Core) (t : Fin 8) (s : State) : Host.Outcome State Fault Refusal :=
  s.runDev (fun d => d.rds (coreNo c) t)

/-- WRS (R454): Instruction WRS writes a scratch word. -/
def execWrs (c : Core) (t : Fin 8) (s : State) : Host.Outcome State Fault Refusal :=
  s.runDev (fun d => d.wrs (coreNo c) t)

/-- RDX (R458): Instruction RDX reads a register through a register window. -/
def execRdx (c : Core) (t : Fin 8) (s : State) : Host.Outcome State Fault Refusal :=
  s.run (fun s => s.rdx (coreNo c) t)

/-- WRX (R458): Instruction WRX writes a register through a register window. -/
def execWrx (c : Core) (t : Fin 8) (s : State) : Host.Outcome State Fault Refusal :=
  s.run (fun s => s.wrx (coreNo c) t)

/-- RDT (R454): Instruction RDT reads a task record word. -/
def execRdt (c : Core) (t : Fin 8) (s : State) : Host.Outcome State Fault Refusal :=
  s.runDev (fun d => d.rdt (coreNo c) t)

/-- RDF (R454): Instruction RDF reads four frame bytes. -/
def execRdf (c : Core) (t : Fin 8) (s : State) : Host.Outcome State Fault Refusal :=
  s.runDev (fun d => d.rdf (coreNo c) t)

/-- ATOM (R454): Instruction ATOM performs an atomic operation on an owned data word. -/
def execAtom (c : Core) (t : Fin 8) (s : State) : Host.Outcome State Fault Refusal :=
  s.runDev (fun d => d.atom (coreNo c) t)

/-- BARR (R463): Instruction BARR holds later data accesses until earlier stores are performed. -/
def execBarr (c : Core) (t : Fin 8) (s : State) : Host.Outcome State Fault Refusal :=
  s.runDev (fun d => d.barr (coreNo c) t)

/-- IFEQ (R454): Instruction IFEQ branches when a equals b. -/
def execIfeq (c : Core) (t : Fin 8) (s : State) : Host.Outcome State Fault Refusal :=
  s.runDev (fun d => d.ifeq (coreNo c) t)

/-- IFNE (R454): Instruction IFNE branches when a differs from b. -/
def execIfne (c : Core) (t : Fin 8) (s : State) : Host.Outcome State Fault Refusal :=
  s.runDev (fun d => d.ifne (coreNo c) t)

/-- IFLT (R454): Instruction IFLT branches when a is less than b, signed. -/
def execIflt (c : Core) (t : Fin 8) (s : State) : Host.Outcome State Fault Refusal :=
  s.runDev (fun d => d.iflt (coreNo c) t)

/-- IFGE (R454): Instruction IFGE branches when a is at least b, signed. -/
def execIfge (c : Core) (t : Fin 8) (s : State) : Host.Outcome State Fault Refusal :=
  s.runDev (fun d => d.ifge (coreNo c) t)

/-- IFLO (R454): Instruction IFLO branches when a is below b, unsigned. -/
def execIflo (c : Core) (t : Fin 8) (s : State) : Host.Outcome State Fault Refusal :=
  s.runDev (fun d => d.iflo (coreNo c) t)

/-- IFHS (R454): Instruction IFHS branches when a is at or above b, unsigned. -/
def execIfhs (c : Core) (t : Fin 8) (s : State) : Host.Outcome State Fault Refusal :=
  s.runDev (fun d => d.ifhs (coreNo c) t)

/-- CALL (R455): Instruction CALL pushes the return address and jumps. -/
def execCall (c : Core) (t : Fin 8) (s : State) : Host.Outcome State Fault Refusal :=
  s.runDev (fun d => d.call (coreNo c) t)

/-- RET (R455): Instruction RET pops the return address into PC. -/
def execRet (c : Core) (t : Fin 8) (s : State) : Host.Outcome State Fault Refusal :=
  s.runDev (fun d => d.ret (coreNo c) t)

/-- GO (R454): Instruction GO jumps to the address in a. -/
def execGo (c : Core) (t : Fin 8) (s : State) : Host.Outcome State Fault Refusal :=
  s.runDev (fun d => d.go (coreNo c) t)

/-- SEND (R456): Instruction SEND stages a frame to be sent at release. -/
def execSend (c : Core) (t : Fin 8) (s : State) : Host.Outcome State Fault Refusal :=
  s.runDev (fun d => d.sendInstr (coreNo c) t)

/-- FWD (R454): Instruction FWD stages the task frame for a named destination and queue. -/
def execFwd (c : Core) (t : Fin 8) (s : State) : Host.Outcome State Fault Refusal :=
  s.runDev (fun d => d.fwd (coreNo c) t)

/-- DROP (R454): Instruction DROP stages the release of the task frame's owner. -/
def execDrop (c : Core) (t : Fin 8) (s : State) : Host.Outcome State Fault Refusal :=
  s.runDev (fun d => d.dropInstr (coreNo c) t)

/-- DONE (R450): Instruction DONE completes the task and releases its outputs, in ticket order when ORDER is 1. -/
def execDone (c : Core) (t : Fin 8) (s : State) : Host.Outcome State Fault Refusal :=
  s.runDev (fun d => d.doneInstr (coreNo c) t)

/-- LFPUT (R468): Instruction LFPUT updates a Loft slot and may append a mirror record. -/
def execLfput (c : Core) (t : Fin 8) (s : State) : Host.Outcome State Fault Refusal :=
  s.runDev (fun d => d.lfput (coreNo c) t)

/-- LFGET (R470): Instruction LFGET reads a Loft slot into the data space. -/
def execLfget (c : Core) (t : Fin 8) (s : State) : Host.Outcome State Fault Refusal :=
  s.runDev (fun d => d.lfget (coreNo c) t)

/-- CRC (R454): Instruction CRC computes CRC-32C over data bytes. -/
def execCrc (c : Core) (t : Fin 8) (s : State) : Host.Outcome State Fault Refusal :=
  s.runDev (fun d => d.crcInstr (coreNo c) t)

/-- DIR_GETS (R461): The directory serves a GETS for a read copy, recalling an owner if needed. -/
def execDirGets (k : Fin 8) (line : Fin 2048) (s : State) : Host.Outcome State Fault Refusal :=
  s.runDev (fun d => d.dirServe k line false)

/-- DIR_GETX (R462): The directory grants ownership, invalidating sharers and recalling the owner. -/
def execDirGetx (k : Fin 8) (line : Fin 2048) (s : State) : Host.Outcome State Fault Refusal :=
  s.runDev (fun d => d.dirServe k line true)

/-- DIR_PUTX (R461): An owned line is written back to the block data cache. -/
def execDirPutx (e : Fin 64) (line : Fin 2048) (s : State) : Host.Outcome State Fault Refusal :=
  s.runDev (fun d => d.dirPutx e line)

/-- SUP_WATCHDOG_EXPIRY (R476): SUP_WDOG.MS passes without a kick and the event is chip-fatal. -/
def execSupWatchdogExpiry (s : State) : Host.Outcome State Fault Refusal :=
  s.runDev (fun d => d.supWatchdogExpiry)

/-- SUP_WDOG_KICK (R476): SUP_WDOG.KICK restarts the supervisor watchdog. -/
def execSupWdogKick (m : Master) (s : State) : Host.Outcome State Fault Refusal :=
  s.run (fun s => s.command m R.SUP_WDOG .none (fun s => s.onDev (fun d => d.supKick)))

/-- LOFT_MIRROR_SEND (R473): A mirror record, or a resync record of the lowest RESYNC slot, is sent to the twin. -/
def execLoftMirrorSend (n : Fin 4) (s : State) : Host.Outcome State Fault Refusal :=
  s.runDev (fun d => d.loftMirrorSend n)

/-- LOFT_RESYNC_ALL (R473): LOFT_CMD.RESYNC_ALL sets RESYNC on every mirrored filled slot. -/
def execLoftResyncAll (m : Master) (n : Fin 4) (s : State) : Host.Outcome State Fault Refusal :=
  s.run (fun s => s.command m (R.LOFT_CMD n) .none (fun s => s.onDev (fun d => d.loftResyncAll n)))

end Sys2Proof.Machine
end

