-- ==== Sys2Proof/Machine/ExecFloor.lean ====
section
/-! DEFINITION. Commands of errors, restarts, the Floor, the pipeline, the loader and re-layout. -/

namespace Sys2Proof.Machine

/-- ESCALATION_TIMEOUT (R10): A handling step that does not complete within its bound escalates the event to the
next higher severity. -/
def execEscalationTimeout (u : ErrUnit) (s : State) : Host.Outcome State Fault Refusal :=
  s.runDev (fun d => d.escalationTimeout u)

/-- CONTAINED_RESTART_START (R50): A contained error isolates its block, voids its Floor tags and starts its
restart. -/
def execContainedRestartStart (n : Fin 4) (k : Fin 10) (cell addr : BitVec 16) (s : State) : Host.Outcome State Fault Refusal :=
  s.runDev (fun d => d.raise (.contained n k cell.toNat addr.toNat))

/-- CONTAINED_RESTART_END (R50): A block ends its contained restart, sets RGN_ERR.CONTAINED and resumes, triggering
replays where required. -/
def execContainedRestartEnd (n : Fin 4) (k : Fin 10) (s : State) : Host.Outcome State Fault Refusal :=
  s.runDev (fun d => d.containedEnd n k)

/-- REGION_RESTART_START (R11): A region-fatal event advances the region generation and starts a warm region
restart. -/
def execRegionRestartStart (n : Fin 4) (cell addr : BitVec 16) (s : State) : Host.Outcome State Fault Refusal :=
  s.runDev (fun d => d.raise (.regionFatal n cell.toNat addr.toNat))

/-- REGION_RESTART_END (R47): A region restart ends, the region returns to RUN and its Floor port serves traffic
again. -/
def execRegionRestartEnd (n : Fin 4) (s : State) : Host.Outcome State Fault Refusal :=
  s.runDev (fun d => d.regionEnd n)

/-- CHIP_FATAL_ERROR (R596): A chip-fatal event puts the chip in RECOVERY and starts the fatal dump. -/
def execChipFatalError (cause : Fin 9) (errUnit errAddr : Word) (s : State) : Host.Outcome State Fault Refusal :=
  s.runDev (fun d => d.raise (.chipFatal cause errUnit.toNat errAddr.toNat))

/-- BACKGROUND_SLOT_GRANT (R30): After 63 clocks without a background grant, a pending background request is granted
the next clock. -/
def execBackgroundSlotGrant (n : Fin 4) (bank : Fin 112) (s : State) : Host.Outcome State Fault Refusal :=
  s.runDev (fun d => d.backgroundGrant n bank)

/-- ENQ_ARRIVAL (R342): An ENQ reaches the egress region, is checked, recovered and placed in a queue or its spill
run. -/
def execEnqArrival (src dst : Fin 4) (s : State) : Host.Outcome State Fault Refusal :=
  s.runDev (fun d => d.enqArrival src dst)

/-- READ_ARRIVAL (R43): A READ reaches the owner of a grain or word, which returns DATA on the response channel. -/
def execReadArrival (src dst : Fin 4) (s : State) : Host.Outcome State Fault Refusal :=
  s.runDev (fun d => d.readArrival src dst)

/-- REGR_ARRIVAL (R49): A register read request reaches another region and is answered by a CPL with the data. -/
def execRegrArrival (src dst : Fin 5) (s : State) : Host.Outcome State Fault Refusal :=
  s.run (fun s => s.regrArrival src dst)

/-- REGW_ARRIVAL (R49): A register write request reaches another region, is performed and acknowledged by a CPL. -/
def execRegwArrival (src dst : Fin 5) (s : State) : Host.Outcome State Fault Refusal :=
  s.run (fun s => s.regwArrival src dst)

/-- DATA_ARRIVAL (R41): A DATA response is sunk into the space its requester reserved. -/
def execDataArrival (src : FloorSource) (dst : Fin 4) (s : State) : Host.Outcome State Fault Refusal :=
  s.runDev (fun d => d.dataArrival src.region dst src.bitError)

/-- CPL_ARRIVAL (R426): A CPL reaches the ingress region and retires or updates the journal entry or releases an
owner. -/
def execCplArrival (src dst : Fin 5) (s : State) : Host.Outcome State Fault Refusal :=
  s.runDev (fun d => d.cplArrival src dst)

/-- NACK_ARRIVAL (R48): A NACK frees the request's reserved space and abandons or resends it by class. -/
def execNackArrival (src dst : Fin 5) (s : State) : Host.Outcome State Fault Refusal :=
  s.runDev (fun d => d.nackArrival src dst)

/-- FLOOR_TRANSFER_RETRY (R51): A Floor transfer that fails its check is retried from the sender's replay buffer. -/
def execFloorTransferRetry (src dst : Fin 5) (senderOk receiverOk : Bool) (s : State) : Host.Outcome State Fault Refusal :=
  s.runDev (fun d => d.transferRetry src dst senderOk receiverOk)

/-- PIPELINE_SLOT_GRANT (R58): The pipeline input arbiter grants its slot to one descriptor, which is classified and
resolved. -/
def execPipelineSlotGrant (n : Fin 4) (s : State) : Host.Outcome State Fault Refusal :=
  s.runDev (fun d => d.slotGrant n)

/-- MIRROR_COPY_TIMEOUT (R60): A mirror copy that has waited 4,096 clocks for a slot is discarded and counted. -/
def execMirrorCopyTimeout (n : Fin 4) (s : State) : Host.Outcome State Fault Refusal :=
  s.runDev (fun d => d.mirrorTimeout n)

/-- RGN_RESTART_WARM (R66): A write of RGN_RESTART.WARM starts a planned warm region restart, or a re-layout drain
when armed. -/
def execRgnRestartWarm (m : Master) (n : Fin 4) (s : State) : Host.Outcome State Fault Refusal :=
  s.run (fun s => s.command m (R.RGN_RESTART n) .none (fun s => s.onDev (fun d => d.restartWarm n)))

/-- IMAGE_COPY_CHECKED (R106): The loader has read and verified a copy and accepts or refuses it. -/
def execImageCopyChecked (copy : FlashCopy) (readFailed : Bool) (s : State) : Host.Outcome State Fault Refusal :=
  s.run (fun s => imageCopyChecked s copy readFailed)

/-- FLASH_OPERATION_START (R73): A host flash program or erase starts once any loader read has completed, unless it
targets the running copy. -/
def execFlashOperationStart (s : State) : Host.Outcome State Fault Refusal :=
  s.run (fun s => s.flashStarts)

/-- FLASH_OPERATION_COMPLETE (R663): The flash reports a program or erase complete and BUSY clears. -/
def execFlashOperationComplete (s : State) : Host.Outcome State Fault Refusal :=
  s.run (fun s => s.flashCompletes)

/-- VERIFY_A (R107): LDR_CMD VERIFY_A reads copy A into the STAGED slot for checking. -/
def execVerifyA (m : Master) (s : State) : Host.Outcome State Fault Refusal :=
  s.run (fun s => s.command m R.LDR_CMD .none (fun s => s.onDev (fun d => d.verifyCopy .a)))

/-- VERIFY_B (R107): LDR_CMD VERIFY_B reads copy B into the STAGED slot for checking. -/
def execVerifyB (m : Master) (s : State) : Host.Outcome State Fault Refusal :=
  s.run (fun s => s.command m R.LDR_CMD .none (fun s => s.onDev (fun d => d.verifyCopy .b)))

/-- VERIFY_COMPLETE (R108): A VERIFY ends, setting RESULT, DIFF, CHIP_DIFF and LDR_CAND. -/
def execVerifyComplete (readFailed : Bool) (s : State) : Host.Outcome State Fault Refusal :=
  s.run (fun s => { s with dev := Sys2Proof.Machine.verifyComplete s readFailed })

/-- ADVANCE_SVN (R98): LDR_CMD ADVANCE_SVN blows security-version fuses up to the running image's SVN, or is ignored
and logged. -/
def execAdvanceSvn (m : Master) (s : State) : Host.Outcome State Fault Refusal :=
  s.run (fun s => s.command m R.LDR_CMD .none (fun s => advanceSvn s))

/-- REVOKE_SLOT (R98): LDR_CMD REVOKE_SLOT revokes a key slot, or is ignored and logged. -/
def execRevokeSlot (m : Master) (slot : Fin 4) (s : State) : Host.Outcome State Fault Refusal :=
  s.run (fun s => s.command m R.LDR_CMD .none (fun s => revokeSlot s slot))

/-- RELAYOUT_ARM (R112): A write of LDR_RELAYOUT.ARM arms a re-layout when the candidate is eligible. -/
def execRelayoutArm (m : Master) (n : Fin 4) (drainMs : Byte) (s : State) : Host.Outcome State Fault Refusal :=
  s.run (fun s => s.command m R.LDR_RELAYOUT .none (fun s => s.onDev (fun d => d.relayoutArm n drainMs.toNat)))

/-- RELAYOUT_DRAIN_COMPLETE (R114): The drain completes, the slots exchange roles and the region restarts with the
candidate. -/
def execRelayoutDrainComplete (n : Fin 4) (s : State) : Host.Outcome State Fault Refusal :=
  s.runDev (fun d => d.drainComplete n)

/-- RELAYOUT_DRAIN_TIMEOUT (R115): The drain exceeds DRAIN_MS and the re-layout is abandoned. -/
def execRelayoutDrainTimeout (n : Fin 4) (s : State) : Host.Outcome State Fault Refusal :=
  s.runDev (fun d => d.drainTimeout n)

end Sys2Proof.Machine
end

