-- ==== Sys2Proof/Machine/ExecFrames.lean ====
section
/-! DEFINITION. Commands of the Granary, the Silo, the queues, accepted work and the DRAM channels. -/

namespace Sys2Proof.Machine

/-- DECISION_CHARGE (R304): The decision reaches the Granary, which swaps the landing charge for the class charge or
refuses, in its turn (R307). -/
def execDecisionCharge (n : Fin 4) (s : State) : Host.Outcome State Fault Refusal :=
  s.runDev (fun d => d.askGranary (.decision n))

/-- FRAME_COMMIT (R306): The Granary commits the last grain and the frame is accepted, in its turn
(R307). -/
def execFrameCommit (n : Fin 4) (s : State) : Host.Outcome State Fault Refusal :=
  s.runDev (fun d => d.askGranary (.commit n))

/-- OWNER_RELEASE (R310): A release decrements REF and frees the grains when REF reaches 0. -/
def execOwnerRelease (n : Fin 4) (s : State) : Host.Outcome State Fault Refusal :=
  s.runDev (fun d => d.ownerRelease n)

/-- RING_CACHE_REFILL (R294): A ring cache at 16 entries or fewer is refilled with 32 from its ring. -/
def execRingCacheRefill (n : Fin 4) (s : State) : Host.Outcome State Fault Refusal :=
  s.runDev (fun d => d.refillCache n)

/-- RING_CACHE_WRITEBACK (R294): A ring cache at 48 entries or more writes 32 back to its ring. -/
def execRingCacheWriteback (n : Fin 4) (s : State) : Host.Outcome State Fault Refusal :=
  s.runDev (fun d => d.writebackCache n)

/-- SPILL_COMPLETE (R322): Primary and mirror bale writes complete and the queue owner is released with a spill CPL. -/
def execSpillComplete (n : Fin 4) (s : State) : Host.Outcome State Fault Refusal :=
  s.runDev (fun d => d.spillComplete n)

/-- BALE_RETURN (R323): The run's first frame returns from bales to grains when the on-chip bytes fall below
RETURN_AT, in its turn (R307). -/
def execBaleReturn (n : Fin 4) (s : State) : Host.Outcome State Fault Refusal :=
  s.runDev (fun d => d.askGranary (.ret n))

/-- GRN_HOLD_START (R327): GRN_HOLD_CMD.START begins a topology hold and closes held queues. -/
def execGrnHoldStart (m : Master) (n : Fin 4) (s : State) : Host.Outcome State Fault Refusal :=
  s.run (fun s => s.command m (R.GRN_HOLD_CMD n) .none (fun s => s.onDev (fun d => d.holdStart n)))

/-- GRN_HOLD_END (R328): GRN_HOLD_CMD.END flushes marked queues and opens the other held queues. -/
def execGrnHoldEnd (m : Master) (n : Fin 4) (s : State) : Host.Outcome State Fault Refusal :=
  s.run (fun s => s.command m (R.GRN_HOLD_CMD n) .none (fun s => s.onDev (fun d => d.holdEnd n)))

/-- HOLD_TIMEOUT (R329): A hold lasting MAX_MS is ended without flush and HOLD_TIMEOUT is set. -/
def execHoldTimeout (n : Fin 4) (s : State) : Host.Outcome State Fault Refusal :=
  s.runDev (fun d => d.holdTimeout n)

/-- PORT_NOT_READY (R361): A ready port becomes not ready and its non-guarded queued frames are discarded. -/
def execPortNotReady (p : Fin 134) (s : State) : Host.Outcome State Fault Refusal :=
  s.runPort p (fun d => d.portNotReady p)

/-- SCH_FLUSH (R362): SCH_FLUSH empties the named queues of a port that is not ready. -/
def execSchFlush (m : Master) (n : Fin 4) (port : Fin 33) (queues : Byte) (s : State) : Host.Outcome State Fault Refusal :=
  s.run (fun s => s.spaceCommand m 0x45 n (0x100 * port.val + 0xC) (.rgn 5) (fun d => d.schFlush (flushPort n port) queues.toNat))

/-- GATE_ARM (R364): G_CTRL.ARM arms the pending gate bank and fixes its start, unless it is BADCFG. -/
def execGateArm (m : Master) (p : Fin 128) (s : State) : Host.Outcome State Fault Refusal :=
  s.run (fun s => s.spaceCommand m 0x45 (p.val / 32) (0x100 * (p.val % 32) + 0x18) (.rgn 6) (fun d => d.gateArm p))

/-- RECOVERY_RESET_EXPIRY (R377): No frame accepted for RESET_MS sets take_any on a recovery entry. -/
def execRecoveryResetExpiry (n : Fin 4) (s : State) : Host.Outcome State Fault Refusal :=
  s.runDev (fun d => d.recoveryReset n)

/-- DRAM_READ_REQUEST (R391): A read request is forwarded from the write queue or enters the read queue. -/
def execDramReadRequest (n : Fin 4) (burst : BitVec 26) (chip : Bool) (s : State) : Host.Outcome State Fault Refusal :=
  s.runDev (fun d => d.dramRead n burst.toNat chip)

/-- DRAM_WRITE_REQUEST (R392): A write request enters or merges in the write queue and counts complete. -/
def execDramWriteRequest (n : Fin 4) (burst : BitVec 26) (data : BitVec 512) (s : State) : Host.Outcome State Fault Refusal :=
  s.runDev (fun d => d.dramWrite n burst.toNat data.toNat)

/-- DRAM_COMMAND_ISSUE (R390): The controller issues the next read or write command under its mode and priorities. -/
def execDramCommandIssue (n : Fin 4) (s : State) : Host.Outcome State Fault Refusal :=
  s.runDev (fun d => d.dramIssue n)

/-- DRAM_READ_COMPLETE (R387): Read data returns and is checked, corrected or marked uncorrectable. -/
def execDramReadComplete (n : Fin 4) (err : Fin 4) (s : State) : Host.Outcome State Fault Refusal :=
  s.runDev (fun d => d.dramReadComplete n err)

/-- DRAM_REFRESH_DUE (R396): A refresh interval elapses and a per-bank refresh becomes owed. -/
def execDramRefreshDue (n : Fin 4) (s : State) : Host.Outcome State Fault Refusal :=
  s.runDev (fun d => d.dramRefreshDue n)

/-- DRAM_TEMP_READ (R395): Every 16 ms the die temperatures are read and the refresh multiplier set. -/
def execDramTempRead (n : Fin 4) (die0 die1 : Byte) (mult : BitVec 2) (hot : Bool) (s : State) : Host.Outcome State Fault Refusal :=
  s.runDev (fun d => d.dramTemp n die0.toNat die1.toNat mult.toNat hot)

/-- DRAM_POWER_DOWN_IDLE (R397): PD_IDLE idle time passes and the channel enters power-down. -/
def execDramPowerDownIdle (n : Fin 4) (s : State) : Host.Outcome State Fault Refusal :=
  s.runDev (fun d => d.dramPowerDown n)

/-- DRAM_SELF_REFRESH_IDLE (R397): SR_IDLE_US idle time passes and the channel enters self-refresh. -/
def execDramSelfRefreshIdle (n : Fin 4) (s : State) : Host.Outcome State Fault Refusal :=
  s.runDev (fun d => d.dramSelfRefreshIdle n)

/-- DRAM_TRAINING_COMPLETE (R399): Channel training ends and STATE becomes READY or FAILED. -/
def execDramTrainingComplete (n : Fin 4) (ok : Bool) (s : State) : Host.Outcome State Fault Refusal :=
  s.runDev (fun d => d.trainingComplete n ok)

/-- DRAM_TRACKING_INTERVAL (R402): INTERVAL_MS passes and a tracking pass starts on a channel without a slot. -/
def execDramTrackingInterval (n : Fin 4) (s : State) : Host.Outcome State Fault Refusal :=
  s.runDev (fun d => d.trackingInterval n)

/-- DRAM_TRACKING_PASS_DONE (R400): A tracking pass ends, adjusting delays or retraining. -/
def execDramTrackingPassDone (n : Fin 4) (drift : BitVec 16) (retrainOk calOk : Bool) (s : State) : Host.Outcome State Fault Refusal :=
  s.runDev (fun d => d.passDone n drift.toNat retrainOk calOk)

/-- DRAM_READ_TIMEOUT (R403): A read without data within TIMEOUT_US fails the channel. -/
def execDramReadTimeout (n : Fin 4) (s : State) : Host.Outcome State Fault Refusal :=
  s.runDev (fun d => d.dramReadTimeout n)

/-- DRC_REQUALIFY (R405): DRC_CMD.REQUALIFY runs a full training of a failed channel, or is refused. -/
def execDrcRequalify (m : Master) (n : Fin 4) (s : State) : Host.Outcome State Fault Refusal :=
  s.run (fun s => s.command m (R.DRC_CMD n) .none (fun s => s.onDev (fun d => d.requalify n)))

/-- GAP_SKIP_TIMEOUT (R423): A lane's lowest held ENQ waits GAP_MS and NEXT skips to it. -/
def execGapSkipTimeout (n : Fin 4) (s : State) : Host.Outcome State Fault Refusal :=
  s.runDev (fun d => d.gapLimit n)

/-- RETRY_RESEND (R426): A RESEND entry is sent again after RETRY_US. -/
def execRetryResend (n : Fin 4) (s : State) : Host.Outcome State Fault Refusal :=
  s.runDev (fun d => d.retryResend n)

/-- REPLAY_START (R432): A full or targeted replay walk starts after its cause ends. -/
def execReplayStart (n : Fin 4) (s : State) : Host.Outcome State Fault Refusal :=
  s.runDev (fun d => d.replayStart n)

/-- REPLAY_WALK_END (R432): A replay walk passes its last journal entry, clears ACC_STAT.REPLAY and restarts from
index 0 when a replay of the same scope was requested meanwhile. -/
def execReplayWalkEnd (n : Fin 4) (s : State) : Host.Outcome State Fault Refusal :=
  s.runDev (fun d => d.walkOver n)

/-- DRAM_ZQ_LATCH (R383): Every 32 ms, outside any window, the controller issues the ZQ calibration latch on its
channel. -/
def execDramZqLatch (n : Fin 4) (s : State) : Host.Outcome State Fault Refusal :=
  s.runDev (fun d => d.zqLatch n)

end Sys2Proof.Machine
end

