-- ==== Sys2Proof/Machine/ExecHost.lean ====
section
/-! DEFINITION. Commands of the PCIe host ports and their instances. -/

namespace Sys2Proof.Machine

/-- PCIE_CONFIG_REQUEST (R523): A configuration request is served or answered with retry status before ready. -/
def execPcieConfigRequest (h : Fin 4) (r : PcieConfig) (s : State) : Host.Outcome State Fault Refusal :=
  s.runDev (fun d => d.pcieConfig h r)

/-- PCIE_PERST (R524): PCIE_PERST_N assertion resets the port, its link and every instance. -/
def execPciePerst (h : Fin 4) (s : State) : Host.Outcome State Fault Refusal :=
  s.runDev (fun d => d.pciePerst h)

/-- PCIE_HOT_RESET (R524): A hot reset received on the link resets every instance of the port. -/
def execPcieHotReset (h : Fin 4) (s : State) : Host.Outcome State Fault Refusal :=
  s.runDev (fun d => d.portReset h)

/-- PCIE_LINK_DOWN (R524): The link leaving DL_Active resets every instance unless shedding disabled it. -/
def execPcieLinkDown (h : Fin 4) (s : State) : Host.Outcome State Fault Refusal :=
  s.runDev (fun d => d.pcieLinkDown h)

/-- PF_FLR (R524): A physical function level reset resets every instance and clears VF Enable. -/
def execPfFlr (h : Fin 4) (s : State) : Host.Outcome State Fault Refusal :=
  s.runDev (fun d => d.pfFlr h)

/-- VF_FLR (R524): A virtual function level reset resets that instance alone. -/
def execVfFlr (h : Fin 4) (i : Fin 64) (s : State) : Host.Outcome State Fault Refusal :=
  s.runDev (fun d => d.vfFlr h i)

/-- INST_RESET (R531): INST_CTL.RESET starts an instance reset, advancing its generation. -/
def execInstReset (h : Fin 4) (i : Fin 64) (s : State) : Host.Outcome State Fault Refusal :=
  s.runDev (fun d => d.instWrite h i (R.INST_CTL h i - instPage h i) 15 1#32)

/-- INST_RESET_COMPLETE (R532): No DMA write remains in flight; the instance becomes ACTIVE and sets RESET_DONE. -/
def execInstResetComplete (h : Fin 4) (i : Fin 64) (s : State) : Host.Outcome State Fault Refusal :=
  s.runDev (fun d => d.instResetDone h i)

/-- DMA_ERROR (R535): A DMA request ends in error and the instance enters ERROR. -/
def execDmaError (h : Fin 4) (i : Fin 64) (q : Fin 8) (kind : Fin 3) (gen : Byte) (cause : Fin 3) (s : State) : Host.Outcome State Fault Refusal :=
  s.runDev (fun d => d.dmaError h i q kind gen.toNat cause)

/-- DMA_COMPLETION_TIMEOUT (R535): No completion within 10 ms puts the instance in ERROR. -/
def execDmaCompletionTimeout (h : Fin 4) (i : Fin 64) (q : Fin 8) (kind : Fin 3) (s : State) : Host.Outcome State Fault Refusal :=
  s.runDev (fun d => d.dmaTimeout h i q kind)

/-- TXQ_TAIL_WRITE (R536): A transmit doorbell write moves TAIL and starts descriptor fetching. -/
def execTxqTailWrite (h : Fin 4) (i : Fin 64) (q : Fin 8) (v : Word) (s : State) : Host.Outcome State Fault Refusal :=
  s.runDev (fun d => d.instWrite h i (R.TXQ_TAIL h i q - instPage h i) 15 v)

/-- RXQ_TAIL_WRITE (R536): A receive doorbell write posts receive descriptors. -/
def execRxqTailWrite (h : Fin 4) (i : Fin 64) (q : Fin 8) (v : Word) (s : State) : Host.Outcome State Fault Refusal :=
  s.runDev (fun d => d.instWrite h i (R.RXQ_TAIL h i q - instPage h i) 15 v)

/-- TX_DESCRIPTOR_FETCH (R537): A transmit descriptor arrives and is validated or ends BAD_DESC. -/
def execTxDescriptorFetch (h : Fin 4) (i : Fin 64) (q : Fin 8) (gen : Byte) (words : List Word) (s : State) : Host.Outcome State Fault Refusal :=
  s.runDev (fun d => d.txDescriptor h i q gen.toNat words)

/-- TX_FRAME_READ_COMPLETE (R538): A transmit frame has been read from host memory and enters the pipeline. -/
def execTxFrameReadComplete (h : Fin 4) (i : Fin 64) (gen : Byte) (bytes : List Byte) (s : State) : Host.Outcome State Fault Refusal :=
  s.runDev (fun d => d.txFrameRead h i gen.toNat bytes)

/-- TX_WRITEBACK (R539): A transmit write-back is written in ring order and HEAD advances. -/
def execTxWriteback (h : Fin 4) (i : Fin 64) (q : Fin 8) (s : State) : Host.Outcome State Fault Refusal :=
  s.runDev (fun d => d.txWriteback h i q)

/-- TS_WAIT_EXPIRY (R539): TS_WAIT_US passes without a timestamp and the write-back is TS_MISSED. -/
def execTsWaitExpiry (h : Fin 4) (i : Fin 64) (q : Fin 8) (slot : Fin 4096) (s : State) : Host.Outcome State Fault Refusal :=
  s.runDev (fun d => d.tsWaitExpiry h i q slot)

/-- RX_HANDOVER (R542): A frame is written into receive buffers and handed over with its EOP write-back. -/
def execRxHandover (h : Fin 4) (i : Fin 64) (q : Fin 8) (descs : List (List Word)) (s : State) : Host.Outcome State Fault Refusal :=
  s.runDev (fun d => d.rxHandover h i q descs)

/-- RX_WAIT_EXPIRY (R545): A non-guarded frame waiting RX_WAIT_US for descriptors is removed and counted. -/
def execRxWaitExpiry (h : Fin 4) (i : Fin 64) (q : Fin 8) (s : State) : Host.Outcome State Fault Refusal :=
  s.runDev (fun d => d.rxWaitExpiry h i q)

/-- INST_MSG_SEND (R547): INST_MSG_CMD.SEND posts a HOSTMSG task or is refused. -/
def execInstMsgSend (h : Fin 4) (i : Fin 64) (s : State) : Host.Outcome State Fault Refusal :=
  s.runDev (fun d => d.instWrite h i (R.INST_MSG_CMD h i - instPage h i) 15 1#32)

/-- MSIX_MODERATION_EXPIRY (R548): USEC passes since the first unreported write-back and the vector sends a message. -/
def execMsixModerationExpiry (h : Fin 4) (i : Fin 64) (q : Fin 8) (s : State) : Host.Outcome State Fault Refusal :=
  s.runDev (fun d => d.moderationExpiry h i q)

/-- PCIE_LINK_UP (R543): A PCIe host port's link reaches DL_Active, sets HST_EVT.LINK_UP, makes the port ready and
sends a pending chip MSI-X message. -/
def execPcieLinkUp (h : Fin 4) (speed width : BitVec 3) (s : State) : Host.Outcome State Fault Refusal :=
  s.runDev (fun d => d.pcieLinkUp h speed.toNat width.toNat)

/-- MSIX_UNMASK (R548): Host software unmasks an MSI-X vector whose pending bit is set, and the vector sends its
message. -/
def execMsixUnmask (h : Fin 4) (fn : Fin 64) (entry : Fin 1024) (s : State) : Host.Outcome State Fault Refusal :=
  s.runDev (fun d => d.msixUnmask h fn entry)

end Sys2Proof.Machine
end

