-- ==== Sys2Proof/Machine/ExecPorts.lean ====
section
/-! DEFINITION. Commands of the ports and of PHY and module management. -/

namespace Sys2Proof.Machine

/-- REFCLK_LOST (R123): A port block loses its reference; its ports pass through DOWN or to CAL. -/
def execRefclkLost (b : Fin 18) (s : State) : Host.Outcome State Fault Refusal :=
  s.runDev (fun d => d.refLost b)

/-- REFCLK_RETURN (R123): The reference returns and each port runs bring-up from CAL with fast adaptation. -/
def execRefclkReturn (b : Fin 18) (s : State) : Host.Outcome State Fault Refusal :=
  s.runDev (fun d => d.refReturn b)

/-- CALIBRATION_COMPLETE (R562): Calibration or fast adaptation of every lane of a port completes and the port
enters WAIT_SIGNAL. -/
def execCalibrationComplete (p : PortId) (s : State) : Host.Outcome State Fault Refusal :=
  s.runPort p (fun d => d.calibrated p)

/-- SIGNAL_DETECTED (R134): Signal is detected on every lane of a port and it enters LOCK. -/
def execSignalDetected (p : PortId) (s : State) : Host.Outcome State Fault Refusal :=
  s.runPort p (fun d => d.signalDetected p)

/-- LOCK_ACHIEVED (R134): Lock and receiver adaptation complete on every lane and the port enters ALIGN. -/
def execLockAchieved (p : PortId) (ctle dfe : Byte) (s : State) : Host.Outcome State Fault Refusal :=
  s.runPort p (fun d => d.lockAchieved p ctle.toNat dfe.toNat)

/-- LOCK_LOST (R133): Loss of signal or lock before UP returns the port to WAIT_SIGNAL. -/
def execLockLost (p : PortId) (lane : Fin 4) (signalLost : Bool) (s : State) : Host.Outcome State Fault Refusal :=
  s.runPort p (fun d => d.lockLost p lane signalLost)

/-- ALIGN_COMPLETE (R129): Alignment, FEC lock and auto-negotiation complete and the port enters HOLD_UP; on a QSGMII or USXGMII
subport beyond ALIGN, a later in-band code word (R130). -/
def execAlignComplete (p : PortId) (speed : BitVec 4) (fullDuplex : Bool) (s : State) : Host.Outcome State Fault Refusal :=
  s.runPort p (fun d => d.alignEvent p speed.toNat fullDuplex)

/-- HOLD_UP_EXPIRY (R131): UP_MS passes without fault; the port enters UP and sets PB_EVT.LINK_UP. -/
def execHoldUpExpiry (p : PortId) (s : State) : Host.Outcome State Fault Refusal :=
  s.runPort p (fun d => d.holdUpExpire p)

/-- LINK_FAULT (R133): A fault while UP moves the port to HOLD_DOWN, and it stops serving its queues. -/
def execLinkFault (p : PortId) (lane : Fin 4) (cause : FaultCause) (s : State) : Host.Outcome State Fault Refusal :=
  s.runPort p (fun d => d.linkFault p lane cause)

/-- FAULT_END (R132): A fault ends during HOLD_DOWN and the port returns to UP, counting HOLD_DOWN_RECOVERED. -/
def execFaultEnd (p : PortId) (s : State) : Host.Outcome State Fault Refusal :=
  s.runPort p (fun d => d.faultEnd p)

/-- HOLD_DOWN_EXPIRY (R131): DOWN_MS expires; the port passes through DOWN, counting LINK_DOWN and clearing READY. -/
def execHoldDownExpiry (p : PortId) (s : State) : Host.Outcome State Fault Refusal :=
  s.runPort p (fun d => d.holdDownExpire p)

/-- REMOTE_FAULT_RECEIVED (R136): Remote fault received sets MAC_STAT.REMOTE_FAULT and stops transmission starts. -/
def execRemoteFaultReceived (p : PortId) (s : State) : Host.Outcome State Fault Refusal :=
  s.runPort p (fun d => d.remoteFault p)

/-- FRAME_BEGIN (R135): A frame begins at a port and is judged for readiness, timestamped and charged on landing. -/
def execFrameBegin (p : PortId) (s : State) : Host.Outcome State Fault Refusal :=
  s.runPort p (fun d => d.frameBegin p)

/-- LANDING_CHARGE_RETRY (R303): A landing charge that could not be placed is retried in a later clock. -/
def execLandingChargeRetry (src : FrameSource) (s : State) : Host.Outcome State Fault Refusal :=
  s.runSource src (fun o d => d.landingRetry o)

/-- HEAD_WINDOW_OFFER (R216): A frame offers its 64-byte head window to the pipeline input arbiter. -/
def execHeadWindowOffer (src : FrameSource) (head : List Byte) (s : State) : Host.Outcome State Fault Refusal :=
  s.runSource src (fun o d => d.headWindowOffer o head)

/-- FRAME_END (R137): The last byte of a received frame arrives and the MAC gives it exactly one receive outcome. -/
def execFrameEnd (p : PortId) (bytes : List Byte) (codes : LineCodes) (s : State) : Host.Outcome State Fault Refusal :=
  s.runPort p (fun d => d.frameEnd p bytes codes.error codes.corrected.toNat codes.uncorrected.toNat)

/-- TRANSMIT_SELECT (R357): When the MAC can start a frame, the scheduler selects the first eligible queue and
starts its head frame. -/
def execTransmitSelect (p : PortId) (s : State) : Host.Outcome State Fault Refusal :=
  s.runPort p (fun d => d.transmitSelect p)

/-- TRANSMIT_COMPLETE (R143): The last FCS byte is sent, the frame completes and its owner is released. -/
def execTransmitComplete (p : PortId) (s : State) : Host.Outcome State Fault Refusal :=
  s.runPort p (fun d => d.transmitComplete p)

/-- TRANSMIT_CUT (R146): A fault ends a transmission early; guarded frames stay at head, others are discarded. -/
def execTransmitCut (p : PortId) (s : State) : Host.Outcome State Fault Refusal :=
  s.runPort p (fun d => d.transmitCut p)

/-- MDIO_C22_WRITE (R154): MDIO_CMD starts a Clause 22 write frame. -/
def execMdioC22Write (m : Master) (b : Fin 16) (phy reg : BitVec 5) (data : BitVec 16) (s : State) : Host.Outcome State Fault Refusal :=
  s.run (fun s => s.command m (R.MDIO_CMD b) .none (fun s => s.onDev (fun d => d.mdioStart b 1 1 phy.toNat reg.toNat data.toNat false)))

/-- MDIO_C22_READ (R154): MDIO_CMD starts a Clause 22 read frame. -/
def execMdioC22Read (m : Master) (b : Fin 16) (phy reg : BitVec 5) (s : State) : Host.Outcome State Fault Refusal :=
  s.run (fun s => s.command m (R.MDIO_CMD b) .none (fun s => s.onDev (fun d => d.mdioStart b 1 2 phy.toNat reg.toNat 0 true)))

/-- MDIO_C45_ADDRESS (R154): MDIO_CMD starts a Clause 45 address frame. -/
def execMdioC45Address (m : Master) (b : Fin 16) (prt dev : BitVec 5) (data : BitVec 16) (s : State) : Host.Outcome State Fault Refusal :=
  s.run (fun s => s.command m (R.MDIO_CMD b) .none (fun s => s.onDev (fun d => d.mdioStart b 0 0 prt.toNat dev.toNat data.toNat false)))

/-- MDIO_C45_WRITE (R154): MDIO_CMD starts a Clause 45 write frame. -/
def execMdioC45Write (m : Master) (b : Fin 16) (prt dev : BitVec 5) (data : BitVec 16) (s : State) : Host.Outcome State Fault Refusal :=
  s.run (fun s => s.command m (R.MDIO_CMD b) .none (fun s => s.onDev (fun d => d.mdioStart b 0 1 prt.toNat dev.toNat data.toNat false)))

/-- MDIO_C45_READ (R154): MDIO_CMD starts a Clause 45 read frame. -/
def execMdioC45Read (m : Master) (b : Fin 16) (prt dev : BitVec 5) (s : State) : Host.Outcome State Fault Refusal :=
  s.run (fun s => s.command m (R.MDIO_CMD b) .none (fun s => s.onDev (fun d => d.mdioStart b 0 3 prt.toNat dev.toNat 0 true)))

/-- MDIO_C45_POST_READ_INC (R154): MDIO_CMD starts a Clause 45 post-read-increment-address frame. -/
def execMdioC45PostReadInc (m : Master) (b : Fin 16) (prt dev : BitVec 5) (s : State) : Host.Outcome State Fault Refusal :=
  s.run (fun s => s.command m (R.MDIO_CMD b) .none (fun s => s.onDev (fun d => d.mdioStart b 0 2 prt.toNat dev.toNat 0 true)))

/-- MDIO_FRAME_END (R155): An MDIO frame ends, setting DONE and RDATA or NO_RESP. -/
def execMdioFrameEnd (b : Fin 16) (turnaround : Bool) (data : BitVec 16) (s : State) : Host.Outcome State Fault Refusal :=
  s.runDev (fun d => d.mdioEnd b turnaround data.toNat)

/-- I2C_TRANSACTION (R157): I2C_CMD with CLEAR 0 starts a write, read or probe transaction. -/
def execI2cTransaction (m : Master) (b : Fin 16) (addr : BitVec 7) (wlen rlen : BitVec 5) (sdaHigh : Option (Fin 10)) (s : State) : Host.Outcome State Fault Refusal :=
  s.run (fun s => s.command m (R.I2C_CMD b) .none (fun s => s.onDev (fun d => d.i2cStart b addr.toNat wlen.toNat rlen.toNat sdaHigh)))

/-- I2C_BUS_CLEAR_CMD (R159): I2C_CMD with CLEAR 1 runs a bus clear alone. -/
def execI2cBusClearCmd (m : Master) (b : Fin 16) (sdaHigh : Option (Fin 10)) (s : State) : Host.Outcome State Fault Refusal :=
  s.run (fun s => s.command m (R.I2C_CMD b) .none (fun s => s.onDev (fun d => d.i2cClearCmd b sdaHigh)))

/-- I2C_COMMAND_END (R158): An I2C command ends with DONE, COUNT and any NACK flags. -/
def execI2cCommandEnd (b : Fin 16) (ackAddr : Bool) (count : Fin 33) (nackData : Bool) (read : List Byte) (s : State) : Host.Outcome State Fault Refusal :=
  s.runDev (fun d => d.i2cCommandEnd b ackAddr count nackData read)

/-- I2C_STRETCH_TIMEOUT (R160): SCL held low over 25 ms ends the command and runs a bus clear. -/
def execI2cStretchTimeout (e : I2cStop) (sdaHigh : Option (Fin 10)) (s : State) : Host.Outcome State Fault Refusal :=
  s.runDev (fun d => d.i2cStretch e.controller e.count sdaHigh)

/-- I2C_ARBITRATION_LOST (R161): SDA sampled low when released sets LOST and ends the command without STOP. -/
def execI2cArbitrationLost (e : I2cStop) (s : State) : Host.Outcome State Fault Refusal :=
  s.runDev (fun d => d.i2cLost e.controller e.count)

/-- REMOTE_FAULT_END (R136): The link partner stops sending remote fault, MAC_STAT.REMOTE_FAULT clears and the port
may start transmissions again. -/
def execRemoteFaultEnd (p : PortId) (s : State) : Host.Outcome State Fault Refusal :=
  s.runPort p (fun d => d.remoteFaultEnd p)

/-- SERDES_READAPTATION_PASS (R207): A SerDes background re-adaptation pass for a region completes, counting as the
unit of work that closes a kind 3 fallback window. -/
def execSerdesReadaptationPass (n : Fin 4) (s : State) : Host.Outcome State Fault Refusal :=
  s.runDev (fun d => d.readaptationPass n)

/-- PRBS_CHECKER_LOCK (R165): A lane's PRBS checker locks to, or loses, its pattern in the received stream, setting
LN_STAT.PRBS_LOCK and starting or stopping the counting of bit errors. -/
def execPrbsCheckerLock (l : Fin 68) (lock : Bool) (errors : BitVec 16) (s : State) : Host.Outcome State Fault Refusal :=
  s.runDev (fun d => d.prbsLock l lock errors.toNat)

end Sys2Proof.Machine
end

