-- ==== Sys2Proof/Machine/ExecRegisters.lean ====
section
/-! DEFINITION. Commands of the register interface: writes and reads of registers, the indirect pair, fuses, log,
snapshots, interrupts, mailboxes and the maintenance UART. -/

namespace Sys2Proof.Machine

/-- REGISTER_WRITE (R640): A write to a register that has no row of its own sets its fields under their access
codes. -/
def execRegisterWrite (m : Master) (t : RegTarget) (be : BitVec 4) (v : Word) (s : State) : Host.Outcome State Fault Refusal :=
  s.run (fun s => s.registerWrite m t be.toNat v)

/-- RC_FIELD_READ (R24): A read of an RC peak by a privileged master returns the peak and restarts it from its
source. The row carries every read of a register that has no row of its own, and of an instance page (R550). -/
def execRcFieldRead (m : Master) (t : RegTarget) (s : State) : Host.Outcome State Fault Refusal :=
  s.run (fun s => s.targetRead m t)

/-- TB_NS_READ (R171): A read of TB_NS returns NS and latches FRAC for the reading master. -/
def execTbNsRead (m : Master) (t : Fin 4) (s : State) : Host.Outcome State Fault Refusal :=
  s.run (fun s => s.hostRead m (R.TB_NS t))

/-- CHAINED_COUNTER_READ (R610): A read of the lower cell of a chained pair latches the upper cell for the reading
master. -/
def execChainedCounterRead (m : Master) (t : RegTarget) (s : State) : Host.Outcome State Fault Refusal :=
  s.run (fun s => s.targetRead m t)

/-- LOFT_US_LO_READ (R483): A read of LOFT_US_LO latches LOFT_US[63:32] for the reading master. -/
def execLoftUsLoRead (m : Master) (n : Fin 4) (s : State) : Host.Outcome State Fault Refusal :=
  s.run (fun s => s.hostRead m (R.LOFT_US_LO n))

/-- SUP_MBOX_IN_WRITE (R483): A write of SUP_MBOX_IN sets MBOX_FULL and interrupts the supervisor. -/
def execSupMboxInWrite (m : Master) (v : Word) (s : State) : Host.Outcome State Fault Refusal :=
  s.run (fun s => s.writeAccess m R.SUP_MBOX_IN 15 v)

/-- LOG_POP (R620): LOG_POP removes the oldest chip event log entry. -/
def execLogPop (m : Master) (s : State) : Host.Outcome State Fault Refusal :=
  s.run (fun s => s.command m R.LOG_POP .none (fun s => s.onDev (fun d => d.logPop)))

/-- INT_EOI (R605): INT_CTL.EOI resends the MSI-X message while the summary is 1. -/
def execIntEoi (m : Master) (s : State) : Host.Outcome State Fault Refusal :=
  s.run (fun s => s.command m R.INT_CTL .none (fun s => s.onDev (fun d => d.intEoi)))

/-- SNAP_TAKE (R612): SNAP_CMD.TAKE captures the axes and listed counters into a snapshot buffer. -/
def execSnapTake (m : Master) (s : State) : Host.Outcome State Fault Refusal :=
  s.run (fun s => s.command m R.SNAP_CMD .none (fun s => s.onDev (fun d => d.snapshot)))

/-- SNAP_HOLD (R613): SNAP_CMD.HOLD holds the latest snapshot buffer. -/
def execSnapHold (m : Master) (s : State) : Host.Outcome State Fault Refusal :=
  s.run (fun s => s.command m R.SNAP_CMD .none (fun s => s.onDev (fun d => d.snapHold)))

/-- SNAP_RELEASE (R613): SNAP_CMD.RELEASE ends the snapshot hold. -/
def execSnapRelease (m : Master) (s : State) : Host.Outcome State Fault Refusal :=
  s.run (fun s => s.command m R.SNAP_CMD .none (fun s => s.onDev (fun d => d.snapRelease)))

/-- UART_FRAME_RX (R630): A UART frame is received from its start edge and accepted, framed in error or a break. -/
def execUartFrameRx (start : Bool) (bits : Byte) (stop : Bool) (s : State) : Host.Outcome State Fault Refusal :=
  s.runDev (fun d => d.uartFrame start bits stop)

/-- UART_RX_POP (R633): UART_RX_POP removes the oldest received byte. -/
def execUartRxPop (m : Master) (s : State) : Host.Outcome State Fault Refusal :=
  s.run (fun s => s.command m R.UART_RX_POP .none (fun s => s.onDev (fun d => d.uartPop)))

/-- UART_TX_WRITE (R633): A UART_TX write appends a byte to the transmit FIFO or is ignored when full. -/
def execUartTxWrite (m : Master) (byte : Byte) (s : State) : Host.Outcome State Fault Refusal :=
  s.run (fun s => s.command m R.UART_TX .none (fun s => s.onDev (fun d => d.uartWrite byte)))

/-- IND_CTL_WRITE (R655): An IND_CTL write selects space, region and stride and clears the buffer. -/
def execIndCtlWrite (m : Master) (v : Word) (s : State) : Host.Outcome State Fault Refusal :=
  s.run (fun s => s.writeAccess m R.IND_CTL 15 v)

/-- IND_ADDR_WRITE (R656): An IND_ADDR write sets the address and starts a prefetch. -/
def execIndAddrWrite (m : Master) (v : Word) (s : State) : Host.Outcome State Fault Refusal :=
  s.run (fun s => s.writeAccess m R.IND_ADDR 15 v)

/-- IND_DATA_READ (R657): An IND_DATA read returns the buffer, advances the address and prefetches. -/
def execIndDataRead (m : Master) (s : State) : Host.Outcome State Fault Refusal :=
  s.run (fun s => s.hostRead m R.IND_DATA)

/-- IND_DATA_WRITE (R658): An IND_DATA write writes the word in the space and advances the address. -/
def execIndDataWrite (m : Master) (v : Word) (s : State) : Host.Outcome State Fault Refusal :=
  s.run (fun s => s.writeAccess m R.IND_DATA 15 v)

/-- IND_PREFETCH_COMPLETE (R656): A prefetch or write of the indirect space completes and BUSY clears. -/
def execIndPrefetchComplete (m : Master) (s : State) : Host.Outcome State Fault Refusal :=
  s.run (fun s => s.prefetchComplete (masterId m))

/-- IND_WAIT_TIMEOUT (R659): An access waiting on BUSY for 2 µs returns zero or is ignored with EARLY or OVERRUN. -/
def execIndWaitTimeout (m : Master) (s : State) : Host.Outcome State Fault Refusal :=
  s.run (fun s => s.waitTimeout (masterId m))

/-- FUSE_BLOW (R664): A write of BLOW programs a key slot's staged hash, or is refused. -/
def execFuseBlow (m : Master) (slot : Fin 4) (auxInLimits : Bool) (s : State) : Host.Outcome State Fault Refusal :=
  s.run (fun s => s.fuseBlow m slot auxInLimits)

/-- UART_FRAME_TX (R633): The UART finishes sending a byte on UART_TX and takes the next byte from the transmit
FIFO. -/
def execUartFrameTx (s : State) : Host.Outcome State Fault Refusal :=
  s.runDev (fun d => d.uartSent)

/-- SUP_MBOX_IN_READ (R483): The supervisor core reads SUP_MBOX_IN, which clears SUP_STAT.MBOX_FULL. -/
def execSupMboxInRead (s : State) : Host.Outcome State Fault Refusal :=
  s.run (fun s => s.hostRead .supervisor R.SUP_MBOX_IN)

/-- SUP_MBOX_OUT_READ (R603): A read of SUP_MBOX_OUT clears the MAILBOX interrupt source, bit 10 of INT_CHIP_STAT. -/
def execSupMboxOutRead (m : Master) (s : State) : Host.Outcome State Fault Refusal :=
  s.run (fun s => s.hostRead m R.SUP_MBOX_OUT)

end Sys2Proof.Machine
end

