-- ==== Sys2Proof/Machine/ExecStart.lean ====
section
/-! DEFINITION. Commands of starts and resets, calibration, supplies and shedding, the fatal dump and test access. -/

namespace Sys2Proof.Machine

/-- POWER_ON (R558): Rails come into range in sequence and the power-on reset releases into a cold start. -/
def execPowerOn (s : State) : Host.Outcome State Fault Refusal :=
  s.runPowerOn

/-- COLD_START (R558): A cold start begins and runs the start steps. -/
def execColdStart (cause : Fin 12) (s : State) : Host.Outcome State Fault Refusal :=
  s.run (fun s => if s.dev.mayStart then Sys2Proof.Machine.coldStart s cause 1 else s)

/-- WARM_START (R559): A warm start begins with retained state re-verified. -/
def execWarmStart (cause : Fin 12) (s : State) : Host.Outcome State Fault Refusal :=
  s.run (fun s => if s.dev.mayStart then Sys2Proof.Machine.warmStart s cause false else s)

/-- RESET_N_FALL (R570): A recognised RESET_N low puts the chip in HELD. -/
def execResetNFall (s : State) : Host.Outcome State Fault Refusal :=
  s.runDev (fun d => d.resetFall)

/-- RESET_N_RISE (R572): RESET_N rising starts a warm or cold start by the low's length. -/
def execResetNRise (low : Word) (s : State) : Host.Outcome State Fault Refusal :=
  s.run (fun s => resetRise s low.toNat)

/-- STR_CMD_COLD (R558): STR_CMD.COLD begins a cold start. -/
def execStrCmdCold (m : Master) (s : State) : Host.Outcome State Fault Refusal :=
  s.run (fun s => s.command m R.STR_CMD .none (fun s => Sys2Proof.Machine.strCmdCold s))

/-- STR_CMD_WARM (R559): STR_CMD.WARM begins a warm start in SERVICE. -/
def execStrCmdWarm (m : Master) (s : State) : Host.Outcome State Fault Refusal :=
  s.run (fun s => s.command m R.STR_CMD .none (fun s => Sys2Proof.Machine.strCmdWarm s))

/-- START_STEP_COMPLETE (R562): A start step ends and the steps that follow it begin. -/
def execStartStepComplete (step : Fin 12) (unit : StepUnit) (fails : List BistFail) (s : State) : Host.Outcome State Fault Refusal :=
  s.run (fun s => Sys2Proof.Machine.startStepComplete s step unit fails)

/-- ENTER_SERVICE (R567): The minimal service set is ready and the chip enters SERVICE. -/
def execEnterService (s : State) : Host.Outcome State Fault Refusal :=
  s.runDev (fun d => d.enterService)

/-- START_TIMEOUT (R573): The minimal service set is not ready in time and the start fails. -/
def execStartTimeout (s : State) : Host.Outcome State Fault Refusal :=
  s.run (fun s => Sys2Proof.Machine.startTimeout s)

/-- FAIL_COUNT_CLEAR (R575): 10 s in service clears WARM_FAILS and COLD_FAILS. -/
def execFailCountClear (s : State) : Host.Outcome State Fault Refusal :=
  s.runDev (fun d => d.failCountClear)

/-- RETENTION_LOSS (R560): VDD_SRAM or VDD_CORE below retention clears RETAIN_OK. -/
def execRetentionLoss (s : State) : Host.Outcome State Fault Refusal :=
  s.runDev Dev.retentionLoss

/-- CAL_SAVE (R579): CAL_CMD.SAVE makes the supervisor save user calibration to flash. -/
def execCalSave (m : Master) (s : State) : Host.Outcome State Fault Refusal :=
  s.run (fun s => s.command m R.CAL_CMD .none (fun s => Sys2Proof.Machine.calSave s))

/-- CAL_SAVE_COMPLETE (R579): The calibration save ends and RESULT reads OK or FAILED. -/
def execCalSaveComplete (readBackGood : Bool) (s : State) : Host.Outcome State Fault Refusal :=
  s.run (fun s => Sys2Proof.Machine.calSaveComplete s readBackGood)

/-- CAL_RESTORE_FACTORY (R580): CAL_CMD.RESTORE_FACTORY erases both copies and sets FACTORY_PENDING. -/
def execCalRestoreFactory (m : Master) (s : State) : Host.Outcome State Fault Refusal :=
  s.run (fun s => s.command m R.CAL_CMD .none (fun s => Sys2Proof.Machine.calRestoreFactory s))

/-- SAG_N_FALL (R582): SAG_N is recognised low and starts requesting shedding stages. -/
def execSagNFall (s : State) : Host.Outcome State Fault Refusal :=
  s.runDev (fun d => d.sagFall)

/-- SAG_N_RISE (R582): SAG_N is recognised high and withdraws its requests. -/
def execSagNRise (s : State) : Host.Outcome State Fault Refusal :=
  s.runDev (fun d => d.sagRise)

/-- SAG_LADDER_EXPIRY (R582): A ladder time passes and SAG_N requests the next stage. -/
def execSagLadderExpiry (stage : Fin 6) (s : State) : Host.Outcome State Fault Refusal :=
  s.runDev (fun d => d.ladderExpiry stage)

/-- RAIL_MONITOR_CROSSING (R676): A rail stays past a stage threshold for 1 µs and its monitor requests or withdraws
a stage. -/
def execRailMonitorCrossing (rail : Fin 7) (mv : BitVec 12) (s : State) : Host.Outcome State Fault Refusal :=
  s.runDev (fun d => d.railCrossing rail mv.toNat)

/-- THERMAL_MONITOR_CROSSING (R677): The die temperature crosses a thermal threshold and requests or withdraws a
stage. -/
def execThermalMonitorCrossing (temp : BitVec 11) (s : State) : Host.Outcome State Fault Refusal :=
  s.runDev (fun d => d.thermalCrossing temp.toNat)

/-- SHED_STAGE_ENTRY (R584): A deeper stage's entry actions begin once the previous stage's are complete. -/
def execShedStageEntry (s : State) : Host.Outcome State Fault Refusal :=
  s.runDev (fun d => d.shedEntry)

/-- SHED_DWELL_EXPIRY (R588): The request stays shallower for DWELL_MS and deeper stages are left. -/
def execShedDwellExpiry (s : State) : Host.Outcome State Fault Refusal :=
  s.runDev (fun d => d.shedDwell)

/-- HELD_EXIT (R591): After SHED-5 clears for DWELL_MS the chip leaves HELD into a start. -/
def execHeldExit (s : State) : Host.Outcome State Fault Refusal :=
  s.run (fun s => Sys2Proof.Machine.heldExit s)

/-- VDD_AUX_LOSS (R674): VDD_AUX falls below its threshold and the chip enters OFF. -/
def execVddAuxLoss (s : State) : Host.Outcome State Fault Refusal :=
  s.runDev (fun d => d.auxLoss)

/-- DUMP_COMPLETE (R600): The fatal dump ends and the chip restarts warm or cold. -/
def execDumpComplete (s : State) : Host.Outcome State Fault Refusal :=
  s.run (fun s => Sys2Proof.Machine.dumpComplete s)

/-- DUMP_TIMEOUT (R599): MAX_MS passes in RECOVERY; the dump is truncated and the restart begins. -/
def execDumpTimeout (s : State) : Host.Outcome State Fault Refusal :=
  s.run (fun s => Sys2Proof.Machine.dumpTimeout s)

/-- DUMP_RELEASE (R624): DUMP_CMD.RELEASE clears UNREAD. -/
def execDumpRelease (m : Master) (s : State) : Host.Outcome State Fault Refusal :=
  s.run (fun s => s.command m R.DUMP_CMD .none (fun s => s.onDev (fun d => d.dumpRelease)))

/-- TEST_ENTRY (R686): A boundary-scan instruction other than BYPASS or IDCODE puts the chip in TEST. -/
def execTestEntry (drivesBalls : Bool) (s : State) : Host.Outcome State Fault Refusal :=
  s.runDev (fun d => d.testEntry drivesBalls)

/-- TEST_EXIT (R687): Leaving TEST returns to the prior state or begins a cold start after driving balls. -/
def execTestExit (s : State) : Host.Outcome State Fault Refusal :=
  s.run (fun s => Sys2Proof.Machine.testExit s)

end Sys2Proof.Machine
end

