-- ==== Sys2Proof/Machine/ExecTables.lean ====
section
/-! DEFINITION. Commands of Winnow, the forwarding tables, learning, the Gleaner and the policers. -/

namespace Sys2Proof.Machine

/-- WNW_WRITE (R237): WNW_CMD WRITE writes the staged rule at ADDR by the three-step update. -/
def execWnwWrite (m : Master) (n : Fin 4) (addr : BitVec 14) (s : State) : Host.Outcome State Fault Refusal :=
  s.run (fun s => s.command m (R.WNW_CMD n) (.rgn 3) (fun s => s.onDev (fun d => d.startRule n 1 addr.toNat)))

/-- WNW_INSERT (R240): WNW_CMD INSERT moves a block down by one place and writes the rule at ADDR. -/
def execWnwInsert (m : Master) (n : Fin 4) (addr : BitVec 14) (s : State) : Host.Outcome State Fault Refusal :=
  s.run (fun s => s.command m (R.WNW_CMD n) (.rgn 3) (fun s => s.onDev (fun d => d.startRule n 2 addr.toNat)))

/-- WNW_DELETE (R239): WNW_CMD DELETE unbinds and frees the entry at ADDR. -/
def execWnwDelete (m : Master) (n : Fin 4) (addr : BitVec 14) (s : State) : Host.Outcome State Fault Refusal :=
  s.run (fun s => s.command m (R.WNW_CMD n) (.rgn 3) (fun s => s.onDev (fun d => d.startRule n 3 addr.toNat)))

/-- WNW_REMOVE (R241): WNW_CMD REMOVE deletes the entry and moves the following block up by one place. -/
def execWnwRemove (m : Master) (n : Fin 4) (addr : BitVec 14) (s : State) : Host.Outcome State Fault Refusal :=
  s.run (fun s => s.command m (R.WNW_CMD n) (.rgn 3) (fun s => s.onDev (fun d => d.startRule n 4 addr.toNat)))

/-- WNW_BADOP (R235): An undefined WNW_CMD OP ends with BADOP and changes nothing. -/
def execWnwBadop (m : Master) (n : Fin 4) (op : BitVec 4) (s : State) : Host.Outcome State Fault Refusal :=
  s.run (fun s => s.command m (R.WNW_CMD n) (.rgn 3) (fun s => s.onDev (fun d => d.startRule n op.toNat 0)))

/-- WNW_CMD_STEP (R238): One step of a rule update or move is granted its bank and takes effect in one clock. -/
def execWnwCmdStep (n : Fin 4) (s : State) : Host.Outcome State Fault Refusal :=
  s.runDev (fun d => d.wnwStep n)

/-- WNW_CMD_COMPLETE (R235): A Winnow command ends with its result, MOVED count and DONE. -/
def execWnwCmdComplete (n : Fin 4) (s : State) : Host.Outcome State Fault Refusal :=
  s.runDev (fun d => d.wnwComplete n)

/-- PATTERN_MAP_REBUILD_DONE (R248): The pattern map rebuild completes and Winnow reports ready. -/
def execPatternMapRebuildDone (n : Fin 4) (s : State) : Host.Outcome State Fault Refusal :=
  s.runDev (fun d => d.wnwRebuildDone n)

/-- TBL_INSERT (R271): TBL_CMD INSERT adds a key to a bucket, by eviction path, or to the stash. -/
def execTblInsert (m : Master) (n c : Fin 4) (s : State) : Host.Outcome State Fault Refusal :=
  s.run (fun s => s.command m (R.TBL_CMD n c) .none (fun s => s.onDev (fun d => d.startTbl n c 1)))

/-- TBL_UPDATE (R273): TBL_CMD UPDATE replaces DEST and STATIC of every copy of a key. -/
def execTblUpdate (m : Master) (n c : Fin 4) (s : State) : Host.Outcome State Fault Refusal :=
  s.run (fun s => s.command m (R.TBL_CMD n c) .none (fun s => s.onDev (fun d => d.startTbl n c 2)))

/-- TBL_DELETE (R273): TBL_CMD DELETE invalidates every copy of a key. -/
def execTblDelete (m : Master) (n c : Fin 4) (s : State) : Host.Outcome State Fault Refusal :=
  s.run (fun s => s.command m (R.TBL_CMD n c) .none (fun s => s.onDev (fun d => d.startTbl n c 3)))

/-- TBL_LOOKUP (R270): TBL_CMD LOOKUP returns the location and entry of a key. -/
def execTblLookup (m : Master) (n c : Fin 4) (s : State) : Host.Outcome State Fault Refusal :=
  s.run (fun s => s.command m (R.TBL_CMD n c) .none (fun s => s.onDev (fun d => d.startTbl n c 4)))

/-- TBL_VLAN_WRITE (R273): TBL_CMD VLAN_WRITE writes one VLAN entry. -/
def execTblVlanWrite (m : Master) (n c : Fin 4) (s : State) : Host.Outcome State Fault Refusal :=
  s.run (fun s => s.command m (R.TBL_CMD n c) .none (fun s => s.onDev (fun d => d.startTbl n c 5)))

/-- TBL_GROUP_WRITE (R273): TBL_CMD GROUP_WRITE writes one multicast group in one clock. -/
def execTblGroupWrite (m : Master) (n c : Fin 4) (s : State) : Host.Outcome State Fault Refusal :=
  s.run (fun s => s.command m (R.TBL_CMD n c) .none (fun s => s.onDev (fun d => d.startTbl n c 6)))

/-- TBL_BADOP (R270): An undefined TBL_CMD OP ends with BADOP. -/
def execTblBadop (m : Master) (n c : Fin 4) (op : BitVec 4) (s : State) : Host.Outcome State Fault Refusal :=
  s.run (fun s => s.command m (R.TBL_CMD n c) .none (fun s => s.onDev (fun d => d.startTbl n c op.toNat)))

/-- TBL_CMD_START (R269): The table block takes the next pending command channel in round-robin order. -/
def execTblCmdStart (n : Fin 4) (s : State) : Host.Outcome State Fault Refusal :=
  s.runDev (fun d => d.nextTbl n)

/-- TBL_CMD_COMPLETE (R270): A table command ends with its result and applies its shadow delta. -/
def execTblCmdComplete (n : Fin 4) (s : State) : Host.Outcome State Fault Refusal :=
  s.runDev (fun d => d.completeTbl n)

/-- LEARN_FILTER_EXPIRY (R265): A key leaves the learn filter after HOLD_US. -/
def execLearnFilterExpiry (n : Fin 4) (s : State) : Host.Outcome State Fault Refusal :=
  s.runDev (fun d => d.learnExpire n)

/-- LEARN_DISPATCH (R267): The head learn notification passes to its engine task queue or is dropped. -/
def execLearnDispatch (n : Fin 4) (s : State) : Host.Outcome State Fault Refusal :=
  s.runDev (fun d => d.askTasks (.learn n))

/-- TBL_LRN_POP (R266): TBL_LRN_POP removes the head learn notification. -/
def execTblLrnPop (m : Master) (n : Fin 4) (s : State) : Host.Outcome State Fault Refusal :=
  s.run (fun s => s.command m (R.TBL_LRN_POP n) .none (fun s => s.onDev (fun d => d.learnPop n)))

/-- GLEANER_BURST (R278): The Gleaner reads up to 1,024 rows, scrubbing, aging and accumulating digests. -/
def execGleanerBurst (n : Fin 4) (s : State) : Host.Outcome State Fault Refusal :=
  s.runDev (fun d => d.gleanerBurst n (d.workAllowed 1 n) (d.slotsNaming 1 n).isEmpty)

/-- SPARE_COPY_COMPLETE (R284): The spare copy completes, access moves to the spare and the bank is retired. -/
def execSpareCopyComplete (n : Fin 4) (s : State) : Host.Outcome State Fault Refusal :=
  s.runDev (fun d => d.spareCopied n)

/-- TBL_SHADOW_ADJ (R280): A TBL_SHADOW_ADJ write adds or sets DELTA in a shadow word. -/
def execTblShadowAdj (m : Master) (n : Fin 4) (word : BitVec 13) (set : Bool) (s : State) : Host.Outcome State Fault Refusal :=
  s.run (fun s => s.command m (R.TBL_SHADOW_ADJ n) .none (fun s => s.onDev (fun d => d.shadowAdjust n word.toNat set)))

/-- TBL_GLN_MISMATCH_POP (R282): TBL_GLN_MISMATCH.POP removes the head mismatch report. -/
def execTblGlnMismatchPop (m : Master) (n : Fin 4) (s : State) : Host.Outcome State Fault Refusal :=
  s.run (fun s => s.command m (R.TBL_GLN_MISMATCH n) .none (fun s => s.onDev (fun d => d.mismatchPop n)))

/-- TABLE_VERIFY_PASS_DONE (R287): The warm verification pass ends and TBL_STAT.READY sets. -/
def execTableVerifyPassDone (n : Fin 4) (s : State) : Host.Outcome State Fault Refusal :=
  s.runDev (fun d => d.verifyDone n)

/-- POL_WRITE (R350): POL_CMD WRITE installs a policer configuration and refills its buckets. -/
def execPolWrite (m : Master) (n : Fin 4) (index : BitVec 16) (s : State) : Host.Outcome State Fault Refusal :=
  s.run (fun s => s.command m (R.POL_CMD n) (.rgn 4) (fun s => s.onDev (fun d => d.polCommand n (fun d => d.polWrite n index.toNat))))

/-- POL_READ (R349): POL_CMD READ returns a policer configuration and bucket levels. -/
def execPolRead (m : Master) (n : Fin 4) (index : BitVec 16) (s : State) : Host.Outcome State Fault Refusal :=
  s.run (fun s => s.command m (R.POL_CMD n) .none (fun s => s.onDev (fun d => d.polCommand n (fun d => d.polRead n index.toNat))))

/-- POL_CLEAR (R349): POL_CMD CLEAR zeroes a policer's three counters. -/
def execPolClear (m : Master) (n : Fin 4) (index : BitVec 16) (s : State) : Host.Outcome State Fault Refusal :=
  s.run (fun s => s.command m (R.POL_CMD n) (.rgn 4) (fun s => s.onDev (fun d => d.polCommand n (fun d => d.polClear n index.toNat))))

/-- POL_BADOP (R349): An undefined POL_CMD OP ends with BADOP. -/
def execPolBadop (m : Master) (n : Fin 4) (op : BitVec 4) (s : State) : Host.Outcome State Fault Refusal :=
  s.run (fun s => s.command m (R.POL_CMD n) .none (fun s => s.onDev (fun d => d.polByOp n (R.POL_CMD.OP.put 0 op.toNat))))

end Sys2Proof.Machine
end

