-- ==== Sys2Proof/Machine/ExecTime.lean ====
section
/-! DEFINITION. Commands of the time bases, the mains and odometer axes, captures, schedule slots, pulse outputs and gate
cadences. -/

namespace Sys2Proof.Machine

/-- TB_RATE_WRITE (R169, R175): A write of TB_RATE sets the rate from the next clock, clamps it and clears HOLDOVER, as the time
page takes it. -/
def execTbRateWrite (m : Master) (t : Fin 4) (v : Word) (s : State) : Host.Outcome State Fault Refusal :=
  s.run (fun s => s.command m (R.TB_RATE t) .none (fun s => s.onDev (·.timeArrives m (R.TB_RATE t) v)))

/-- TB_SET (R173, R175): TB_CMD.SET loads the time base and recomputes its users' positions, as the time page takes it. -/
def execTbSet (m : Master) (t : Fin 4) (s : State) : Host.Outcome State Fault Refusal :=
  s.run (fun s => s.command m (R.TB_CMD t) .none (fun s => s.onDev (·.timeArrives m (R.TB_CMD t) 1#32)))

/-- TB_STEP (R173, R175): TB_CMD.STEP adds a signed step to the time base and its users' positions, as the time page takes
it. -/
def execTbStep (m : Master) (t : Fin 4) (s : State) : Host.Outcome State Fault Refusal :=
  s.run (fun s => s.command m (R.TB_CMD t) .none (fun s => s.onDev (·.timeArrives m (R.TB_CMD t) 2#32)))

/-- HOLDOVER_WATCHDOG_EXPIRY (R177): HOLD_10MS passes without a TB_RATE write and HOLDOVER is set. -/
def execHoldoverWatchdogExpiry (t : Fin 4) (s : State) : Host.Outcome State Fault Refusal :=
  s.runDev (fun d => d.tbWatchExpire t)

/-- MAINS_EDGE (R183): A counted CYC_IN edge compresses the cycle end, is stray, or measures an interval. -/
def execMainsEdge (rising : Bool) (heldUs : Byte) (s : State) : Host.Outcome State Fault Refusal :=
  s.runDev (fun d => d.mainsEdge rising heldUs.toNat)

/-- MAINS_MISS (R184): WIN units pass at phase 65,535 without an edge; a miss is counted and units compressed. -/
def execMainsMiss (s : State) : Host.Outcome State Fault Refusal :=
  s.runDev (fun d => d.mainsMiss)

/-- MAINS_ENABLE (R188, R175): PH_MAINS_CFG.EN set to 1 puts the axis in LOST or ACQUIRE. -/
def execMainsEnable (m : Master) (v : Word) (s : State) : Host.Outcome State Fault Refusal :=
  s.run (fun s => s.writeAccess m R.PH_MAINS_CFG 15 v)

/-- ODO_EDGE (R189): A counted ODO_IN rising edge moves the position by one in the sampled direction. -/
def execOdoEdge (high100ns : Byte) (dir : Bool) (s : State) : Host.Outcome State Fault Refusal :=
  s.runDev (fun d => d.odoEdge high100ns.toNat dir)

/-- ODO_SET (R190, R175): PH_ODO_CMD.SET loads the position and recomputes ODO users. -/
def execOdoSet (m : Master) (s : State) : Host.Outcome State Fault Refusal :=
  s.run (fun s => s.command m R.PH_ODO_CMD .none (fun s => s.onDev (·.timeArrives m R.PH_ODO_CMD 1#32)))

/-- ODO_STILL_EXPIRY (R191): No counted edge for STILL_10MS sets PH_ODO_STAT.STILL. -/
def execOdoStillExpiry (s : State) : Host.Outcome State Fault Refusal :=
  s.runDev (fun d => d.odoStill)

/-- CADENCE_SWITCH (R198): The axis reaches the start S and the armed pending bank becomes active. -/
def execCadenceSwitch (p : Fin 128) (s : State) : Host.Outcome State Fault Refusal :=
  s.runDev (fun d => d.gateSwitch p)

/-- CAPTURE_EDGE (R202): A filtered CAPTURE_IN edge captures all axes into the FIFO or overflows. -/
def execCaptureEdge (i : Fin 2) (rising : Bool) (held10ns : Byte) (s : State) : Host.Outcome State Fault Refusal :=
  s.runDev (fun d => d.captureEdge i rising held10ns.toNat)

/-- CAPTURE_POP (R204, R175): CAP_CFG.POP removes the head capture entry. -/
def execCapturePop (m : Master) (i : Fin 2) (s : State) : Host.Outcome State Fault Refusal :=
  s.run (fun s => s.command m (R.CAP_CFG i) .none (fun s =>
    s.onDev (fun d => d.timeArrives m (R.CAP_CFG i) (d.rd (R.CAP_CFG i) ||| 0x80000000#32))))

/-- SCHEDULE_WINDOW_OPEN (R205): A schedule slot's window opens and background work of its kind may start. -/
def execScheduleWindowOpen (k : Fin 8) (s : State) : Host.Outcome State Fault Refusal :=
  s.runDev (fun d => d.slotOpen k)

/-- SCHEDULE_FALLBACK_WINDOW (R207): MAXGAP_MS passes without an opening and a fallback window opens. -/
def execScheduleFallbackWindow (k : Fin 8) (s : State) : Host.Outcome State Fault Refusal :=
  s.runDev (fun d => d.slotFallback k)

/-- CADENCE_ENTRY_CHANGE (R197): The axis position passes the cumulative duration of the entry in force, and the
next gate entry takes force, opening or closing gates and counting GATE_OVERRUN. -/
def execCadenceEntryChange (p : Fin 128) (s : State) : Host.Outcome State Fault Refusal :=
  s.runDev (fun d => d.gateRefresh p)

/-- PULSE_OUTPUT_EDGE (R200): A pulse generator's position reaches PO_START, 0 or PO_WIDTH, and PULSE_OUT changes
level, counting PO_EDGES on each change to active. -/
def execPulseOutputEdge (j : Fin 4) (s : State) : Host.Outcome State Fault Refusal :=
  s.runDev (fun d => d.pulseRefresh j)

/-- SCHEDULE_WINDOW_CLOSE (R205): A schedule slot's window, or a fallback window once its work is done, closes and
SCH_STAT.OPEN clears, so no new work of its kind starts. -/
def execScheduleWindowClose (k : Fin 8) (s : State) : Host.Outcome State Fault Refusal :=
  s.runDev (fun d => d.slotClose k)

end Sys2Proof.Machine
end

