-- ==== Sys2Proof/Machine/ExecTwin.lean ====
section
/-! DEFINITION. Commands of the decision channels, the Abaide link, the lease and the held outputs. -/

namespace Sys2Proof.Machine

/-- VOTE (R487): The voter judges a TC6 frame when records arrive or SKEW expires. -/
def execVote (n : Fin 4) (a b c : Option (BitVec 176)) (s : State) : Host.Outcome State Fault Refusal :=
  s.runDev (fun d => d.askVote n ([a, b, c].map (fun x => x.map BitVec.toNat)))

/-- STRIKE_CLEAR (R489): A channel's strike count clears 1 s after its last strike. -/
def execStrikeClear (n : Fin 4) (c : Fin 3) (s : State) : Host.Outcome State Fault Refusal :=
  s.runDev (fun d => d.strikeClear n c)

/-- DISAGREE_CLEAR (R490): The 2-of-2 disagreement count clears 1 s after the last one. -/
def execDisagreeClear (n : Fin 4) (s : State) : Host.Outcome State Fault Refusal :=
  s.runDev (fun d => d.disagreeClear n)

/-- CHANNEL_SELF_TEST (R491): The decision channel self-test completes, setting channels in service or VITAL_DOWN. -/
def execChannelSelfTest (n : Fin 4) (pass : BitVec 3) (s : State) : Host.Outcome State Fault Refusal :=
  s.runDev (fun d => d.selfTestDone n pass.toNat)

/-- ABAIDE_LANE_UP (R493): An Abaide lane comes UP and a HELLO is sent on it. -/
def execAbaideLaneUp (lane : Fin 2) (s : State) : Host.Outcome State Fault Refusal :=
  s.runDev (fun d => d.abdLaneUp lane)

/-- HELLO (R496): A HELLO is accepted or rejected, bringing the link into service. -/
def execHello (lane : Fin 2) (seq : Word) (epoch : BitVec 16) (version : BitVec 4) (serial : BitVec 64) (device : Word) (s : State) : Host.Outcome State Fault Refusal :=
  s.runDev (fun d => d.abdReceive lane 0x01 seq.toNat epoch.toNat (fun d => d.hello serial.toNat device.toNat version.toNat))

/-- CLAIM (R507): A received CLAIM is acknowledged or ignored by lease state and serial. -/
def execClaim (lane : Fin 2) (seq : Word) (epoch : BitVec 16) (serial : BitVec 64) (s : State) : Host.Outcome State Fault Refusal :=
  s.runDev (fun d => d.abdReceive lane 0x02 seq.toNat epoch.toNat (fun d => d.askTwin (.claim serial.toNat)))

/-- CLAIM_ACK (R508): A CLAIM_ACK of its own serial makes a CLAIMING device ACTIVE. -/
def execClaimAck (lane : Fin 2) (seq : Word) (epoch : BitVec 16) (serial : BitVec 64) (s : State) : Host.Outcome State Fault Refusal :=
  s.runDev (fun d => d.abdReceive lane 0x03 seq.toNat epoch.toNat (fun d => d.claimAck serial.toNat))

/-- RENEW (R509): A received RENEW is acknowledged and resets the view, or resolves dual acting. -/
def execRenew (lane : Fin 2) (seq : Word) (epoch : BitVec 16) (lseq : Word) (s : State) : Host.Outcome State Fault Refusal :=
  s.runDev (fun d => d.abdReceive lane 0x04 seq.toNat epoch.toNat (fun d => d.renew lseq.toNat))

/-- RENEW_ACK (R511): A RENEW_ACK matching a recent LSEQ acknowledges the renewal. -/
def execRenewAck (lane : Fin 2) (seq : Word) (epoch : BitVec 16) (lseq : Word) (s : State) : Host.Outcome State Fault Refusal :=
  s.runDev (fun d => d.abdReceive lane 0x05 seq.toNat epoch.toNat (fun d => d.renewAck lseq.toNat))

/-- YIELD (R505): A received YIELD expires the view deadline at once. -/
def execYield (lane : Fin 2) (seq : Word) (epoch : BitVec 16) (s : State) : Host.Outcome State Fault Refusal :=
  s.runDev (fun d => d.abdReceive lane 0x06 seq.toNat epoch.toNat (fun d => d.peerYield))

/-- STATUS (R514): A PX8420 STATUS message drives the compatibility-mode role rules. -/
def execStatus (lane : Fin 2) (seq : Word) (serial : BitVec 64) (role : Word) (s : State) : Host.Outcome State Fault Refusal :=
  s.runDev (fun d => d.abdReceive lane 0x07 seq.toNat 0 (fun d => d.status serial.toNat role.toNat))

/-- KEEPALIVE (R496): A KEEPALIVE counts only towards link service. -/
def execKeepalive (lane : Fin 2) (seq : Word) (epoch : BitVec 16) (s : State) : Host.Outcome State Fault Refusal :=
  s.runDev (fun d => d.abdReceive lane 0x08 seq.toNat epoch.toNat id)

/-- LOFT (R474): A LOFT message's mirrored records are applied to the Loft. -/
def execLoft (lane : Fin 2) (seq : Word) (epoch : BitVec 16) (n : Fin 4) (records : List LoftUpdate) (s : State) : Host.Outcome State Fault Refusal :=
  s.runDev (fun d => d.abdReceive lane 0x10 seq.toNat epoch.toNat (fun d => d.loftMsg n (records.map loftUpdate)))

/-- RESYNC_REQ (R497): A RESYNC_REQ acts as LOFT_CMD.RESYNC_ALL in every enabled region. -/
def execResyncReq (lane : Fin 2) (seq : Word) (epoch : BitVec 16) (s : State) : Host.Outcome State Fault Refusal :=
  s.runDev (fun d => d.abdReceive lane 0x11 seq.toNat epoch.toNat (fun d => d.resyncReq))

/-- TWINMSG (R499): A TWINMSG becomes a TWINMSG task on the named queue. -/
def execTwinmsg (lane : Fin 2) (seq : Word) (epoch : BitVec 16) (n : Fin 4) (queue : Byte) (body : BitVec 128) (s : State) : Host.Outcome State Fault Refusal :=
  s.runDev (fun d => d.abdReceive lane 0x20 seq.toNat epoch.toNat (fun d => d.twinMsg n queue.toNat (messageWords body)))

/-- ABAIDE_GAP_EXPIRY (R500): A LINK_SEQ missing GAP_US is counted as a gap and RESYNC_REQ is sent. -/
def execAbaideGapExpiry (seq : Word) (s : State) : Host.Outcome State Fault Refusal :=
  s.runDev (fun d => d.abdGap seq.toNat)

/-- ABAIDE_SILENCE_EXPIRY (R496): No frame for SILENCE_US takes the link out of service. -/
def execAbaideSilenceExpiry (s : State) : Host.Outcome State Fault Refusal :=
  s.runDev (fun d => d.askTwin .silence)

/-- KEEPALIVE_TIMER (R496): With nothing queued for 100 µs a KEEPALIVE is sent. -/
def execKeepaliveTimer (s : State) : Host.Outcome State Fault Refusal :=
  s.runDev (fun d => d.keepaliveTimer)

/-- HELLO_RESEND_TIMER (R497): A HELLO is sent again every 10 ms until one is accepted. -/
def execHelloResendTimer (s : State) : Host.Outcome State Fault Refusal :=
  s.runDev (fun d => d.helloTimer)

/-- RENEW_TIMER (R503): Every 8 ms an ACTIVE device sends RENEW. -/
def execRenewTimer (s : State) : Host.Outcome State Fault Refusal :=
  s.runDev (fun d => d.renewTimer)

/-- OWN_LEASE_EXPIRY (R504): 22 ms without acknowledged renewal makes the holder stop acting. -/
def execOwnLeaseExpiry (s : State) : Host.Outcome State Fault Refusal :=
  s.runDev (fun d => d.askTwin .own)

/-- VIEW_DEADLINE_EXPIRY (R506): The view expires and a healthy STANDBY device claims the lease. -/
def execViewDeadlineExpiry (s : State) : Host.Outcome State Fault Refusal :=
  s.runDev (fun d => d.askTwin .view)

/-- CLAIM_RESEND_TIMER (R508): No CLAIM_ACK within 2 ms sends the CLAIM again. -/
def execClaimResendTimer (s : State) : Host.Outcome State Fault Refusal :=
  s.runDev (fun d => d.claimTimer)

/-- TWN_CMD_YIELD (R510): TWN_CMD.YIELD makes an ACTIVE device send YIELD and stand by. -/
def execTwnCmdYield (m : Master) (s : State) : Host.Outcome State Fault Refusal :=
  s.run (fun s => s.command m R.TWN_CMD .none (fun s => s.onDev (fun d => d.yieldLease)))

/-- ABD_TX_SEND (R499): ABD_TX_CMD.SEND queues a TWINMSG or discards it when out of service. -/
def execAbdTxSend (m : Master) (queue : Byte) (region : Fin 4) (s : State) : Host.Outcome State Fault Refusal :=
  s.run (fun s => s.command m R.ABD_TX_CMD .none (fun s => s.onDev (fun d => d.abdTxSend queue.toNat region)))

/-- COMPAT_STATUS_TIMER (R514): In compatibility mode a STATUS is sent every 8 ms. -/
def execCompatStatusTimer (s : State) : Host.Outcome State Fault Refusal :=
  s.runDev (fun d => d.compatStatus)

/-- COMPAT_ACTIVE_TIMEOUT (R514): 150 ms without ROLE 1 makes a STANDBY device ACTIVE. -/
def execCompatActiveTimeout (s : State) : Host.Outcome State Fault Refusal :=
  s.runDev (fun d => d.compatActive)

/-- COMPAT_DUAL_TIMEOUT (R514): 150 ms of dual acting makes the device stand by and set COMPAT_OVER. -/
def execCompatDualTimeout (s : State) : Host.Outcome State Fault Refusal :=
  s.runDev (fun d => d.compatDual)

/-- COMPAT_YIELD_TIMEOUT (R514): No ROLE 1 within 150 ms of a yield keeps acting and sets YIELD_FAIL. -/
def execCompatYieldTimeout (s : State) : Host.Outcome State Fault Refusal :=
  s.runDev (fun d => d.compatYieldFail)

/-- RESET_SAFE_STATE_EXPIRY (R518): RESET_N low for 50 ms puts the held outputs in the safe state. -/
def execResetSafeStateExpiry (s : State) : Host.Outcome State Fault Refusal :=
  s.runDev (fun d => d.resetLong)

/-- ABAIDE_LANE_DOWN (R496): An Abaide lane loses block lock or synchronisation, and when no lane remains UP the
link leaves service. -/
def execAbaideLaneDown (lane : Fin 2) (s : State) : Host.Outcome State Fault Refusal :=
  s.runDev (fun d => d.abdLaneDown lane)

/-- ABAIDE_BAD_FRAME (R494): An Abaide frame whose CRC fails, or whose TYPE is unknown or unused in the mode, is
discarded and counted in ABD_CRC_ERR. -/
def execAbaideBadFrame (lane : Fin 2) (crcGood : Bool) (type : Byte) (s : State) : Host.Outcome State Fault Refusal :=
  s.runDev (fun d => d.abdBadFrame lane crcGood type.toNat)

/-- ABAIDE_FRAME_TX (R498): The Abaide transmitter finishes a frame and starts the next queued frame in priority
order, clearing ABD_STAT.TX_BUSY when a TWINMSG leaves. -/
def execAbaideFrameTx (s : State) : Host.Outcome State Fault Refusal :=
  s.runDev (fun d => d.abdFrameTx)

end Sys2Proof.Machine
end

