-- ==== Sys2Proof/Machine/Dispatch.lean ====
section
/-! DEFINITION. The dispatch of the commands to their meanings: one arm per row of the opcode table. -/

namespace Sys2Proof.Machine

/-- The effect of a command on everything but the queue. -/
def exec (i : Instr) (s : State) : Host.Outcome State Fault Refusal :=
  match i with
  | .registerWrite m t be v => Sys2Proof.Machine.execRegisterWrite m t be v s
  | .rcFieldRead m t => Sys2Proof.Machine.execRcFieldRead m t s
  | .tbNsRead m t => Sys2Proof.Machine.execTbNsRead m t s
  | .chainedCounterRead m t => Sys2Proof.Machine.execChainedCounterRead m t s
  | .loftUsLoRead m n => Sys2Proof.Machine.execLoftUsLoRead m n s
  | .escalationTimeout u => Sys2Proof.Machine.execEscalationTimeout u s
  | .containedRestartStart n k cell addr => Sys2Proof.Machine.execContainedRestartStart n k cell addr s
  | .containedRestartEnd n k => Sys2Proof.Machine.execContainedRestartEnd n k s
  | .regionRestartStart n cell addr => Sys2Proof.Machine.execRegionRestartStart n cell addr s
  | .regionRestartEnd n => Sys2Proof.Machine.execRegionRestartEnd n s
  | .chipFatalError cause errUnit errAddr => Sys2Proof.Machine.execChipFatalError cause errUnit errAddr s
  | .backgroundSlotGrant n bank => Sys2Proof.Machine.execBackgroundSlotGrant n bank s
  | .enqArrival src dst => Sys2Proof.Machine.execEnqArrival src dst s
  | .readArrival src dst => Sys2Proof.Machine.execReadArrival src dst s
  | .regrArrival src dst => Sys2Proof.Machine.execRegrArrival src dst s
  | .regwArrival src dst => Sys2Proof.Machine.execRegwArrival src dst s
  | .dataArrival src dst => Sys2Proof.Machine.execDataArrival src dst s
  | .cplArrival src dst => Sys2Proof.Machine.execCplArrival src dst s
  | .nackArrival src dst => Sys2Proof.Machine.execNackArrival src dst s
  | .floorTransferRetry src dst senderOk receiverOk => Sys2Proof.Machine.execFloorTransferRetry src dst senderOk receiverOk s
  | .pipelineSlotGrant n => Sys2Proof.Machine.execPipelineSlotGrant n s
  | .mirrorCopyTimeout n => Sys2Proof.Machine.execMirrorCopyTimeout n s
  | .rgnRestartWarm m n => Sys2Proof.Machine.execRgnRestartWarm m n s
  | .imageCopyChecked copy readFailed => Sys2Proof.Machine.execImageCopyChecked copy readFailed s
  | .flashOperationStart => Sys2Proof.Machine.execFlashOperationStart s
  | .flashOperationComplete => Sys2Proof.Machine.execFlashOperationComplete s
  | .verifyA m => Sys2Proof.Machine.execVerifyA m s
  | .verifyB m => Sys2Proof.Machine.execVerifyB m s
  | .verifyComplete readFailed => Sys2Proof.Machine.execVerifyComplete readFailed s
  | .advanceSvn m => Sys2Proof.Machine.execAdvanceSvn m s
  | .revokeSlot m slot => Sys2Proof.Machine.execRevokeSlot m slot s
  | .relayoutArm m n drainMs => Sys2Proof.Machine.execRelayoutArm m n drainMs s
  | .relayoutDrainComplete n => Sys2Proof.Machine.execRelayoutDrainComplete n s
  | .relayoutDrainTimeout n => Sys2Proof.Machine.execRelayoutDrainTimeout n s
  | .refclkLost b => Sys2Proof.Machine.execRefclkLost b s
  | .refclkReturn b => Sys2Proof.Machine.execRefclkReturn b s
  | .calibrationComplete p => Sys2Proof.Machine.execCalibrationComplete p s
  | .signalDetected p => Sys2Proof.Machine.execSignalDetected p s
  | .lockAchieved p ctle dfe => Sys2Proof.Machine.execLockAchieved p ctle dfe s
  | .lockLost p lane signalLost => Sys2Proof.Machine.execLockLost p lane signalLost s
  | .alignComplete p speed fullDuplex => Sys2Proof.Machine.execAlignComplete p speed fullDuplex s
  | .holdUpExpiry p => Sys2Proof.Machine.execHoldUpExpiry p s
  | .linkFault p lane cause => Sys2Proof.Machine.execLinkFault p lane cause s
  | .faultEnd p => Sys2Proof.Machine.execFaultEnd p s
  | .holdDownExpiry p => Sys2Proof.Machine.execHoldDownExpiry p s
  | .remoteFaultReceived p => Sys2Proof.Machine.execRemoteFaultReceived p s
  | .frameBegin p => Sys2Proof.Machine.execFrameBegin p s
  | .landingChargeRetry src => Sys2Proof.Machine.execLandingChargeRetry src s
  | .headWindowOffer src head => Sys2Proof.Machine.execHeadWindowOffer src head s
  | .frameEnd p bytes codes => Sys2Proof.Machine.execFrameEnd p bytes codes s
  | .transmitSelect p => Sys2Proof.Machine.execTransmitSelect p s
  | .transmitComplete p => Sys2Proof.Machine.execTransmitComplete p s
  | .transmitCut p => Sys2Proof.Machine.execTransmitCut p s
  | .mdioC22Write m b phy reg data => Sys2Proof.Machine.execMdioC22Write m b phy reg data s
  | .mdioC22Read m b phy reg => Sys2Proof.Machine.execMdioC22Read m b phy reg s
  | .mdioC45Address m b prt dev data => Sys2Proof.Machine.execMdioC45Address m b prt dev data s
  | .mdioC45Write m b prt dev data => Sys2Proof.Machine.execMdioC45Write m b prt dev data s
  | .mdioC45Read m b prt dev => Sys2Proof.Machine.execMdioC45Read m b prt dev s
  | .mdioC45PostReadInc m b prt dev => Sys2Proof.Machine.execMdioC45PostReadInc m b prt dev s
  | .mdioFrameEnd b turnaround data => Sys2Proof.Machine.execMdioFrameEnd b turnaround data s
  | .i2cTransaction m b addr wlen rlen sdaHigh => Sys2Proof.Machine.execI2cTransaction m b addr wlen rlen sdaHigh s
  | .i2cBusClearCmd m b sdaHigh => Sys2Proof.Machine.execI2cBusClearCmd m b sdaHigh s
  | .i2cCommandEnd b ackAddr count nackData read => Sys2Proof.Machine.execI2cCommandEnd b ackAddr count nackData read s
  | .i2cStretchTimeout e sdaHigh => Sys2Proof.Machine.execI2cStretchTimeout e sdaHigh s
  | .i2cArbitrationLost e => Sys2Proof.Machine.execI2cArbitrationLost e s
  | .tbRateWrite m t v => Sys2Proof.Machine.execTbRateWrite m t v s
  | .tbSet m t => Sys2Proof.Machine.execTbSet m t s
  | .tbStep m t => Sys2Proof.Machine.execTbStep m t s
  | .holdoverWatchdogExpiry t => Sys2Proof.Machine.execHoldoverWatchdogExpiry t s
  | .mainsEdge rising heldUs => Sys2Proof.Machine.execMainsEdge rising heldUs s
  | .mainsMiss => Sys2Proof.Machine.execMainsMiss s
  | .mainsEnable m v => Sys2Proof.Machine.execMainsEnable m v s
  | .odoEdge high100ns dir => Sys2Proof.Machine.execOdoEdge high100ns dir s
  | .odoSet m => Sys2Proof.Machine.execOdoSet m s
  | .odoStillExpiry => Sys2Proof.Machine.execOdoStillExpiry s
  | .cadenceSwitch p => Sys2Proof.Machine.execCadenceSwitch p s
  | .captureEdge ix rising held10ns => Sys2Proof.Machine.execCaptureEdge ix rising held10ns s
  | .capturePop m ix => Sys2Proof.Machine.execCapturePop m ix s
  | .scheduleWindowOpen k => Sys2Proof.Machine.execScheduleWindowOpen k s
  | .scheduleFallbackWindow k => Sys2Proof.Machine.execScheduleFallbackWindow k s
  | .wnwWrite m n addr => Sys2Proof.Machine.execWnwWrite m n addr s
  | .wnwInsert m n addr => Sys2Proof.Machine.execWnwInsert m n addr s
  | .wnwDelete m n addr => Sys2Proof.Machine.execWnwDelete m n addr s
  | .wnwRemove m n addr => Sys2Proof.Machine.execWnwRemove m n addr s
  | .wnwBadop m n op => Sys2Proof.Machine.execWnwBadop m n op s
  | .wnwCmdStep n => Sys2Proof.Machine.execWnwCmdStep n s
  | .wnwCmdComplete n => Sys2Proof.Machine.execWnwCmdComplete n s
  | .patternMapRebuildDone n => Sys2Proof.Machine.execPatternMapRebuildDone n s
  | .tblInsert m n c => Sys2Proof.Machine.execTblInsert m n c s
  | .tblUpdate m n c => Sys2Proof.Machine.execTblUpdate m n c s
  | .tblDelete m n c => Sys2Proof.Machine.execTblDelete m n c s
  | .tblLookup m n c => Sys2Proof.Machine.execTblLookup m n c s
  | .tblVlanWrite m n c => Sys2Proof.Machine.execTblVlanWrite m n c s
  | .tblGroupWrite m n c => Sys2Proof.Machine.execTblGroupWrite m n c s
  | .tblBadop m n c op => Sys2Proof.Machine.execTblBadop m n c op s
  | .tblCmdStart n => Sys2Proof.Machine.execTblCmdStart n s
  | .tblCmdComplete n => Sys2Proof.Machine.execTblCmdComplete n s
  | .learnFilterExpiry n => Sys2Proof.Machine.execLearnFilterExpiry n s
  | .learnDispatch n => Sys2Proof.Machine.execLearnDispatch n s
  | .tblLrnPop m n => Sys2Proof.Machine.execTblLrnPop m n s
  | .gleanerBurst n => Sys2Proof.Machine.execGleanerBurst n s
  | .spareCopyComplete n => Sys2Proof.Machine.execSpareCopyComplete n s
  | .tblShadowAdj m n word set => Sys2Proof.Machine.execTblShadowAdj m n word set s
  | .tblGlnMismatchPop m n => Sys2Proof.Machine.execTblGlnMismatchPop m n s
  | .tableVerifyPassDone n => Sys2Proof.Machine.execTableVerifyPassDone n s
  | .decisionCharge n => Sys2Proof.Machine.execDecisionCharge n s
  | .frameCommit n => Sys2Proof.Machine.execFrameCommit n s
  | .ownerRelease n => Sys2Proof.Machine.execOwnerRelease n s
  | .ringCacheRefill n => Sys2Proof.Machine.execRingCacheRefill n s
  | .ringCacheWriteback n => Sys2Proof.Machine.execRingCacheWriteback n s
  | .spillComplete n => Sys2Proof.Machine.execSpillComplete n s
  | .baleReturn n => Sys2Proof.Machine.execBaleReturn n s
  | .grnHoldStart m n => Sys2Proof.Machine.execGrnHoldStart m n s
  | .grnHoldEnd m n => Sys2Proof.Machine.execGrnHoldEnd m n s
  | .holdTimeout n => Sys2Proof.Machine.execHoldTimeout n s
  | .polWrite m n index => Sys2Proof.Machine.execPolWrite m n index s
  | .polRead m n index => Sys2Proof.Machine.execPolRead m n index s
  | .polClear m n index => Sys2Proof.Machine.execPolClear m n index s
  | .polBadop m n op => Sys2Proof.Machine.execPolBadop m n op s
  | .portNotReady p => Sys2Proof.Machine.execPortNotReady p s
  | .schFlush m n port queues => Sys2Proof.Machine.execSchFlush m n port queues s
  | .gateArm m p => Sys2Proof.Machine.execGateArm m p s
  | .recoveryResetExpiry n => Sys2Proof.Machine.execRecoveryResetExpiry n s
  | .dramReadRequest n burst chip => Sys2Proof.Machine.execDramReadRequest n burst chip s
  | .dramWriteRequest n burst data => Sys2Proof.Machine.execDramWriteRequest n burst data s
  | .dramCommandIssue n => Sys2Proof.Machine.execDramCommandIssue n s
  | .dramReadComplete n err => Sys2Proof.Machine.execDramReadComplete n err s
  | .dramRefreshDue n => Sys2Proof.Machine.execDramRefreshDue n s
  | .dramTempRead n die0 die1 mult hot => Sys2Proof.Machine.execDramTempRead n die0 die1 mult hot s
  | .dramPowerDownIdle n => Sys2Proof.Machine.execDramPowerDownIdle n s
  | .dramSelfRefreshIdle n => Sys2Proof.Machine.execDramSelfRefreshIdle n s
  | .dramTrainingComplete n ok => Sys2Proof.Machine.execDramTrainingComplete n ok s
  | .dramTrackingInterval n => Sys2Proof.Machine.execDramTrackingInterval n s
  | .dramTrackingPassDone n drift retrainOk calOk => Sys2Proof.Machine.execDramTrackingPassDone n drift retrainOk calOk s
  | .dramReadTimeout n => Sys2Proof.Machine.execDramReadTimeout n s
  | .drcRequalify m n => Sys2Proof.Machine.execDrcRequalify m n s
  | .gapSkipTimeout n => Sys2Proof.Machine.execGapSkipTimeout n s
  | .retryResend n => Sys2Proof.Machine.execRetryResend n s
  | .replayStart n => Sys2Proof.Machine.execReplayStart n s
  | .taskDispatch n => Sys2Proof.Machine.execTaskDispatch n s
  | .taskWatchdogExpiry e t => Sys2Proof.Machine.execTaskWatchdogExpiry e t s
  | .tskFlush m n queue => Sys2Proof.Machine.execTskFlush m n queue s
  | .opr c t => Sys2Proof.Machine.execOpr c t s
  | .addk c t => Sys2Proof.Machine.execAddk c t s
  | .andk c t => Sys2Proof.Machine.execAndk c t s
  | .ork c t => Sys2Proof.Machine.execOrk c t s
  | .xork c t => Sys2Proof.Machine.execXork c t s
  | .insh c t => Sys2Proof.Machine.execInsh c t s
  | .shlk c t => Sys2Proof.Machine.execShlk c t s
  | .shrk c t => Sys2Proof.Machine.execShrk c t s
  | .sark c t => Sys2Proof.Machine.execSark c t s
  | .ltk c t => Sys2Proof.Machine.execLtk c t s
  | .setk c t => Sys2Proof.Machine.execSetk c t s
  | .rdw c t => Sys2Proof.Machine.execRdw c t s
  | .rdb c t => Sys2Proof.Machine.execRdb c t s
  | .wrw c t => Sys2Proof.Machine.execWrw c t s
  | .wrb c t => Sys2Proof.Machine.execWrb c t s
  | .rds c t => Sys2Proof.Machine.execRds c t s
  | .wrs c t => Sys2Proof.Machine.execWrs c t s
  | .rdx c t => Sys2Proof.Machine.execRdx c t s
  | .wrx c t => Sys2Proof.Machine.execWrx c t s
  | .rdt c t => Sys2Proof.Machine.execRdt c t s
  | .rdf c t => Sys2Proof.Machine.execRdf c t s
  | .atom c t => Sys2Proof.Machine.execAtom c t s
  | .barr c t => Sys2Proof.Machine.execBarr c t s
  | .ifeq c t => Sys2Proof.Machine.execIfeq c t s
  | .ifne c t => Sys2Proof.Machine.execIfne c t s
  | .iflt c t => Sys2Proof.Machine.execIflt c t s
  | .ifge c t => Sys2Proof.Machine.execIfge c t s
  | .iflo c t => Sys2Proof.Machine.execIflo c t s
  | .ifhs c t => Sys2Proof.Machine.execIfhs c t s
  | .call c t => Sys2Proof.Machine.execCall c t s
  | .ret c t => Sys2Proof.Machine.execRet c t s
  | .go c t => Sys2Proof.Machine.execGo c t s
  | .send c t => Sys2Proof.Machine.execSend c t s
  | .fwd c t => Sys2Proof.Machine.execFwd c t s
  | .drop c t => Sys2Proof.Machine.execDrop c t s
  | .done c t => Sys2Proof.Machine.execDone c t s
  | .lfput c t => Sys2Proof.Machine.execLfput c t s
  | .lfget c t => Sys2Proof.Machine.execLfget c t s
  | .crc c t => Sys2Proof.Machine.execCrc c t s
  | .dirGets k line => Sys2Proof.Machine.execDirGets k line s
  | .dirGetx k line => Sys2Proof.Machine.execDirGetx k line s
  | .dirPutx e line => Sys2Proof.Machine.execDirPutx e line s
  | .supWatchdogExpiry => Sys2Proof.Machine.execSupWatchdogExpiry s
  | .supWdogKick m => Sys2Proof.Machine.execSupWdogKick m s
  | .supMboxInWrite m v => Sys2Proof.Machine.execSupMboxInWrite m v s
  | .loftMirrorSend n => Sys2Proof.Machine.execLoftMirrorSend n s
  | .loftResyncAll m n => Sys2Proof.Machine.execLoftResyncAll m n s
  | .vote n a b c => Sys2Proof.Machine.execVote n a b c s
  | .strikeClear n c => Sys2Proof.Machine.execStrikeClear n c s
  | .disagreeClear n => Sys2Proof.Machine.execDisagreeClear n s
  | .channelSelfTest n pass => Sys2Proof.Machine.execChannelSelfTest n pass s
  | .abaideLaneUp lane => Sys2Proof.Machine.execAbaideLaneUp lane s
  | .hello lane seq epoch version serial device => Sys2Proof.Machine.execHello lane seq epoch version serial device s
  | .claim lane seq epoch serial => Sys2Proof.Machine.execClaim lane seq epoch serial s
  | .claimAck lane seq epoch serial => Sys2Proof.Machine.execClaimAck lane seq epoch serial s
  | .renew lane seq epoch lseq => Sys2Proof.Machine.execRenew lane seq epoch lseq s
  | .renewAck lane seq epoch lseq => Sys2Proof.Machine.execRenewAck lane seq epoch lseq s
  | .yield lane seq epoch => Sys2Proof.Machine.execYield lane seq epoch s
  | .status lane seq serial role => Sys2Proof.Machine.execStatus lane seq serial role s
  | .keepalive lane seq epoch => Sys2Proof.Machine.execKeepalive lane seq epoch s
  | .loft lane seq epoch n records => Sys2Proof.Machine.execLoft lane seq epoch n records s
  | .resyncReq lane seq epoch => Sys2Proof.Machine.execResyncReq lane seq epoch s
  | .twinmsg lane seq epoch n queue body => Sys2Proof.Machine.execTwinmsg lane seq epoch n queue body s
  | .abaideGapExpiry seq => Sys2Proof.Machine.execAbaideGapExpiry seq s
  | .abaideSilenceExpiry => Sys2Proof.Machine.execAbaideSilenceExpiry s
  | .keepaliveTimer => Sys2Proof.Machine.execKeepaliveTimer s
  | .helloResendTimer => Sys2Proof.Machine.execHelloResendTimer s
  | .renewTimer => Sys2Proof.Machine.execRenewTimer s
  | .ownLeaseExpiry => Sys2Proof.Machine.execOwnLeaseExpiry s
  | .viewDeadlineExpiry => Sys2Proof.Machine.execViewDeadlineExpiry s
  | .claimResendTimer => Sys2Proof.Machine.execClaimResendTimer s
  | .twnCmdYield m => Sys2Proof.Machine.execTwnCmdYield m s
  | .abdTxSend m queue region => Sys2Proof.Machine.execAbdTxSend m queue region s
  | .compatStatusTimer => Sys2Proof.Machine.execCompatStatusTimer s
  | .compatActiveTimeout => Sys2Proof.Machine.execCompatActiveTimeout s
  | .compatDualTimeout => Sys2Proof.Machine.execCompatDualTimeout s
  | .compatYieldTimeout => Sys2Proof.Machine.execCompatYieldTimeout s
  | .resetSafeStateExpiry => Sys2Proof.Machine.execResetSafeStateExpiry s
  | .pcieConfigRequest h r => Sys2Proof.Machine.execPcieConfigRequest h r s
  | .pciePerst h => Sys2Proof.Machine.execPciePerst h s
  | .pcieHotReset h => Sys2Proof.Machine.execPcieHotReset h s
  | .pcieLinkDown h => Sys2Proof.Machine.execPcieLinkDown h s
  | .pfFlr h => Sys2Proof.Machine.execPfFlr h s
  | .vfFlr h ix => Sys2Proof.Machine.execVfFlr h ix s
  | .instReset h ix => Sys2Proof.Machine.execInstReset h ix s
  | .instResetComplete h ix => Sys2Proof.Machine.execInstResetComplete h ix s
  | .dmaError h ix q kind gen cause => Sys2Proof.Machine.execDmaError h ix q kind gen cause s
  | .dmaCompletionTimeout h ix q kind => Sys2Proof.Machine.execDmaCompletionTimeout h ix q kind s
  | .txqTailWrite h ix q v => Sys2Proof.Machine.execTxqTailWrite h ix q v s
  | .rxqTailWrite h ix q v => Sys2Proof.Machine.execRxqTailWrite h ix q v s
  | .txDescriptorFetch h ix q gen words => Sys2Proof.Machine.execTxDescriptorFetch h ix q gen words s
  | .txFrameReadComplete h ix gen bytes => Sys2Proof.Machine.execTxFrameReadComplete h ix gen bytes s
  | .txWriteback h ix q => Sys2Proof.Machine.execTxWriteback h ix q s
  | .tsWaitExpiry h ix q slot => Sys2Proof.Machine.execTsWaitExpiry h ix q slot s
  | .rxHandover h ix q descs => Sys2Proof.Machine.execRxHandover h ix q descs s
  | .rxWaitExpiry h ix q => Sys2Proof.Machine.execRxWaitExpiry h ix q s
  | .instMsgSend h ix => Sys2Proof.Machine.execInstMsgSend h ix s
  | .msixModerationExpiry h ix q => Sys2Proof.Machine.execMsixModerationExpiry h ix q s
  | .powerOn => Sys2Proof.Machine.execPowerOn s
  | .coldStart cause => Sys2Proof.Machine.execColdStart cause s
  | .warmStart cause => Sys2Proof.Machine.execWarmStart cause s
  | .resetNFall => Sys2Proof.Machine.execResetNFall s
  | .resetNRise low => Sys2Proof.Machine.execResetNRise low s
  | .strCmdCold m => Sys2Proof.Machine.execStrCmdCold m s
  | .strCmdWarm m => Sys2Proof.Machine.execStrCmdWarm m s
  | .startStepComplete step unit fails => Sys2Proof.Machine.execStartStepComplete step unit fails s
  | .enterService => Sys2Proof.Machine.execEnterService s
  | .startTimeout => Sys2Proof.Machine.execStartTimeout s
  | .failCountClear => Sys2Proof.Machine.execFailCountClear s
  | .retentionLoss => Sys2Proof.Machine.execRetentionLoss s
  | .calSave m => Sys2Proof.Machine.execCalSave m s
  | .calSaveComplete readBackGood => Sys2Proof.Machine.execCalSaveComplete readBackGood s
  | .calRestoreFactory m => Sys2Proof.Machine.execCalRestoreFactory m s
  | .sagNFall => Sys2Proof.Machine.execSagNFall s
  | .sagNRise => Sys2Proof.Machine.execSagNRise s
  | .sagLadderExpiry stage => Sys2Proof.Machine.execSagLadderExpiry stage s
  | .railMonitorCrossing rail mv => Sys2Proof.Machine.execRailMonitorCrossing rail mv s
  | .thermalMonitorCrossing temp => Sys2Proof.Machine.execThermalMonitorCrossing temp s
  | .shedStageEntry => Sys2Proof.Machine.execShedStageEntry s
  | .shedDwellExpiry => Sys2Proof.Machine.execShedDwellExpiry s
  | .heldExit => Sys2Proof.Machine.execHeldExit s
  | .vddAuxLoss => Sys2Proof.Machine.execVddAuxLoss s
  | .dumpComplete => Sys2Proof.Machine.execDumpComplete s
  | .dumpTimeout => Sys2Proof.Machine.execDumpTimeout s
  | .dumpRelease m => Sys2Proof.Machine.execDumpRelease m s
  | .logPop m => Sys2Proof.Machine.execLogPop m s
  | .intEoi m => Sys2Proof.Machine.execIntEoi m s
  | .snapTake m => Sys2Proof.Machine.execSnapTake m s
  | .snapHold m => Sys2Proof.Machine.execSnapHold m s
  | .snapRelease m => Sys2Proof.Machine.execSnapRelease m s
  | .uartFrameRx start bits stop => Sys2Proof.Machine.execUartFrameRx start bits stop s
  | .uartRxPop m => Sys2Proof.Machine.execUartRxPop m s
  | .uartTxWrite m byte => Sys2Proof.Machine.execUartTxWrite m byte s
  | .indCtlWrite m v => Sys2Proof.Machine.execIndCtlWrite m v s
  | .indAddrWrite m v => Sys2Proof.Machine.execIndAddrWrite m v s
  | .indDataRead m => Sys2Proof.Machine.execIndDataRead m s
  | .indDataWrite m v => Sys2Proof.Machine.execIndDataWrite m v s
  | .indPrefetchComplete m => Sys2Proof.Machine.execIndPrefetchComplete m s
  | .indWaitTimeout m => Sys2Proof.Machine.execIndWaitTimeout m s
  | .fuseBlow m slot auxInLimits => Sys2Proof.Machine.execFuseBlow m slot auxInLimits s
  | .testEntry drivesBalls => Sys2Proof.Machine.execTestEntry drivesBalls s
  | .testExit => Sys2Proof.Machine.execTestExit s
  | .abaideLaneDown lane => Sys2Proof.Machine.execAbaideLaneDown lane s
  | .pcieLinkUp h speed width => Sys2Proof.Machine.execPcieLinkUp h speed width s
  | .remoteFaultEnd p => Sys2Proof.Machine.execRemoteFaultEnd p s
  | .cadenceEntryChange p => Sys2Proof.Machine.execCadenceEntryChange p s
  | .pulseOutputEdge j => Sys2Proof.Machine.execPulseOutputEdge j s
  | .scheduleWindowClose k => Sys2Proof.Machine.execScheduleWindowClose k s
  | .serdesReadaptationPass n => Sys2Proof.Machine.execSerdesReadaptationPass n s
  | .replayWalkEnd n => Sys2Proof.Machine.execReplayWalkEnd n s
  | .abaideBadFrame lane crcGood type => Sys2Proof.Machine.execAbaideBadFrame lane crcGood type s
  | .abaideFrameTx => Sys2Proof.Machine.execAbaideFrameTx s
  | .msixUnmask h fn entry => Sys2Proof.Machine.execMsixUnmask h fn entry s
  | .uartFrameTx => Sys2Proof.Machine.execUartFrameTx s
  | .supMboxInRead => Sys2Proof.Machine.execSupMboxInRead s
  | .supMboxOutRead m => Sys2Proof.Machine.execSupMboxOutRead m s
  | .prbsCheckerLock l lock errors => Sys2Proof.Machine.execPrbsCheckerLock l lock errors s
  | .dramZqLatch n => Sys2Proof.Machine.execDramZqLatch n s

end Sys2Proof.Machine
end

