-- ==== Sys2Proof/Machine/Tick.lean ====
section
/-! DEFINITION. One core clock (DESIGN CHOICE: an empty queue lets one clock pass): time bases and axes, walks, queues that
become eligible, slot counters, and the log's intake. -/

namespace Sys2Proof.Machine

/-! ## The log's intake (R617 to R620) -/

/-- The place of an entry among those of one clock (R618): chip level first, then region, block and code. -/
def LogItem.order (x : LogItem) : Nat :=
  b2n (x.block != 0xF) * 2 ^ 24 + x.region * 2 ^ 20 + x.block * 2 ^ 16 + x.code

/-- An entry put among waiting ones, by clock and then by its order. -/
def insertItem (x : LogItem) : List LogItem → List LogItem
  | [] => [x]
  | y :: l =>
    if y.clock < x.clock ∨ (y.clock = x.clock ∧ y.order ≤ x.order) then y :: insertItem x l else x :: y :: l

/-- The intake in the order of R618. -/
def orderedIntake (l : List LogItem) : List LogItem := l.foldl (fun acc x => insertItem x acc) []

/-- An entry of the intake as it is written (R617). -/
def Dev.entryOf (d : Dev) (x : LogItem) : LogEntry :=
  let t := d.fget R.LOG_CFG R.LOG_CFG.TB
  { code := x.code, state := d.chip.state, region := x.region, block := x.block,
    tbValid := d.flag (R.TB_STAT t) R.TB_STAT.VALID, seq := d.log.nextSeq, time := (d.tbase t).ns, data := x.data % 2 ^ 32 }

/-- Append an entry to the log. -/
def Dev.appendEntry (d : Dev) (e : LogEntry) (drop : Nat) : Dev :=
  { d with log := { d.log with entries := d.log.entries.drop drop ++ [e], nextSeq := (d.log.nextSeq + 1) % 2 ^ 32 } }

/-- Write an entry (R619). -/
def Dev.writeEntry (d : Dev) (x : LogItem) : Dev :=
  if d.log.entries.length < 8192 then (d.appendEntry (d.entryOf x) 0).bump R.LOG_WRITTEN
  else
    let d := d.setFlag R.LOG_STAT R.LOG_STAT.LOG_FULL true
    if d.flag R.LOG_CFG R.LOG_CFG.OVERWRITE then
      ((d.appendEntry (d.entryOf x) 1).bump R.LOG_WRITTEN).bump R.LOG_OVERWRITTEN
    else d.bump R.LOG_DROPPED

/-- Up to four entries a clock leave the intake; before the log is cleared in step 5 of a cold start they wait (R620). -/
def Dev.logTick (d : Dev) : Dev :=
  if d.log.intake.isEmpty || (d.chip.state == .startCold && decide (d.start.step ≤ 5)) then d
  else
    let l := orderedIntake d.log.intake
    (({ d with log := { d.log with intake := l.drop 4 } } : Dev)).each (l.take 4) (fun x d => d.writeEntry x)

/-! ## Slots of the pipelines (Table 15-4) -/

/-- The pipeline slots of a clock that no descriptor took. -/
def Dev.pipeSlots (d : Dev) : Dev :=
  let busy := d.frame.busy
  let d := d.each [0, 1, 2, 3] (fun n d =>
    if busy.testBit n || !d.regionEnabled n || d.chip.state == .held then d
    else d.bumpPerf (if d.offered n then R.PIPE_SLOT_BACK n else R.PIPE_SLOT_FRONT n))
  { d with frame := { d.frame with busy := 0 } }

/-- TWN_DUAL_MS counts each millisecond that TWN_STAT.DUAL is 1 (R514). -/
def Dev.dualTick (d : Dev) : Dev :=
  if !d.flag R.TWN_STAT R.TWN_STAT.DUAL then d
  else
    let k := d.twin.lease.dual + 1
    if k < ms then d.setLease { d.twin.lease with dual := k }
    else (d.setLease { d.twin.lease with dual := 0 }).bump R.TWN_DUAL_MS

/-- The ports whose queues hold frames: heads that are too old or wait for their return, and the virtual time of queues that become
eligible (R316, R324, R358); what was refused is asked again (R48), and releases of holds end (R330). -/
def Dev.queuesTick (d : Dev) : Dev :=
  let d := d.each ((d.frame.queues.map (fun x => queuePort (x.1 / 0x1000000) (x.1 % 0x1000000))).eraseDups) (fun p d =>
    (d.headsTick p).refreshTags p)
  d.each [0, 1, 2, 3] (fun n d => ((d.askAgain n).hostAskAgain n).releaseDone n)

/-- One core clock of the device. -/
def Dev.tick (d : Dev) : Dev :=
  let d : Dev := { d with now := d.now + 1 }
  let d := d.timeTick
  if d.chip.state = .held then d.logTick
  else
    let d := (d.each [0, 1, 2, 3] (fun n d => d.relocateTick n)).exitNext
    d.floorTick.queuesTick.dramTick.pipeSlots.engineSlots.dualTick.logTick

/-- A clock begins; frames that came to the Granary after its turns in the clock before take theirs in this one, and
so does a snapshot an axis has brought. The grains released in the one before can be allocated (R296), and its events find the device as it stands
now (R24, R307); port marks written in the one before take effect (R587). -/
def Dev.newClock (d : Dev) : Dev :=
  let marks := d.clk.marks
  let d : Dev := { d.eoiMessage.grainsEnter with clk := { ClockPart.init with granary := d.clk.granary, snap := d.clk.snap } }
  ({ d with before := d.toDevCore } : Dev).each marks (fun p d => d.refreshEnabled p)

/-- One core clock: the clock in progress ends, with what its causes and errors bring (R6, R9), and the next begins; a device
that is OFF has no clock. -/
def State.tick (s : State) : State :=
  if s.dev.chip.state = .off then s
  else
    let b := s.dev.intDeliverable
    let t := (s.onDev (fun d => { d with out := [] })).clockEnd
    { ((t.onDev (·.tick)).settle b).onDev (·.newClock) with pending := s.pending }

end Sys2Proof.Machine
end

