-- ==== Sys2Proof/WellFormed.lean ====
section
/-! DEFINITION. Which commands are well formed: operands that their types admit and the spec does not. The meanings are
total: an ill-formed command is one that no agent sends. -/

namespace Sys2Proof

/-- A port with a MAC: P0 to P127, H4 (132), H5 (133); Table 6-2 gives codes 128 to 131 to the PCIe host ports. -/
def PortId.wf (p : PortId) : Bool := decide (p.val < 128 ∨ 132 ≤ p.val)

/-- A source of frames that exists. -/
def FrameSource.wf : FrameSource → Bool
  | .port p => PortId.wf p
  | .host _ _ | .engine _ => true

/-- A core's thread: the supervisor core runs one (R474 to R476). -/
def Core.threadWf (c : Core) (t : Fin 8) : Bool :=
  match c with
  | .pe _ => true
  | .supervisor => t.val == 0

/-- A record of a LOFT message: a slot's data of at most 256 bytes (R471). -/
def LoftUpdate.wf (r : LoftUpdate) : Bool := decide (r.data.length ≤ 256) && decide (r.length.toNat ≤ 256)

/-- A block of a region whose lanes step 6 calibrates: a port block, or the host block with H4 or H5. -/
def StepUnit.wf (step : Nat) : StepUnit → Bool
  | .chip => decide (1 ≤ step ∧ step ≤ 5)
  | .region _ => decide (7 ≤ step ∧ step ≤ 9)
  | .block n k => step == 6 && (decide (k.val < 4) || (k.val == 9 && n.val % 2 == 1))

/-- The well-formed commands. -/
def Instr.wf : Instr → Bool
  | .calibrationComplete p | .signalDetected p | .lockAchieved p _ _ | .lockLost p _ _ | .alignComplete p _ _
  | .holdUpExpiry p | .linkFault p _ _ | .faultEnd p | .holdDownExpiry p | .remoteFaultReceived p | .remoteFaultEnd p
  | .frameBegin p | .transmitSelect p | .transmitComplete p | .transmitCut p | .portNotReady p => PortId.wf p
  | .frameEnd p bytes _ => PortId.wf p && decide (bytes.length ≤ 65536)
  | .landingChargeRetry src => src.wf
  | .headWindowOffer src head => src.wf && decide (head.length ≤ 64)
  | .i2cTransaction _ _ _ wlen rlen _ => decide (wlen.toNat ≤ 16) && decide (rlen.toNat ≤ 16)
  | .i2cCommandEnd _ _ _ _ bytes => decide (bytes.length ≤ 16)
  | .wnwBadop _ _ op => op == 0 || decide (4 < op.toNat)
  | .tblBadop _ _ _ op => op == 0 || decide (6 < op.toNat)
  | .polBadop _ _ op => op == 0 || decide (3 < op.toNat)
  | .schFlush _ n port _ => decide (port.val < 32) || n.val % 2 == 1
  | .opr c t | .addk c t | .andk c t | .ork c t | .xork c t | .insh c t | .shlk c t | .shrk c t | .sark c t | .ltk c t
  | .setk c t | .rdw c t | .rdb c t | .wrw c t | .wrb c t | .rds c t | .wrs c t | .rdx c t | .wrx c t | .rdt c t
  | .rdf c t | .atom c t | .barr c t | .ifeq c t | .ifne c t | .iflt c t | .ifge c t | .iflo c t | .ifhs c t
  | .call c t | .ret c t | .go c t | .send c t | .fwd c t | .drop c t | .done c t | .lfput c t | .lfget c t
  | .crc c t => c.threadWf t
  | .loft _ _ _ _ records => decide (1 ≤ records.length ∧ records.length ≤ 3) && records.all LoftUpdate.wf
  | .startStepComplete step unit _ => unit.wf step.val
  | .coldStart cause => [0, 1, 3, 4, 6, 9, 10, 11].contains cause.val
  | .warmStart cause => [2, 3, 5, 8, 10].contains cause.val
  | .txDescriptorFetch _ _ _ _ words => words.length == 8
  | .rxHandover _ _ _ descs => descs.all (fun d => d.length == 8)
  | .registerWrite .. | .rcFieldRead .. | .tbNsRead .. | .chainedCounterRead .. | .loftUsLoRead ..
  | .escalationTimeout .. | .containedRestartStart .. | .containedRestartEnd .. | .regionRestartStart ..
  | .regionRestartEnd .. | .chipFatalError .. | .backgroundSlotGrant .. | .enqArrival .. | .readArrival ..
  | .regrArrival .. | .regwArrival .. | .dataArrival .. | .cplArrival .. | .nackArrival .. | .floorTransferRetry ..
  | .pipelineSlotGrant .. | .mirrorCopyTimeout .. | .rgnRestartWarm .. | .imageCopyChecked .. | .flashOperationStart
  | .flashOperationComplete | .verifyA .. | .verifyB .. | .verifyComplete .. | .advanceSvn .. | .revokeSlot ..
  | .relayoutArm .. | .relayoutDrainComplete .. | .relayoutDrainTimeout .. | .refclkLost .. | .refclkReturn ..
  | .mdioC22Write .. | .mdioC22Read .. | .mdioC45Address .. | .mdioC45Write .. | .mdioC45Read ..
  | .mdioC45PostReadInc .. | .mdioFrameEnd .. | .i2cBusClearCmd .. | .i2cStretchTimeout .. | .i2cArbitrationLost ..
  | .tbRateWrite .. | .tbSet .. | .tbStep .. | .holdoverWatchdogExpiry .. | .mainsEdge .. | .mainsMiss
  | .mainsEnable .. | .odoEdge .. | .odoSet .. | .odoStillExpiry | .cadenceSwitch .. | .captureEdge .. | .capturePop ..
  | .scheduleWindowOpen .. | .scheduleFallbackWindow .. | .wnwWrite .. | .wnwInsert .. | .wnwDelete ..
  | .wnwRemove .. | .wnwCmdStep .. | .wnwCmdComplete .. | .patternMapRebuildDone .. | .tblInsert .. | .tblUpdate ..
  | .tblDelete .. | .tblLookup .. | .tblVlanWrite .. | .tblGroupWrite .. | .tblCmdStart .. | .tblCmdComplete ..
  | .learnFilterExpiry .. | .learnDispatch .. | .tblLrnPop .. | .gleanerBurst .. | .spareCopyComplete ..
  | .tblShadowAdj .. | .tblGlnMismatchPop .. | .tableVerifyPassDone .. | .decisionCharge .. | .frameCommit ..
  | .ownerRelease .. | .ringCacheRefill .. | .ringCacheWriteback .. | .spillComplete .. | .baleReturn ..
  | .grnHoldStart .. | .grnHoldEnd .. | .holdTimeout .. | .polWrite .. | .polRead .. | .polClear .. | .gateArm ..
  | .recoveryResetExpiry .. | .dramReadRequest .. | .dramWriteRequest .. | .dramCommandIssue .. | .dramReadComplete ..
  | .dramRefreshDue .. | .dramTempRead .. | .dramPowerDownIdle .. | .dramSelfRefreshIdle .. | .dramTrainingComplete ..
  | .dramTrackingInterval .. | .dramTrackingPassDone .. | .dramReadTimeout .. | .drcRequalify .. | .gapSkipTimeout ..
  | .retryResend .. | .replayStart .. | .taskDispatch .. | .taskWatchdogExpiry .. | .tskFlush .. | .dirGets ..
  | .dirGetx .. | .dirPutx .. | .supWatchdogExpiry | .supWdogKick .. | .supMboxInWrite .. | .loftMirrorSend ..
  | .loftResyncAll .. | .vote .. | .strikeClear .. | .disagreeClear .. | .channelSelfTest .. | .abaideLaneUp ..
  | .hello .. | .claim .. | .claimAck .. | .renew .. | .renewAck .. | .yield .. | .status .. | .keepalive ..
  | .resyncReq .. | .twinmsg .. | .abaideGapExpiry .. | .abaideSilenceExpiry | .keepaliveTimer | .helloResendTimer
  | .renewTimer | .ownLeaseExpiry | .viewDeadlineExpiry | .claimResendTimer | .twnCmdYield .. | .abdTxSend ..
  | .compatStatusTimer | .compatActiveTimeout | .compatDualTimeout | .compatYieldTimeout | .resetSafeStateExpiry
  | .pcieConfigRequest .. | .pciePerst .. | .pcieHotReset .. | .pcieLinkDown .. | .pfFlr .. | .vfFlr .. | .instReset ..
  | .instResetComplete .. | .dmaError .. | .dmaCompletionTimeout .. | .txqTailWrite .. | .rxqTailWrite ..
  | .txFrameReadComplete .. | .txWriteback .. | .tsWaitExpiry .. | .rxWaitExpiry .. | .instMsgSend ..
  | .msixModerationExpiry .. | .powerOn | .resetNFall | .resetNRise .. | .strCmdCold .. | .strCmdWarm ..
  | .enterService | .startTimeout | .failCountClear | .retentionLoss | .calSave .. | .calSaveComplete ..
  | .calRestoreFactory .. | .sagNFall | .sagNRise | .sagLadderExpiry .. | .railMonitorCrossing ..
  | .thermalMonitorCrossing .. | .shedStageEntry | .shedDwellExpiry | .heldExit | .vddAuxLoss | .dumpComplete
  | .dumpTimeout | .dumpRelease .. | .logPop .. | .intEoi .. | .snapTake .. | .snapHold .. | .snapRelease ..
  | .uartFrameRx .. | .uartRxPop .. | .uartTxWrite .. | .indCtlWrite .. | .indAddrWrite .. | .indDataRead ..
  | .indDataWrite .. | .indPrefetchComplete .. | .indWaitTimeout .. | .fuseBlow .. | .testEntry .. | .testExit
  | .abaideLaneDown .. | .pcieLinkUp .. | .cadenceEntryChange .. | .pulseOutputEdge .. | .scheduleWindowClose ..
  | .serdesReadaptationPass .. | .replayWalkEnd .. | .abaideBadFrame .. | .abaideFrameTx | .msixUnmask ..
  | .uartFrameTx | .supMboxInRead | .supMboxOutRead .. | .prbsCheckerLock .. | .dramZqLatch .. => true

end Sys2Proof
end

