-- ==== Sys2Proof/Safety.lean ====
section
/-! DEFINITION. What counts as a safe run, in the terms the statements use: a command that runs, what fuses and flash keep,
and a device on which nothing waits to be settled. -/

namespace Sys2Proof.Machine

/-- A command runs: it answers a next state. -/
def Runs (c : Instr) (s t : State) : Prop := exec c s = .next t

/-- One key slot's fuses hold every bit that another had (fuses blow, and are never restored; R97, R98). -/
def KeySlot.keeps (a b : KeySlot) : Prop :=
  (a.programmed = true → b.programmed = true) ∧ (a.revoked = true → b.revoked = true)
    ∧ (a.programmed = true → b.hash = a.hash)

/-- The fuses of one state hold every fuse that is blown in another, and the same factory identity. -/
def Fuses.keeps (a b : Fuses) : Prop :=
  b.keys.length = a.keys.length ∧ (∀ k, (a.slot k).keeps (b.slot k)) ∧ a.svn &&& b.svn = a.svn
    ∧ b.serial = a.serial ∧ b.rev = a.rev ∧ b.grade = a.grade ∧ b.cal = a.cal

/-- The flash's canonical form: addresses strictly rising, no byte listed that an erased one reads. -/
def flashCanonical (l : List Host.Cell) : Prop := l.Pairwise (fun x y => x.1 < y.1) ∧ ∀ x ∈ l, x.2 ≠ 0xFF#8

/-- A device on which nothing waits to be settled when a command ends: it has its supplies and is not starting; no error is
raised; no burst is on its way to the chip port; no news waits between units; no frame waits for receive descriptors or is served; no
window opens a tracking pass; no dump is under way; and the chip sends no message (no port takes it, or no source is enabled). -/
structure Dev.Calm (d : Dev) : Prop where
  on : d.chip.state ≠ .off
  started : d.runState.starting = false
  raised : d.raised = []
  silo : ∀ e ∈ d.out, e.isSilo = false
  tsBack : d.frame.tsBack = []
  heard : d.frame.heard = []
  hostRx : d.frame.hostRx = []
  rxHand : d.host.rxHand = []
  rxWait : ∀ x ∈ d.timers, x.1.kind ≠ .rxWait
  passes : d.time.passes = 0
  dump : d.dump.active = false
  message : d.intPort = none ∨ d.fget R.INT_CHIP_EN R.INT_CHIP_EN.EN = 0

/-- The state a command leaves whose own effect on the machine is `act`: that effect, then what the end of every command
settles (units hear of one another, the chip's message is sent), the queue as it was. Errors raised are handled as the clock ends. -/
def State.did (s : State) (act : State → State) : State := { (act s).settle s.dev.intDeliverable with pending := s.pending }

/-- The same for an effect on the device alone. -/
def State.done (s : State) (g : Dev → Dev) : State := s.did (fun s => s.onDev g)

/-- What the handling of a clock's one error comes to, where `act` handles it: that, then the errors it has raised in turn. -/
def State.handled (s : State) (act : State → State) : State := (act s).handleRaised 64

/-- A write of the register at `a` by master m reaches it. -/
def Dev.Accepts (d : Dev) (m : Master) (a : Nat) : Prop := d.judgeWrite m a 15 = (d, some a)

/-- A write of the register at `a` by master m reaches it, and its live group takes it. -/
def Dev.Takes (d : Dev) (m : Master) (a : Nat) (g : LiveGroup) : Prop := d.Accepts m a ∧ d.groupLive g a = true

/-- A read of the register at `a` by master m is answered. -/
def Dev.Answers (d : Dev) (m : Master) (a : Nat) : Prop :=
  d.masterServed m = true ∧ decodeOffset a = some a ∧ d.recoveryServes a = true ∧ d.regionServes a = true
    ∧ (regPrivileged a = true → d.privileged m a = true)

/-- Instruction `w` of code `op` issues on thread t of core e, whose contents are x: the core runs and has not issued in this clock, the
thread is the READY one whose turn it is, and the word at its PC can be read, is `w`, and is legal. -/
def Dev.Issues (d : Dev) (e t op : Nat) (w : Word) (x : Thread) : Prop :=
  x = d.thread e t ∧ d.coreRuns e = true ∧ d.engine.issued.testBit e = false ∧ d.nextThread e = some t ∧ d.fault (pcKey e x.pc) ≠ 2 ∧ w = d.fetch e x.pc
    ∧ legalWord e w = true ∧ opOf w = op

/-- The value a field holds after a software write (R19, R92, Table 0-8); `set` holds the bits that hardware has set in the clock (R22). -/
def fieldAfter (live : Bool) (set : Nat) (f : FieldDesc) (old v : Word) : Nat :=
  match f.access with
  | .rw => f.fld.get v
  | .rwl => if live then f.fld.get v else f.fld.get old
  | .w1c => Nat.land (f.fld.get old) (Nat.lor (Nat.xor (2 ^ f.fld.width - 1) (f.fld.get v)) (bits set f.fld.lo f.fld.width))
  | _ => f.fld.get old

end Sys2Proof.Machine
end

