-- ==== Sys2Proof/Certificates/Slice0/Obligations.lean ====
section
/-! DEFINITION. The statements for the provers. Most say what one command does: on a device that is not OFF, and on the conditions named,
the command answers the state its effect leaves (`State.done` for an effect on the device alone, `State.did` for one beyond it,
`State.handled` for one error handled), which the end of the command settles; nothing else changes. -/

open Sys2Proof Sys2Proof.Machine

namespace Sys2Proof.Machine

/-- An MDIO frame starts (R153, R154): BUSY is 1, whether the frame reads is remembered, and the frame leaves for the bus, after a preamble
unless NO_PRE is 1, at the MDC that DIV gives, of at least 40. -/
def mdioStarted (d : Dev) (b st op phy reg data kind : Nat) : Dev :=
  let d := d.setFlag (R.MDIO_STAT b) R.MDIO_STAT.BUSY true
  let d : Dev := { d with mgmt := { d.mgmt with mdio := Map.put (fun _ => 0) d.mgmt.mdio b kind } }
  d.emit (.mdio b (!d.flag (R.MDIO_CFG b) R.MDIO_CFG.NO_PRE) (max 40 (d.fget (R.MDIO_CFG b) R.MDIO_CFG.DIV)) st op phy reg data)

/-- An I2C command or bus clear has ended: nothing is in progress, BUSY is 0 and DONE is 1 (R158). -/
def i2cEnded (d : Dev) (b : Nat) : Dev :=
  ((({ d with mgmt := { d.mgmt with i2c := Map.put (fun _ => none) d.mgmt.i2c b none } } : Dev).setFlag (R.I2C_STAT b)
    R.I2C_STAT.BUSY false).setFlag (R.I2C_STAT b) R.I2C_STAT.DONE true)

/-- The pattern number of the staged rule (Table 5-4). -/
def stagedPattern (d : Dev) (n : Nat) : Nat := bits (d.rd (R.WNW_CMD_DATA n 0)).toNat 16 14

/-- A Winnow command starts (R234, R235): the words its checks read are read, BUSY is 1, the staged words are taken, and the steps it has
are to come, the first at the next clock. -/
def ruleBegun (n op addr result : Nat) (steps : List WnwStep) (d : Dev) : Dev :=
  let e := (d.touchAll n (d.checkReads n op addr (stagedPattern d n))).2
  (e.setFlag (R.WNW_CMD_STAT n) R.WNW_CMD_STAT.BUSY true).setWnw n { e.wnw n with
    cmd := some { op := op, addr := addr, words := (List.range 4).map (fun i => d.rd (R.WNW_CMD_DATA n i)), steps := steps,
                  notBefore := e.now + 1, moved := 0, result := result, absent := none } }

/-- A step of a Winnow command has taken effect (R237, R240): the steps left, when the next may come, the entries moved and the
pattern left without an entry. -/
def ruleStepped (n : Nat) (c : WnwCmd) (rest : List WnwStep) (wait moved : Nat) (absent : Option Nat) (d : Dev) : Dev :=
  d.setWnw n { d.wnw n with
    cmd := some { c with steps := rest, notBefore := d.now + wait, moved := moved, absent := absent } }

/-- A step of a Winnow command takes its slot (R242, R282): the words it reads are read, its digest segment counts as unsettled, and its
bank has served it. -/
def ruleTurn (n : Nat) (st : WnwStep) (d : Dev) : Dev :=
  let e := (d.touchAll n (st.reads n)).2
  (e.touchRule n st.entry).backgroundServed n [e.bankAt n 2 (st.entry / 4096)]

/-- The address-table and VLAN commands of a channel with their OP codes (Table 6-5). -/
def tblCommands (m : Master) (n c : Fin 4) (op : BitVec 4) : List (Instr × Nat) :=
  [(.tblInsert m n c, 1), (.tblUpdate m n c, 2), (.tblDelete m n c, 3), (.tblLookup m n c, 4), (.tblVlanWrite m n c, 5),
   (.tblGroupWrite m n c, 6), (.tblBadop m n c op, op.toNat)]

/-- How a table command ends (R270): BUSY is 0, DONE 1, with its result and moves. -/
def tblEnds (n c result moves : Nat) (d : Dev) : Dev :=
  let st := R.TBL_CMD_STAT n c
  (((d.setFlag st R.TBL_CMD_STAT.BUSY false).setFlag st R.TBL_CMD_STAT.DONE true).fset st R.TBL_CMD_STAT.RESULT result).fset
    st R.TBL_CMD_STAT.MOVES (min 255 moves)

/-- A command's delta is added to its segment's shadow word (R280). -/
def tblDelta (n : Nat) (c : TblCmd) (d : Dev) : Dev :=
  d.wrMem (shadowKey n c.segment) (d.rd (shadowKey n c.segment) + BitVec.ofNat 32 c.delta)

/-- The block runs no command (R269). -/
def tblIdle (n : Nat) (d : Dev) : Dev := d.modTbl n fun t => { t with running := none }

/-- A table command at its end, before its last write (R242, R271, R275): a relocation it needs is planned, the words its lookup reads are
read, and the banks of the address table have served it. -/
def tblTurn (n : Nat) (c : TblCmd) (d : Dev) : Dev :=
  let d := (d.planTbl n).when (decide (1 ≤ c.op ∧ c.op ≤ 4)) (·.touchLookup n c.key)
  d.backgroundServed n (d.ownerBanks n 1)

/-- A policer command ends with a result (Table 8-3). -/
def polEnds (n result : Nat) (d : Dev) : Dev :=
  (d.fset (R.POL_CMD_STAT n) R.POL_CMD_STAT.RESULT result).setFlag (R.POL_CMD_STAT n) R.POL_CMD_STAT.DONE true

/-- What the scheduler of port p clears and counts before it selects (R316, R317, R324, R326, R334, R366, R417). -/
def Dev.beforeSelect (d : Dev) (p : Nat) : Dev :=
  let n := portRegion p
  let d := d.each (List.range 8) (fun i d => d.cleanHead n (portQueue p i) ((d.queue n (portQueue p i)).frames.length + 1))
  ((d.refreshTags p).guardWaits p).lateReturns p

/-- What a frame asked for a timestamp is answered when it is not sent whole (R150). -/
def Dev.noStamp (d : Dev) (x : Descr) : Dev :=
  match x.tsReq with
  | some r => if x.stampHere then { d with frame := { d.frame with tsBack := d.frame.tsBack ++ [⟨r.owner, none, false⟩] } } else d
  | none => d

/-- A read that cannot be corrected: it is answered marked, counted and recorded, its bale is bad, and the channel fails (cause 2)
once more than UNCORR_LIMIT of them fall within a second (R387, R403). -/
def Dev.readBad (d : Dev) (n : Nat) (tag : Bool) (r : DramRead) : Dev :=
  let d := (d.emit (.silo n r.burst none)).bump (R.DRC_UNCORR n)
  let d := (d.fset (R.DRC_LAST_ERR n) R.DRC_LAST_ERR.BURST r.burst).setFlag (R.DRC_LAST_ERR n) R.DRC_LAST_ERR.TAG tag
  let d := d.setFlag (R.DRC_EVT n) R.DRC_EVT.UNCORR true
  let d := d.setBaleStore n { d.baleStore n with bad := ((d.baleStore n).bad ++ [r.burst / 32]).eraseDups }
  let recent := ((d.dramOf n).uncorr.filter (fun t => decide (d.now < t + 1000 * ms))) ++ [d.now]
  let d := d.setDram n { d.dramOf n with uncorr := recent }
  let lim := d.fget (R.DRC_CFG n) R.DRC_CFG.UNCORR_LIMIT
  if lim ≠ 0 ∧ lim < recent.length then d.channelFail n 2 else d

/-- The read that was issued first leaves. -/
def Dev.readReturned (d : Dev) (n : Nat) (rest : List DramRead) : Dev := d.setDram n { d.dramOf n with issued := rest }

/-- A read with a single-bit error: its corrected data is answered and counted, and written back unless a write of its burst is
queued. -/
def Dev.readCorrected (d : Dev) (n : Nat) (r : DramRead) (v : Nat) : Dev :=
  let d := (d.emit (.silo n r.burst (some v))).bump (R.DRC_CORR n)
  let d := d.corrected n 7 none
  if (d.dramOf n).writeQ.any (fun w => w.burst == r.burst) then d else d.dramWrite n r.burst v

/-- What a READY channel writes of a temperature reading (R395). -/
def Dev.tempRead (d : Dev) (n die0 die1 mult : Nat) (hot : Bool) : Dev :=
  let a := R.DRC_STAT n
  let d := (d.fset (R.DRC_TEMP n) R.DRC_TEMP.DIE0 die0).fset (R.DRC_TEMP n) R.DRC_TEMP.DIE1 die1
  let d := (d.fset a R.DRC_STAT.REFRESH_MULT (if hot then 2 else min 2 mult)).setFlag a R.DRC_STAT.HOT hot
  d.when hot (·.setFlag (R.DRC_EVT n) R.DRC_EVT.HOT true)

/-- A check ends: CHECK_FAIL says how (R400). -/
def Dev.checkEnds (d : Dev) (n : Nat) (ok : Bool) : Dev :=
  (d.setFlag (R.DRC_STAT n) R.DRC_STAT.CHECK_FAIL (!ok)).when (!ok) (·.setFlag (R.DRC_EVT n) R.DRC_EVT.CHECK_FAIL true)

/-- What the end of a tracking pass does before it may fail the channel (R400): the limits are those the clock began with (R23). -/
def Dev.passEnds (d : Dev) (n drift : Nat) (calOk : Bool) : Dev :=
  let a := R.DRC_STAT n
  let c := R.DRC_RT_CFG n
  let track := d.was.fget c R.DRC_RT_CFG.TRACK_PS
  let lim := max track (d.was.fget c R.DRC_RT_CFG.RETRAIN_PS)
  let check := (d.dramOf n).check
  let d := (d.setFlag a R.DRC_STAT.PASS false).bump (R.DRC_TRACK n)
  let d := d.when (decide (track < drift)) (·.phyAdjusted n)
  let d := d.when (decide (lim < drift)) (fun d =>
    ((d.phyRetrained n).bump (R.DRC_RETRAIN n)).setFlag (R.DRC_EVT n) R.DRC_EVT.RETRAIN_ADJ true)
  let d := d.when check (fun d => Dev.checkEnds d n calOk)
  (d.setDram n { d.dramOf n with check := false }).workDone 2 n

/-- The charge of a decided frame's class at its decision, with the journal entries of its targets (R304, R413). -/
def Dev.chargedFrame (d : Dev) (n : Nat) (l : Landing) (dec : Decision) (p m : Nat) (es : List Nat) : Dev :=
  ((d.charge n l.src dec.cls p l.need m).reserveEntries n es).setLanding { l with
    waiting := false, chargeCls := dec.cls, pool := p, minGr := m, phase := .charged,
    pre := some { dec with targets := assignEntries dec.targets es } }

/-- What the end of a topology hold of region n does: the held queues of the ports `mask` marks are emptied, but for
frames that entered them in this clock, the flush register is
cleared, the gates open (R328, R329). -/
def Dev.holdEnds (d : Dev) (n mask : Nat) : Dev :=
  let since := (d.holdOf n).since
  let held := (d.queuesOf n).filter (fun q => d.heldQueue n q && mask.testBit (q / 8))
  let d := d.each held (fun q d =>
    d.each ((d.idleFrames n q).filter (fun x => decide (x.queuedAt < d.now))) (fun x d => d.undeliver n q x))
  let d := (d.wr (R.GRN_HOLD_FLUSH n) 0).disarm ⟨.holdMax, n, 0⟩
  let d := d.setHold n { active := false, since := 0, releasing := true, lasted := d.now - since }
  (d.gatesOf n).releaseDone n

/-- An output staged by thread t of core e: with no task it has no effect; a fifth SEND, or a second disposition, faults with CAUSE 4
(R451). -/
def stagesOutput (e t : Nat) (x : Thread) (o : Output) (most : Nat) (like : Output → Bool) (d : Dev) : Dev :=
  match d.taskOf e t with
  | none => d.complete e t x
  | some k =>
    if most ≤ (k.outputs.filter like).length then d.threadFault e t 4
    else (d.setTask (e / 16) { k with outputs := k.outputs ++ [o] }).complete e t x

/-- An output of a task that is a SEND. -/
def outputSends (o : Output) : Bool := match o with | .send .. => true | _ => false

/-- The commands that stand for the instructions of a core's thread, with their OP codes (Table 11-5). -/
def coreInstructions (c : Core) (t : Fin 8) : List (Nat × Instr) :=
  [(0x00, .opr c t), (0x01, .addk c t), (0x02, .andk c t), (0x03, .ork c t), (0x04, .xork c t), (0x05, .insh c t), (0x06, .shlk c t),
    (0x07, .shrk c t), (0x08, .sark c t), (0x09, .ltk c t), (0x0A, .setk c t), (0x10, .rdw c t), (0x11, .rdb c t), (0x12, .wrw c t),
    (0x13, .wrb c t), (0x14, .rds c t), (0x15, .wrs c t), (0x16, .rdx c t), (0x17, .wrx c t), (0x18, .rdt c t), (0x19, .rdf c t),
    (0x1A, .atom c t), (0x1B, .barr c t), (0x20, .ifeq c t), (0x21, .ifne c t), (0x22, .iflt c t), (0x23, .ifge c t), (0x24, .iflo c t),
    (0x25, .ifhs c t), (0x28, .call c t), (0x29, .ret c t), (0x2A, .go c t), (0x30, .send c t), (0x31, .fwd c t), (0x32, .drop c t),
    (0x33, .done c t), (0x38, .lfput c t), (0x39, .lfget c t), (0x3B, .crc c t)]

/-- A resync record of the lowest slot that needs one joins the mirror queue, where it has room (R473). -/
def resyncJoins (n : Nat) (d : Dev) : Dev :=
  match (d.loftSlotsWith n (fun s => d.loftResync n s)).head? with
  | some s => if (d.mirrorQ n).length < 1024 then (d.setMirrorQ n (d.mirrorQ n ++ [d.loftRecord n s])).setLoftBit n s 18 false else d
  | none => d

/-- An LFPUT that takes its turn (R466, R468): the update's row of Table 11-8 gives the result, a free value where the slot's entry cannot
be read. -/
def putRuns (e t : Nat) (d : Dev) : Dev :=
  let x := { d.thread e t with waits := none }
  let w := d.fetch e x.pc
  let a := (x.reg (fieldA w)).toNat
  let len := bits a 16 9
  let ok := d.loftTouch (e / 16) (bits a 0 13) false
  let r := ok.2.loftPut (e / 16) (bits a 0 13) (d.dataBytes (e / 8) (x.reg (fieldB w)).toNat (min len 256)) len (x.reg 28).toNat
    (x.reg 29).toNat false
  if ok.1 = true then r.2.result e t x (fieldD w) (BitVec.ofNat 32 r.1) else ok.2.fresh.2.result e t x (fieldD w) ok.2.fresh.1

/-- An LFGET that takes its turn (R466, R470): the slot's 272 bytes go to the data space, and its word is the result. -/
def getRuns (e t : Nat) (d : Dev) : Dev :=
  let x := { d.thread e t with waits := none }
  let w := d.fetch e x.pc
  let b := (x.reg (fieldB w)).toNat
  let slot := bits (x.reg (fieldA w)).toNat 0 13
  let d := d.when ((Map.get (fun _ => []) d.engine.loftBusy (e / 16)).contains slot) (fun d => d.bump (R.LOFT_GET_WAIT (e / 16)))
  let ok := d.loftTouch (e / 16) slot true
  let d := (ok.2.loftUse (e / 16) slot).bump (R.LOFT_GET (e / 16))
  let g := d.loftGet (e / 16) slot
  let d := d.each (List.range 272) (fun i d => d.putDataByte (e / 8) (b + i) (g.1.getD i 0))
  if ok.1 = true then d.result e t x (fieldD w) (BitVec.ofNat 32 g.2) else d.fresh.2.result e t x (fieldD w) d.fresh.1

/-- A message of TYPE `type` with number `seq` and EPOCH `epoch` on a lane acts on device `e`: the lane is UP, or was as the clock began, the mode uses the TYPE, the
number is one the link accepts, and the EPOCH is the device's, or newer, which the device takes first (R495, R497, R511). -/
def Dev.Delivers (d : Dev) (lane type seq epoch : Nat) (e : Dev) : Prop :=
  (d.abdLanes.testBit lane || d.was.abdLanes.testBit lane) = true ∧ abdTypeUsed d.twinMode type = true ∧ (d.abdAccept seq).1 = true
    ∧ ((d.twinMode = 2 ∨ epoch = d.epoch) ∧ e = (d.abdAccept seq).2
      ∨ (¬(d.twinMode = 2 ∨ epoch = d.epoch) ∧ seqAfter 16 epoch d.epoch = true
        ∧ e = (d.abdAccept seq).2.fset R.TWN_STAT R.TWN_STAT.EPOCH epoch)
      ∨ (¬(d.twinMode = 2 ∨ epoch = d.epoch) ∧ seqAfter 16 epoch d.epoch = false ∧ type = 1 ∧ e = (d.abdAccept seq).2))

/-- An instance enters ERROR (R535). -/
def instFails (n i cause : Nat) (d : Dev) : Dev :=
  let a := R.INST_STAT n i
  let d := (d.fset a R.INST_STAT.STATE 3).fset a R.INST_STAT.ERR_CAUSE cause
  let d := ((d.bump (R.INST_DMA_ERR n i)).bump (R.HST_DMA_ERR n)).setFlag (R.HST_EVT n) R.HST_EVT.DMA_ERR true
  ((d.instEvt n i 1).txServe n).refreshRxWait n

/-- A completion of a read of an instance (R533, R534): of an earlier generation it is discarded and counted; one that meets a reset in its
clock is kept for that reset, which counts it; else it acts. -/
def hostAnswer (n i gen : Nat) (act : Dev → Dev) (d : Dev) : Dev :=
  if gen ≠ d.instGen n i then (d.bump (R.INST_STALE_CPL n i)).bump (R.HST_STALE_CPL n)
  else
    let d : Dev := { d with clk := { d.clk with completed := (n, i) :: d.clk.completed } }
    if d.clk.host.contains (.reset n i) then d else act d

/-- What a DMA error of an outstanding request does (R533, R535): an answer of an earlier generation is counted as stale; one of no
outstanding request, or of an instance that is neither ACTIVE nor in ERROR, does nothing; else the instance enters ERROR. -/
def dmaFails (n i q kind gen cause : Nat) (d : Dev) : Dev :=
  hostAnswer n i gen (fun d =>
    match (if d.instState n i = 2 ∨ d.instState n i = 3 then d.readFails n i q kind else none) with
    | none => d
    | some d => instFails n i cause d) d

/-- The slot of a ring a descriptor has come for: taken with its fields, or ended BAD_DESC (R537). -/
def descriptorTaken (n i q s : Nat) (w : List Word) (d : Dev) : Dev :=
  let r := d.txRing n i q
  let p := parseTx w s (d.flag (R.INSTE_GRANT n i) R.INSTE_GRANT.DIRECT)
  let x := if p.2 then p.1 else { p.1 with phase := .ready 4 none }
  let known := r.slots.any (fun y => y.slot == s)
  let r' := { r with
    fetching := false, slots := if known then r.slots.map (fun y => if y.slot = s then x else y) else r.slots ++ [x],
    next := if known then r.next else (r.next + 1) % d.txSize n i q }
  let d := (d.setTxRing n i q r').disarm (dmaTimer n i q 0)
  let d := d.when (!p.2) (fun d => (d.bump (R.INST_DESC_ERR n i)).instEvt n i 2)
  (d.kick n i q).txServe n

/-- A descriptor that comes is taken for the slot its ring reads, if it reads one (R537). -/
def descriptorComes (n i q : Nat) (w : List Word) (d : Dev) : Dev :=
  match (if (d.txRing n i q).fetching && d.instActive n i then d.fetchSlot n i q else none) with
  | none => d
  | some s => descriptorTaken n i q s w d

/-- The frame in hand enters the pipeline, or is discarded as spoofed (R538). -/
def handEnters (n i : Nat) (h : TxHand) (l : Landing) (b : List Byte) (d : Dev) : Dev :=
  let d := d.handDone n h .entered
  let d :=
    if d.sourceAllowed n i b then
      let l := { l with ended := true, bytes := b, head := b.take 64, phase := .offered }
      let g := (d.setLanding l).growLanding l
      match g.1 with
      | some _ => g.2
      | none => g.2.tellSender l false
    else (d.bump (R.HST_TX_SPOOF n)).releaseLanding l
  d.txServe n

/-- A frame's bytes come: those of the frame in hand, if its read is issued and they are as many as asked (R538). -/
def frameComes (n i : Nat) (b : List Byte) (d : Dev) : Dev :=
  match d.hand n with
  | none => d
  | some h =>
    match (d.txRing n i h.qp).slots.find? (fun s => s.slot == h.slot && s.phase == .reading),
          d.frame.landing.find? (fun l => l.id == h.landing) with
    | some s, some l => if h.inst ≠ i ∨ b.length ≠ s.length then d else handEnters n i h l b d
    | _, _ => d

/-- The frame at the head of a queue pair is written into the buffers of the descriptors read and handed over (R541, R542). -/
def handedOver (n i q : Nat) (h : HostFrame) (places : List (Nat × Option (Nat × List Byte))) (d : Dev) : Dev :=
  let b := h.body
  let head := (d.rd (R.RXQ_HEAD n i q)).toNat
  let size := d.rxSize n i q
  let gen := d.instGen n i
  let good := places.filterMap (fun x => if x.2.isSome then some x.1 else none)
  let d := d.each places (fun x d =>
    let a := d.rxSlotAddr n i q ((head + x.1) % size)
    let d :=
      match x.2 with
      | some (addr, part) =>
        let w := rxWords h.descr part.length b.length gen (good.head? == some x.1) (good.getLast? == some x.1)
        (d.emit (.hostWrite n i (d.pasid n i) addr part)).emit (.hostWrite n i (d.pasid n i) a (w.flatMap (leBytes 4)))
      | none =>
        let w := [2 ^ 24, 0, 0, 0, 0, 0, 0, gen * 256 + 2 ^ 31]
        (d.emit (.hostWrite n i (d.pasid n i) a (w.flatMap (leBytes 4)))).instEvt n i 2
    d.wroteBack n i q)
  let d := (d.rxDrop n).wr (R.RXQ_HEAD n i q) (BitVec.ofNat 32 ((head + places.length) % size))
  let d := (d.bump (R.QP_RX_FRAMES n i q)).bump (R.QP_RX_BYTES n i q) b.length
  (d.recipientDone n h.descr.uid i q true).refreshRxWait n

end Sys2Proof.Machine

/-- The commands that may change the flash: those that complete a flash operation or a calibration save, that restore factory
calibration, and writes of a register of any address. -/
def Sys2Proof.Instr.changesFlash : Instr → Bool
  | .flashOperationComplete | .calSaveComplete _ | .calRestoreFactory _ | .registerWrite _ _ _ _ | .wrx _ _ | .regwArrival _ _ => true
  | _ => false

/-- The register whose write is the command: its master, its address and the live group that guards it. -/
def Sys2Proof.Instr.commandRegister : Instr → Option (Master × Nat × LiveGroup)
  | .rgnRestartWarm m n => some (m, (R.RGN_RESTART n), .none)
  | .verifyA m => some (m, R.LDR_CMD, .none)
  | .verifyB m => some (m, R.LDR_CMD, .none)
  | .advanceSvn m => some (m, R.LDR_CMD, .none)
  | .revokeSlot m _ => some (m, R.LDR_CMD, .none)
  | .relayoutArm m _ _ => some (m, R.LDR_RELAYOUT, .none)
  | .mdioC22Write m b _ _ _ => some (m, (R.MDIO_CMD b), .none)
  | .mdioC22Read m b _ _ => some (m, (R.MDIO_CMD b), .none)
  | .mdioC45Address m b _ _ _ => some (m, (R.MDIO_CMD b), .none)
  | .mdioC45Write m b _ _ _ => some (m, (R.MDIO_CMD b), .none)
  | .mdioC45Read m b _ _ => some (m, (R.MDIO_CMD b), .none)
  | .mdioC45PostReadInc m b _ _ => some (m, (R.MDIO_CMD b), .none)
  | .i2cTransaction m b _ _ _ _ => some (m, (R.I2C_CMD b), .none)
  | .i2cBusClearCmd m b _ => some (m, (R.I2C_CMD b), .none)
  | .tbRateWrite m t _ => some (m, (R.TB_RATE t), .none)
  | .tbSet m t => some (m, (R.TB_CMD t), .none)
  | .tbStep m t => some (m, (R.TB_CMD t), .none)
  | .odoSet m => some (m, R.PH_ODO_CMD, .none)
  | .capturePop m i => some (m, (R.CAP_CFG i), .none)
  | .wnwWrite m n _ => some (m, (R.WNW_CMD n), (.rgn 3))
  | .wnwInsert m n _ => some (m, (R.WNW_CMD n), (.rgn 3))
  | .wnwDelete m n _ => some (m, (R.WNW_CMD n), (.rgn 3))
  | .wnwRemove m n _ => some (m, (R.WNW_CMD n), (.rgn 3))
  | .wnwBadop m n _ => some (m, (R.WNW_CMD n), (.rgn 3))
  | .tblInsert m n c => some (m, (R.TBL_CMD n c), .none)
  | .tblUpdate m n c => some (m, (R.TBL_CMD n c), .none)
  | .tblDelete m n c => some (m, (R.TBL_CMD n c), .none)
  | .tblLookup m n c => some (m, (R.TBL_CMD n c), .none)
  | .tblVlanWrite m n c => some (m, (R.TBL_CMD n c), .none)
  | .tblGroupWrite m n c => some (m, (R.TBL_CMD n c), .none)
  | .tblBadop m n c _ => some (m, (R.TBL_CMD n c), .none)
  | .tblLrnPop m n => some (m, (R.TBL_LRN_POP n), .none)
  | .tblShadowAdj m n _ _ => some (m, (R.TBL_SHADOW_ADJ n), .none)
  | .tblGlnMismatchPop m n => some (m, (R.TBL_GLN_MISMATCH n), .none)
  | .grnHoldStart m n => some (m, (R.GRN_HOLD_CMD n), .none)
  | .grnHoldEnd m n => some (m, (R.GRN_HOLD_CMD n), .none)
  | .polWrite m n _ => some (m, (R.POL_CMD n), (.rgn 4))
  | .polRead m n _ => some (m, (R.POL_CMD n), .none)
  | .polClear m n _ => some (m, (R.POL_CMD n), (.rgn 4))
  | .polBadop m n _ => some (m, (R.POL_CMD n), .none)
  | .drcRequalify m n => some (m, (R.DRC_CMD n), .none)
  | .tskFlush m n _ => some (m, (R.TSK_CMD n), .none)
  | .supWdogKick m => some (m, R.SUP_WDOG, .none)
  | .loftResyncAll m n => some (m, (R.LOFT_CMD n), .none)
  | .twnCmdYield m => some (m, R.TWN_CMD, .none)
  | .abdTxSend m _ _ => some (m, R.ABD_TX_CMD, .none)
  | .strCmdCold m => some (m, R.STR_CMD, .none)
  | .strCmdWarm m => some (m, R.STR_CMD, .none)
  | .calSave m => some (m, R.CAL_CMD, .none)
  | .calRestoreFactory m => some (m, R.CAL_CMD, .none)
  | .dumpRelease m => some (m, R.DUMP_CMD, .none)
  | .logPop m => some (m, R.LOG_POP, .none)
  | .intEoi m => some (m, R.INT_CTL, .none)
  | .snapTake m => some (m, R.SNAP_CMD, .none)
  | .snapHold m => some (m, R.SNAP_CMD, .none)
  | .snapRelease m => some (m, R.SNAP_CMD, .none)
  | .uartRxPop m => some (m, R.UART_RX_POP, .none)
  | .uartTxWrite m _ => some (m, R.UART_TX, .none)
  | _ => none

/-- The port or source that a command names, where it does not exist: host ports H0 to H3 (codes 128 to 131) have no MAC. -/
def Sys2Proof.Instr.namesAbsent : Instr → Bool
  | .calibrationComplete p => !portExists p
  | .signalDetected p => !portExists p
  | .lockAchieved p _ _ => !portExists p
  | .lockLost p _ _ => !portExists p
  | .alignComplete p _ _ => !portExists p
  | .holdUpExpiry p => !portExists p
  | .linkFault p _ _ => !portExists p
  | .faultEnd p => !portExists p
  | .holdDownExpiry p => !portExists p
  | .remoteFaultReceived p => !portExists p
  | .frameBegin p => !portExists p
  | .frameEnd p _ _ => !portExists p
  | .transmitSelect p => !portExists p
  | .transmitComplete p => !portExists p
  | .transmitCut p => !portExists p
  | .portNotReady p => !portExists p
  | .remoteFaultEnd p => !portExists p
  | .landingChargeRetry src => !sourceExists src
  | .headWindowOffer src _ => !sourceExists src
  | _ => false

/-- A step (the block's queue, first in, first out; R6, R9, R22 to R24): with a command at the front of the queue, it runs
that command on the state with the queue's rest; on an empty queue the core clock in progress ends and the next begins, or,
on a device that is OFF, nothing happens (the clock is the model's choice, assumption 3). As a clock ends, what came to the
time page, the lease, the Granary and the host ports takes its turn, then the causes for a change of state and the errors,
then the votes, the custody messages, the Loft and the task units. -/
def Obligations.StepRunsFront : Prop :=
  (∀ s : State,
    (∀ (c : Instr) (rest : List Instr), s.pending = c :: rest → step s = exec c { s with pending := rest })
    ∧ (s.pending = [] → s.dev.chip.state = .off → step s = .next s)
    ∧ (s.pending = [] → s.dev.chip.state ≠ .off → step s =
        let ended := ({ s with dev := { s.dev with out := [] } } : State).clockEnd
        .next { ((ended.onDev (·.tick)).settle s.dev.intDeliverable).onDev (·.newClock) with pending := s.pending }))
  ∧ (∀ s : State, s.clockEnd =
      ((s.onDev fun d => d.timeEnd.snapEnd.twinEnd.granaryEnd.hostEnd.resolveCauses).handleErrors.onDev fun d =>
        d.votesEnd.custodyEnd.enginesEnd).handleErrors)
  ∧ (∀ d : Dev, d.newClock =
      let e : Dev := { d.eoiMessage.grainsEnter with clk := { ClockPart.init with granary := d.clk.granary, snap := d.clk.snap } }
      ({ e with before := e.toDevCore } : Dev).each d.clk.marks (fun p d => d.refreshEnabled p))

/-- Every command runs: on every state it answers a next state, without a fault or a refusal, and leaves the queue alone; a
device that is OFF hears none but POWER_ON (R5, R558). -/
def Obligations.EveryCommandRuns : Prop :=
  ∀ (c : Instr) (s : State),
    (∃ t, exec c s = .next t ∧ t.pending = s.pending) ∧ (s.dev.chip.state = .off → c ≠ .powerOn → exec c s = .next s)

/-- Commands turned away (R93, R639, R646, R649, Table 6-2): where the write of its register is refused, a register command
does what the refusal does and nothing else; where the register's group is not live it is counted in LDR_LIVE_IGN and
nothing else; a command of a port or source that does not exist does nothing. -/
def Obligations.CommandsTurnedAway : Prop :=
  ∀ (c : Instr) (s : State), s.dev.chip.state ≠ .off →
    (∀ m a g, c.commandRegister = some (m, a, g) → (s.dev.judgeWrite m a 15).2 = none →
      exec c s = .next (s.done fun d => (d.judgeWrite m a 15).1))
    ∧ (∀ m a g, c.commandRegister = some (m, a, g) → s.dev.Accepts m a → s.dev.groupLive g a = false →
      exec c s = .next (s.done fun d => d.bump R.LDR_LIVE_IGN))
    ∧ (c.namesAbsent = true → exec c s = .next (s.done id))

/-- What reset leaves (R20, R180, R558, Table 14-1): no command waits; the chip is in a cold START whose second step runs,
at time 0, with 4 s for the start, and the clock begins with the state so; every field whose Cold entry gives a number
holds it; nothing is raised, sent or stored; the flash is in its canonical form. RGN_STAT, PB_STAT.REFCLK_OK,
CAL_STAT.NO_COPY and STR_COLD_CNT show what the model says of a part without supplies, references and calibration (log 2:
blank fuses and flash are the model's choice). -/
def Obligations.ResetLeaves : Prop :=
  let s := State.reset
  s.pending = [] ∧ s.dev.chip.state = .startCold ∧ s.dev.start.step = 2 ∧ s.dev.now = 0
  ∧ s.dev.timers = [(⟨.startLimit, 0, 0⟩, 4000 * ms)] ∧ s.dev.raised = [] ∧ s.dev.out = [] ∧ s.dev.faults = []
  ∧ s.dev.clk = ClockPart.init ∧ s.dev.before = s.dev.toDevCore
  ∧ s.dev.frame = FramePart.init ∧ s.dev.engine = EnginePart.init ∧ s.dev.dram = []
  ∧ flashCanonical s.flash
  ∧ ∀ (a : Nat) (r : RegDesc) (f : FieldDesc) (n : Nat), regAt a = some r → f ∈ r.fields → f.cold = .num n →
      a ≠ R.CAL_STAT → a ≠ R.STR_COLD_CNT → (∀ k < 4, a ≠ R.RGN_STAT k) → (∀ b < 16, a ≠ R.PB_STAT b) →
      s.dev.fget a f.fld = n % 2 ^ f.fld.width

/-- What no loss of supply clears (R97 to R99, R663, R664): every step leaves every blown fuse blown and the factory's
identity as it was, a programmed key slot's hash as it was, the flash's own parameters as they were, and the flash in its
canonical form. -/
def Obligations.StepKeepsFusesAndFlash : Prop :=
  ∀ s t : State, flashCanonical s.flash → step s = .next t →
    s.fuses.keeps t.fuses ∧ flashCanonical t.flash ∧ t.sfdp = s.sfdp

/-- Changes of the flash (R72, R579, R580, R663): but for the completion of a flash operation or of a calibration save, the
restoring of factory calibration, and writes of a register of any address (which may be CAL_CMD), no command changes what
the flash holds. -/
def Obligations.FlashChangesOnlyBy : Prop :=
  ∀ (c : Instr) (s t : State), c.changesFlash = false → exec c s = .next t → t.flash = s.flash

/-- Fields under a software write (R19, R22, R23, R92, R93, Table 0-8): after a write of a register's word takes effect,
every field of it holds what its access code gives: RW the value written, RWL that value while its group is live and else
the old one, W1C the old bits with those cleared that are written 1, but for bits that hardware has set in the same clock;
a field of any other code keeps its value. A change by hardware in the clock of a write leaves the bits that software has
written as they were written. -/
def Obligations.FieldWrites : Prop :=
  (∀ (d : Dev) (a : Nat) (r : RegDesc) (v : Word), regAt a = some r → ∀ f ∈ r.fields,
    (d.plain a v).fget a f.fld = fieldAfter (d.groupLive f.group a) (maskAt d.clk.hwSet a) f (d.rd a) v)
  ∧ (∀ (d : Dev) (a i : Nat) (v : Word), i < 32 → ((d.hwWr a v).rd a).getLsbD i =
      if (maskAt d.clk.swSet a).testBit i then (d.rd a).getLsbD i else v.getLsbD i)

/-- Offsets (R636): the second window reaches the registers of region 3 at 0x0400_0000, and the upper half of every
region's range is reserved. -/
def Obligations.OffsetsReach : Prop :=
  (∀ y < 0x800000, decodeOffset (0x800000 + y) = decodeOffset (0x4000000 + y))
  ∧ (∀ (r : Fin 4) (y : Nat), 0x800000 ≤ y → y < 0x1000000 → decodeOffset (0x1000000 * (r + 1) + y) = none)

/-- Writes of registers (R571, R635, R639, R640, R646, R647, R649, R82, R526): a master that is not served has none; a
partial write is ignored and counted; a reserved place, and a region that does not answer, ignore it; a write by a master
that is not privileged is ignored and counted, but for the indirect page; otherwise the register is written. An instance
page ignores partial writes, which it counts, and every write at a position that does not answer. -/
def Obligations.RegisterWrites : Prop :=
  ∀ (m : Master) (off : Word) (v : Word) (s : State), s.dev.chip.state ≠ .off →
    (∀ be, s.dev.masterServed m = false → exec (.registerWrite m (.reg off) be v) s = .next (s.done id))
    ∧ (∀ be : BitVec 4, s.dev.masterServed m = true → be ≠ 15 →
        exec (.registerWrite m (.reg off) be v) s = .next (s.done (·.bump R.REG_PARTIAL_WR)))
    ∧ (s.dev.masterServed m = true →
      (decodeOffset off.toNat = none → exec (.registerWrite m (.reg off) 15 v) s = .next (s.done id))
      ∧ (∀ a, decodeOffset off.toNat = some a →
        (s.dev.recoveryServes a = false ∨ s.dev.regionServes a = false →
          exec (.registerWrite m (.reg off) 15 v) s = .next (s.done id))
        ∧ (s.dev.recoveryServes a = true → s.dev.regionServes a = true →
          (a / 0x10000 ≠ 3 → s.dev.privileged m a = false →
            exec (.registerWrite m (.reg off) 15 v) s = .next (s.done (·.bump R.REG_UNPRIV)))
          ∧ (a / 0x10000 = 3 ∨ s.dev.privileged m a = true →
            exec (.registerWrite m (.reg off) 15 v) s = .next (s.did fun s => s.writeReg m a v)))))
    ∧ (∀ (h : Fin 4) (i : Fin 64) (at_ : BitVec 16) (be : BitVec 4), be ≠ 15 →
        exec (.registerWrite m (.inst h i at_) be v) s = .next (s.done (·.bump R.REG_PARTIAL_WR)))
    ∧ (∀ (h : Fin 4) (i : Fin 64) (at_ : BitVec 16), s.dev.pageServes h i (pageOffset at_.toNat) = false →
        exec (.registerWrite m (.inst h i at_) 15 v) s = .next (s.done id))

/-- Reads with an effect (Table 0-8, R171, R483, R603, R610, R646, R648): a privileged read of a peak returns it and
restarts it from what it follows, another leaves it, the peak returned being that of the clock's start; TB_NS, LOFT_US_LO
and the lower cell of a chained pair latch for their master what a read of the other register returns; the mailbox
registers clear their flags; a read of an instance page gives its function the word there, a counter cell's count only
where frames are forwarded and GRANT.CNT is 1 (R550), and zero where nothing answers. -/
def Obligations.RegisterReads : Prop :=
  ∀ (m : Master) (s : State), s.dev.chip.state ≠ .off →
    let out := fun (a : Nat) (d : Dev) => d.emit (.readData (masterId m) (s.dev.readReg m a))
    let peak := fun (a : Nat) (d : Dev) => d.emit (.readData (masterId m) (s.dev.was.readReg m a))
    (∀ off : Word, off.toNat = R.CHIP_TEMP_PEAK → s.dev.Answers m off.toNat →
      (s.dev.privileged m off.toNat = true → exec (.rcFieldRead m (.reg off)) s = .next (s.done fun d =>
        peak R.CHIP_TEMP_PEAK (d.fset R.CHIP_TEMP_PEAK R.CHIP_TEMP_PEAK.PEAK (d.fget R.CHIP_TEMP R.CHIP_TEMP.TEMP))))
      ∧ (s.dev.privileged m off.toNat = false → exec (.rcFieldRead m (.reg off)) s = .next (s.done (peak R.CHIP_TEMP_PEAK))))
    ∧ (∀ (n : Fin 4) (off : Word), off.toNat = R.ACC_JRNL_PEAK n → s.dev.Answers m off.toNat → s.dev.privileged m off.toNat = true →
        exec (.rcFieldRead m (.reg off)) s = .next (s.done fun d => peak (R.ACC_JRNL_PEAK n)
          (d.fset (R.ACC_JRNL_PEAK n) R.ACC_JRNL_PEAK.PEAK (d.journalUsed n).length)))
    ∧ (∀ (n : Fin 4) (p : Fin 8) (off : Word), off.toNat = R.GRN_POOL_PEAK n p → s.dev.Answers m off.toNat →
        s.dev.privileged m off.toNat = true → exec (.rcFieldRead m (.reg off)) s = .next (s.done fun d => peak (R.GRN_POOL_PEAK n p)
          (d.fset (R.GRN_POOL_PEAK n p) R.GRN_POOL_PEAK.PEAK (d.pool n p).charged)))
    ∧ (∀ t : Fin 4, s.dev.Answers m (R.TB_NS t) → exec (.tbNsRead m t) s = .next (s.done fun d => out (R.TB_NS t)
        (d.setLatch (masterId m) (R.TB_FRAC t) (BitVec.ofNat 32 (d.tbase t).frac))))
    ∧ (∀ n : Fin 4, s.dev.Answers m (R.LOFT_US_LO n) → exec (.loftUsLoRead m n) s = .next (s.done fun d => out (R.LOFT_US_LO n)
        (d.setLatch (masterId m) (R.LOFT_US_HI n) (BitVec.ofNat 32 (d.loftUs / 2 ^ 32)))))
    ∧ (∀ (off : Word) (a : Nat), decodeOffset off.toNat = some a → a / 0x10000 ≠ 3 → isCell a = true → s.dev.masterServed m = true →
        s.dev.recoveryServes a = true → s.dev.regionServes a = true → (regPrivileged a = true → s.dev.privileged m a = true) →
        s.dev.cellsHidden (s.dev.privileged m a) = false → s.dev.chainedUp a = false →
        exec (.chainedCounterRead m (.reg off)) s = .next (s.done fun d =>
          (d.when (d.chained a) (fun d => d.setLatch (masterId m) (a + 4) (d.rd (a + 4)))).emit (.readData (masterId m) (d.rd a))))
    ∧ (∀ (off : Word) (a : Nat), decodeOffset off.toNat = some a → a / 0x10000 ≠ 3 → isCell a = true → s.dev.masterServed m = true →
        s.dev.recoveryServes a = true → s.dev.regionServes a = true → (regPrivileged a = true → s.dev.privileged m a = true) →
        s.dev.cellsHidden (s.dev.privileged m a) = false → s.dev.chainedUp a = true →
        exec (.chainedCounterRead m (.reg off)) s = .next (s.done fun d => d.emit (.readData (masterId m) (d.latch (masterId m) a))))
    ∧ (s.dev.Answers m R.SUP_MBOX_OUT → exec (.supMboxOutRead m) s = .next (s.done fun d =>
        out R.SUP_MBOX_OUT { d with mboxOut := false }))
    ∧ (s.dev.Answers .supervisor R.SUP_MBOX_IN → exec .supMboxInRead s = .next (s.done fun d =>
        (d.setFlag R.SUP_STAT R.SUP_STAT.MBOX_FULL false).emit
          (.readData (masterId .supervisor) (s.dev.readReg .supervisor R.SUP_MBOX_IN))))
    ∧ (∀ (off : Word) (a : Nat), decodeOffset off.toNat = some a → a / 0x10000 ≠ 3 → s.dev.masterServed m = true →
        s.dev.recoveryServes a = true → s.dev.regionServes a = true → regPrivileged a = true → s.dev.privileged m a = false →
        exec (.rcFieldRead m (.reg off)) s = .next (s.done fun d => (d.bump R.REG_UNPRIV).emit (.readData (masterId m) 0)))
    ∧ (∀ (h : Fin 4) (i : Fin 64) (at_ : BitVec 16),
      let o := pageOffset at_.toNat
      let a := instPage h i + o
      let gives := fun (v : Word) (d : Dev) => d.emit (.readData (s.dev.pageReader h i) v)
      let counts := s.dev.chip.state.serving = true ∧ s.dev.flag (R.INSTE_GRANT h i) R.INSTE_GRANT.CNT = true
      (s.dev.pageServes h i o = false → exec (.rcFieldRead m (.inst h i at_)) s = .next (s.done (gives 0)))
      ∧ (s.dev.pageServes h i o = true → isCell a = false →
          exec (.rcFieldRead m (.inst h i at_)) s = .next (s.done (gives (s.dev.rd a))))
      ∧ (s.dev.pageServes h i o = true → isCell a = true → ¬counts →
          exec (.rcFieldRead m (.inst h i at_)) s = .next (s.done (gives 0)))
      ∧ (s.dev.pageServes h i o = true → isCell a = true → counts → s.dev.chainedUp a = false →
          exec (.chainedCounterRead m (.inst h i at_)) s = .next (s.done fun d => gives (d.rd a)
            (d.when (d.chained a) fun d => d.setLatch (s.dev.pageReader h i) (a + 4) (d.rd (a + 4)))))
      ∧ (s.dev.pageServes h i o = true → isCell a = true → counts → s.dev.chainedUp a = true →
          exec (.chainedCounterRead m (.inst h i at_)) s = .next (s.done fun d =>
            gives (d.latch (s.dev.pageReader h i) a) d)))

/-- The registers that act on the log, snapshots, interrupts, the UART and the mailbox (R483, R604, R605, R612, R613, R620,
R630, R633): LOG_POP takes the oldest entry; EOI, written while the summary is 1, sends the message again in the clock
after if none was sent in its own; TAKE has the snapshot of its clock taken as the clock ends, of the axes as the clock
began, in the buffer that is not held, and RELEASE and HOLD move the hold; a UART frame is received, is a framing error, or
a break, and overruns a full buffer; UART_TX adds a byte unless 64 wait; a byte sent is followed by the next; and a write
of SUP_MBOX_IN sets MBOX_FULL. Of writes by several masters in one clock the last in the order of R175 prevails (R642). -/
def Obligations.ServiceRegisters : Prop :=
  ∀ s : State, s.dev.chip.state ≠ .off →
    (∀ m : Master, s.dev.Accepts m R.LOG_POP → exec (.logPop m) s = .next (s.done fun d =>
        { d with log := { d.log with entries := d.log.entries.drop 1 } }))
    ∧ (∀ m : Master, s.dev.Accepts m R.INT_CTL →
      (s.dev.intSummary = true → exec (.intEoi m) s = .next (s.done fun d => { d with clk := { d.clk with eoi := true } }))
      ∧ (s.dev.intSummary = false → exec (.intEoi m) s = .next (s.done id)))
    ∧ (∀ d : Dev, (∀ n, d.clk.eoi = true → d.clk.messaged = false → d.intDeliverable = true → d.intPort = some n →
          d.eoiMessage = d.msixSend n 0 1023)
      ∧ (d.clk.eoi = false ∨ d.clk.messaged = true ∨ d.intDeliverable = false → d.eoiMessage = d))
    ∧ (∀ m : Master, s.dev.Accepts m R.SNAP_CMD →
      exec (.snapTake m) s = .next (s.done fun d => { d with clk := { d.clk with snap := true } })
      ∧ (∀ d : Dev, d.clk.snap = false → d.snapEnd = d)
      ∧ (∀ d : Dev, d.clk.snap = true → d.snapEnd =
        let d : Dev := { d with clk := { d.clk with snap := false } }
        let held := d.flag R.SNAP_STAT R.SNAP_STAT.HELD_VALID
        let buf := if held then 1 - d.fget R.SNAP_STAT R.SNAP_STAT.HELD else 1 - d.fget R.SNAP_STAT R.SNAP_STAT.LATEST
        let d := (d.bump R.SNAP_TAKEN).fset R.SNAP_STAT R.SNAP_STAT.LATEST buf
        let cells := (List.range d.snapLen).map fun i => d.snapCell (d.rd (spWord 0x06 0 + 4 * i)).toNat
        let now : Snapshot := ⟨d.was.tbAll, d.was.time.mains.value, d.was.time.odo.value, (d.rd R.SNAP_TAKEN).toNat, cells⟩
        { d with snap := setAt d.snap buf now, time := { d.time with lastSnap := some d.now } })
      ∧ exec (.snapHold m) s = .next (s.done fun d =>
          (d.setFlag R.SNAP_STAT R.SNAP_STAT.HELD_VALID true).fset R.SNAP_STAT R.SNAP_STAT.HELD (d.fget R.SNAP_STAT R.SNAP_STAT.LATEST))
      ∧ exec (.snapRelease m) s = .next (s.done (·.setFlag R.SNAP_STAT R.SNAP_STAT.HELD_VALID false)))
    ∧ (∀ bits : Byte,
      (∀ stop, exec (.uartFrameRx true bits stop) s = .next (s.done id))
      ∧ (s.dev.flag R.UART_CFG R.UART_CFG.EN = false → ∀ start stop, exec (.uartFrameRx start bits stop) s = .next (s.done id))
      ∧ (s.dev.flag R.UART_CFG R.UART_CFG.EN = true → s.dev.chip.state ≠ .held →
        (s.dev.uart.rx.length < 64 → exec (.uartFrameRx false bits true) s = .next (s.done fun d =>
          { d with uart := { d.uart with rx := d.uart.rx ++ [bits] } }))
        ∧ (64 ≤ s.dev.uart.rx.length → exec (.uartFrameRx false bits true) s = .next (s.done fun d =>
          (d.setFlag R.UART_STAT R.UART_STAT.OVERRUN true).bump R.UART_OVERRUN))
        ∧ (bits = 0 → exec (.uartFrameRx false bits false) s = .next (s.done fun d =>
          (d.setFlag R.UART_STAT R.UART_STAT.BREAK true).bump R.UART_BREAK))
        ∧ (bits ≠ 0 → exec (.uartFrameRx false bits false) s = .next (s.done fun d =>
          (d.setFlag R.UART_STAT R.UART_STAT.FRAMING true).bump R.UART_FRAMING_ERR))))
    ∧ (∀ m : Master, s.dev.Accepts m R.UART_RX_POP → exec (.uartRxPop m) s = .next (s.done fun d =>
        { d with uart := { d.uart with rx := d.uart.rx.drop 1 } }))
    ∧ (∀ (m : Master) (byte : Byte), s.dev.Accepts m R.UART_TX →
      (64 ≤ s.dev.uart.tx.length → exec (.uartTxWrite m byte) s = .next (s.done id))
      ∧ (s.dev.uart.tx.length < 64 → s.dev.uart.sending.isSome = true ∨ s.dev.flag R.UART_CFG R.UART_CFG.EN = false →
          exec (.uartTxWrite m byte) s = .next (s.done fun d => { d with uart := { d.uart with tx := d.uart.tx ++ [byte] } }))
      ∧ (s.dev.uart.tx = [] → s.dev.uart.sending = none → s.dev.flag R.UART_CFG R.UART_CFG.EN = true → s.dev.chip.state ≠ .held →
          exec (.uartTxWrite m byte) s = .next (s.done fun d =>
            { d with uart := { d.uart with sending := some byte, tx := [] } })))
    ∧ (∀ b, s.dev.uart.sending = some b → s.dev.flag R.UART_CFG R.UART_CFG.EN = true → s.dev.chip.state ≠ .held →
        exec .uartFrameTx s = .next (s.done fun d =>
          let d := d.emit (.uart b)
          { d with uart := { d.uart with sending := d.uart.tx.head?, tx := d.uart.tx.drop 1 } }))
    ∧ (s.dev.uart.sending = none → exec .uartFrameTx s = .next (s.done id))
    ∧ (∀ (m : Master) (v : Word), s.dev.Accepts m R.SUP_MBOX_IN → exec (.supMboxInWrite m v) s = .next (s.did fun s =>
        let sets := fun (v : Word) (s : State) =>
          s.onDev fun d => (d.plain R.SUP_MBOX_IN v).setFlag R.SUP_STAT R.SUP_STAT.MBOX_FULL true
        let s' := sets v (s.onDev fun d => { d with clk := { d.clk with writers := (R.SUP_MBOX_IN, m, v) :: d.clk.writers } })
        match lastWrite R.SUP_MBOX_IN m s.dev.clk.writers with
        | some w => sets (storedPart R.SUP_MBOX_IN w.2.2) s'
        | none => s'))

/-- The indirect pair (R655 to R660, R664): writes of IND_CTL and IND_ADDR clear the buffer and prefetch; a read returns
the buffer, advances the address and prefetches, counting a refused one; a write that is refused is counted and does
nothing else; one that is taken is in progress until the space has performed it; while BUSY is 1 an access waits, and one
that has waited 2 µs ends with zero and EARLY or is ignored with OVERRUN; and BLOW of a key slot blows its staged hash with
PROGRAMMED. -/
def Obligations.IndirectPair : Prop :=
  ∀ (m : Master) (s : State), s.dev.chip.state ≠ .off →
    let id_ := masterId m
    let c := s.dev.ctx id_
    let open_ := fun (a : Nat) => s.dev.Accepts m a
    (c.busy = false →
      (∀ v : Word, open_ R.IND_CTL → exec (.indCtlWrite m v) s = .next (s.done fun d =>
          d.setCtx id_ { d.ctx id_ with ctl := v &&& 0x1FFF#32, buffer := 0 }))
      ∧ (∀ v : Word, open_ R.IND_ADDR → exec (.indAddrWrite m v) s = .next (s.did fun s =>
          (s.onDev fun d => d.setCtx id_ { d.ctx id_ with addr := v &&& 0xFFFFFFFC#32 }).prefetch id_))
      ∧ (s.dev.Answers m R.IND_DATA → exec (.indDataRead m) s = .next (s.did fun s =>
          let t := (State.indAdvance (s.onDev fun d =>
            d.when (!s.mayRead (masterOf id_) c.space c.region c.at_) (·.bump R.IND_REFUSED)) id_).prefetch id_
          t.onDev (·.emit (.readData id_ (if c.noPrefetch then 0 else c.buffer)))))
      ∧ (∀ v : Word, open_ R.IND_DATA →
        (s.mayWrite (masterOf id_) c.space c.region c.at_ = false →
          exec (.indDataWrite m v) s = .next (s.did fun s =>
            (State.indAdvance (s.onDev fun d => d.freshBool.2.bump R.IND_REFUSED) id_).prefetch id_))
        ∧ (s.mayWrite (masterOf id_) c.space c.region c.at_ = true → c.space ∉ [1, 2, 3, 4, 0x40, 0x51] →
          exec (.indDataWrite m v) s = .next (s.done fun d =>
            d.freshBool.2.setCtx id_ { c with busy := true, fetching := false, writing := some v }))))
    ∧ (c.busy = true →
      let waits := fun (a : IndAccess) => s.done fun d =>
        let e := d.setCtx id_ { c with waiting := c.waiting ++ [a] }
        if c.waiting.isEmpty then e.arm ⟨.indWait, id_, 0⟩ (2 * us) else e
      (∀ v : Word, open_ R.IND_CTL → exec (.indCtlWrite m v) s = .next (waits (.ctl v)))
      ∧ (∀ v : Word, open_ R.IND_ADDR → exec (.indAddrWrite m v) s = .next (waits (.addr v)))
      ∧ (∀ v : Word, open_ R.IND_DATA → exec (.indDataWrite m v) s = .next (waits (.write v)))
      ∧ (s.dev.Answers m R.IND_DATA → exec (.indDataRead m) s = .next (waits (.read none))))
    ∧ (∀ v, c.writing = some v → c.space ≠ 1 → c.space ≠ 2 → exec (.indPrefetchComplete m) s = .next (s.did fun s =>
        State.indWritten ((s.spaceWrite c.space c.region c.at_ v).onDev fun d =>
          d.setCtx id_ { d.ctx id_ with busy := false, writing := none }) id_))
    ∧ (c.writing = none → c.fetching = false → exec (.indPrefetchComplete m) s = .next (s.done id))
    ∧ (c.writing = none → c.fetching = true → c.space ≠ 0x51 → c.space ≠ 1 → isCell (spWord c.space c.region + c.at_) = false →
        exec (.indPrefetchComplete m) s = .next (s.did fun s =>
          let r := s.fetchWord c.space c.region c.at_
          State.indFree (r.2.onDev fun d => d.setCtx id_ { d.ctx id_ with buffer := r.1, busy := false, fetching := false }) id_))
    ∧ (s.dev.armed ⟨.indWait, id_, 0⟩ = true → ∀ a rest, c.waiting = a :: rest →
      let next := fun (d : Dev) => if rest.isEmpty then d.disarm ⟨.indWait, id_, 0⟩ else d.arm ⟨.indWait, id_, 0⟩ (2 * us)
      (a = .read none → exec (.indWaitTimeout m) s = .next (s.done fun d =>
        ((next d).setCtx id_ { c with waiting := rest, early := true }).emit (.readData id_ 0)))
      ∧ (∀ v, a = .write v → exec (.indWaitTimeout m) s = .next (s.done fun d =>
        ((next d).setCtx id_ { c with waiting := rest, overrun := true }).bump R.IND_OVERRUN)))
    ∧ (s.dev.armed ⟨.indWait, id_, 0⟩ = false → exec (.indWaitTimeout m) s = .next (s.done id))
    ∧ (s.dev.masterServed m = false → ∀ (k : Fin 4) (aux : Bool), exec (.fuseBlow m k aux) s = .next (s.done id))
    ∧ (∀ (k : Fin 4), s.dev.masterServed m = true → c.busy = false →
        s.mayWrite (masterOf id_) 3 0 (0x40 * k + 0x30) = true → (s.fuses.slot k).programmed = false →
        (∃ w < 12, s.dev.rd (spWord 0x03 0 + 0x40 * k + 4 * w) ≠ 0) →
        let blown := { c with ctl := 3#32, addr := BitVec.ofNat 32 (0x40 * k + 0x30), buffer := 0 }
        exec (.fuseBlow m k true) s = .next (s.did fun s =>
          let d := (s.dev.setCtx id_ blown).setCtx id_ { blown with busy := true, fetching := false, writing := some 0x80000000#32 }
          let fu := { s.fuses with keys := modAt s.fuses.keys k fun x => { x with
            hash := (List.range 12).map fun w => s.dev.rd (spWord 0x03 0 + 0x40 * k + 4 * w), programmed := true } }
          { s with fuses := fu, dev := d.fuseRegs fu }))

/-- Errors (R9, R50, R52 to R54, R593, R594, R596, R601, R602): a contained, a region-fatal or a chip-fatal event is
raised, and what the handling of the clock's errors does with it where no other is raised: absorbed by a higher restart,
escalated when it recurs, or taken. Of several, the one of the highest severity is handled first; a corrected error gives
way to a contained one of its block. -/
def Obligations.ErrorsHandled : Prop :=
  (∀ s : State, s.dev.chip.state ≠ .off → s.dev.raised = [] →
    (∀ (n : Fin 4) (k : Fin 10) (cell addr : BitVec 16),
      let r : Raised := .contained n k cell.toNat addr.toNat
      let does := fun (e : Dev → Dev) => exec (.containedRestartStart n k cell addr) s = .next (s.done fun d => d.raise r)
        ∧ (s.onDev fun d => d.raise r).handleErrors = s.handled fun s => s.onDev e
      let log := fun (d : Dev) => (d.bump R.ERR_CONTAINED).logEntry 0x0002 n k (cell.toNat % 65536 * 65536 + addr.toNat % 65536)
      (s.dev.chipAbsorbs = true ∨ s.dev.restarting n = true →
        does fun d => ((d.bump R.ERR_CONTAINED).bump R.ERR_ABSORBED).logEntry 0x0005 n k 1)
      ∧ (s.dev.chipAbsorbs = false → s.dev.restarting n = false →
        (s.dev.blockInRestart n k = true → does log)
        ∧ (s.dev.blockInRestart n k = false → 2 ≤ s.dev.recent s.dev.err.contained (16 * n + k) (1000 * ms) → does fun d =>
            (((d.bump R.ERR_ESCALATED).logEntry 0x0006 n k (1 + 16 * 2 + 256 * 3)).setFlag (R.RGN_ERR n) R.RGN_ERR.ESCALATED true
              ).regionFatal n cell.toNat addr.toNat)
        ∧ (s.dev.blockInRestart n k = false → s.dev.recent s.dev.err.contained (16 * n + k) (1000 * ms) < 2 →
            does fun d =>
            let d : Dev := { d with err := { d.err with contained := d.remember d.err.contained (16 * n + k) (1000 * ms) } }
            let e := log d
            if e.blockInRestart n k then e
            else ((((e.setFieldBit (R.RGN_STAT n) R.RGN_STAT.BLOCK_RESTART k true).arm ⟨.containedBound, n, k⟩ (200 * us)).voidTags
              n k).cellsRestart n k).blockStops n k)))
    ∧ (∀ (n : Fin 4) (cell addr : BitVec 16),
      let r : Raised := .regionFatal n cell.toNat addr.toNat
      let does := fun (e : Dev → Dev) => exec (.regionRestartStart n cell addr) s = .next (s.done fun d => d.raise r)
        ∧ (s.onDev fun d => d.raise r).handleErrors = s.handled fun s => s.onDev e
      (s.dev.chipAbsorbs = true → does fun d => ((d.bump R.ERR_REGION_FATAL).bump R.ERR_ABSORBED).logEntry 0x0005 n 0xF 2)
      ∧ (s.dev.chipAbsorbs = false → s.dev.restarting n = true ∨ 2 ≤ s.dev.recent s.dev.err.regionFatal n (60000 * ms) →
          does fun d => ((d.bump R.ERR_ESCALATED).logEntry 0x0006 n 0xF (2 + 16 * 3 + 256 * 4)).raise
            (.chipFatal 0x03 (n + 4 * 0xF + 65536 * (cell.toNat % 65536)) addr.toNat))
      ∧ (s.dev.chipAbsorbs = false → s.dev.restarting n = false → s.dev.recent s.dev.err.regionFatal n (60000 * ms) < 2 →
          does fun d =>
            let d : Dev := { d with err := { d.err with regionFatal := d.remember d.err.regionFatal n (60000 * ms) } }
            ((d.bump R.ERR_REGION_FATAL).logEntry 0x0003 n 0xF (cell.toNat % 65536 * 65536 + addr.toNat % 65536)).regionRestart n))
    ∧ (∀ (cause : Fin 9) (unit addr : Word),
      let r : Raised := .chipFatal cause unit.toNat addr.toNat
      let does := fun (e : State → State) => exec (.chipFatalError cause unit addr) s = .next (s.done fun d => d.raise r)
        ∧ (s.onDev fun d => d.raise r).handleErrors = s.handled e
      (s.dev.chip.state = .held →
        does fun s => s.onDev fun d => ((d.bump R.ERR_CHIP_FATAL).bump R.ERR_ABSORBED).logChip 0x0005 3)
      ∧ (s.dev.chip.state ≠ .held → s.dev.chip.recoveryImage = true →
        does fun s => s.onDev fun d => ((d.bump R.ERR_CHIP_FATAL).logChip 0x0004 cause).supervisorStart)
      ∧ (s.dev.chip.state ≠ .held → s.dev.chip.recoveryImage = false → s.dev.dump.active = true →
        does fun s => dumpCut (s.onDev fun d => (d.bump R.ERR_CHIP_FATAL).logChip 0x0004 cause) false true)
      ∧ (s.dev.chip.state ≠ .held → s.dev.chip.recoveryImage = false → s.dev.dump.active = false →
        does fun s => fatalTaken s cause unit.toNat addr.toNat)))
  ∧ (∀ l : List Raised, (nextRaised l = none → l = []) ∧ ∀ r, nextRaised l = some r → r ∈ l ∧ ∀ x ∈ l, x.rank ≤ r.rank)
  ∧ (∀ (l : List Raised) (r : Raised), yields l r = true ↔ ∃ n k w cell addr, r = .corrected n k w ∧ .contained n k cell addr ∈ l)
  ∧ (∀ s : State, s.handleErrors =
      ({ s with dev := { s.dev with raised := s.dev.raised.filter (fun r => !yields s.dev.raised r) } } : State).handleRaised
        ((s.dev.raised.filter (fun r => !yields s.dev.raised r)).length + 64))
  ∧ (∀ (s : State) (k : Nat) (r : Raised), nextRaised s.dev.raised = some r → s.handleRaised (k + 1) =
      (({ s with dev := { s.dev with raised := s.dev.raised.erase r } } : State).handle r).handleRaised k)

/-- The rest of restarts (R10, R46 to R50, R66, R113, R114, R433): a handling step that exceeds its bound escalates; a
contained restart ends with its CONTAINED bit set and the block resuming; a region's restart ends once its Floor port,
pattern map and tables are ready, the region then serving again; RGN_RESTART.WARM starts a warm restart of a running
region: its generation advances and its units restart (as at a cold start where its grains' records cannot be read), or the
drain of an armed re-layout begins. -/
def Obligations.RestartsRun : Prop :=
  ∀ (n : Fin 4) (s : State), s.dev.chip.state ≠ .off →
    (∀ k : Fin 10, s.dev.armed ⟨.containedBound, n, k⟩ = true → exec (.escalationTimeout (.block n k)) s = .next (s.done fun d =>
      (((d.disarm ⟨.containedBound, n, k⟩).bump R.ERR_ESCALATED).logEntry 0x0006 n k (1 + 16 * 2 + 256 * 1)).raise (.regionFatal n k 0)))
    ∧ (s.dev.armed ⟨.regionBound, n, 0⟩ = true → exec (.escalationTimeout (.region n)) s = .next (s.done fun d =>
      (((d.disarm ⟨.regionBound, n, 0⟩).bump R.ERR_ESCALATED).logEntry 0x0006 n 0xF (2 + 16 * 3 + 256 * 1)).raise
        (.chipFatal 0x04 (n + 4 * 0xF) 0)))
    ∧ (∀ k : Fin 10, s.dev.armed ⟨.containedBound, n, k⟩ = false →
      exec (.escalationTimeout (.block n k)) s = .next (s.done id))
    ∧ (∀ k : Fin 10, s.dev.blockInRestart n k = true → exec (.containedRestartEnd n k) s = .next (s.done fun d =>
        let d := (((d.setFieldBit (R.RGN_STAT n) R.RGN_STAT.BLOCK_RESTART k false).disarm ⟨.containedBound, n, k⟩).setFieldBit
          (R.RGN_ERR n) R.RGN_ERR.CONTAINED k true)
        if k.val < 4 then
          ((d.setFlag (R.PB_STAT (4 * n + k)) R.PB_STAT.RESTART false).i2cStartClear (4 * n + k)).blockPortsFollow n k
        else if k.val < 6 then d.engineRestarted (2 * n + (k - 4))
        else if k.val = 6 ∨ k.val = 8 then (d.wnwStartRebuild n).requestReplay n none
        else if k.val = 7 then d.replayToward n
        else (d.hostRestarted n).blockPortsFollow n k))
    ∧ (∀ k : Fin 10, s.dev.blockInRestart n k = false → exec (.containedRestartEnd n k) s = .next (s.done id))
    ∧ (s.dev.armed ⟨.regionBound, n, 0⟩ = true → (s.dev.fget R.FLR_STAT R.FLR_STAT.PORT_UP).testBit n = true →
        s.dev.flag (R.WNW_STAT n) R.WNW_STAT.READY = true → s.dev.flag (R.TBL_STAT n) R.TBL_STAT.READY = true →
        exec (.regionRestartEnd n) s = .next (s.done fun d =>
          let d := (((d.disarm ⟨.regionBound, n, 0⟩).fset (R.RGN_STAT n) R.RGN_STAT.STATE 0).setFieldBit R.FLR_STAT
            R.FLR_STAT.IN_RESTART n false).setFlag (R.RGN_ERR n) R.RGN_ERR.REGION_FATAL true
          let d := (d.setFlag (R.ACC_STAT n) R.ACC_STAT.READY true).setFlag (R.GRN_STAT n) R.GRN_STAT.READY true
          let d := (((((d.requestReplay n none).replayToward n).enginesReady n).bootRegion n 2).hostRestarted n).instEnable n
          let d := d.each (regionPorts n) fun p d => d.refreshEnabled p
          if d.loader.relaying = some n.val then
            let d := (d.setFlag R.LDR_RELAYOUT R.LDR_RELAYOUT.ACTIVE false).setRegionTag n
            ({ d with loader := { d.loader with relaying := none } } : Dev).setFlag R.LDR_STAT R.LDR_STAT.RELAYOUT_DONE true
          else d))
    ∧ (s.dev.armed ⟨.regionBound, n, 0⟩ = false ∨ s.dev.flag (R.TBL_STAT n) R.TBL_STAT.READY = false →
        exec (.regionRestartEnd n) s = .next (s.done id))
    ∧ (∀ m : Master, s.dev.Accepts m (R.RGN_RESTART n) →
      (s.dev.regionRuns n = false ∨ s.dev.loader.draining = some n.val → exec (.rgnRestartWarm m n) s = .next (s.done id))
      ∧ (s.dev.regionRuns n = true → s.dev.loader.draining ≠ some n.val → s.dev.relayoutArmed n = true →
        exec (.rgnRestartWarm m n) s = .next (s.done fun d =>
          let d := d.setFlag R.LDR_RELAYOUT R.LDR_RELAYOUT.ACTIVE true
          let d : Dev := { d with loader := { d.loader with draining := some n.val } }
          (d.arm ⟨.relayoutDrain, n, 0⟩ (max 1 (d.fget R.LDR_RELAYOUT R.LDR_RELAYOUT.DRAIN_MS) * ms)).refreshRegion n))
      ∧ (s.dev.regionRuns n = true → s.dev.loader.draining ≠ some n.val → s.dev.relayoutArmed n = false →
        exec (.rgnRestartWarm m n) s = .next (s.done fun d =>
          let d := if d.grainsBad n then d.regionFresh n else d
          let d := ((d.dropContained n).fset (R.RGN_STAT n) R.RGN_STAT.STATE 1).setFieldBit R.FLR_STAT R.FLR_STAT.IN_RESTART n true
          let d := (d.advanceGen n).saturatingAdd (R.RGN_STAT n) R.RGN_STAT.REGION_RESTARTS 1
          (((d.arm ⟨.regionBound, n, 0⟩ (20 * ms)).regionNotReady n).regionUnits n).refreshRegion n)))

/-- Planned restarts (R66): a region in region restart ignores RGN_RESTART.WARM, and no event arises. -/
def Obligations.RestartingRegionIgnores : Prop :=
  ∀ s : State, s.dev.chip.state ≠ .off → ∀ (m : Master) (n : Fin 4), s.dev.Accepts m (R.RGN_RESTART n) → s.dev.inRestart n = true →
    exec (.rgnRestartWarm m n) s = .next (s.done id)

/-- The pipeline's slot, mirror copies, the Floor's retries and the background slot (R30, R51, R58, R60, R354): a region grants
one slot a clock, and copies of admitted frames, towards a port or an engine queue, go first, then the next new frame in turn, then mirror copies; a copy
that has waited 4,096 clocks is dropped; a transfer that fails is a corrected error and is sent again, and after
RETRY_LIMIT failures in a row the loop-back test names the port that fails; a background request that is pending, 63 clocks
after the bank's last, takes the clock: of a waiting descriptor at a table bank, for its ring's refill or write-back at a
buffer bank. -/
def Obligations.SlotsAndRetries : Prop :=
  ∀ s : State, s.dev.chip.state ≠ .off →
    (∀ n : Fin 4,
      let copies := Map.get (fun _ => []) s.dev.frame.copies n
      let waiting := Map.get (fun _ => []) s.dev.frame.mirrorWait n
      let taken := fun (d : Dev) => ({ d with frame := { d.frame with busy := setBit d.frame.busy n true } } : Dev)
      let free := s.dev.pipelineUp n = true ∧ s.dev.frame.busy.testBit n = false
      (s.dev.pipelineUp n = false ∨ s.dev.frame.busy.testBit n = true → exec (.pipelineSlotGrant n) s = .next (s.done id))
      ∧ (free → ∀ x rest, copies = x :: rest → exec (.pipelineSlotGrant n) s = .next (s.done fun d =>
          let d : Dev := { d with frame := { d.frame with copies := Map.put (fun _ => []) d.frame.copies n rest } }
          let d := match x with
            | .port y => (taken d).sendEnq y
            | .engine q y => (taken d).enterTask n q (Task.make 2 (frameWords y) (some y) none)
          d.bumpPerf (R.PIPE_SLOT_RETIRED n)))
      ∧ (free → copies = [] → ∀ l, s.dev.nextOffered n = some l →
          exec (.pipelineSlotGrant n) s = .next (s.done fun d =>
            (taken { d with frame := { d.frame with turn := Map.put (fun _ => 6) d.frame.turn n l.origin.group } }).grantNew l))
      ∧ (free → copies = [] → s.dev.nextOffered n = none → ∀ x rest, waiting = x :: rest →
          exec (.pipelineSlotGrant n) s = .next (s.done fun d =>
            let d : Dev := { d with frame := { d.frame with mirrorWait := Map.put (fun _ => []) d.frame.mirrorWait n rest } }
            ((taken d).sendEnq x.2).bumpPerf (R.PIPE_SLOT_RETIRED n)))
      ∧ (∀ x rest, waiting = x :: rest → exec (.mirrorCopyTimeout n) s = .next (s.done fun d =>
          let d : Dev := { d with frame := { d.frame with mirrorWait := Map.put (fun _ => []) d.frame.mirrorWait n rest } }
          (d.bump (R.MIR_WAIT_DROP n)).queueRelease n x.2.head))
      ∧ (waiting = [] → exec (.mirrorCopyTimeout n) s = .next (s.done id)))
    ∧ (∀ (src dst : Fin 5) (a b : Bool),
      let k := pathKey src dst
      let failed := Map.get (fun _ => 0) s.dev.floor.failures k + 1
      let count := fun (x : Nat) (d : Dev) =>
        ({ d with floor := { d.floor with failures := Map.put (fun _ => 0) d.floor.failures k x } } : Dev)
      let fails := fun (d : Dev) => ((count 0 ((d.bump R.FLR_RETRY_CNT).corrected 0 0xF none)).setFlag R.FLR_ERR R.FLR_ERR.RETRY_EXHAUSTED true).floorPath src dst
      let limit := max 1 (s.dev.fget R.FLR_CFG R.FLR_CFG.RETRY_LIMIT)
      (failed < limit → exec (.floorTransferRetry src dst a b) s = .next (s.done fun d => count failed ((d.bump R.FLR_RETRY_CNT).corrected 0 0xF none)))
      ∧ (limit ≤ failed →
        (src.val < 4 → exec (.floorTransferRetry src dst false b) s = .next (s.done fun d =>
          (((fails d).setFlag R.FLR_ERR R.FLR_ERR.PATH_FATAL true).escalation src 0xF 0 2 2).raise (.regionFatal src 0 0)))
        ∧ (dst.val < 4 → exec (.floorTransferRetry src dst true false) s = .next (s.done fun d =>
          (((fails d).setFlag R.FLR_ERR R.FLR_ERR.PATH_FATAL true).escalation dst 0xF 0 2 2).raise (.regionFatal dst 0 0)))
        ∧ (src.val = 4 → exec (.floorTransferRetry src dst false b) s = .next (s.done fun d =>
          ((fails d).escalation 0 0xF 0 3 2).floorFatal 0x08))
        ∧ exec (.floorTransferRetry src dst true true) s = .next (s.done fun d =>
          ((fails d).escalation 0 0xF 0 3 2).floorFatal 0x01)))
    ∧ (∀ (n : Fin 4) (bank : Fin 112),
      let due := Map.get (fun _ => 0) s.dev.frame.background (112 * n + bank) + 64 ≤ s.dev.now
      let served := fun (d : Dev) => ({ d with frame := { d.frame with
        background := Map.put (fun _ => 0) d.frame.background (112 * n + bank) d.now } } : Dev)
      (s.dev.backgroundPending n bank = true → due → bank.val < 64 → s.dev.offered n = true → s.dev.frame.busy.testBit n = false →
        exec (.backgroundSlotGrant n bank) s = .next (s.done fun d => let d := served d
          ({ d with frame := { d.frame with busy := setBit d.frame.busy n true } } : Dev).bumpPerf (R.PIPE_SLOT_BACK n)))
      ∧ (s.dev.backgroundPending n bank = true → due → bank.val < 64 → s.dev.offered n = false →
        exec (.backgroundSlotGrant n bank) s = .next (s.done served))
      ∧ (s.dev.backgroundPending n bank = true → due → 64 ≤ bank.val →
        exec (.backgroundSlotGrant n bank) s = .next (s.done fun d => let d := served d
          if (d.ring n (bank % 4)).wantsRefill then d.ringRefilled n (bank % 4) else d.ringBacked n (bank % 4)))
      ∧ (s.dev.backgroundPending n bank = false ∨ ¬ due → exec (.backgroundSlotGrant n bank) s = .next (s.done id)))

/-- Requests that reach a Floor port (R28, R43, R45, R47, R48, R342, R643): one of an older generation is discarded and
counted; one for a region that does not serve is answered by a NACK, which for an ENQ carries the descriptor; otherwise an
ENQ is kept for the end of the clock, where it is checked and placed, or refused if its region's restart has begun in that
clock (R435), a mirror's is taken at once, a READ is answered with the grain's bytes (one for the region's own frame marks
it as leaving), a register read with the register's value and a register write with its completion once done. Responses
that reach a Floor port (R41, R46 to R48, R311, R322, R426, R428): a stale one is discarded, and so is one for a region
that does not serve; data go into the space their requester reserved, which is free again, and a void tag makes them stale;
nothing reserved is a violation and chip-fatal; a completion for a journal or an owner is kept for the end of the clock
(R435), where it retires its entry or releases the owner unless its region's restart has begun, one of a mirror or for a
register access acts at once; a flit corrected on the way is counted (R65); a NACK of an ENQ has a guarded frame sent again
and drops another. -/
def Obligations.FloorMessages : Prop :=
  (∀ (s : State) (m : FloorMsg), s.dev.chip.state ≠ .off →
    (∀ src dst : Fin 4, s.dev.headMsg true src dst = some m →
      let take := fun (d : Dev) => d.takeMsg true src dst
      let down := src ≠ dst ∧ ((take s.dev).regionRuns dst = false ∨ (take s.dev).regionEnabled dst = false)
      let stale := (take s.dev).isStale m
      (∀ g, m.body = .read g →
        (stale = true → exec (.readArrival src dst) s = .next (s.done fun d => (take d).staleDiscard m))
        ∧ (stale = false → down → exec (.readArrival src dst) s = .next (s.done fun d =>
            ((take d).bump R.FLR_NACK_CNT).answer none m (.nack 2 none)))
        ∧ (stale = false → ¬down → exec (.readArrival src dst) s = .next (s.done fun d =>
            ((take d).readServed m).answer (some (7, g % 48)) m (.data ((take d).grain dst g).data ((take d).grain dst g).bad))))
      ∧ (∀ x, m.body = .enq x →
        (stale = true → exec (.enqArrival src dst) s = .next (s.done fun d => (take d).staleDiscard m))
        ∧ (stale = false → down → exec (.enqArrival src dst) s = .next (s.done fun d =>
            ((take d).bump R.FLR_NACK_CNT).answer none m (.nack 1 (some x))))
        ∧ (stale = false → ¬down → exec (.enqArrival src dst) s = .next (s.done fun d =>
            if x.mirrorList then (take d).mirrorEnq dst x
            else { take d with frame := { (take d).frame with arrivals := (take d).frame.arrivals ++ [m] } }))
        ∧ ∀ d : Dev, d.judgeArrival m =
            if d.regionRuns m.dst = false then (d.bump R.FLR_NACK_CNT).answer none m (.nack 1 (some x))
            else if x.guarded then d.judgeEnq m.dst x (Dev.place m.dst)
            else d.place m.dst x))
    ∧ (∀ src dst : Fin 4, s.dev.headMsg true src dst = none →
        exec (.readArrival src dst) s = .next (s.done id) ∧ exec (.enqArrival src dst) s = .next (s.done id))
    ∧ (∀ (src dst : Fin 5) (who : Master) (off : Word), s.dev.headMsg true src dst = some m →
      let d1 := s.dev.takeMsg true src dst
      (m.body = .regr who off →
        (d1.isStale m = true → exec (.regrArrival src dst) s = .next (s.done fun _ => d1.staleDiscard m))
        ∧ (d1.isStale m = false → d1.regionServes off.toNat = false → exec (.regrArrival src dst) s = .next (s.done fun _ =>
            (d1.bump R.FLR_NACK_CNT).answer none m (.nack 3 none)))
        ∧ (d1.isStale m = false → d1.regionServes off.toNat = true →
            exec (.regrArrival src dst) s = .next (s.did fun s =>
              let r := ({ s with dev := d1 } : State).readAccess who off.toNat (some (m.src, m.tag, m.gen))
              match r.1 with
              | some v => r.2.onDev (·.answer (registerBlock off.toNat) m (.cplReg (some v)))
              | none => r.2)))
      ∧ (∀ v, m.body = .regw who off v →
        (d1.isStale m = true → exec (.regwArrival src dst) s = .next (s.done fun _ => d1.staleDiscard m))
        ∧ (d1.isStale m = false → d1.regionServes off.toNat = false → exec (.regwArrival src dst) s = .next (s.done fun _ =>
            (d1.bump R.FLR_NACK_CNT).answer none m (.nack 4 none)))
        ∧ (d1.isStale m = false → d1.regionServes off.toNat = true →
            exec (.regwArrival src dst) s = .next (s.did fun s =>
              (({ s with dev := d1 } : State).writeAccess who off.toNat 15 v).onDev (·.answer (registerBlock off.toNat) m (.cplReg none)))))))
  ∧ (∀ (s : State) (m : FloorMsg) (src dst : Fin 4), s.dev.chip.state ≠ .off → s.dev.headMsg false src dst = some m →
    let take := fun (d : Dev) => d.takeMsg false src dst
    let d1 := take s.dev
    let down := src ≠ dst ∧ (d1.regionRuns dst = false ∨ d1.regionEnabled dst = false)
    let cmd : FloorBody → Instr := fun b => match b with
      | .data .. => .dataArrival ⟨src, false⟩ dst
      | .nack .. => .nackArrival src.castSucc dst.castSucc
      | _ => .cplArrival src.castSucc dst.castSucc
    let free := fun (d : Dev) => (take d).setSink m.dst m.tag none
    m.body.isReq = false →
    (∀ b bad, m.body = .data b bad → exec (.dataArrival ⟨src, true⟩ dst) s = .next (s.done fun d =>
      ((d.bump R.FLR_CORR_CNT).corrected 0 0xF none).dataArrival src dst false))
    ∧ (d1.isStale m = true → exec (cmd m.body) s = .next (s.done fun d => (take d).staleDiscard m))
    ∧ (d1.isStale m = false → down → exec (cmd m.body) s = .next (s.done take))
    ∧ (d1.isStale m = false → ¬down →
      (∀ b bad, m.body = .data b bad →
        (d1.sink m.dst m.tag = none → exec (.dataArrival ⟨src, false⟩ dst) s = .next (s.done fun d =>
          (((take d).setFlag R.FLR_ERR R.FLR_ERR.SINK_VIOLATION true).floorPath m.src m.dst).floorFatal 0x02))
        ∧ (∀ u, d1.sink m.dst m.tag = some u → u.void = true →
          exec (.dataArrival ⟨src, false⟩ dst) s = .next (s.done fun d => (free d).staleDiscard m))
        ∧ (∀ u, d1.sink m.dst m.tag = some u → u.void = false → exec (.dataArrival ⟨src, false⟩ dst) s = .next (s.done fun d =>
            match u.use with
            | .port p send => (free d).portData p send b bad
            | .spill q uid => (free d).spillData dst q uid b
            | .mirror q uid => (free d).mirrorData dst q uid b
            | .host uid => (free d).hostData dst uid b
            | .engineReg _ _ _ => free d)))
      ∧ (∀ entry seq dest cls st, m.body = .cplGuarded entry seq dest cls st →
          exec (.cplArrival src.castSucc dst.castSucc) s = .next (s.done fun d =>
            { take d with frame := { (take d).frame with arrivals := (take d).frame.arrivals ++ [m] } })
          ∧ ∀ d : Dev, d.judgeCpl m = if d.regionRuns m.dst = false then d else d.applyCpl m.dst entry seq dest cls st)
      ∧ (∀ head st, m.body = .cplOwner head st →
          exec (.cplArrival src.castSucc dst.castSucc) s = .next (s.done fun d =>
            { take d with frame := { (take d).frame with arrivals := (take d).frame.arrivals ++ [m] } })
          ∧ ∀ d : Dev, d.judgeCpl m = if d.regionRuns m.dst = false then d else d.queueRelease m.dst head)
      ∧ (∀ uid dest bales, m.body = .cplBales uid dest bales →
          exec (.cplArrival src.castSucc dst.castSucc) s = .next (s.done fun d => (take d).mirrorFreed dst uid dest bales))
      ∧ (∀ uid q, m.body = .cplMirror uid q → exec (.cplArrival src.castSucc dst.castSucc) s = .next (s.done fun d =>
          (take d).modQueue dst q fun z =>
            { z with frames := z.frames.map fun w => if w.uid == uid then { w with partner := true } else w }))
      ∧ (∀ v e t tag bl, m.body = .cplReg v → d1.sink m.dst m.tag = some { block := bl, use := .engineReg e t tag, void := false } →
          exec (.cplArrival src.castSucc dst.castSucc) s = .next (s.done fun d => (free d).windowEnds e t tag (v.getD 0)))
      ∧ (∀ x, m.body = .nack 1 (some x) → x.mirrorList = false → m.dst = dst.val →
          exec (.nackArrival src.castSucc dst.castSucc) s = .next (s.done fun d =>
            if x.guarded then
              let y := (take d).jentry dst x.entry
              if y.unretired && y.seq == x.seq && y.state != .spilled then (take d).setJentry dst x.entry { y with state := .resend }
              else take d
            else ((take d).queueRelease dst x.head).bump (R.ACC_NACK_LOST dst)))
      ∧ (∀ of e t tag bl, m.body = .nack of none → of ≠ 1 →
          d1.sink m.dst m.tag = some { block := bl, use := .engineReg e t tag, void := false } →
          exec (.nackArrival src.castSucc dst.castSucc) s = .next (s.done fun d => (free d).windowEnds e t tag 0))))

/-- The loader's commands (R71 to R73, R98, R106 to R109, R112, R114, R115, R663): a copy tried at a start is taken and
applied, or refused and logged, RESULT saying so; a flash operation waits for loader reads, is ignored in the running copy,
and takes effect as it completes; VERIFY reads a copy and accepts it as the candidate with what differs, or refuses it;
ADVANCE_SVN and REVOKE_SLOT blow fuses or are ignored and logged; a re-layout is armed for an eligible candidate, completes
its drain, or is abandoned. -/
def Obligations.LoaderCommands : Prop :=
  ∀ s : State, s.dev.chip.state ≠ .off →
    (∀ (m : Master) (c : FlashCopy), s.dev.Accepts m R.LDR_CMD →
      let cmd := match c with | .a => Instr.verifyA m | .b => .verifyB m
      (s.dev.ldrBusy = true → exec cmd s = .next (s.done id))
      ∧ (s.dev.ldrBusy = false → exec cmd s = .next (s.done fun d =>
          let d := d.fset R.LDR_STAT R.LDR_STAT.RESULT 1
          { d with loader := { d.loader with verifying := some c, reading := true } })))
    ∧ (∀ failed : Bool, s.dev.loader.verifying = none → exec (.verifyComplete failed) s = .next (s.done id))
    ∧ (∀ (failed : Bool) (c : FlashCopy), s.dev.loader.verifying = some c →
      let b := readCopy s.flash c
      let ended := fun (d : Dev) (cand : Bool) => ({ d with loader := { d.loader with candidate := cand } } : Dev)
      (refusalCode s.fuses b failed = 0 → exec (.verifyComplete failed) s = .next (s.done fun d =>
        let d : Dev := { d with loader := { d.loader with verifying := none, reading := false } }
        let now := imageSections d.runningSlot.bytes
        let new := imageSections b
        let diff := (List.range 4).foldl (fun m n => m + b2n (regionDiffers now new n) * 2 ^ n) 0
        let d := ended (d.setStaged ⟨b, c⟩) true
        (((d.fset R.LDR_STAT R.LDR_STAT.DIFF diff).setFlag R.LDR_STAT R.LDR_STAT.CHIP_DIFF (chipDiffers now new)).wr R.LDR_CAND
          (BitVec.ofNat 32 (imageSeq b))).fset R.LDR_STAT R.LDR_STAT.RESULT 2))
      ∧ (refusalCode s.fuses b failed ≠ 0 → exec (.verifyComplete failed) s = .next (s.done fun d =>
        let d := ended { d with loader := { d.loader with verifying := none, reading := false } } false
        let d := (d.logChip 0x0020 (refusalCode s.fuses b failed + 256 * b2n (c == .b))).fset R.LDR_STAT R.LDR_STAT.RESULT 3
        ((d.fset R.LDR_STAT R.LDR_STAT.DIFF 0).setFlag R.LDR_STAT R.LDR_STAT.CHIP_DIFF false).wr R.LDR_CAND (BitVec.ofNat 32 0))))
    ∧ (∀ m : Master, s.dev.Accepts m R.LDR_CMD →
      let svn := s.dev.fget R.LDR_RUN_INFO R.LDR_RUN_INFO.SVN
      (s.dev.ldrBusy = true → exec (.advanceSvn m) s = .next (s.done id) ∧ ∀ k : Fin 4, exec (.revokeSlot m k) s = .next (s.done id))
      ∧ (s.dev.ldrBusy = false → svn ≤ s.fuses.svnCount → exec (.advanceSvn m) s = .next (s.done (·.logChip 0x0021 3)))
      ∧ (s.dev.ldrBusy = false → s.fuses.svnCount < svn → exec (.advanceSvn m) s = .next (s.did fun s =>
          let fu := { s.fuses with svn := BitVec.ofNat 64 (blowUpTo s.fuses.svn.toNat svn) }
          { s with fuses := fu, dev := s.dev.fuseRegs fu }))
      ∧ (∀ k : Fin 4,
        let good := fun (j : Nat) => (s.fuses.slot j).programmed && !(s.fuses.slot j).revoked
        let kept := s.dev.fget R.LDR_RUN_INFO R.LDR_RUN_INFO.KEY_SLOT == k || !(s.fuses.slot k).programmed
          || (good k && !(List.range 4).any fun j => j != k && good j)
        (s.dev.ldrBusy = false → kept = true → exec (.revokeSlot m k) s = .next (s.done (·.logChip 0x0021 (4 + 16 * k))))
        ∧ (s.dev.ldrBusy = false → kept = false → exec (.revokeSlot m k) s = .next (s.did fun s =>
            let fu := { s.fuses with keys := modAt s.fuses.keys k (fun x => { x with revoked := true }) }
            { s with fuses := fu, dev := s.dev.fuseRegs fu }))))
    ∧ ((s.dev.loader.reading = true ∨ s.dev.loader.flashOps = [] → exec .flashOperationStart s = .next (s.done id))
      ∧ (∀ o rest, s.dev.loader.flashOps = o :: rest → s.dev.loader.reading = false → (o :: rest).any (·.started) = false →
          s.dev.inRunningCopy (o.range s.sfdp) = false → exec .flashOperationStart s = .next (s.done fun d =>
            { d with loader := { d.loader with flashOps := { o with started := true } :: rest } }))
      ∧ (∀ o rest, s.dev.loader.flashOps = o :: rest → s.dev.loader.reading = false → (o :: rest).any (·.started) = false →
          s.dev.inRunningCopy (o.range s.sfdp) = true → exec .flashOperationStart s = .next (s.did fun s =>
            (s.onDev fun d => let d := d.logChip 0x0022 o.addr
              { d with loader := { d.loader with flashOps := rest } }).flashEnded o))
      ∧ (∀ o rest, s.dev.loader.flashOps = o :: rest → o.started = true → exec .flashOperationComplete s = .next (s.did fun s =>
          State.flashEnded { s with
            flash := if o.kind = 2 then eraseRange s.flash (o.range s.sfdp).1 (o.range s.sfdp).2
                     else programBytes s.flash o.addr (leBytes 4 o.word.toNat)
            dev := { s.dev with loader := { s.dev.loader with flashOps := rest } } } o))
      ∧ (s.dev.loader.flashOps = [] → exec .flashOperationComplete s = .next (s.done id)))
    ∧ (∀ (c : FlashCopy) (failed : Bool),
      (s.dev.runState.starting = false → exec (.imageCopyChecked c failed) s = .next (s.done id))
      ∧ (s.dev.runState.starting = true → s.dev.start.step = 3 → s.dev.loader.applied = false → ∀ rest,
          s.dev.loader.toTry = c :: rest →
        let b := readCopy s.flash c
        let refused := fun (d : Dev) =>
          (({ d with loader := { d.loader with toTry := rest, reading := !rest.isEmpty } } : Dev).logChip 0x0020
            (refusalCode s.fuses b failed + 256 * b2n (c == .b))).fset R.LDR_STAT R.LDR_STAT.RESULT 3
        (refusalCode s.fuses b failed = 0 → exec (.imageCopyChecked c failed) s = .next (s.did fun s =>
          let s := imageAtStart (s.onDev fun d =>
            ({ d with loader := { d.loader with toTry := [], reading := false } } : Dev).setRunning ⟨b, c⟩)
          s.onDev (·.setFlag R.LDR_STAT R.LDR_STAT.FROM_STORE false)))
        ∧ (refusalCode s.fuses b failed ≠ 0 → rest ≠ [] → exec (.imageCopyChecked c failed) s = .next (s.done refused))
        ∧ (refusalCode s.fuses b failed ≠ 0 → rest = [] → exec (.imageCopyChecked c failed) s = .next (s.did fun s =>
            startFail (s.onDev refused) 1))))
    ∧ (∀ (m : Master) (n : Fin 4) (drain : Byte), s.dev.Accepts m R.LDR_RELAYOUT →
      (s.dev.candidateEligible n = true → exec (.relayoutArm m n drain) s = .next (s.done fun d =>
        ((d.fset R.LDR_RELAYOUT R.LDR_RELAYOUT.REGION n).fset R.LDR_RELAYOUT R.LDR_RELAYOUT.DRAIN_MS drain.toNat).setFlag
          R.LDR_RELAYOUT R.LDR_RELAYOUT.ARMED true))
      ∧ (s.dev.candidateEligible n = false → exec (.relayoutArm m n drain) s = .next (s.done (·.logChip 0x0023 n))))
    ∧ (∀ n : Fin 4, s.dev.loader.draining = some n.val →
      (s.dev.drained n = true → exec (.relayoutDrainComplete n) s = .next (s.done fun d =>
        let d := (d.disarm ⟨.relayoutDrain, n, 0⟩).setFlag R.LDR_RELAYOUT R.LDR_RELAYOUT.ARMED false
        let d : Dev := { d with loader := { d.loader with draining := none, relaying := some n.val } }
        (d.exchangeSlots.relayout n).regionRestart n))
      ∧ (s.dev.drained n = false → exec (.relayoutDrainComplete n) s = .next (s.done id))
      ∧ (s.dev.armed ⟨.relayoutDrain, n, 0⟩ = true → exec (.relayoutDrainTimeout n) s = .next (s.done fun d =>
          let d := ((d.setFlag R.LDR_RELAYOUT R.LDR_RELAYOUT.ARMED false).setFlag R.LDR_RELAYOUT R.LDR_RELAYOUT.ACTIVE false).setFlag
            R.LDR_STAT R.LDR_STAT.ABANDONED true
          let d : Dev := { d with loader := { d.loader with draining := none } }
          (d.disarm ⟨.relayoutDrain, n, 0⟩).refreshRegion n)))

/-- A busy loader (R109): a write to LDR_CMD while RESULT is BUSY or a re-layout is active is ignored, as a command of its
own and as a register write, which is only noted among the writes of its clock. -/
def Obligations.BusyLoaderIgnores : Prop :=
  ∀ s : State, s.dev.chip.state ≠ .off → ∀ m : Master, s.dev.Accepts m R.LDR_CMD →
    (s.dev.fget R.LDR_STAT R.LDR_STAT.RESULT = 1 ∨ s.dev.fget R.LDR_RELAYOUT R.LDR_RELAYOUT.ACTIVE = 1) →
    exec (.verifyA m) s = .next (s.done id) ∧ exec (.verifyB m) s = .next (s.done id)
    ∧ exec (.advanceSvn m) s = .next (s.done id) ∧ (∀ k, exec (.revokeSlot m k) s = .next (s.done id))
    ∧ (∀ v : Word, exec (.registerWrite m (.reg (BitVec.ofNat 32 R.LDR_CMD)) 15 v) s = .next (s.done fun d =>
        { d with clk := { d.clk with writers := (R.LDR_CMD, m, v) :: d.clk.writers } }))

/-- Bring-up of a port (R126, R129, R130, R131, R134, R562): CAL to WAIT_SIGNAL to LOCK to ALIGN to HOLD_UP to UP, each by
its event, with what each writes of the lanes and of MAC_STAT; a partner without full duplex leaves the port in ALIGN; a
later in-band code word of a subport gives its speed anew. -/
def Obligations.PortBringUp : Prop :=
  ∀ (p : PortId) (s : State), portExists p = true → s.dev.chip.state ≠ .off →
    (s.dev.lstate p = 1 → s.dev.refPresent (refIndex p) = true → exec (.calibrationComplete p) s = .next (s.done fun d =>
      let e := (d.each (d.portLanes p) fun l d => d.setFlag (R.LN_STAT l) R.LN_STAT.CAL_DONE true).peersIn p 1
            fun q d => d.fset (R.MAC_STAT q) R.MAC_STAT.LSTATE 2
      { e with start := { e.start with calDone := setBit e.start.calDone (refIndex p) true } }))
    ∧ (s.dev.lstate p = 2 → exec (.signalDetected p) s = .next (s.done fun d =>
        (d.each (d.portLanes p) fun l d => d.setFlag (R.LN_STAT l) R.LN_STAT.SIGNAL true).peersIn p 2
          fun q d => d.fset (R.MAC_STAT q) R.MAC_STAT.LSTATE 3))
    ∧ (s.dev.lstate p ≠ 2 → exec (.signalDetected p) s = .next (s.done id))
    ∧ (∀ ctle dfe : Byte, s.dev.lstate p = 3 → exec (.lockAchieved p ctle dfe) s = .next (s.done fun d =>
        (d.each (d.portLanes p) fun l d =>
          ((((d.setFlag (R.LN_STAT l) R.LN_STAT.CDR_LOCK true).setFlag (R.LN_STAT l) R.LN_STAT.SYNC true).fset (R.LN_RXEQ l)
            R.LN_RXEQ.CTLE ctle.toNat).fset (R.LN_RXEQ l) R.LN_RXEQ.DFE1 dfe.toNat).setFlag (R.LN_RXEQ l) R.LN_RXEQ.ADAPTED true
          ).peersIn p 3 fun q d => d.fset (R.MAC_STAT q) R.MAC_STAT.LSTATE 4))
    ∧ (∀ (speed : BitVec 4) (full : Bool), s.dev.lstate p = 4 → s.dev.flag (R.MAC_STAT p) R.MAC_STAT.LOCAL_FAULT = false →
        exec (.alignComplete p speed full) s = .next (s.done fun d =>
          if full then
            let d := d.faultTx p false
            (((((d.setFlag (R.MAC_STAT p) R.MAC_STAT.AN_FAIL false).fset (R.MAC_STAT p) R.MAC_STAT.SPEED
              (d.portSpeed p speed.toNat)).setFlag (R.MAC_STAT p) R.MAC_STAT.ALIGNED
              (decide (6 ≤ d.portMode p ∧ d.portMode p ≤ 8))).setFlag (R.MAC_STAT p) R.MAC_STAT.FEC_LOCK (d.portFec p)).fset
              (R.MAC_STAT p) R.MAC_STAT.LSTATE 5).arm ⟨.holdUp, p, 0⟩ (d.fget (R.MAC_LINK p) R.MAC_LINK.UP_MS * 1000000)
          else if d.portMode p = 1 ∧ d.flag (R.MAC_CFG p) R.MAC_CFG.AN37 = true then d.setFlag (R.MAC_STAT p) R.MAC_STAT.AN_FAIL true
          else d))
    ∧ (∀ (speed : BitVec 4) (full : Bool), 9 ≤ s.dev.portMode p → 5 ≤ s.dev.lstate p →
        exec (.alignComplete p speed full) s = .next (s.done fun d =>
          if full then d.fset (R.MAC_STAT p) R.MAC_STAT.SPEED (d.portSpeed p speed.toNat) else d.portFault p false))
    ∧ (s.dev.lstate p = 5 → s.dev.armed ⟨.holdUp, p, 0⟩ = true → exec (.holdUpExpiry p) s = .next (s.done fun d =>
        let e := (d.disarm ⟨.holdUp, p, 0⟩).fset (R.MAC_STAT p) R.MAC_STAT.LSTATE 6
        (if p.val < 128 then e.setFieldBit (R.PB_EVT (p / 8)) R.PB_EVT.LINK_UP (p % 8) true
          else e.setFlag (R.HST_EVT (portRegion p)) R.HST_EVT.ETH_LINK_UP true).refreshReady p))

/-- Faults of a port (R131, R132, R133, R136): while UP a fault starts HOLD_DOWN, or passes through DOWN at once with a
DOWN_MS of 0, and in a mode with link fault signalling the port transmits remote fault; in HOLD_UP it returns the port to
WAIT_SIGNAL; its end during HOLD_DOWN returns the port to UP and is counted; the expiry of HOLD_DOWN counts LINK_DOWN,
records the event and clears READY. A network reference lost and returned (R123), a lane checker's lock (R165) and a
background re-adaptation pass (R207). -/
def Obligations.PortFaults : Prop :=
  (∀ (p : PortId) (s : State), portExists p = true → s.dev.chip.state ≠ .off →
    (∀ lane : Fin 4, 4 ≤ s.dev.lstate p →
      exec (.linkFault p lane .localFault) s = .next (s.done fun d => d.portFault p true)
      ∧ exec (.linkFault p lane .align) s = .next (s.done fun d => (d.setFlag (R.MAC_STAT p) R.MAC_STAT.ALIGNED false).portFault p false)
      ∧ exec (.linkFault p lane .signal) s = .next (s.done fun d => (d.loseSignal (d.portLane p lane)).each (d.lanePorts (d.portLane p lane))
          fun q d => if 4 ≤ d.lstate q then d.portFault q false else d)
      ∧ exec (.linkFault p lane .lock) s = .next (s.done fun d => (d.loseSync (d.portLane p lane)).each (d.lanePorts (d.portLane p lane))
          fun q d => if 4 ≤ d.lstate q then d.portFault q false else d))
    ∧ (s.dev.lstate p = 6 → s.dev.fget (R.MAC_LINK p) R.MAC_LINK.DOWN_MS ≠ 0 →
        s.dev.portFault p false =
          let d := if s.dev.faultSignalling p then s.dev.faultTx p true else s.dev
          ((d.cutReception p).fset (R.MAC_STAT p) R.MAC_STAT.LSTATE 7).arm ⟨.holdDown, p, 0⟩
            (d.fget (R.MAC_LINK p) R.MAC_LINK.DOWN_MS * 1000000))
    ∧ (s.dev.lstate p = 6 → s.dev.fget (R.MAC_LINK p) R.MAC_LINK.DOWN_MS = 0 →
        s.dev.portFault p false = ((if s.dev.faultSignalling p then s.dev.faultTx p true else s.dev).cutReception p).portDown p)
    ∧ (s.dev.lstate p = 5 → ∀ loc : Bool, s.dev.portFault p loc = (if s.dev.faultSignalling p then s.dev.faultTx p true else s.dev).portWait p)
    ∧ (s.dev.lstate p = 7 → exec (.faultEnd p) s = .next (s.done fun d =>
        let d := (d.setFlag (R.MAC_STAT p) R.MAC_STAT.LOCAL_FAULT false).faultTx p false
        let d := d.each (d.portLanes p) fun l d => ((d.setFlag (R.LN_STAT l) R.LN_STAT.SIGNAL true).setFlag (R.LN_STAT l)
          R.LN_STAT.CDR_LOCK true).setFlag (R.LN_STAT l) R.LN_STAT.SYNC true
        let d := (d.setFlag (R.MAC_STAT p) R.MAC_STAT.ALIGNED (decide (6 ≤ d.portMode p ∧ d.portMode p ≤ 8))).setFlag (R.MAC_STAT p)
          R.MAC_STAT.FEC_LOCK (d.portFec p)
        (((d.disarm ⟨.holdDown, p, 0⟩).fset (R.MAC_STAT p) R.MAC_STAT.LSTATE 6).bump (R.MAC_HOLD_DOWN_RECOVERED p)).refreshReady p))
    ∧ (s.dev.lstate p ≠ 7 → exec (.faultEnd p) s = .next (s.done fun d => (d.setFlag (R.MAC_STAT p) R.MAC_STAT.LOCAL_FAULT false).faultTx p false))
    ∧ (s.dev.lstate p = 7 → s.dev.armed ⟨.holdDown, p, 0⟩ = true → exec (.holdDownExpiry p) s = .next (s.done fun d =>
        let d := d.bump (R.MAC_LINK_DOWN p)
        let d := if p.val < 128 then d.setFieldBit (R.PB_EVT (p / 8)) R.PB_EVT.LINK_DOWN (p % 8) true
          else d.setFlag (R.HST_EVT (portRegion p)) R.HST_EVT.ETH_LINK_DOWN true
        (d.setFlag (R.MAC_STAT p) R.MAC_STAT.READY false).portWait p))
    ∧ (∀ (lane : Fin 4) (sig : Bool), 3 ≤ s.dev.lstate p → s.dev.lstate p ≤ 5 → (sig = true ∨ 4 ≤ s.dev.lstate p) →
        exec (.lockLost p lane sig) s = .next (s.done fun d =>
          let l := d.portLane p lane
          let d := if sig then d.loseSignal l else d.loseSync l
          d.each ((d.lanePorts l).filter fun q => decide (3 ≤ d.lstate q ∧ d.lstate q ≤ 5)) fun q d => d.portWait q))
    ∧ (∀ (lane : Fin 4) (sig : Bool), s.dev.lstate p = 0 → s.dev.portPresent p = true → exec (.lockLost p lane sig) s =
        .next (s.done fun d => if sig then d.loseSignal (d.portLane p lane) else d.loseSync (d.portLane p lane)))
    ∧ (s.dev.faultSignalling p = true → 4 ≤ s.dev.lstate p →
        exec (.remoteFaultReceived p) s = .next (s.done fun d => d.setFlag (R.MAC_STAT p) R.MAC_STAT.REMOTE_FAULT true))
    ∧ exec (.remoteFaultEnd p) s = .next (s.done fun d => d.setFlag (R.MAC_STAT p) R.MAC_STAT.REMOTE_FAULT false))
  ∧ (∀ s : State, s.dev.chip.state ≠ .off →
    (∀ b : Fin 18, exec (.refclkLost b) s = .next (s.done fun d =>
      let d : Dev := { d with mgmt := { d.mgmt with refLost := setBit d.mgmt.refLost b true } }
      let d := if b.val < 16 then (d.setFlag (R.PB_EVT b) R.PB_EVT.REFCLK_LOST true).setFlag (R.PB_STAT b) R.PB_STAT.REFCLK_OK false
        else d
      d.each (allPorts.filter fun p => refIndex p == b.val) fun p d =>
        if 6 ≤ d.lstate p then (d.portDownRecords p).portCal p else if 1 ≤ d.lstate p then d.portCal p else d))
    ∧ (∀ b : Fin 18, exec (.refclkReturn b) s = .next (s.done fun d =>
      let d : Dev := { d with mgmt := { d.mgmt with refLost := setBit d.mgmt.refLost b false } }
      if b.val < 16 then d.setFlag (R.PB_STAT b) R.PB_STAT.REFCLK_OK true else d))
    ∧ (∀ (l : Fin 68) (errors : BitVec 16), l.val ∈ userLanes → 1 ≤ s.dev.fget (R.LN_PRBS l) R.LN_PRBS.CHK → s.dev.fget (R.LN_PRBS l) R.LN_PRBS.CHK ≤ 5 →
      exec (.prbsCheckerLock l true errors) s
        = .next (s.done fun d => (d.setFlag (R.LN_STAT l) R.LN_STAT.PRBS_LOCK true).bump (R.LN_PRBS_ERR l) errors.toNat)
      ∧ exec (.prbsCheckerLock l false errors) s = .next (s.done fun d => d.setFlag (R.LN_STAT l) R.LN_STAT.PRBS_LOCK false))
    ∧ (∀ (l : Fin 68) (b : Bool) (errors : BitVec 16),
      ¬(l.val ∈ userLanes ∧ 1 ≤ s.dev.fget (R.LN_PRBS l) R.LN_PRBS.CHK ∧ s.dev.fget (R.LN_PRBS l) R.LN_PRBS.CHK ≤ 5) →
      exec (.prbsCheckerLock l b errors) s = .next (s.done id))
    ∧ (∀ n : Fin 4, s.dev.workAllowed 3 n = true → exec (.serdesReadaptationPass n) s = .next (s.done fun d =>
      let adapted := (((regionPorts n).flatMap fun p => d.portLanes p).eraseDups).filter fun l =>
        d.flag (R.LN_RXEQ l) R.LN_RXEQ.ADAPTED
      (d.each adapted fun l d => (({ d with free := d.free + 2 } : Dev).fset (R.LN_RXEQ l) R.LN_RXEQ.CTLE
        (Config.freeValue d.free).toNat).fset (R.LN_RXEQ l) R.LN_RXEQ.DFE1 (Config.freeValue (d.free + 1)).toNat).workDone 3 n))
    ∧ (∀ n : Fin 4, s.dev.workAllowed 3 n = false → exec (.serdesReadaptationPass n) s = .next (s.done id)))

/-- MDIO (R153, R154, R155): a write of MDIO_CMD starts the frame it names, with its start and operation bits, or sets
OVERRUN while a frame is in progress; the end of a frame clears BUSY and sets DONE, and a read stores RDATA and NO_RESP.
I2C (R157 to R162): a transaction starts with its lengths cut at 16 and the bytes it writes, after a bus clear where SDA
was low, which CLEARED or BUS_STUCK records; a write while BUSY sets OVERRUN; a command ends with COUNT, its NACK flags and
its read data; a stretch beyond its limit and a lost arbitration end it under their own flags with the bytes it
transferred. -/
def Obligations.ManagementBuses : Prop :=
  (∀ (b : Fin 16) (s : State), s.dev.chip.state ≠ .off →
    (∀ m : Master, s.dev.Accepts m (R.MDIO_CMD b) → s.dev.flag (R.MDIO_STAT b) R.MDIO_STAT.BUSY = false →
      (∀ (phy reg : BitVec 5) (data : BitVec 16),
        exec (.mdioC22Write m b phy reg data) s = .next (s.done fun d => mdioStarted d b 1 1 phy.toNat reg.toNat data.toNat 1)
        ∧ exec (.mdioC22Read m b phy reg) s = .next (s.done fun d => mdioStarted d b 1 2 phy.toNat reg.toNat 0 2)
        ∧ exec (.mdioC45Address m b phy reg data) s = .next (s.done fun d => mdioStarted d b 0 0 phy.toNat reg.toNat data.toNat 1)
        ∧ exec (.mdioC45Write m b phy reg data) s = .next (s.done fun d => mdioStarted d b 0 1 phy.toNat reg.toNat data.toNat 1)
        ∧ exec (.mdioC45Read m b phy reg) s = .next (s.done fun d => mdioStarted d b 0 3 phy.toNat reg.toNat 0 2)
        ∧ exec (.mdioC45PostReadInc m b phy reg) s = .next (s.done fun d => mdioStarted d b 0 2 phy.toNat reg.toNat 0 2)))
    ∧ (∀ m : Master, s.dev.Accepts m (R.MDIO_CMD b) → s.dev.flag (R.MDIO_STAT b) R.MDIO_STAT.BUSY = true →
      ∀ (phy reg : BitVec 5) (data : BitVec 16) (c : Instr),
        c ∈ [.mdioC22Write m b phy reg data, .mdioC22Read m b phy reg, .mdioC45Address m b phy reg data,
          .mdioC45Write m b phy reg data, .mdioC45Read m b phy reg, .mdioC45PostReadInc m b phy reg] →
        exec c s = .next (s.done fun d => d.setFlag (R.MDIO_STAT b) R.MDIO_STAT.OVERRUN true))
    ∧ (s.dev.flag (R.MDIO_STAT b) R.MDIO_STAT.BUSY = true → ∀ (turn : Bool) (data : BitVec 16),
      exec (.mdioFrameEnd b turn data) s = .next (s.done fun d =>
        let d' : Dev := { d with mgmt := { d.mgmt with mdio := Map.put (fun _ => 0) d.mgmt.mdio b 0 } }
        let d' := (d'.setFlag (R.MDIO_STAT b) R.MDIO_STAT.BUSY false).setFlag (R.MDIO_STAT b) R.MDIO_STAT.DONE true
        if Map.get (fun _ => 0) d.mgmt.mdio b = 2 then
          (d'.fset (R.MDIO_STAT b) R.MDIO_STAT.RDATA data.toNat).when turn (·.setFlag (R.MDIO_STAT b) R.MDIO_STAT.NO_RESP true)
        else d'))
    ∧ (s.dev.flag (R.MDIO_STAT b) R.MDIO_STAT.BUSY = false → ∀ (turn : Bool) (data : BitVec 16),
      exec (.mdioFrameEnd b turn data) s = .next (s.done id)))
  ∧ (∀ (b : Fin 16) (s : State), s.dev.chip.state ≠ .off →
    (∀ (m : Master) (addr : BitVec 7) (wlen rlen : BitVec 5), s.dev.Accepts m (R.I2C_CMD b) →
      s.dev.flag (R.I2C_STAT b) R.I2C_STAT.BUSY = false →
      (∀ k : Fin 10, exec (.i2cTransaction m b addr wlen rlen (some k)) s = .next (s.done fun d =>
        let d := d.when (k.val != 0) (·.setFlag (R.I2C_STAT b) R.I2C_STAT.CLEARED true)
        let d := d.setFlag (R.I2C_STAT b) R.I2C_STAT.BUSY true
        let c : I2cCmd := { wlen := min wlen.toNat 16, rlen := min rlen.toNat 16 }
        let d : Dev := { d with mgmt := { d.mgmt with i2c := Map.put (fun _ => none) d.mgmt.i2c b (some c) } }
        d.emit
          (.i2c b (d.fget (R.I2C_CFG b) R.I2C_CFG.SPEED) addr.toNat (d.i2cBytes b (min wlen.toNat 16)) (min rlen.toNat 16))))
      ∧ exec (.i2cTransaction m b addr wlen rlen none) s = .next (s.done fun d =>
          i2cEnded ((d.setFlag (R.I2C_STAT b) R.I2C_STAT.BUS_STUCK true).fset (R.I2C_STAT b) R.I2C_STAT.COUNT 0) b)
      ∧ (∀ k : Fin 10, exec (.i2cBusClearCmd m b (some k)) s = .next (s.done fun d =>
          i2cEnded ((d.setFlag (R.I2C_STAT b) R.I2C_STAT.CLEARED true).fset (R.I2C_STAT b) R.I2C_STAT.COUNT 0) b))
      ∧ exec (.i2cBusClearCmd m b none) s = .next (s.done fun d =>
          i2cEnded ((d.setFlag (R.I2C_STAT b) R.I2C_STAT.BUS_STUCK true).fset (R.I2C_STAT b) R.I2C_STAT.COUNT 0) b))
    ∧ (∀ (m : Master) (addr : BitVec 7) (wlen rlen : BitVec 5) (sda : Option (Fin 10)), s.dev.Accepts m (R.I2C_CMD b) →
      s.dev.flag (R.I2C_STAT b) R.I2C_STAT.BUSY = true →
      exec (.i2cTransaction m b addr wlen rlen sda) s = .next (s.done fun d => d.setFlag (R.I2C_STAT b) R.I2C_STAT.OVERRUN true)
      ∧ exec (.i2cBusClearCmd m b sda) s = .next (s.done fun d => d.setFlag (R.I2C_STAT b) R.I2C_STAT.OVERRUN true))
    ∧ (∀ (c : I2cCmd) (ack nack : Bool) (count : Fin 33) (bytes : List Byte), Map.get (fun _ => none) s.dev.mgmt.i2c b = some c →
      exec (.i2cCommandEnd b ack count nack bytes) s = .next (s.done fun d =>
        let d := d.when (!ack) (·.setFlag (R.I2C_STAT b) R.I2C_STAT.NACK_ADDR true)
        let d := d.when nack (·.setFlag (R.I2C_STAT b) R.I2C_STAT.NACK_DATA true)
        let d := d.fset (R.I2C_STAT b) R.I2C_STAT.COUNT count
        i2cEnded (d.when (ack && !nack) (·.i2cStore b (bytes.take c.rlen))) b))
    ∧ (s.dev.flag (R.I2C_STAT b) R.I2C_STAT.BUSY = true →
      (∀ (count : Fin 33) (sda : Option (Fin 10)), exec (.i2cStretchTimeout ⟨b, count⟩ sda) s = .next (s.done fun d =>
        let d := i2cEnded ((d.setFlag (R.I2C_STAT b) R.I2C_STAT.STRETCH_TO true).fset (R.I2C_STAT b) R.I2C_STAT.COUNT count) b
        if sda.isSome then d.setFlag (R.I2C_STAT b) R.I2C_STAT.CLEARED true
        else d.setFlag (R.I2C_STAT b) R.I2C_STAT.BUS_STUCK true))
      ∧ (∀ count : Fin 33, exec (.i2cArbitrationLost ⟨b, count⟩) s = .next (s.done fun d =>
        i2cEnded ((d.setFlag (R.I2C_STAT b) R.I2C_STAT.LOST true).fset (R.I2C_STAT b) R.I2C_STAT.COUNT count) b))))

/-- Time bases (R169, R173, R174, R175, R177): writes of TB_RATE and TB_CMD wait for their turn, of which the page takes
one as a clock ends; a write of TB_RATE takes the word, records a clamp, ends holdover and restarts the rate watchdog; SET
and STEP move the base, are counted, and move the base's users; the watchdog's expiry sets HOLDOVER and counts it once. -/
def Obligations.TimeBases : Prop :=
  ∀ (t : Fin 4) (s : State), s.dev.chip.state ≠ .off →
    (∀ (m : Master) (v : Word), s.dev.Accepts m (R.TB_RATE t) → exec (.tbRateWrite m t v) s = .next (s.done (·.timeArrives m (R.TB_RATE t) v)))
    ∧ (∀ m : Master, s.dev.Accepts m (R.TB_CMD t) →
      exec (.tbSet m t) s = .next (s.done (·.timeArrives m (R.TB_CMD t) 1))
      ∧ exec (.tbStep m t) s = .next (s.done (·.timeArrives m (R.TB_CMD t) 2)))
    ∧ (∀ (d : Dev) (m : Master) (a : Nat) (v : Word), d.timeArrives m a v =
        { d with time := { d.time with writes := queueWrite ⟨d.now, timeRank m, a, v⟩ d.time.writes } })
    ∧ (∀ (d : Dev) (w : TimeWrite) (l : List TimeWrite), d.time.writes = w :: l →
      let e : Dev := { d with time := { d.time with writes := l } }
      (w.addr = R.TB_RATE t → d.serveTime =
        (((e.wr (R.TB_RATE t) w.value).setFlag (R.TB_STAT t) R.TB_STAT.RATE_CLAMPED
          (decide (signed 32 w.value.toNat < -4194304 ∨ 4194304 < signed 32 w.value.toNat))).setFlag (R.TB_STAT t)
            R.TB_STAT.HOLDOVER false).armHoldWatch t)
      ∧ (w.addr = R.TB_CMD t → w.value = 1 → d.serveTime =
        let ns := (e.rd (R.TB_SET_NS t)).toNat
        let e := e.setTbase t ⟨ns * 4294967296 + (e.rd (R.TB_SET_FRAC t)).toNat,
          (e.tbase t).acc + signed 32 (ns + 4294967296 - (e.tbase t).ns)⟩
        ((((e.setFlag (R.TB_STAT t) R.TB_STAT.VALID true).setFlag (R.TB_STAT t) R.TB_STAT.STEPPED true).bump
          (R.TB_ADJ_CNT t)).reanchor t).refreshAxis t)
      ∧ (w.addr = R.TB_CMD t → w.value = 2 → d.serveTime =
        let st := signed 32 (e.rd (R.TB_STEP t)).toNat
        let e := e.setTbase t ⟨wrapTo 64 (((e.tbase t).value : Int) + st * 4294967296), (e.tbase t).acc + st⟩
        ((e.setFlag (R.TB_STAT t) R.TB_STAT.STEPPED true).bump (R.TB_ADJ_CNT t)).refreshAxis t))
    ∧ (s.dev.armed ⟨.tbWatch, t, 0⟩ = true → s.dev.flag (R.TB_STAT t) R.TB_STAT.HOLDOVER = false →
      exec (.holdoverWatchdogExpiry t) s = .next (s.done fun d =>
        ((d.disarm ⟨.tbWatch, t, 0⟩).setFlag (R.TB_STAT t) R.TB_STAT.HOLDOVER true).bump (R.TB_HOLD_CNT t)))
    ∧ (s.dev.armed ⟨.tbWatch, t, 0⟩ = true → s.dev.flag (R.TB_STAT t) R.TB_STAT.HOLDOVER = true →
      exec (.holdoverWatchdogExpiry t) s = .next (s.done fun d => d.disarm ⟨.tbWatch, t, 0⟩))
    ∧ (s.dev.armed ⟨.tbWatch, t, 0⟩ = false → exec (.holdoverWatchdogExpiry t) s = .next (s.done id))

/-- The MAINS axis (R175, R181 to R188): an edge counts when the axis is enabled, has the polarity of EDGE and held for
FILT; while LOCKED an edge outside the window is stray and counted, and one within it, or while the axis holds, ends the
cycle; WIN units of waiting count a miss; a write of PH_MAINS_CFG waits for its turn, and with EN set to 1 leaves the axis
LOST with a PERIOD and in ACQUIRE without. -/
def Obligations.MainsAxis : Prop :=
  ∀ s : State, s.dev.chip.state ≠ .off →
    (∀ (rising : Bool) (held : Byte), (s.dev.mainsOn = false ∨ rising = s.dev.flag R.PH_MAINS_CFG R.PH_MAINS_CFG.EDGE
        ∨ held.toNat < s.dev.fget R.PH_MAINS_CFG R.PH_MAINS_CFG.FILT) → exec (.mainsEdge rising held) s = .next (s.done id))
    ∧ (∀ (rising : Bool) (held : Byte), s.dev.mainsOn = true → rising = !s.dev.flag R.PH_MAINS_CFG R.PH_MAINS_CFG.EDGE →
        s.dev.fget R.PH_MAINS_CFG R.PH_MAINS_CFG.FILT ≤ held.toNat → s.dev.mainsState = 1 →
        (s.dev.time.mains.holding = false → s.dev.time.mains.phase < 65536 - s.dev.mainsWin →
          exec (.mainsEdge rising held) s = .next (s.done fun d =>
            d.bump R.PH_MAINS_STRAY))
        ∧ (s.dev.time.mains.holding = true ∨ 65536 - s.dev.mainsWin ≤ s.dev.time.mains.phase →
          exec (.mainsEdge rising held) s = .next (s.done fun d =>
            let m := d.time.mains
            let iv := match m.lastCycleEdge with
              | some e => if usableInterval (d.now - e) then ((d.now - e) :: m.intervals).take 4 else m.intervals
              | none => m.intervals
            (d.setMains { m with
              intervals := iv, lastCycleEdge := some d.now, lastEdge := some d.now, misses := 0,
              nextPeriod := if iv.length = 4 then (iv.foldl (· + ·) 0) / 4 else 0 }).mainsCompressCycle)))
    ∧ (∀ (rising : Bool) (held : Byte), s.dev.mainsOn = true → rising = !s.dev.flag R.PH_MAINS_CFG R.PH_MAINS_CFG.EDGE →
        s.dev.fget R.PH_MAINS_CFG R.PH_MAINS_CFG.FILT ≤ held.toNat → s.dev.mainsState ≠ 1 → s.dev.time.mains.lastEdge = none →
        exec (.mainsEdge rising held) s = .next (s.done fun d =>
          d.setMains { d.time.mains with lastEdge := some d.now, intervals := [] }))
    ∧ (∀ (rising : Bool) (held : Byte) (e : Nat) (first : Nat) (l : List Nat), s.dev.mainsOn = true →
        rising = !s.dev.flag R.PH_MAINS_CFG R.PH_MAINS_CFG.EDGE → s.dev.fget R.PH_MAINS_CFG R.PH_MAINS_CFG.FILT ≤ held.toNat →
        s.dev.mainsState = 0 → s.dev.time.mains.lastEdge = some e → s.dev.time.mains.intervals = first :: l →
        usableInterval (s.dev.now - e) = true → locks first (s.dev.now - e) = true →
        exec (.mainsEdge rising held) s = .next (s.done fun d =>
          let d' := ((((d.fset R.PH_MAINS_PERIOD R.PH_MAINS_PERIOD.NS ((first + (d.now - e)) / 2)).fset R.PH_MAINS_STAT
            R.PH_MAINS_STAT.STATE 1).setFlag R.PH_MAINS_STAT R.PH_MAINS_STAT.LOCK_EVT true).bump R.PH_MAINS_RESYNC)
          d'.setMains { d.time.mains with
            lastEdge := some d.now, intervals := [], misses := 0, nextPeriod := 0, lastCycleEdge := none }))
    ∧ (s.dev.mainsOn = true → s.dev.mainsState = 1 → s.dev.time.mains.holding = true → s.dev.time.mains.nextPeriod = 0 →
        s.dev.mainsWin * s.dev.mainsPeriod ≤ s.dev.time.mains.progress →
        exec .mainsMiss s = .next (s.done fun d =>
          let e := ((d.bump R.PH_MAINS_MISSED).setMains { d.time.mains with
            misses := d.time.mains.misses + 1, holding := false,
            progress := d.time.mains.progress - d.mainsWin * d.mainsPeriod, nextPeriod := 0 }).mainsAdvance (d.mainsWin + 1)
          if e.mainsLoss ≤ d.time.mains.misses + 1 then
            let e := (e.fset R.PH_MAINS_STAT R.PH_MAINS_STAT.STATE 2).setFlag R.PH_MAINS_STAT R.PH_MAINS_STAT.LOST_EVT true
            e.setMains { e.time.mains with intervals := [] }
          else e))
    ∧ (∀ (m : Master) (v : Word), s.dev.Accepts m R.PH_MAINS_CFG → s.dev.mainsOn = false → v.getLsbD 0 = true →
        s.dev.groupLive (.chip 2) R.PH_MAINS_CFG = true →
        exec (.mainsEnable m v) s = .next (s.done (·.timeArrives m R.PH_MAINS_CFG v))
        ∧ s.dev.timeEffect R.PH_MAINS_CFG v = (
          let d := s.dev
          let d := d.plain R.PH_MAINS_CFG v
          let d := d.fset R.PH_MAINS_STAT R.PH_MAINS_STAT.STATE (if d.mainsPeriod = 0 then 0 else 2)
          d.setMains { d.time.mains with lastEdge := none, lastCycleEdge := none, intervals := [], holding := false,
                                         beginNext := false, nextPeriod := 0, misses := 0 }))

/-- The ODO axis (R175, R189 to R191): a counted edge moves the position by one in the sampled direction, counts it, ends
STILL and restarts its limit; a pulse shorter than the filter is a glitch; SET waits for its turn and loads the position,
moved by the edges counted in its clock; the limit's expiry sets STILL. Capture inputs (R175, R202 to R204): an edge of a
selected polarity that outlasts the filter takes the values that all axes had as the clock began; as the clock ends the
entry joins its FIFO, after a POP that the page takes in it; with 16 entries held it sets OVERFLOW and counts DROPPED; POP
waits for its turn, removes the oldest entry, and does nothing on an empty FIFO. -/
def Obligations.OdoAxisAndCaptures : Prop :=
  (∀ s : State, s.dev.chip.state ≠ .off →
    (∀ (high : Byte) (dir : Bool), s.dev.flag R.PH_ODO_CFG R.PH_ODO_CFG.EN = true →
      (high.toNat < s.dev.fget R.PH_ODO_CFG R.PH_ODO_CFG.FILT →
        exec (.odoEdge high dir) s = .next (s.done fun d => d.bump R.PH_ODO_GLITCH))
      ∧ (s.dev.fget R.PH_ODO_CFG R.PH_ODO_CFG.FILT ≤ high.toNat →
        (dir = s.dev.flag R.PH_ODO_CFG R.PH_ODO_CFG.DIR_POL → exec (.odoEdge high dir) s = .next (s.done fun d =>
          let d := d.setOdo ⟨d.time.odo.acc + 1, wrapTo 32 ((d.time.odo.value : Int) + 1)⟩
          let d := ({ d with clk := { d.clk with odoSteps := d.clk.odoSteps + 1 } } : Dev).bump R.PH_ODO_FWD
          let d := (d.setFlag R.PH_ODO_STAT R.PH_ODO_STAT.DIR false).setFlag R.PH_ODO_STAT R.PH_ODO_STAT.STILL false
          (d.arm ⟨.odoStill, 0, 0⟩ d.odoStillClocks).refreshAxis 5))
        ∧ (dir = !s.dev.flag R.PH_ODO_CFG R.PH_ODO_CFG.DIR_POL → exec (.odoEdge high dir) s = .next (s.done fun d =>
          let d := d.setOdo ⟨d.time.odo.acc + -1, wrapTo 32 ((d.time.odo.value : Int) + -1)⟩
          let d := ({ d with clk := { d.clk with odoSteps := d.clk.odoSteps + -1 } } : Dev).bump R.PH_ODO_REV
          let d := (d.setFlag R.PH_ODO_STAT R.PH_ODO_STAT.DIR true).setFlag R.PH_ODO_STAT R.PH_ODO_STAT.STILL false
          (d.arm ⟨.odoStill, 0, 0⟩ d.odoStillClocks).refreshAxis 5))))
    ∧ (∀ (high : Byte) (dir : Bool), s.dev.flag R.PH_ODO_CFG R.PH_ODO_CFG.EN = false → exec (.odoEdge high dir) s = .next (s.done id))
    ∧ (∀ m : Master, s.dev.Accepts m R.PH_ODO_CMD → exec (.odoSet m) s = .next (s.done (·.timeArrives m R.PH_ODO_CMD 1)))
    ∧ (s.dev.timeEffect R.PH_ODO_CMD 1 = (
        let d := s.dev
        let v := wrapTo 32 (((d.rd R.PH_ODO_SET).toNat : Int) + d.clk.odoSteps)
        ((d.setOdo ⟨d.time.odo.acc + signed 32 (v + 4294967296 - d.time.odo.value), v⟩).reanchor 5).refreshAxis 5))
    ∧ (s.dev.armed ⟨.odoStill, 0, 0⟩ = true → exec .odoStillExpiry s = .next (s.done fun d =>
        (d.disarm ⟨.odoStill, 0, 0⟩).setFlag R.PH_ODO_STAT R.PH_ODO_STAT.STILL true))
    ∧ (s.dev.armed ⟨.odoStill, 0, 0⟩ = false → exec .odoStillExpiry s = .next (s.done id)))
  ∧ (∀ (i : Fin 2) (s : State), s.dev.chip.state ≠ .off →
    (∀ (rising : Bool) (held : Byte), (s.dev.fget (R.CAP_CFG i) R.CAP_CFG.EDGE).testBit (if rising then 0 else 1) = true →
      s.dev.fget (R.CAP_CFG i) R.CAP_CFG.FILT ≤ held.toNat → s.dev.usersRun = true →
      exec (.captureEdge i rising held) s = .next (s.done fun d =>
        let e : CaptureEntry := ⟨d.was.tbAll, d.was.time.mains.value, d.was.time.odo.value, rising⟩
        { d with clk := { d.clk with captured := d.clk.captured ++ [(i.val, e)] } }))
    ∧ (∀ d : Dev, d.timeEnd =
        let e := d.serveTime.each d.clk.captured (fun x d => d.captureEnters x.1 x.2)
        { e with clk := { e.clk with captured := [], odoSteps := 0 } })
    ∧ (∀ (d : Dev) (e : CaptureEntry),
      ((d.captures i).length < 16 → d.captureEnters i e = (d.setCaptures i (d.captures i ++ [e])).refreshCapture i)
      ∧ (16 ≤ (d.captures i).length → d.captureEnters i e =
        (d.setFlag (R.CAP_STAT i) R.CAP_STAT.OVERFLOW true).saturatingAdd (R.CAP_STAT i) R.CAP_STAT.DROPPED 1))
    ∧ (∀ (rising : Bool) (held : Byte), (s.dev.fget (R.CAP_CFG i) R.CAP_CFG.EDGE).testBit (if rising then 0 else 1) = false →
      exec (.captureEdge i rising held) s = .next (s.done id))
    ∧ (∀ (rising : Bool) (held : Byte), held.toNat < s.dev.fget (R.CAP_CFG i) R.CAP_CFG.FILT →
      exec (.captureEdge i rising held) s = .next (s.done id))
    ∧ (∀ m : Master, s.dev.Accepts m (R.CAP_CFG i) → exec (.capturePop m i) s = .next (s.done fun d =>
        d.timeArrives m (R.CAP_CFG i) (d.rd (R.CAP_CFG i) ||| 0x80000000#32)))
    ∧ (∀ (d : Dev) (v : Word), v.getLsbD 31 = true → d.timeEffect (R.CAP_CFG i) v = (d.plain (R.CAP_CFG i) v).capturePop i)
    ∧ (∀ (e e' : CaptureEntry) (l : List CaptureEntry), s.dev.captures i = e :: e' :: l →
      s.dev.capturePop i = (s.dev.setCaptures i (e' :: l)).refreshCapture i)
    ∧ (∀ e : CaptureEntry, s.dev.captures i = [e] →
      s.dev.capturePop i = (
        let d := s.dev
        let free := fun (a : Nat) (d : Dev) => d.fresh.2.wr a d.fresh.1
        let d := free (R.CAP_ODO i) (free (R.CAP_MAINS i)
          (((d.setCaptures i []).refreshCapture i).each [0, 1, 2, 3] fun t => free (R.CAP_TB i t)))
        d.freshBool.2.setFlag (R.CAP_STAT i) R.CAP_STAT.HEAD_EDGE d.freshBool.1))
    ∧ (s.dev.captures i = [] → s.dev.capturePop i = s.dev))

/-- Users of the axes (R194, R197 to R201, R205, R207, R278): a schedule slot's window opens once the position has entered
it and closes once it has left; after MAXGAP a fallback window opens, which is counted LATE and owes one unit of work for
each target; the window of a slot of kind 2 starts a pass of its channels; an armed bank of a gate table switches in where
the axis has reached its start; and a pulse output follows its position. -/
def Obligations.AxisUsers : Prop :=
  ∀ s : State, s.dev.chip.state ≠ .off →
    (∀ k : Fin 8, (s.dev.slotUser k).active = false → s.dev.windowNow k = true → exec (.scheduleWindowOpen k) s = .next (s.done fun d =>
      let e := ((d.setSlotUser k { d.slotUser k with active := true }).refreshSlotStat k).countOpening k
      if e.slotKind k = 2 then { e with time := { e.time with passes := Nat.lor e.time.passes (e.slotTargets k) } } else e))
    ∧ (∀ k : Fin 8, s.dev.windowNow k = false → exec (.scheduleWindowOpen k) s = .next (s.done id))
    ∧ (∀ k : Fin 8, (s.dev.slotUser k).active = true → (s.dev.slotUser k).fallback = false → s.dev.windowNow k = false →
      exec (.scheduleWindowClose k) s = .next (s.done fun d =>
        (d.setSlotUser k { d.slotUser k with active := false }).refreshSlotStat k))
    ∧ (∀ k : Fin 8, (s.dev.slotUser k).active = false → (s.dev.slotUser k).fallback = true → (s.dev.slotUser k).owed = 0 →
      exec (.scheduleWindowClose k) s = .next (s.done fun d =>
        (d.setSlotUser k { d.slotUser k with fallback := false }).refreshSlotStat k))
    ∧ (∀ k : Fin 8, s.dev.armed ⟨.schedGap, k, 0⟩ = true → s.dev.slotOn k = true → s.dev.usersRun = true → s.dev.windowNow k = false →
      exec (.scheduleFallbackWindow k) s = .next (s.done fun d =>
        let owed := if d.slotKind k = 4 then 0 else d.slotTargets k
        let e := (((d.setSlotUser k { d.slotUser k with fallback := true, owed := owed }).setFlag (R.SCH_STAT k) R.SCH_STAT.LATE true
          ).bump (R.SCH_LATE k)).restartGap k |>.refreshSlotStat k
        let e : Dev := if d.slotKind k = 2 then { e with time := { e.time with passes := Nat.lor e.time.passes (e.slotTargets k) } } else e
        if d.slotKind k = 4 then e.snapshot
        else if d.slotKind k = 1 then
          e.each [0, 1, 2, 3] fun n e => if owed.testBit n then e.modTbl n (fun t => { t with windowSince := true }) else e
        else e))
    ∧ (∀ (p : Fin 128) (start : Int), (s.dev.gate p).armed = some start → s.dev.gateOn p = true → start ≤ s.dev.axisAcc (s.dev.gateAxis p) →
      s.dev.gateAxis p ≠ 5 → exec (.cadenceSwitch p) s = .next (s.done fun d =>
        d.setGate p { d.gate p with active := some (d.gate p).pendingBank, armed := none, origin := start }))
    ∧ (∀ (p : Fin 128) (start : Int), (s.dev.gate p).armed = some start → s.dev.axisAcc (s.dev.gateAxis p) < start →
      exec (.cadenceSwitch p) s = .next (s.done id))
    ∧ (∀ p : Fin 128, (s.dev.eport p).sending = none → exec (.cadenceEntryChange p) s = .next (s.done fun d =>
        d.setGate p { d.gate p with mask := d.gates p }))
    ∧ (∀ (p : Fin 128) (i : Nat) (x : Nat), (s.dev.eport p).sending = some (i, x) → (s.dev.gates p).testBit i = false →
      (s.dev.eport p).gateClosed = false → exec (.cadenceEntryChange p) s = .next (s.done fun d =>
        ((d.setGate p { d.gate p with mask := d.gates p }).setEport p { d.eport p with gateClosed := true }).bump
          (pCntKey (portRegion p) (portLocal p) 0)))
    ∧ (∀ j : Fin 4, s.dev.pulseOn j = false → exec (.pulseOutputEdge j) s = .next (s.done fun d =>
        ((((d.setPulseUser j { d.pulseUser j with started := false, active := false }).setFlag (R.PO_STAT j) R.PO_STAT.LEVEL false).setFlag
          (R.PO_STAT j) R.PO_STAT.RUNNING false).setFlag (R.PO_STAT j) R.PO_STAT.BADCFG false).pulsePin j))
    ∧ (∀ j : Fin 4, s.dev.pulseOn j = true → s.dev.pulseBad j = false → s.dev.usersRun = true →
      s.dev.axisValid (s.dev.pulseAxis j) = true → (s.dev.pulseUser j).started = true → (s.dev.pulseUser j).active = false →
      s.dev.position (s.dev.pulseAxis j) (s.dev.pulseUser j).origin (s.dev.pulsePeriod j) < (s.dev.rd (R.PO_WIDTH j)).toNat →
      exec (.pulseOutputEdge j) s = .next (s.done fun d =>
        (((((d.setPulseUser j { d.pulseUser j with started := true, active := true }).setFlag (R.PO_STAT j) R.PO_STAT.LEVEL true).setFlag
          (R.PO_STAT j) R.PO_STAT.RUNNING true).setFlag (R.PO_STAT j) R.PO_STAT.BADCFG false).bump (R.PO_EDGES j)).pulsePin j))

/-- The commands of WNW_CMD (R233 to R236, R246, Table 5-6): while one is in progress another is ignored and OVERRUN is
set; while the pipeline or the table block restarts a command ends ABORTED; otherwise it starts, with the result it will
end with and the steps it will take: none for an address beyond the carved array, an undefined OP, a WRITE of a pattern
bound elsewhere, an INSERT of a pattern that is bound or with no free entry, a DELETE or REMOVE of a free entry. The steps
of a Winnow command and its end (R235, R237 to R240, R242, R282): each step whose time has come has its one effect on the
rule array and the pattern map, and its digest segment counts as unsettled; one that meets a word it cannot read has none;
with no step left the command ends with its result and MOVED. -/
def Obligations.WinnowCommands : Prop :=
  (∀ (n : Fin 4) (m : Master) (addr : BitVec 14) (op : BitVec 4) (s : State), s.dev.chip.state ≠ .off →
    s.dev.Takes m (R.WNW_CMD n) (.rgn 3) →
    let all := [Instr.wnwWrite m n addr, .wnwInsert m n addr, .wnwDelete m n addr, .wnwRemove m n addr, .wnwBadop m n op]
    (s.dev.flag (R.WNW_CMD_STAT n) R.WNW_CMD_STAT.BUSY = true → ∀ c ∈ all,
      exec c s = .next (s.done fun d => d.setFlag (R.WNW_CMD_STAT n) R.WNW_CMD_STAT.OVERRUN true))
    ∧ (s.dev.flag (R.WNW_CMD_STAT n) R.WNW_CMD_STAT.BUSY = false → s.dev.tablesUp n = false → ∀ c ∈ all,
      exec c s = .next (s.done fun d => ((d.fset (R.WNW_CMD_STAT n) R.WNW_CMD_STAT.RESULT 6).fset (R.WNW_CMD_STAT n)
        R.WNW_CMD_STAT.MOVED 0).setFlag (R.WNW_CMD_STAT n) R.WNW_CMD_STAT.DONE true))
    ∧ (s.dev.flag (R.WNW_CMD_STAT n) R.WNW_CMD_STAT.BUSY = false → s.dev.tablesUp n = true →
      (op = 0 ∨ 4 < op.toNat → exec (.wnwBadop m n op) s =
          .next (s.done (ruleBegun n op.toNat 0 (if s.dev.ruleCapacity n = 0 then 1 else 5) [])))
      ∧ (s.dev.ruleCapacity n ≤ addr.toNat →
        exec (.wnwWrite m n addr) s = .next (s.done (ruleBegun n 1 addr.toNat 1 []))
        ∧ exec (.wnwInsert m n addr) s = .next (s.done (ruleBegun n 2 addr.toNat 1 []))
        ∧ exec (.wnwDelete m n addr) s = .next (s.done (ruleBegun n 3 addr.toNat 1 []))
        ∧ exec (.wnwRemove m n addr) s = .next (s.done (ruleBegun n 4 addr.toNat 1 [])))
      ∧ (addr.toNat < s.dev.ruleCapacity n →
        (∀ a, s.dev.boundAt n (stagedPattern s.dev n) = some a → a ≠ addr.toNat →
          exec (.wnwWrite m n addr) s = .next (s.done (ruleBegun n 1 addr.toNat 2 [])))
        ∧ ((∀ a, s.dev.boundAt n (stagedPattern s.dev n) = some a → a = addr.toNat) → exec (.wnwWrite m n addr) s
            = .next (s.done (ruleBegun n 1 addr.toNat 0 [.invalidate addr.toNat, .write addr.toNat, .validate addr.toNat])))
        ∧ (∀ a, s.dev.boundAt n (stagedPattern s.dev n) = some a →
          exec (.wnwInsert m n addr) s = .next (s.done (ruleBegun n 2 addr.toNat 2 [])))
        ∧ (s.dev.boundAt n (stagedPattern s.dev n) = none → s.dev.ruleFree n addr.toNat = true → exec (.wnwInsert m n addr) s
            = .next (s.done (ruleBegun n 2 addr.toNat 0 [.invalidate addr.toNat, .write addr.toNat, .validate addr.toNat])))
        ∧ (s.dev.boundAt n (stagedPattern s.dev n) = none → s.dev.ruleFree n addr.toNat = false →
          s.dev.firstFree n addr.toNat = none → exec (.wnwInsert m n addr) s = .next (s.done (ruleBegun n 2 addr.toNat 4 [])))
        ∧ (∀ f, s.dev.boundAt n (stagedPattern s.dev n) = none → s.dev.ruleFree n addr.toNat = false →
          s.dev.firstFree n addr.toNat = some f → exec (.wnwInsert m n addr) s = .next (s.done (ruleBegun n 2 addr.toNat 0
            (((List.range (f - addr.toNat)).flatMap fun i => [.copy (f - 1 - i) (f - i), .point (f - 1 - i) (f - i),
                .release (f - 1 - i), .settle (f - i)])
              ++ [.invalidate addr.toNat, .write addr.toNat, .validate addr.toNat]))))
        ∧ (s.dev.ruleFree n addr.toNat = true → exec (.wnwDelete m n addr) s = .next (s.done (ruleBegun n 3 addr.toNat 3 []))
            ∧ exec (.wnwRemove m n addr) s = .next (s.done (ruleBegun n 4 addr.toNat 3 [])))
        ∧ (s.dev.ruleFree n addr.toNat = false →
          exec (.wnwDelete m n addr) s = .next (s.done (ruleBegun n 3 addr.toNat 0 [.free addr.toNat]))
          ∧ exec (.wnwRemove m n addr) s = .next (s.done (ruleBegun n 4 addr.toNat 0
              (.free addr.toNat :: (List.range ((s.dev.firstFree n (addr.toNat + 1)).getD (s.dev.ruleCapacity n) - (addr.toNat + 1))
                ).flatMap fun i => [.copy (addr.toNat + 1 + i) (addr.toNat + i), .point (addr.toNat + 1 + i) (addr.toNat + i),
                  .release (addr.toNat + 1 + i), .settle (addr.toNat + i)])))))))
  ∧ ((∀ (n : Fin 4) (s : State) (c : WnwCmd), s.dev.chip.state ≠ .off → (s.dev.wnw n).cmd = some c → c.notBefore ≤ s.dev.now →
    (s.dev.tablesUp n = true → ∀ (st : WnwStep) (rest : List WnwStep), c.steps = st :: rest →
      ((s.dev.touchAll n (st.reads n)).1 = false →
        exec (.wnwCmdStep n) s = .next (s.done fun d => (d.touchAll n (st.reads n)).2))
      ∧ ((s.dev.touchAll n (st.reads n)).1 = true → exec (.wnwCmdStep n) s = .next (s.done fun d =>
          let e := ruleTurn n st d
          let absent := match st with
            | .invalidate a => if e.ruleValid n a = true ∧ e.boundAt n (e.rulePattern n a) = some a then some (e.rulePattern n a) else none
            | .validate _ => none
            | _ => c.absent
          let moved := match st with | .settle _ => c.moved + 1 | _ => c.moved
          let wait := match st with | .invalidate _ | .point _ _ => 9 | _ => 1
          ruleStepped n c rest wait moved absent ((e.ruleStep n c st).touchRule n st.entry))))
    ∧ (c.steps = [] → exec (.wnwCmdComplete n) s = .next (s.done fun d =>
      let a := R.WNW_CMD_STAT n
      let e := (((d.setFlag a R.WNW_CMD_STAT.BUSY false).setFlag a R.WNW_CMD_STAT.DONE true).fset a R.WNW_CMD_STAT.RESULT
        c.result).fset a R.WNW_CMD_STAT.MOVED (min 65535 c.moved)
      e.setWnw n { e.wnw n with cmd := none })))
  ∧ ∀ (n : Fin 4) (d : Dev) (c : WnwCmd) (a b : Nat),
    let p := d.rulePattern n a
    d.ruleStep n c (.invalidate a) =
      (d.when (d.ruleValid n a && d.boundAt n p == some a) (·.wrMem (patKey n p) (patWord a true false))).wrMem (ruleKey n a 0)
        (ruleWord0 false true p)
    ∧ d.ruleStep n c (.write a) =
      ((((d.wrMem (ruleKey n a 1) (c.words.getD 1 0 &&& 0x7FFFFFFF#32)).wrMem (ruleKey n a 2)
        (c.words.getD 2 0 &&& 0x0001FFFF#32)).wrMem (ruleKey n a 3) (c.words.getD 3 0 &&& 0xFFFF00FF#32)).each [4, 5, 6, 7]
        fun w d => d.wrMem (ruleKey n a w) 0)
    ∧ (let q := bits (c.words.getD 0 0).toNat 16 14
      d.ruleStep n c (.validate a) = ((d.when (decide (p ≠ q ∧ d.boundAt n p = some a)) (·.wrMem (patKey n p) 0)).wrMem
        (ruleKey n a 0) (ruleWord0 true false q)).wrMem (patKey n q) (patWord a true true))
    ∧ d.ruleStep n c (.free a) = (d.when (decide (d.boundAt n p = some a)) (·.wrMem (patKey n p) 0)).wrMem (ruleKey n a 0) 0
    ∧ (let e := d.each [1, 2, 3, 4, 5, 6, 7] fun w d => d.wrMem (ruleKey n b w) (d.rd (ruleKey n a w))
      d.ruleStep n c (.copy a b) = e.wrMem (ruleKey n b 0) (ruleWord0 true true (e.rulePattern n a)))
    ∧ d.ruleStep n c (.point a b) = d.wrMem (patKey n p) (patWord b true true)
    ∧ d.ruleStep n c (.release a) = d.wrMem (ruleKey n a 0) 0
    ∧ d.ruleStep n c (.settle a) = (d.wrMem (ruleKey n a 0) (ruleWord0 true false p)).bump (R.WNW_MOVES n))

/-- The commands of TBL_CMD (R269, R286): a write on a busy channel is ignored and sets OVERRUN; while the table block
restarts it ends ABORTED; otherwise the channel is BUSY and waits with its key, data and delta as they stand. The block
takes the next waiting channel after the one it served last, and plans the relocation that an INSERT needs. Results of the
table commands (R265, R270 to R273, R280, R281, Tables 6-5 and 6-6): an INSERT whose relocation has copies to write goes
on; else the command ends, with a refusal, which changes nothing else, or with its writes, its delta, its location or data;
and its key leaves the learn filter. -/
def Obligations.TableCommands : Prop :=
  (∀ (n : Fin 4) (s : State), s.dev.chip.state ≠ .off →
    (∀ (m : Master) (c : Fin 4) (op : BitVec 4), s.dev.Accepts m (R.TBL_CMD n c) → ∀ x ∈ tblCommands m n c op,
      (s.dev.flag (R.TBL_CMD_STAT n c) R.TBL_CMD_STAT.BUSY = true →
        exec x.1 s = .next (s.done fun d => d.setFlag (R.TBL_CMD_STAT n c) R.TBL_CMD_STAT.OVERRUN true))
      ∧ (s.dev.flag (R.TBL_CMD_STAT n c) R.TBL_CMD_STAT.BUSY = false →
        s.dev.regionRuns n = false ∨ s.dev.blockInRestart n 6 = true → exec x.1 s = .next (s.done fun d =>
          ((d.fset (R.TBL_CMD_STAT n c) R.TBL_CMD_STAT.RESULT 8).fset (R.TBL_CMD_STAT n c) R.TBL_CMD_STAT.MOVES 0).setFlag
            (R.TBL_CMD_STAT n c) R.TBL_CMD_STAT.DONE true))
      ∧ (s.dev.flag (R.TBL_CMD_STAT n c) R.TBL_CMD_STAT.BUSY = false → s.dev.regionRuns n = true →
        s.dev.blockInRestart n 6 = false → exec x.1 s = .next (s.done fun d =>
          (d.setFlag (R.TBL_CMD_STAT n c) R.TBL_CMD_STAT.BUSY true).modTbl n fun t => { t with pending := t.pending ++
            [{ chan := c, op := x.2, keyLo := (d.rd (R.TBL_CMD_KEY_LO n c)).toNat, keyHi := (d.rd (R.TBL_CMD_KEY_HI n c)).toNat,
               data := (List.range 5).map (fun j => (d.rd (R.TBL_CMD_DATA n c j)).toNat),
               delta := (d.rd (R.TBL_CMD_DELTA n c)).toNat }] })))
    ∧ ((s.dev.tbl n).running = none → s.dev.regionRuns n = true → s.dev.blockInRestart n 6 = false →
      (∀ c, ((List.range 4).map (fun i => ((s.dev.tbl n).served + 1 + i) % 4)).find?
          (fun c => (s.dev.tbl n).pending.any (fun x => x.chan == c)) = some c →
        exec (.tblCmdStart n) s = .next (s.done fun d => (d.setTbl n { d.tbl n with
          running := (d.tbl n).pending.find? (fun x => x.chan == c),
          pending := (d.tbl n).pending.filter (fun x => x.chan != c), served := c }).planTbl n))
      ∧ ((s.dev.tbl n).pending = [] → exec (.tblCmdStart n) s = .next (s.done id))))
  ∧ (∀ (n : Fin 4) (s : State) (c : TblCmd), s.dev.chip.state ≠ .off → ((s.dev.planTbl n).tbl n).running = some c →
    (((s.dev.planTbl n).tbl n).plan.any (fun p => !p.moves.isEmpty) = true →
      exec (.tblCmdComplete n) s = .next (s.done fun d => d.planTbl n))
    ∧ (((s.dev.planTbl n).tbl n).plan.any (fun p => !p.moves.isEmpty) = false →
    let does := fun (e : Dev → Dev) => exec (.tblCmdComplete n) s = .next (s.done fun d => e (tblTurn n c d))
    let refused := fun (r : Nat) => does fun d => tblIdle n ((tblEnds n c.chan r 0 d).unfilter n c.key)
    let t := tblTurn n c s.dev
    (c.op = 0 → refused 2)
    ∧ (6 < c.op → does fun d => tblIdle n (tblEnds n c.chan 2 0 d))
    ∧ ((c.op = 1 ∨ c.op = 2) → destReserved c.entry.dest = true → refused 3)
    ∧ (c.op = 1 → destReserved c.entry.dest = false → ∀ l, (t.hits n c.key).head? = some l →
        (t.readSlot n l).dest = c.entry.dest → (t.readSlot n l).isStatic = c.entry.isStatic → refused 4)
    ∧ (c.op = 1 → destReserved c.entry.dest = false → ∀ l, (t.hits n c.key).head? = some l →
        ¬((t.readSlot n l).dest = c.entry.dest ∧ (t.readSlot n l).isStatic = c.entry.isStatic) → refused 5)
    ∧ (c.op = 2 ∧ destReserved c.entry.dest = false ∨ c.op = 3 ∨ c.op = 4 → t.hits n c.key = [] → refused 6)
    ∧ (c.op = 2 → destReserved c.entry.dest = false → ∀ l ls, t.hits n c.key = l :: ls → does fun d =>
        let d := (d.each (l :: ls) fun l d =>
          d.writeSlot n l { d.readSlot n l with dest := c.entry.dest, isStatic := c.entry.isStatic })
        tblIdle n (((tblEnds n c.chan 0 0 (tblDelta n c d)).fset (R.TBL_CMD_LOC n c.chan) R.TBL_CMD_LOC.LOC l.loc).unfilter n c.key))
    ∧ (c.op = 3 → ∀ l ls, t.hits n c.key = l :: ls → does fun d =>
        let d := (d.each (l :: ls) fun l d => d.clearSlot n l).refreshStash n
        let d := d.fset (R.TBL_FDB_COUNT n) R.TBL_FDB_COUNT.VALID (d.fget (R.TBL_FDB_COUNT n) R.TBL_FDB_COUNT.VALID - 1)
        tblIdle n (((tblEnds n c.chan 0 0 (tblDelta n c d)).fset (R.TBL_CMD_LOC n c.chan) R.TBL_CMD_LOC.LOC l.loc).unfilter n c.key))
    ∧ (c.op = 4 → ∀ l ls, t.hits n c.key = l :: ls → does fun d =>
        let o := d.readSlot n l
        let d := (tblEnds n c.chan 0 0 d).fset (R.TBL_CMD_LOC n c.chan) R.TBL_CMD_LOC.LOC l.loc
        let d := d.wr (R.TBL_CMD_RDATA n c.chan)
          (BitVec.ofNat 32 (o.dest + 4096 * b2n o.isStatic + 8192 * b2n o.hit + 16384 * b2n o.age))
        tblIdle n (d.unfilter n c.key))
    ∧ (c.op = 5 → bits c.keyLo 0 12 = 4095 → does fun d => tblIdle n (tblEnds n c.chan 3 0 d))
    ∧ (c.op = 5 → bits c.keyLo 0 12 ≠ 4095 → does fun d =>
        let v := bits c.keyLo 0 12
        let write := fun (d : Dev) => (d.wrMem (vlanKey n v 0) (BitVec.ofNat 32 (c.data.getD 0 0) &&& 0x3FFFFFFF#32)).wrMem
          (vlanKey n v 1) (BitVec.ofNat 32 (c.data.getD 1 0) &&& 0x3FFF3FFF#32)
        let e := if d.rowWalked n 3 (v / 4) then
            (write d).accumulate n c.segment ((write d).vlanContribution n v - d.vlanContribution n v) else write d
        tblIdle n (tblEnds n c.chan 0 0 (tblDelta n c e)))
    ∧ (c.op = 6 → does fun d =>
        let g := bits c.keyLo 0 14
        let write := fun (d : Dev) => d.each (List.range 8) fun w d => d.wrMem (groupKey n g w)
          (if w = 4 then BitVec.ofNat 32 (c.data.getD w 0) &&& 0x3F#32 else BitVec.ofNat 32 (c.data.getD w 0))
        let e := if d.rowWalked n 4 g then
            (write d).accumulate n c.segment ((write d).groupContribution n g - d.groupContribution n g) else write d
        tblIdle n (tblEnds n c.chan 0 0 (tblDelta n c e)))
    ∧ (c.op = 1 → destReserved c.entry.dest = false → t.hits n c.key = [] →
        let counted := fun (d : Dev) =>
          d.fset (R.TBL_FDB_COUNT n) R.TBL_FDB_COUNT.VALID (d.fget (R.TBL_FDB_COUNT n) R.TBL_FDB_COUNT.VALID + 1)
        (∀ p, (t.tbl n).plan = some p → does fun d =>
          let d := counted ((d.writeSlot n p.slot c.entry).modTbl n fun t => { t with plan := none })
          tblIdle n (((tblEnds n c.chan 0 p.made (tblDelta n c d)).fset (R.TBL_CMD_LOC n c.chan) R.TBL_CMD_LOC.LOC p.slot.loc).unfilter
            n c.key))
        ∧ ((t.tbl n).plan = none →
          (∀ l p ptr, t.placeInBuckets n c.key = (some (l :: p), ptr) → does fun d =>
            let d := (d.modTbl n fun t => { t with victim := ptr }).runPath n (l :: p) c.entry
            let d := counted (if p.length = 0 then d else d.bump (R.TBL_RELOCATED n) p.length)
            tblIdle n (((tblEnds n c.chan 0 p.length (tblDelta n c d)).fset (R.TBL_CMD_LOC n c.chan) R.TBL_CMD_LOC.LOC l.loc).unfilter
              n c.key))
          ∧ (∀ k ptr, t.placeInBuckets n c.key = (none, ptr) →
              (List.range 32).find? (fun k => !(t.readSlot n (.stash k)).valid) = some k → does fun d =>
            let d := counted (((d.modTbl n fun t => { t with victim := ptr }).writeSlot n (.stash k) c.entry).refreshStash n)
            tblIdle n (((tblEnds n c.chan 1 0 (tblDelta n c d)).fset (R.TBL_CMD_LOC n c.chan) R.TBL_CMD_LOC.LOC
              (Slot.stash k).loc).unfilter n c.key))
          ∧ (∀ ptr, t.placeInBuckets n c.key = (none, ptr) →
              (∀ k < 32, (t.readSlot n (.stash k)).valid = true) → does fun d =>
            tblIdle n ((tblEnds n c.chan 7 0 (d.modTbl n fun t => { t with victim := ptr })).unfilter n c.key))))))

/-- Learn notifications (R265 to R267): keys held HOLD_US leave the filter; with TARGET 0 the head becomes a LEARN task of
queue ENG_Q at the task units' turn, when the clock ends, if the queue has room, waits while it is full, and every
notification is dropped and counted when the queue can run no task; with TARGET 1 software takes the head by TBL_LRN_POP.
The Gleaner, its reports, the spares and the shadow store (R278, R280 to R284, R287, R247): a burst runs only where the
region's window allows it and the table is ready; the burst that starts a pass is the first after the window has opened
again and MIN_GAP_MS has passed (with no slot of kind 1 that names the region the gap alone decides); a burst walks its
rows and is one unit of work of its window, the stash's burst waits for a relocation in progress, and the last burst
compares, counts the pass and ends it. TBL_SHADOW_ADJ adds or sets DELTA and leaves its segment unsettled; a POP takes the
head report; a finished copy retires its bank, and a bank that failed meanwhile starts its own; the verification pass ends
with READY and has the pattern map rebuilt where that is owed; and the rebuild, which waits for the verification, ends with
READY, every word of the map cleared or rewritten. -/
def Obligations.LearningAndGleaner : Prop :=
  (∀ (n : Fin 4) (s : State), s.dev.chip.state ≠ .off →
    let q := s.dev.fget (R.TBL_LRN_CFG n) R.TBL_LRN_CFG.ENG_Q
    let level := fun (d : Dev) => d.fset (R.TBL_LRN_STAT n) R.TBL_LRN_STAT.LEVEL (d.tbl n).learn.length
    exec (.learnFilterExpiry n) s = .next (s.done fun d => d.modTbl n fun t =>
        { t with filter := t.filter.filter (fun x =>
            decide (d.now < x.2 + max 1 (d.fget (R.TBL_LRN_CFG n) R.TBL_LRN_CFG.HOLD_US) * us)) })
    ∧ (∀ m : Master, s.dev.Accepts m (R.TBL_LRN_POP n) →
        exec (.tblLrnPop m n) s = .next (s.done fun d => level (d.modTbl n fun t => { t with learn := t.learn.drop 1 })))
    ∧ exec (.learnDispatch n) s = .next (s.done fun d => d.askTasks (.learn n))
    ∧ (∀ d, (TaskTurn.learn n).enters d = d.learnDispatch n)
    ∧ (s.dev.flag (R.TBL_LRN_CFG n) R.TBL_LRN_CFG.TARGET = true ∨ (s.dev.tbl n).learn = [] →
        s.dev.learnDispatch n = s.dev)
    ∧ (s.dev.flag (R.TBL_LRN_CFG n) R.TBL_LRN_CFG.TARGET = false → ∀ l rest, (s.dev.tbl n).learn = l :: rest →
      (s.dev.queueDepth n q = 0 ∨ (s.dev.rl n).engFw = false ∨ s.dev.queueEngines n q = [] →
        s.dev.learnDispatch n =
          level ((s.dev.modTbl n fun t => { t with learn := [] }).bump (R.TBL_LRN_DROP n) (l :: rest).length))
      ∧ (s.dev.queueDepth n q ≠ 0 → (s.dev.rl n).engFw = true → s.dev.queueEngines n q ≠ [] →
        (s.dev.queueRoom n q = false → s.dev.learnDispatch n = s.dev)
        ∧ (s.dev.queueRoom n q = true → s.dev.learnDispatch n =
            let d := level (s.dev.modTbl n fun t => { t with learn := rest })
            d.enterNow n q (Task.make 3 (bodyWords 0 (d.regionGen n)
              [l.mac % 2 ^ 32, (l.mac / 2 ^ 32 % 2 ^ 16 + l.fid % 4096 * 2 ^ 16 + l.kind * 2 ^ 28) % 2 ^ 32,
               (l.port % 4096 + l.oldDest % 4096 * 4096) % 2 ^ 32, (l.loc % 2 ^ 20 + l.gen % 256 * 2 ^ 20) % 2 ^ 32]) none none)))))
  ∧ (∀ (n : Fin 4) (s : State), s.dev.chip.state ≠ .off →
    let t := s.dev.tbl n
    let ready := s.dev.workAllowed 1 n = true ∧ s.dev.flag (R.TBL_STAT n) R.TBL_STAT.READY = true ∧ s.dev.regionRuns n = true
      ∧ s.dev.blockInRestart n 6 = false ∧ t.verifying = false
    let ages := fun (d : Dev) (k : Nat) => d.flag (R.TBL_AGE_CFG n) R.TBL_AGE_CFG.EN
      && k % max 1 (d.fget (R.TBL_AGE_CFG n) R.TBL_AGE_CFG.PASSES) == 0
    (s.dev.workAllowed 1 n = false ∨ s.dev.flag (R.TBL_STAT n) R.TBL_STAT.READY = false ∨ s.dev.blockInRestart n 6 = true
        ∨ t.verifying = true → exec (.gleanerBurst n) s = .next (s.done id))
    ∧ (ready → t.inPass = false → t.pass ≠ 0 → (t.windowSince = false ∧ s.dev.slotsNaming 1 n ≠ []) ∨
        s.dev.now < t.passStart + s.dev.fget (R.TBL_GLN_CFG n) R.TBL_GLN_CFG.MIN_GAP_MS * ms →
        exec (.gleanerBurst n) s = .next (s.done id))
    ∧ (ready → t.inPass = true → ∀ b, (s.dev.bursts n)[t.burst]? = some b →
        (b.1 = 2 → t.plan ≠ none → exec (.gleanerBurst n) s = .next (s.done id))
        ∧ (b.1 ≠ 2 ∨ t.plan = none → ∀ d : Dev,
          d = ((s.dev.walkBurst n b (ages s.dev t.pass)).modTbl n (fun t => { t with burst := t.burst + 1 })).workDone 1 n →
          ((d.tbl n).burst < (d.bursts n).length → exec (.gleanerBurst n) s = .next (s.done fun _ => d))
          ∧ ((d.bursts n).length ≤ (d.tbl n).burst → exec (.gleanerBurst n) s = .next (s.done fun _ =>
              (((d.gleanerCompare n).bump (R.TBL_GLN_PASSES n)).modTbl n fun t => { t with inPass := false, burst := 0 }).setFlag
                (R.TBL_GLN_STAT n) R.TBL_GLN_STAT.IN_PASS false))))
    ∧ (∀ (m : Master) (word : BitVec 13) (set_ : Bool), s.dev.Accepts m (R.TBL_SHADOW_ADJ n) →
      (4416 ≤ word.toNat → exec (.tblShadowAdj m n word set_) s = .next (s.done id))
      ∧ (word.toNat < 4416 → exec (.tblShadowAdj m n word set_) s = .next (s.done fun d =>
          let v := d.rd (R.TBL_SHADOW_DELTA n)
          let d := d.wrMem (shadowKey n word.toNat) (if set_ then v else d.rd (shadowKey n word.toNat) + v)
          if (d.tbl n).inPass then d.modTbl n fun t =>
            if t.unsettled.contains word.toNat then t else { t with unsettled := t.unsettled ++ [word.toNat] }
          else d)))
    ∧ (∀ m : Master, s.dev.Accepts m (R.TBL_GLN_MISMATCH n) → exec (.tblGlnMismatchPop m n) s = .next (s.done fun d =>
        let d := d.modTbl n fun t => { t with mismatch := t.mismatch.drop 1 }
        d.fset (R.TBL_GLN_STAT n) R.TBL_GLN_STAT.FIFO_LEVEL (d.tbl n).mismatch.length))
    ∧ (∀ bank spare, t.copying = some (bank, spare) → exec (.spareCopyComplete n) s = .next (s.done fun d =>
        let d := (((d.backgroundServed n [bank, spare]).modTbl n fun x =>
          { x with copying := none, failing := t.failing.drop 1, retired := x.retired ++ [(bank, spare)] }).fset (R.TBL_SPARE_STAT n)
          R.TBL_SPARE_STAT.LAST_RETIRED bank).setFlag (R.TBL_SPARE_STAT n) R.TBL_SPARE_STAT.COPYING false
        let d := d.saturatingAdd (R.TBL_SPARE_STAT n) R.TBL_SPARE_STAT.RETIRED 1
        match t.failing with
        | [] => d
        | f :: _ => d.spareStart n f))
    ∧ (t.copying = none → exec (.spareCopyComplete n) s = .next (s.done id))
    ∧ (t.verifying = true → s.dev.blockInRestart n 6 = false → exec (.tableVerifyPassDone n) s = .next (s.done fun d =>
        let d := d.modTbl n fun t => { t with acc := [], unsettled := [], inPass := true, burst := 0 }
        let d := ((d.each (d.bursts n) fun b d => (d.walkBurst n b false).modTbl n fun t => { t with burst := t.burst + 1 }).gleanerCompare
          n).bump (R.TBL_GLN_PASSES n)
        let d := ((d.fset (R.TBL_FDB_COUNT n) R.TBL_FDB_COUNT.VALID (d.countKeys n)).modTbl n fun t =>
          { t with verifying := false, inPass := false, burst := 0 }).setFlag (R.TBL_GLN_STAT n) R.TBL_GLN_STAT.IN_PASS false
        let d := d.setFlag (R.TBL_STAT n) R.TBL_STAT.READY true
        if d.flag (R.WNW_STAT n) R.WNW_STAT.READY then d else d.setFlag (R.WNW_STAT n) R.WNW_STAT.REBUILD true))
    ∧ (t.verifying = false → exec (.tableVerifyPassDone n) s = .next (s.done id))
    ∧ (s.dev.flag (R.WNW_STAT n) R.WNW_STAT.REBUILD = false ∨ t.verifying = true → exec (.patternMapRebuildDone n) s = .next (s.done id))
    ∧ (s.dev.flag (R.WNW_STAT n) R.WNW_STAT.REBUILD = true → s.dev.blockInRestart n 6 = false → s.dev.blockInRestart n 8 = false →
      t.verifying = false →
        exec (.patternMapRebuildDone n) s = .next (s.done fun d0 =>
          let used := ((d0.spaceWords 0x20 n).filter (fun x => x.1 % 32 == 0 && x.2.toNat % 4 != 0)).map (fun x => x.1 / 32)
          let bound := fun a => d0.rebuildChoice n (d0.rulePattern n a) used == some a
          let d := d0.each ((d0.spaceWords 0x22 n).map (·.1)) fun k d => d.wrMem (spWord 0x22 n + k) 0
          let inMap := fun (k : Nat) => decide (spWord 0x22 n ≤ k ∧ k < spWord 0x22 n + 0x01000000)
          let d : Dev := { d with faults := d.faults.filter (fun x => !inMap x.1) }
          let d := d.each used fun a d =>
            if d0.ruleValid n a && bound a then
              (d.wrMem (ruleKey n a 0) (ruleWord0 true false (d0.rulePattern n a))).wrMem (patKey n (d0.rulePattern n a)) (patWord a true true)
            else (if d0.ruleValid n a && !d0.ruleBusy n a then d.setFlag (R.WNW_STAT n) R.WNW_STAT.DUP_FREED true else d).wrMem
              (ruleKey n a 0) 0
          (d.setFlag (R.WNW_STAT n) R.WNW_STAT.REBUILD false).setFlag (R.WNW_STAT n) R.WNW_STAT.READY true)))

/-- Policer commands (R349, R350, Table 8-3): WRITE refuses what BADCFG names, else installs the four words with both
buckets full from this clock and leaves the digest segment unsettled; READ returns the configuration and the buckets as
they stand; CLEAR zeroes the three counters; another OP ends BADOP; a command while the pipeline or the table block
restarts ends ABORTED; one while BUSY is ignored and sets OVERRUN. -/
def Obligations.PolicerCommands : Prop :=
  ∀ (n : Fin 4) (m : Master) (index : BitVec 16) (s : State), s.dev.chip.state ≠ .off →
    s.dev.Takes m (R.POL_CMD n) (.rgn 4) →
    let w := fun (i : Nat) => (s.dev.rd (R.POL_CMD_DATA n i)).toNat
    let busy := s.dev.flag (R.POL_CMD_STAT n) R.POL_CMD_STAT.BUSY
    let bad := ((w 3).testBit 0 = true ∧ (w 3).testBit 1 = false ∧ bits (w 1) 0 24 < bits (w 0) 0 24)
      ∨ bits (w 0) 24 8 ≠ 0 ∨ bits (w 1) 24 8 ≠ 0 ∨ bits (w 3) 4 28 ≠ 0
    (busy = true → ∀ c ∈ [Instr.polWrite m n index, .polRead m n index, .polClear m n index],
      exec c s = .next (s.done fun d => d.setFlag (R.POL_CMD_STAT n) R.POL_CMD_STAT.OVERRUN true))
    ∧ (busy = false → s.dev.tablesUp n = false → ∀ c ∈ [Instr.polWrite m n index, .polRead m n index, .polClear m n index],
      exec c s = .next (s.done (polEnds n 3)))
    ∧ (busy = false → s.dev.tablesUp n = true →
      (bad → exec (.polWrite m n index) s = .next (s.done (polEnds n 2)))
      ∧ (¬bad → exec (.polWrite m n index) s = .next (s.done fun d =>
          let e := d.accounted n 5 (index.toNat / 2) (4224 + index.toNat / 1024) (fun e => e.polContribution n index.toNat)
            (fun e => e.each (List.range 4) fun k e => e.wrMem (polKey n index.toNat k) ((d.polData n).getD k 0))
          let sizes := (d.rd (R.POL_CMD_DATA n 2)).toNat
          let e := e.setPolicer n index.toNat { tc := bucketFull (bits sizes 0 16), tx := bucketFull (bits sizes 16 16), last := e.now, full := false }
          let e : Dev := { e with clk := { e.clk with polWrites := e.clk.polWrites ++ [(n.val, index.toNat)] } }
          polEnds n 0 (e.touchPolicer n index.toNat)))
      ∧ exec (.polRead m n index) s = .next (s.done fun d =>
          let d := d.each (List.range 4) fun k d => d.hwWr (R.POL_CMD_DATA n k) (d.rd (polKey n index.toNat k))
          let p := (d.policer n index.toNat).ready (bits (d.polWord n index.toNat 2) 0 16) (bits (d.polWord n index.toNat 2) 16 16)
          let level := fun (b rate size : Nat) => min (b + (d.now - p.last) * rate) (bucketFull size) / 1000000
          let e := d.fset (R.POL_RD_CBKT n) R.POL_RD_CBKT.BYTES
            (level p.tc (bits (d.polWord n index.toNat 0) 0 24) (bits (d.polWord n index.toNat 2) 0 16))
          polEnds n 0 (e.fset (R.POL_RD_XBKT n) R.POL_RD_XBKT.BYTES
            (level p.tx (bits (e.polWord n index.toNat 1) 0 24) (bits (e.polWord n index.toNat 2) 16 16))))
      ∧ exec (.polClear m n index) s = .next (s.done fun d =>
          polEnds n 0 (d.each [0, 1, 2] fun k d => d.wr (polCntKey n index.toNat k) 0))
      ∧ (∀ op : BitVec 4, op = 0 ∨ 3 < op.toNat → exec (.polBadop m n op) s = .next (s.done (polEnds n 1))))

/-- A frame at a port, to the pipeline input (R126, R135, R137, R139, R149, R165, R216, R217, R302, R303, R307): a frame
begins only where the MAC sees it and receives none, in near-end loopback with the bytes that the port has sent; at a port
that is not ready it is counted; else it becomes a landing frame, whose charge is tried in its turn unless its FIFO is
full; a waiting charge is tried again; the head window is offered once 64 bytes of a network frame, or all of another, are
in grains; the frame's end counts what its FEC corrected and its one outcome, and a frame that is not good, or was
discarded before, releases its grains, wasting the slot of a frame the pipeline has taken. -/
def Obligations.ReceivedFrames : Prop :=
  ∀ s : State, s.dev.chip.state ≠ .off →
    (∀ p : PortId, portExists p = true →
      let d := s.dev
      let got := fun (d : Dev) => if d.looped p 1 then d.takeLooped p else (some [], d)
      let begun := fun (d : Dev) (id : Nat) (full : Bool) =>
        Landing.begun id p (d.macMax p) d.now (if d.looped p 1 then (got d).1 else none) (d.rxStamps p) full
      (d.macSees p = false → exec (.frameBegin p) s = .next (s.done id))
      ∧ (∀ l, d.receiving p = some l → exec (.frameBegin p) s = .next (s.done id))
      ∧ (d.macSees p = true → d.receiving p = none → (got d).1 = none → exec (.frameBegin p) s = .next (s.done id))
      ∧ (∀ bs, d.macSees p = true → d.receiving p = none → (got d).1 = some bs → d.portReady p = false →
          exec (.frameBegin p) s = .next (s.done fun d => (got d).2.bump (R.MAC_RX_NOT_READY p)))
      ∧ (∀ bs, d.macSees p = true → d.receiving p = none → (got d).1 = some bs → d.portReady p = true → d.fifoWaits p = false →
          exec (.frameBegin p) s = .next (s.done fun d =>
            let i := (got d).2.newId
            (i.2.addLanding (begun d i.1 false)).askGranary (.landing i.1)))
      ∧ (∀ bs, d.macSees p = true → d.receiving p = none → (got d).1 = some bs → d.portReady p = true → d.fifoWaits p = true →
          exec (.frameBegin p) s = .next (s.done fun d =>
            let full := (got d).2.freshBool
            let i := full.2.newId
            let e := i.2.addLanding (begun d i.1 full.1)
            if full.1 then e else e.askGranary (.landing i.1)))
      ∧ (∀ bytes (codes : LineCodes),
        let fec := fun (d : Dev) => if d.macSees p && d.flag (R.MAC_STAT p) R.MAC_STAT.FEC_LOCK then
          (d.bump (R.MAC_FEC_CORR p) codes.corrected.toNat).bump (R.MAC_FEC_UNCORR p) codes.uncorrected.toNat else d
        let d := fec s.dev
        (d.receiving p = none → exec (.frameEnd p bytes codes) s = .next (s.done fec))
        ∧ ∀ l, d.receiving p = some l →
          let b := l.head ++ (l.looped.getD bytes).drop l.head.length
          let bad := codes.error || codes.uncorrected.toNat != 0 || l.cutAt.any (fun t => decide (t < d.now))
          let o := d.rxOutcome p b (!l.readyAtBegin) l.fifoFull bad l.maxLen l.hash
          let l' := { l with ended := true, bytes := b }
          let seen := fun (d : Dev) => ((fec d).countRx p o b.length).retransmit p b (o == 10)
          let released := fun (d : Dev) => ((seen d).setLanding { l with ended := true }).releaseLanding { l with ended := true }
          (o = 10 → l.phase ≠ .gone → l.waiting = true →
              exec (.frameEnd p bytes codes) s = .next (s.done fun d => (seen d).setLanding l'))
          ∧ (o = 10 → l.phase ≠ .gone → l.waiting = false →
              exec (.frameEnd p bytes codes) s = .next (s.done fun d => (((seen d).setLanding l').growLanding l').2))
          ∧ (o ≠ 10 ∨ l.phase = .gone → (l.phase = .landing ∨ l.phase = .offered ∨ l.phase = .gone) →
              exec (.frameEnd p bytes codes) s = .next (s.done fun d => released d))
          ∧ (o ≠ 10 → l.phase ≠ .landing → l.phase ≠ .offered → l.phase ≠ .gone →
              exec (.frameEnd p bytes codes) s = .next (s.done fun d => (released d).bumpPerf (R.PIPE_SLOT_WASTED l.region)))))
    ∧ (∀ (d : Dev) (id : Nat),
      let w := d.frame.landing.find? (fun l => l.id == id && l.waiting && l.phase != .gone)
      (w = none → d.landingTurn id = d) ∧ (∀ l, w = some l → d.landingTurn id = (d.tryLanding l).2))
    ∧ (∀ src : FrameSource, sourceExists src = true →
      let o := sourceOrigin src
      let w := s.dev.landingOf o (fun l => l.waiting && !l.fifoFull && l.phase != .gone)
      let h := s.dev.landingOf o (fun l => l.phase == .landing && !l.waiting && !l.fifoFull)
      (w = none → exec (.landingChargeRetry src) s = .next (s.done id))
      ∧ (∀ l, w = some l → exec (.landingChargeRetry src) s = .next (s.done fun d => d.askGranary (.landing l.id)))
      ∧ (∀ head, h = none → exec (.headWindowOffer src head) s = .next (s.done id))
      ∧ (∀ head l, h = some l → l.ended = true →
          (∀ p, o = .port p → 64 ≤ l.bytes.length) →
          exec (.headWindowOffer src head) s = .next (s.done fun d => d.setLanding { l with head := l.bytes.take 64, phase := .offered }))
      ∧ (∀ head p l, o = .port p → h = some l → l.ended = false → 64 ≤ (l.looped.getD head).length →
          exec (.headWindowOffer src head) s = .next (s.done fun d =>
            d.setLanding { l with head := (l.looped.getD head).take 64, phase := .offered }))
      ∧ (∀ head l, h = some l → l.ended = false → ((∀ p, o ≠ .port p) ∨ (l.looped.getD head).length < 64) →
          exec (.headWindowOffer src head) s = .next (s.done id)))

/-- The charge at the decision, the commit and the release (R147, R304 to R307, R310, R313, R314, R413): a charge and a
commit take their turns at the end of the clock, the charges before the commits, then come the landing charges and the
returns from bales, and minima written in the clock count from then; the lowest source's decided frame gives back its
landing charge and takes its class's, after push-out where that makes room, else it is refused; without the journal entries
it needs it is refused and counted; a frame whose bytes are in grains and whose checks passed commits, without the targets
that do not take its length as sent, or is discarded where none is left; releases apply in order of arrival, four a clock,
one that an engine's forwarding brought taking no owner from REF. Ring caches, and journal entries sent again (R294, R423,
R426, R430 to R432): a cache of 16 entries or fewer takes 32 from its ring where the ring holds grains; one of 48 or more
writes 32 back; the held ENQ that has waited longest at the head of a lane skips the gap before it; the lowest entry whose
retry time has passed is sent again; a requested walk starts; a skip and the end of a walk are judged as the clock ends,
after the CPLs and the ENQs that came in it; a walk that ends passes its last entries, clears REPLAY unless another runs,
and starts again where it was requested meanwhile. -/
def Obligations.AcceptedFrames : Prop :=
  (∀ (n : Fin 4) (s : State), s.dev.chip.state ≠ .off →
    exec (.decisionCharge n) s = .next (s.done fun d => d.askGranary (.decision n))
    ∧ exec (.frameCommit n) s = .next (s.done fun d => d.askGranary (.commit n))
    ∧ (∀ (d : Dev) (k m : Nat), d.decisionTurns [.commit k, .decision m] = (d.decisionCharge m).frameCommit k)
    ∧ (∀ d : Dev,
      let turns := d.clk.granary
      let after := ({ d with clk := { d.clk with granary := [], minima := [] } } : Dev).decisionTurns turns
      let after := after.each (after.landingTurns turns) (fun l d =>
        let d := d.landingTurn l.id
        match l.origin with | .host m _ => d.handLanded m | _ => d)
      let after := after.each turns (fun t d => match t with | .ret m => d.baleReturn m | _ => d)
      d.granaryEnd = after.each d.clk.minima (fun x d => d.minLowered x.1 x.2.1 x.2.2))
    ∧ (∀ d : Dev,
      let l? := d.lowestSource n (fun l => l.phase == .decided && !l.waiting)
      (l? = none → d.decisionCharge n = d)
      ∧ (∀ l dec, l? = some l → l.pre = some dec →
        let c := dec.cls
        let e := d.discharge n l.src l.chargeCls l.pool l.need l.minGr
        let l' := { l with waiting := true }
        let k := if e.guardedClass c then (dec.targets.filter (fun t => !t.mirror)).length else 0
        (d.granaryUp n = false → d.decisionCharge n = d)
        ∧ (d.granaryUp n = true → e.freeEntries n k = none → d.decisionCharge n =
            ((((e.bump (R.ACC_JRNL_FULL n)).setFlag (R.ACC_EVT n) R.ACC_EVT.JRNL_FULL true).bump (R.GRN_REFUSED l.region c)).discardLanding l' true))
        ∧ (d.granaryUp n = true → ∀ es, e.freeEntries n k = some es →
          (∀ p m, e.placeFor n l.src c l.need = some (p, m) → d.decisionCharge n = Dev.chargedFrame e n l' dec p m es)
          ∧ (∀ f, e.placeFor n l.src c l.need = none → e.makeRoom n l.src c l.need = some f →
            d.decisionCharge n = Dev.chargedFrame f n l' dec (f.homePool n c) (f.minShare n l.src c l.need) es)
          ∧ (e.placeFor n l.src c l.need = none → e.makeRoom n l.src c l.need = none →
            d.decisionCharge n = (e.bump (R.GRN_REFUSED l.region c)).discardLanding l' true))))
    ∧ (∀ d : Dev,
      let c? := d.lowestSource n (fun l => l.phase == .charged && l.ended)
      (c? = none → d.frameCommit n = d)
      ∧ (∀ l dec, c? = some l → l.pre = some dec →
        let fits := fun (t : Target) => d.mtuOk t dec.outerTag (l.bytes.length + if l.computeFcs then 4 else 0)
        let out := dec.targets.filter (fun t => !fits t)
        let dec' := { dec with targets := dec.targets.filter fits }
        let omitted := (d.countMtu l.origin out.length).freeReserved n (out.filterMap (·.entry))
        (dec'.targets.all (·.mirror) = true → dec.redirect = false → d.frameCommit n = omitted.discardLanding l false)
        ∧ (dec'.targets.all (·.mirror) = false ∨ dec.redirect = true → d.frameCommit n = omitted.commitFrame l dec')))
    ∧ (Map.get (fun _ => []) s.dev.frame.releases n = [] ∨ 4 ≤ (s.dev.clk.released.filter (· == n.val)).length →
        exec (.ownerRelease n) s = .next (s.done id))
    ∧ (∀ h rest, Map.get (fun _ => []) s.dev.frame.releases n = h :: rest → (s.dev.clk.released.filter (· == n.val)).length < 4 →
        let r := s.dev.frec n h
        let g := s.dev.grain n h
        let popped := fun (d : Dev) =>
          ({ d with
              clk := { d.clk with released := d.clk.released ++ [n.val] }
              frame := { d.frame with releases := Map.put (fun _ => []) d.frame.releases n rest } } : Dev)
        ((g.held = false ∨ g.headBit = false ∨ r.ref = 0) → exec (.ownerRelease n) s = .next (s.done fun d =>
            (((popped d).bump (R.GRN_DOUBLE_FREE n)).setFlag (R.GRN_EVT n) R.GRN_EVT.DOUBLE_FREE true).logEntry 0x0010 n 7 h))
        ∧ (g.held = true → g.headBit = true → r.ref ≠ 0 →
          (r.forwarded ≠ 0 → exec (.ownerRelease n) s = .next (s.done fun d =>
            (popped d).setFrec n h { r with forwarded := r.forwarded - 1 }))
          ∧ (r.forwarded = 0 → r.ref = 1 → exec (.ownerRelease n) s = .next (s.done fun d => (popped d).freeFrame n h))
          ∧ (r.forwarded = 0 → 1 < r.ref →
            exec (.ownerRelease n) s = .next (s.done fun d => (popped d).setFrec n h { r with ref := r.ref - 1 })))))
  ∧ (∀ (n : Fin 4) (s : State), s.dev.chip.state ≠ .off →
    let low := [0, 1, 2, 3].find? (fun r => decide ((s.dev.ring n r).cache.length ≤ 16) && (s.dev.ring n r).nonempty)
    let high := [0, 1, 2, 3].find? (fun r => decide (48 ≤ (s.dev.ring n r).cache.length))
    let lowest := (s.dev.held n).filter (fun h => (s.dev.held n).all (fun y =>
      !y.inLane h.descr.ingress h.descr.target.dest h.descr.cls || !seqAfter 32 h.descr.seq y.descr.seq))
    let again := (s.dev.journalUsed n).find? (fun i => s.dev.due ⟨.retry, n, i⟩ && (s.dev.jentry n i).state == .resend)
    let fresh := (s.dev.walksOf n).find? (fun w => !w.started)
    (low = none → exec (.ringCacheRefill n) s = .next (s.done id))
    ∧ (∀ r, low = some r → exec (.ringCacheRefill n) s = .next (s.done fun d =>
        (d.setRing n r ((d.ring n r).refill r 32)).backgroundServed n ((List.range 12).map (fun i => 64 + 4 * i + r))))
    ∧ (high = none → exec (.ringCacheWriteback n) s = .next (s.done id))
    ∧ (∀ r, high = some r → exec (.ringCacheWriteback n) s = .next (s.done fun d =>
        let f := d.ring n r
        (d.setRing n r { f with back := f.back ++ f.cache.take 32, cache := f.cache.drop 32 }).backgroundServed n
          ((List.range 12).map (fun i => 64 + 4 * i + r))))
    ∧ (lowest = [] → exec (.gapSkipTimeout n) s = .next (s.done id))
    ∧ (∀ h0 rest, lowest = h0 :: rest →
        let h := rest.foldl (fun m y => if y.since < m.since then y else m) h0
        exec (.gapSkipTimeout n) s = .next (s.done fun d => { d with clk := { d.clk with gaps := d.clk.gaps ++ [(n.val, h.descr.uid)] } }))
    ∧ (∀ (d : Dev) (e uid : Nat),
        let w := (d.held e).find? (fun h => h.descr.uid == uid && d.lowestHeld e h)
        (w = none → d.gapSkip e uid (Dev.place e) = d)
        ∧ (∀ h, w = some h → d.gapSkip e uid (Dev.place e) =
          let d := (d.bump (R.ACC_GAP_SKIP e)).setFlag (R.ACC_EVT e) R.ACC_EVT.GAP_SKIP true
          (d.setHeld e ((d.held e).filter (fun y => y != h))).acceptEnq e h.descr (Dev.place e)))
    ∧ (again = none → exec (.retryResend n) s = .next (s.done id))
    ∧ (∀ i, again = some i → exec (.retryResend n) s = .next (s.done fun d => (d.disarm ⟨.retry, n, i⟩).resendEntry n i false))
    ∧ (fresh = none → exec (.replayStart n) s = .next (s.done id))
    ∧ (∀ w, fresh = some w → exec (.replayStart n) s = .next (s.done fun d =>
        let open_ := (d.journalUsed n).filter (fun i => (d.jentry n i).unretired)
        let w' := { w with started := true, index := 0, pending := open_, sent := 0, again := false }
        (d.setWalks n ((d.walksOf n).map (fun x => if x == w then w' else x))).setFlag (R.ACC_STAT n) R.ACC_STAT.REPLAY true))
    ∧ exec (.replayWalkEnd n) s = .next (s.done fun d => { d with clk := { d.clk with walkEnds := d.clk.walkEnds ++ [n.val] } })
    ∧ (∀ (d : Dev) (n : Nat),
      let runs := (d.walksOf n).find? (·.started)
      (runs = none → d.walkEnd n = d)
      ∧ (∀ w, runs = some w → d.walkEnd n =
        let r := d.walkTo n (max w.index (d.journalSize n)) w
        let rest := (r.2.walksOf n).filter (fun x => x != w)
        let d := r.2.setWalks n (if r.1.again then rest ++ [Walk.new w.toward] else rest)
        let d := d.setFlag (R.ACC_STAT n) R.ACC_STAT.REPLAY ((d.walksOf n).any (·.started))
        let d := d.when (d.flag (R.ACC_CFG n) R.ACC_CFG.REPLAY_LOG) (fun d =>
          d.logChip 0x0031 ((match w.toward with | some e => e + 4 | none => n) + 2 ^ 16 * (r.1.sent % 2 ^ 16)))
        d.flushEnqs n))
    ∧ (∀ d : Dev, d.chipStopped = false → d.custodyEnd =
      let e : Dev := { d with frame := { d.frame with arrivals := [] }, clk := { d.clk with gaps := [], walkEnds := [] } }
      let judged := (e.each d.frame.arrivals Dev.judgeCpl).each d.frame.arrivals Dev.judgeArrival
      let skipped := judged.each d.clk.gaps (fun x d => d.gapSkip x.1 x.2 (Dev.place x.1))
      (skipped.recoverEnd.each [0, 1, 2, 3] (fun n d => d.walkTick n)).each d.clk.walkEnds (fun n d => d.walkEnd n)))

/-- Spills, returns and topology holds (R322, R323, R326 to R330): the first frame whose bale writes are complete stands in
bales, and its owner hears so; at the end of the clock a return was asked for, the first frame of a run returns to grains
when its queue runs low and a charge can be placed, and a frame whose bales cannot be read is lost; a hold closes gates and
starts its timer where MAX_MS is not 0; one begun during a release lets the release go on; its end empties the marked
ports' held queues; a hold that lasts MAX_MS ends without flush and sets HOLD_TIMEOUT. -/
def Obligations.SpillsAndHolds : Prop :=
  ∀ (n : Fin 4) (s : State), s.dev.chip.state ≠ .off →
    let active := (s.dev.holdOf n).active
    (s.dev.spillDone n = none → exec (.spillComplete n) s = .next (s.done id))
    ∧ (∀ q x, s.dev.spillDone n = some (q, x) →
      let counted := fun (d : Dev) => let d := d.setFrame n q { x with tier := .bales }
        (d.bump (R.GRN_SPILLED n)).when (d.heldQueue n q) (fun d => d.bump (R.GRN_HOLD_SPILLED n))
      (x.guarded = true → exec (.spillComplete n) s = .next (s.done fun d => (counted d).answerFrame n x .spill))
      ∧ (x.guarded = false → exec (.spillComplete n) s = .next (s.done fun d => (counted d).answerOwner n x .spill)))
    ∧ exec (.baleReturn n) s = .next (s.done fun d => d.askGranary (.ret n))
    ∧ (∀ d : Dev,
      let moves := d.stageActs < 3 ∧ (d.channelServes n = true ∨ d.channelFailed n = true) ∧ d.blockUp n 7 = true
      (¬ moves ∨ d.nextReturn n = none → d.baleReturn n = d)
      ∧ (moves → ∀ q x, d.nextReturn n = some (q, x) →
        let r := d.baleCheck n q x
        (r.1 = false → d.baleReturn n = r.2)
        ∧ (r.1 = true → r.2.returnPlace n x.cls (grainsFor x.length) = none → d.baleReturn n = r.2)
        ∧ (r.1 = true → ∀ p, r.2.returnPlace n x.cls (grainsFor x.length) = some p → d.baleReturn n = r.2.returnFrame n q x p)))
    ∧ (∀ m : Master, s.dev.Accepts m (R.GRN_HOLD_CMD n) →
      (active = true → exec (.grnHoldStart m n) s = .next (s.done id))
      ∧ (active = false → exec (.grnHoldStart m n) s = .next (s.done fun d =>
          let d := d.setHold n { d.holdOf n with active := true, since := d.now }
          let max := d.fget (R.GRN_HOLD_CFG n) R.GRN_HOLD_CFG.MAX_MS
          (d.when (max != 0) (fun d => d.arm ⟨.holdMax, n, 0⟩ (max * ms))).gatesOf n))
      ∧ (active = false → exec (.grnHoldEnd m n) s = .next (s.done id))
      ∧ (active = true → exec (.grnHoldEnd m n) s = .next (s.done fun d => Dev.holdEnds d n (d.rd (R.GRN_HOLD_FLUSH n)).toNat)))
    ∧ (active = true → s.dev.due ⟨.holdMax, n, 0⟩ = true → exec (.holdTimeout n) s = .next (s.done fun d =>
        (Dev.holdEnds d n 0).setFlag (R.GRN_EVT n) R.GRN_EVT.HOLD_TIMEOUT true))
    ∧ (active = false ∨ s.dev.due ⟨.holdMax, n, 0⟩ = false → exec (.holdTimeout n) s = .next (s.done id))

/-- Queue flushes, gate arming and recovery resets (R198, R361, R362, R364, R377, R660): SCH_FLUSH empties the named queues
of a port that is not ready, but for frames that entered them in this clock, and does nothing of one that is; ARM fixes the
start of a pending gate table, or sets BADCFG; both are judged as a write of their word; an entry whose RESET_MS has passed
takes any number next. -/
def Obligations.FlushArmReset : Prop :=
  ∀ s : State, s.dev.chip.state ≠ .off →
    (∀ (m : Master) (n : Fin 4) (k : Fin 33) (queues : Byte),
      let p := flushPort n k
      let a := 0x100 * k.val + 0xC
      let cmd := exec (.schFlush m n k queues) s
      (s.dev.masterServed m = false → cmd = .next (s.done id))
      ∧ (s.dev.masterServed m = true → s.mayWrite m 0x45 n a = false → cmd = .next (s.done fun d => d.bump R.IND_REFUSED))
      ∧ (s.dev.masterServed m = true → s.mayWrite m 0x45 n a = true → s.dev.groupLive (.rgn 5) (spWord 0x45 n) = false →
        cmd = .next (s.done fun d => d.bump R.LDR_LIVE_IGN))
      ∧ (s.dev.masterServed m = true → s.mayWrite m 0x45 n a = true → s.dev.groupLive (.rgn 5) (spWord 0x45 n) = true →
        (s.dev.portReady p = true → cmd = .next (s.done id))
        ∧ (s.dev.portReady p = false → cmd = .next (s.done fun d =>
            d.each ((List.range 8).filter (fun i => queues.toNat.testBit i)) (fun i d =>
              d.each ((d.idleFrames (portRegion p) (portQueue p i)).filter (fun x => decide (x.queuedAt < d.now))) (fun x d =>
                (d.bump (qCntKey (portRegion p) (portQueue p i) 3)).flushFrame (portRegion p) (portQueue p i) x))))))
    ∧ (∀ (m : Master) (p : Fin 128),
      let st := R.SCH_PSTAT (p / 32) (p % 32)
      let a := 0x100 * (p.val % 32) + 0x18
      let b := (s.dev.gate p).pendingBank
      let cmd := exec (.gateArm m p) s
      (s.dev.masterServed m = false → cmd = .next (s.done id))
      ∧ (s.dev.masterServed m = true → s.mayWrite m 0x45 (p / 32) a = false → cmd = .next (s.done fun d => d.bump R.IND_REFUSED))
      ∧ (s.dev.masterServed m = true → s.mayWrite m 0x45 (p / 32) a = true → s.dev.groupLive (.rgn 6) (spWord 0x45 (p / 32)) = false →
        cmd = .next (s.done fun d => d.bump R.LDR_LIVE_IGN))
      ∧ (s.dev.masterServed m = true → s.mayWrite m 0x45 (p / 32) a = true → s.dev.groupLive (.rgn 6) (spWord 0x45 (p / 32)) = true →
        (s.dev.bankBad p b = true → cmd = .next (s.done fun d => d.setFlag st R.SCH_PSTAT.BADCFG true))
        ∧ (s.dev.bankBad p b = false → cmd = .next (s.done fun d =>
            (d.setGate p { d.gate p with armed := some (d.armTarget p b) }).setFlag st R.SCH_PSTAT.BADCFG false))))
    ∧ (∀ n : Fin 4,
      let j? := (List.range 256).find? (fun j => s.dev.due ⟨.recoveryReset, n, j⟩)
      (j? = none → exec (.recoveryResetExpiry n) s = .next (s.done id))
      ∧ (∀ j, j? = some j → exec (.recoveryResetExpiry n) s = .next (s.done fun d =>
          ((d.disarm ⟨.recoveryReset, n, j⟩).setStream n j { d.stream n j with takeAny := true }).bump (streamCell n j 3))))

/-- Transmission (R143 to R146, R150, R357 to R359, R361): a MAC that may start takes the head frame of the queue the
scheduler selects; a frame whose grains have all come is sent, counted and released; a cut leaves a guarded frame at its
queue's head and discards another; a port that becomes not ready while its region runs discards its queued frames that are
not guarded, but the one being sent. -/
def Obligations.SentFrames : Prop :=
  ∀ (p : PortId) (s : State), s.dev.chip.state ≠ .off → portExists p = true →
    let n := portRegion p
    let ep := s.dev.eport p
    let e := Dev.beforeSelect s.dev p
    (s.dev.macMayStart p = false → exec (.transmitSelect p) s = .next (s.done id))
    ∧ (s.dev.macMayStart p = true → e.selectQueue p = none →
        exec (.transmitSelect p) s = .next (s.done fun d => Dev.beforeSelect d p))
    ∧ (s.dev.macMayStart p = true → ∀ i x rest, e.selectQueue p = some i → (e.queue n (portQueue p i)).frames = x :: rest →
        exec (.transmitSelect p) s = .next (s.done fun d => (Dev.beforeSelect d p).startFrame p i x))
    ∧ (s.dev.sendingFrame p = none → exec (.transmitComplete p) s = .next (s.done id) ∧ exec (.transmitCut p) s = .next (s.done id))
    ∧ (∀ i x, s.dev.sendingFrame p = some (i, x) →
        (ep.readsLeft ≠ 0 ∨ s.dev.portBlockUp p = false → exec (.transmitComplete p) s = .next (s.done id))
        ∧ (ep.readsLeft = 0 → s.dev.portBlockUp p = true →
            let a := R.SCH_PORT n (portLocal p)
            let q := portQueue p i
            let body := ep.bytes.take (if x.computeFcs then ep.bytes.length else ep.bytes.length - 4)
            let mark := ep.ce && (ecnOf x body == some 1 || ecnOf x body == some 2)
            let r := buildFrame x ep.bytes mark ep.bad (s.dev.flag a R.SCH_PORT.CB_ENCODE) (s.dev.flag a R.SCH_PORT.CB_DECODE)
            let finish := fun (error : Bool) (how : CplStatus) (d : Dev) =>
              (((d.txStamp p x error).unqueue n q x).endSending p).egressDone n x how
            (r.2.2 = false → exec (.transmitComplete p) s = .next (s.done fun d =>
              let d := (d.sendOut p r.1 true).when mark (fun d => d.bump (qCntKey n q 2))
              finish false .transmit ((((d.bump (R.MAC_TX_OK p)).bumpPerf (R.MAC_TX_OK_BYTES p) r.1.length).bump (qCntKey n q 0)).bumpPerf
                (qCntKey n q 1) r.1.length)))
            ∧ (r.2.2 = true → exec (.transmitComplete p) s = .next (s.done fun d =>
              let d := (d.sendOut p r.1 false).when mark (fun d => d.bump (qCntKey n q 2))
              finish true (if x.guarded then .transmit else .transmitError) ((d.bump (R.MAC_TX_STOMP p)).when x.guarded (fun d =>
                (d.bump (R.ACC_LOST n)).setFlag (R.ACC_EVT n) R.ACC_EVT.LOST true)))))
        ∧ (x.guarded = true → exec (.transmitCut p) s = .next (s.done fun d =>
            ((Dev.noStamp (d.sendOut p (d.eport p).bytes false) x).endSending p).modQueue n (portQueue p i)
              (fun q => { q with frames := q.frames.modify 0 (fun y => { y with tx := false }) })))
        ∧ (x.guarded = false → exec (.transmitCut p) s = .next (s.done fun d =>
            ((((Dev.noStamp (d.sendOut p (d.eport p).bytes false) x).endSending p).unqueue n (portQueue p i) x).bump
              (R.MAC_TX_ABORT p)).egressDone n x .discard)))
    ∧ ((s.dev.portReady p = true ∨ s.dev.regionRuns n = false) → exec (.portNotReady p) s = .next (s.done id))
    ∧ (s.dev.portReady p = false → s.dev.regionRuns n = true → exec (.portNotReady p) s = .next (s.done fun d =>
        d.each (List.range 8) (fun i d =>
          let q := portQueue p i
          d.each ((d.idleFrames n q).filter (fun x => !x.guarded)) (fun x d =>
            ((d.unqueue n q x).bump (qCntKey n q 3)).egressDone n x .discard))))

/-- Requests and commands of a DRAM channel (R388 to R393, R396, R397, R404): a failed or disabled channel answers a read
marked uncorrectable and drops a write; a channel that a reset put to sleep accepts neither, and one asleep or training
keeps both; else a read is forwarded from a queued write of its burst, or queues, or waits for a place, and a write
replaces a queued one of its burst, or queues, with which it forwards to the reads of its burst queued in this clock, or
waits. A channel that owes four refreshes issues one before all else; then a request that is too old, reads then writes
outside DRAIN mode, writes in it. -/
def Obligations.DramTraffic : Prop :=
  ∀ (n : Fin 4) (s : State), s.dev.chip.state ≠ .off →
    let served := s.dev.channelState n ≠ 3 ∧ s.dev.channelState n ≠ 0 ∧ s.dev.dramAwake n = true
    let e := s.dev.wakeIdle n
    let y := e.dramOf n
    let x := s.dev.dramOf n
    (∀ (burst : BitVec 26) (chip : Bool),
      let b := burst.toNat
      let rq : DramRead := ⟨b, s.dev.now, chip, none⟩
      (s.dev.channelState n = 3 ∨ s.dev.channelState n = 0 →
        exec (.dramReadRequest n burst chip) s = .next (s.done fun d => d.emit (.silo n b none)))
      ∧ (s.dev.channelState n ≠ 3 → s.dev.channelState n ≠ 0 → x.sleep = .reset → exec (.dramReadRequest n burst chip) s = .next (s.done id))
      ∧ (s.dev.channelState n ≠ 3 → s.dev.channelState n ≠ 0 → x.sleep ≠ .reset → s.dev.dramAwake n = false →
        exec (.dramReadRequest n burst chip) s = .next (s.done fun d => d.setDram n { x with waitRead := x.waitRead ++ [rq] }))
      ∧ (served → ∀ w, y.writeQ.find? (fun w => w.burst == b) = some w →
        exec (.dramReadRequest n burst chip) s = .next (s.done fun d =>
          ((d.wakeIdle n).bump (R.DRC_FWD n)).emit (.silo n b (some w.data))))
      ∧ (served → y.writeQ.find? (fun w => w.burst == b) = none → y.readQ.length < 64 →
        exec (.dramReadRequest n burst chip) s = .next (s.done fun d =>
          ((d.wakeIdle n).setDram n { y with readQ := y.readQ ++ [rq] }).refreshDram n))
      ∧ (served → y.writeQ.find? (fun w => w.burst == b) = none → 64 ≤ y.readQ.length →
        exec (.dramReadRequest n burst chip) s = .next (s.done fun d =>
          ((d.wakeIdle n).setDram n { y with waitRead := y.waitRead ++ [rq] }).bump (R.DRC_QFULL_WAIT n))))
    ∧ (∀ (burst : BitVec 26) (data : BitVec 512),
      let b := burst.toNat
      let w : DramWrite := ⟨b, data.toNat, s.dev.now⟩
      let queued := y.writeQ.any (fun z => z.burst == b)
      let late := fun (r : DramRead) => r.burst == b && r.since == e.now
      let holds := fun (d : Dev) (q : List DramWrite) =>
        (d.wakeIdle n).setDram n { y with writeQ := q, readQ := y.readQ.filter (fun r => !late r) }
      let forward := fun (d : Dev) => d.each (y.readQ.filter late) (fun r d =>
        (d.bump (R.DRC_FWD n)).emit (.silo n r.burst (some data.toNat)))
      (s.dev.channelState n = 3 ∨ s.dev.channelState n = 0 ∨ x.sleep = .reset → exec (.dramWriteRequest n burst data) s = .next (s.done id))
      ∧ (s.dev.channelState n ≠ 3 → s.dev.channelState n ≠ 0 → x.sleep ≠ .reset → s.dev.dramAwake n = false →
        exec (.dramWriteRequest n burst data) s = .next (s.done fun d => d.setDram n { x with waitWrite := x.waitWrite ++ [w] }))
      ∧ (served → queued = true → exec (.dramWriteRequest n burst data) s = .next (s.done fun d =>
          (forward ((holds d (y.writeQ.map (fun z => if z.burst == b then { z with data := data.toNat } else z))).bump
            (R.DRC_MERGED n))).refreshDram n))
      ∧ (served → queued = false → y.writeQ.length < 64 → exec (.dramWriteRequest n burst data) s = .next (s.done fun d =>
          (forward (holds d (y.writeQ ++ [w]))).refreshDram n))
      ∧ (served → queued = false → 64 ≤ y.writeQ.length → exec (.dramWriteRequest n burst data) s = .next (s.done fun d =>
          ((d.wakeIdle n).setDram n { y with waitWrite := y.waitWrite ++ [w] }).bump (R.DRC_QFULL_WAIT n))))
    ∧ (let issues := s.dev.channelServes n = true ∧ s.dev.flag (R.DRC_STAT n) R.DRC_STAT.PASS = false
      let oldR := pickOldest DramRead.since (fun _ => false) (x.readQ.filter (fun r => decide (s.dev.ageMax n ≤ s.dev.now - r.since)))
      let oldW := pickOldest DramWrite.since (fun _ => false) (x.ready.filter (fun w => decide (s.dev.ageMax n ≤ s.dev.now - w.since)))
      let nextR := pickOldest DramRead.since (fun r => x.hit r.burst) x.readQ
      let nextW := pickOldest DramWrite.since (fun w => x.hit w.burst) x.ready
      let drain := s.dev.flag (R.DRC_STAT n) R.DRC_STAT.DRAIN
      let go := fun (g : Dev → Dev) => exec (.dramCommandIssue n) s = .next (s.done g)
      (s.dev.channelServes n = false ∨ s.dev.flag (R.DRC_STAT n) R.DRC_STAT.PASS = true → go id)
      ∧ (issues → 4 ≤ x.owed → go (fun d => d.issueRefresh n))
      ∧ (issues → x.owed < 4 →
        (∀ r w, oldR = some r → oldW = some w → w.since < r.since → go (fun d => (d.bump (R.DRC_AGE_PROMOTE n)).issueWrite n w))
        ∧ (∀ r w, oldR = some r → oldW = some w → r.since ≤ w.since → go (fun d => (d.bump (R.DRC_AGE_PROMOTE n)).issueRead n r))
        ∧ (∀ r, oldR = some r → oldW = none → go (fun d => (d.bump (R.DRC_AGE_PROMOTE n)).issueRead n r))
        ∧ (∀ w, oldR = none → oldW = some w → go (fun d => (d.bump (R.DRC_AGE_PROMOTE n)).issueWrite n w))
        ∧ (oldR = none → oldW = none →
          (∀ r, drain = false → nextR = some r → go (fun d => d.issueRead n r))
          ∧ (∀ w, drain = true ∨ nextR = none → nextW = some w → go (fun d => d.issueWrite n w))
          ∧ (drain = true ∨ nextR = none → nextW = none → 0 < x.owed → go (fun d => d.issueRefresh n))
          ∧ (drain = true ∨ nextR = none → nextW = none → x.owed = 0 → go id))))

/-- Errors of a DRAM channel (R387, R403): data without error is answered; a single-bit error is corrected, counted and,
unless a write of its burst is queued, written back; each carries what the DRAM held as the read was issued; a word that
cannot be corrected (or whose TAG differs) is answered marked; a burst that was never written reads a free value; a read
without data within TIMEOUT_US fails the channel with cause 3. Refresh, power states, training and tracking of a DRAM
channel (R383, R395 to R402, R405): a serving channel owes one refresh more each interval; the temperatures and the
multiplier are read; an idle channel goes to power-down and to self-refresh where its times enable them; a training ends
READY, or goes on as a full training, or fails with cause 1; a tracking pass runs on a channel no slot names, and fails the
channel with cause 4 where a retraining did not succeed, and the pass of a warm start's check ends that training; a failed
channel that nothing needs trains again, else the request is logged as refused. -/
def Obligations.DramErrorsAndStates : Prop :=
  (∀ (n : Fin 4) (s : State), s.dev.chip.state ≠ .off →
    let x := s.dev.dramOf n
    (∀ e : Fin 4, x.issued = [] → exec (.dramReadComplete n e) s = .next (s.done id))
    ∧ (∀ (e : Fin 4) (r : DramRead) (rest : List DramRead), x.issued = r :: rest →
      (2 ≤ e.val → exec (.dramReadComplete n e) s = .next (s.done fun d => Dev.readBad (Dev.readReturned d n rest) n (e.val == 3) r))
      ∧ (e.val = 0 → r.data = none → exec (.dramReadComplete n e) s = .next (s.done fun d =>
          let v := (Dev.readReturned d n rest).fresh
          v.2.emit (.silo n r.burst (some v.1.toNat))))
      ∧ (e.val = 1 → r.data = none → exec (.dramReadComplete n e) s = .next (s.done fun d =>
          let v := (Dev.readReturned d n rest).fresh
          Dev.readCorrected v.2 n r v.1.toNat))
      ∧ (∀ v, e.val = 0 → r.data = some v →
        exec (.dramReadComplete n e) s = .next (s.done fun d => (Dev.readReturned d n rest).emit (.silo n r.burst (some v))))
      ∧ (∀ v, e.val = 1 → r.data = some v →
        exec (.dramReadComplete n e) s = .next (s.done fun d => Dev.readCorrected (Dev.readReturned d n rest) n r v)))
    ∧ (x.issued ≠ [] → exec (.dramReadTimeout n) s = .next (s.done fun d => d.channelFail n 3))
    ∧ (x.issued = [] → exec (.dramReadTimeout n) s = .next (s.done id)))
  ∧ (∀ (n : Fin 4) (s : State), s.dev.chip.state ≠ .off →
    let x := s.dev.dramOf n
    let serves := s.dev.channelServes n
    let inWindow := (List.range 8).any (fun k => s.dev.slotKind k == 2 && (s.dev.slotTargets k).testBit n && (s.dev.slotUser k).active)
    let pass := s.dev.flag (R.DRC_STAT n) R.DRC_STAT.PASS
    (serves = true → exec (.dramRefreshDue n) s = .next (s.done fun d => d.setDram n { x with owed := x.owed + 1 }))
    ∧ (serves = false → exec (.dramRefreshDue n) s = .next (s.done id) ∧ exec (.dramZqLatch n) s = .next (s.done id))
    ∧ (inWindow = true → exec (.dramZqLatch n) s = .next (s.done id))
    ∧ (serves = true → inWindow = false → exec (.dramZqLatch n) s = .next (s.done fun d => d.setDram n { x with zqAt := s.dev.now }))
    ∧ (∀ (a b : Byte) (m : BitVec 2) (hot : Bool),
      (s.dev.channelState n = 2 → exec (.dramTempRead n a b m hot) s = .next (s.done fun d => Dev.tempRead d n a.toNat b.toNat m.toNat hot))
      ∧ (s.dev.channelState n ≠ 2 → exec (.dramTempRead n a b m hot) s = .next (s.done id)))
    ∧ (s.dev.dramIdle n = true → s.dev.was.fget (R.DRC_PWR n) R.DRC_PWR.PD_IDLE ≠ 0 →
        exec (.dramPowerDownIdle n) s = .next (s.done fun d => d.setFlag (R.DRC_STAT n) R.DRC_STAT.PD true))
    ∧ (s.dev.dramIdle n = false ∨ s.dev.was.fget (R.DRC_PWR n) R.DRC_PWR.PD_IDLE = 0 →
        exec (.dramPowerDownIdle n) s = .next (s.done id))
    ∧ (s.dev.dramIdle n = true → s.dev.was.fget (R.DRC_PWR n) R.DRC_PWR.SR_IDLE_US ≠ 0 →
        exec (.dramSelfRefreshIdle n) s = .next (s.done fun d => d.enterSelfRefresh n .idle))
    ∧ (s.dev.dramIdle n = false ∨ s.dev.was.fget (R.DRC_PWR n) R.DRC_PWR.SR_IDLE_US = 0 →
        exec (.dramSelfRefreshIdle n) s = .next (s.done id))
    ∧ (∀ ok : Bool, s.dev.channelState n ≠ 1 ∨ x.training = .none ∨ x.sleep ≠ .none → exec (.dramTrainingComplete n ok) s = .next (s.done id))
    ∧ (s.dev.channelState n = 1 → x.training ≠ .none → x.sleep = .none →
        exec (.dramTrainingComplete n true) s = .next (s.done fun d =>
          (d.when (x.training == .warmCheck) (fun d => Dev.checkEnds (d.bump (R.DRC_TRACK n)) n true)).trained n x.training))
    ∧ (s.dev.channelState n = 1 → x.training = .saved → x.sleep = .none →
        exec (.dramTrainingComplete n false) s = .next (s.done fun d => d.trainStart n .full))
    ∧ (s.dev.channelState n = 1 → x.training = .warmCheck → x.sleep = .none →
        exec (.dramTrainingComplete n false) s = .next (s.done fun d =>
          (Dev.checkEnds (d.bump (R.DRC_TRACK n)) n false).trainStart n .full))
    ∧ (s.dev.channelState n = 1 → x.training = .full ∨ x.training = .requalify → x.sleep = .none →
        exec (.dramTrainingComplete n false) s = .next (s.done fun d => d.channelFail n 1))
    ∧ (s.dev.trackedBySlot n = false → exec (.dramTrackingInterval n) s = .next (s.done fun d => d.windowPass n))
    ∧ (s.dev.trackedBySlot n = true → exec (.dramTrackingInterval n) s = .next (s.done id))
    ∧ (∀ (drift : BitVec 16) (retrainOk calOk : Bool),
      let k := drift.toNat
      let c := R.DRC_RT_CFG n
      let lim := max (s.dev.was.fget c R.DRC_RT_CFG.TRACK_PS) (s.dev.was.fget c R.DRC_RT_CFG.RETRAIN_PS)
      let runs := pass = true ∧ x.issued = [] ∧ x.sleep = .none
      (pass = false ∨ x.issued ≠ [] ∨ x.sleep ≠ .none → exec (.dramTrackingPassDone n drift retrainOk calOk) s = .next (s.done id))
      ∧ (runs → lim < k → retrainOk = false →
          exec (.dramTrackingPassDone n drift retrainOk calOk) s = .next (s.done fun d => (Dev.passEnds d n k calOk).channelFail n 4))
      ∧ (runs → (k ≤ lim ∨ retrainOk = true) →
          (x.training ≠ .warmCheck →
            exec (.dramTrackingPassDone n drift retrainOk calOk) s = .next (s.done fun d => Dev.passEnds d n k calOk))
          ∧ (x.training = .warmCheck → calOk = true →
            exec (.dramTrackingPassDone n drift retrainOk calOk) s = .next (s.done fun d => (Dev.passEnds d n k true).trained n .warmCheck))
          ∧ (x.training = .warmCheck → calOk = false →
            exec (.dramTrackingPassDone n drift retrainOk calOk) s = .next (s.done fun d => (Dev.passEnds d n k false).trainStart n .full))))
    ∧ (∀ m : Master, s.dev.Accepts m (R.DRC_CMD n) →
      let runs := (s.dev.queuesOf n).any (fun q => !(s.dev.queue n q).run.isEmpty)
      let mirrors := Map.get (fun _ => []) s.dev.frame.mirrorList n
      (s.dev.channelState n = 3 → runs = false → mirrors = [] →
        exec (.drcRequalify m n) s = .next (s.done fun d => d.trainStart n .requalify))
      ∧ (s.dev.channelState n ≠ 3 ∨ runs = true ∨ mirrors ≠ [] →
        exec (.drcRequalify m n) s = .next (s.done fun d => d.logEntry 0x0024 n 7 n))))

/-- Arithmetic instructions of a core (R454, Table 11-5): OPR writes register d with the operation FN selects of registers
a and b; the immediate forms write it with the operation of register a and IMM, sign-extended or zero-extended as the table
says; shift counts are taken modulo 32. The thread's PC moves to the next instruction; the instruction reads no memory and
writes none. -/
def Obligations.EngineArithmetic : Prop :=
  ∀ (c : Core) (t : Fin 8) (s : State) (w : Word) (x : Thread), s.dev.chip.state ≠ .off →
    let e := coreNo c
    let a := x.reg (fieldA w)
    let b := x.reg (fieldB w)
    let imm := w.setWidth 16
    let k := b.toNat % 32
    let writes := fun (v : Word) => Host.Outcome.next (s.done fun d => (d.startIssue e t).result e t x (fieldD w) v)
    (∀ p ∈ [(0, a + b), (1, a - b), (2, a &&& b), (3, a ||| b), (4, a ^^^ b), (5, a <<< k), (6, a >>> k), (7, a.sshiftRight k), (8, a * b),
        (9, BitVec.ofNat 32 (a.toNat * b.toNat / 2 ^ 32)), (10, if a.slt b then 1#32 else 0#32), (11, if a.ult b then 1#32 else 0#32),
        (12, if a.slt b then a else b), (13, if a.slt b then b else a),
        (14, BitVec.ofNat 32 (((List.range 32).find? (fun i => a.getMsbD i)).getD 32)),
        (15, BitVec.ofNat 32 (leAt (leBytes 4 a.toNat).reverse 0 4)), (16, a.rotateLeft k), (17, BitVec.ofNat 32 (popCount 32 a.toNat))],
      s.dev.Issues e t 0x00 w x → fieldFn w = p.1 → exec (.opr c t) s = writes p.2)
    ∧ (s.dev.Issues e t 0x01 w x → exec (.addk c t) s = writes (a + imm.signExtend 32))
    ∧ (s.dev.Issues e t 0x02 w x → exec (.andk c t) s = writes (a &&& imm.setWidth 32))
    ∧ (s.dev.Issues e t 0x03 w x → exec (.ork c t) s = writes (a ||| imm.setWidth 32))
    ∧ (s.dev.Issues e t 0x04 w x → exec (.xork c t) s = writes (a ^^^ imm.setWidth 32))
    ∧ (s.dev.Issues e t 0x05 w x → exec (.insh c t) s = writes ((imm.setWidth 32 <<< 16) ||| (a &&& 0xFFFF#32)))
    ∧ (s.dev.Issues e t 0x06 w x → exec (.shlk c t) s = writes (a <<< (w.toNat % 32)))
    ∧ (s.dev.Issues e t 0x07 w x → exec (.shrk c t) s = writes (a >>> (w.toNat % 32)))
    ∧ (s.dev.Issues e t 0x08 w x → exec (.sark c t) s = writes (a.sshiftRight (w.toNat % 32)))
    ∧ (s.dev.Issues e t 0x09 w x → exec (.ltk c t) s = writes (if a.slt (imm.signExtend 32) then 1 else 0))
    ∧ (s.dev.Issues e t 0x0A w x → exec (.setk c t) s = writes (imm.signExtend 32))

/-- Branches, calls and jumps of a core (R444, R454, R455, R463): a branch whose condition holds moves PC by IMM beyond the
next instruction, modulo 65,536, and else to the next; CALL pushes the next PC and goes to IMM, and faults with CAUSE 5
where the stack holds eight; RET pops into PC, and faults with CAUSE 5 on an empty stack; GO takes the low 16 bits of
register a; BARR completes, every earlier store having been performed. -/
def Obligations.EngineControl : Prop :=
  ∀ (c : Core) (t : Fin 8) (s : State) (w : Word) (x : Thread), s.dev.chip.state ≠ .off →
    let e := coreNo c
    let p := x.reg (fieldD w)
    let q := x.reg (fieldA w)
    let goes := fun (y : Thread) (pc : Nat) => Host.Outcome.next (s.done fun d => (d.startIssue e t).completeAt e t y pc)
    let faults := fun (cause : Nat) => Host.Outcome.next (s.done fun d => (d.startIssue e t).threadFault e t cause)
    (∀ k ∈ [(0x20, Instr.ifeq c t, p == q), (0x21, .ifne c t, p != q), (0x22, .iflt c t, p.slt q), (0x23, .ifge c t, !p.slt q),
        (0x24, .iflo c t, p.ult q), (0x25, .ifhs c t, !p.ult q)],
      s.dev.Issues e t k.1 w x →
        (k.2.2 = true → exec k.2.1 s = goes x (((x.pc : Int) + 1 + (w.setWidth 16).toInt) % 65536).toNat)
        ∧ (k.2.2 = false → exec k.2.1 s = goes x (x.pc + 1)))
    ∧ (s.dev.Issues e t 0x28 w x → x.stack.length < 8 →
        exec (.call c t) s = goes { x with stack := (x.pc + 1) % 65536 :: x.stack } (w.setWidth 16).toNat)
    ∧ (s.dev.Issues e t 0x28 w x → 8 ≤ x.stack.length → exec (.call c t) s = faults 5)
    ∧ (∀ pc rest, s.dev.Issues e t 0x29 w x → x.stack = pc :: rest → exec (.ret c t) s = goes { x with stack := rest } pc)
    ∧ (s.dev.Issues e t 0x29 w x → x.stack = [] → exec (.ret c t) s = faults 5)
    ∧ (s.dev.Issues e t 0x2A w x → exec (.go c t) s = goes x (q.toNat % 65536))
    ∧ (s.dev.Issues e t 0x1B w x → exec (.barr c t) s = goes x (x.pc + 1))

/-- Data space and scratch of a core (R444, R454, R457, R460, R463, Table 11-5): the address of RDW, RDB, WRW, WRB, RDS and
WRS is register a plus IMM, of ATOM register a; a word access that is not aligned faults with CAUSE 2, an address beyond
the space with CAUSE 3; the supervisor core loads from and stores to its own memory at once; an engine loads from a line it
holds and stores to one it owns, and else waits for the line. Loads and stores of a core reach the data they name (R460,
R463): the supervisor core's own memory; a line an engine holds, or owns; where it does not, the thread waits and the line
is requested. -/
def Obligations.EngineMemory : Prop :=
  (∀ (c : Core) (t : Fin 8) (s : State) (w : Word) (x : Thread), s.dev.chip.state ≠ .off →
    let e := coreNo c
    let a := (x.reg (fieldA w) + (w.setWidth 16).signExtend 32).toNat
    let g := (x.reg (fieldA w)).toNat
    let b := x.reg (fieldB w)
    let v := x.reg (fieldD w)
    let size := if e = supCore then 0x80000 else 0x20000
    let does := fun (f : Dev → Dev) => Host.Outcome.next (s.done fun d => f (d.startIssue e t))
    let faults := fun (cause : Nat) => does (fun d => d.threadFault e t cause)
    let loads := fun (a : Nat) (f : Word → Word) => does (fun d => d.loadWord e t a (fun r d => d.result e t x (fieldD w) (f r)))
    let stores := fun (f : Word → Word) => does (fun d => d.storeWordAt e t a f (fun _ d => d.complete e t x))
    let swaps := fun (f : Word → Word) => does (fun d => d.storeWordAt e t g f (fun old d => d.result e t x (fieldD w) old))
    (s.dev.Issues e t 0x10 w x → (a % 4 ≠ 0 → exec (.rdw c t) s = faults 2) ∧ (a % 4 = 0 → size ≤ a → exec (.rdw c t) s = faults 3)
      ∧ (a % 4 = 0 → a < size → exec (.rdw c t) s = loads a id))
    ∧ (s.dev.Issues e t 0x11 w x → (size ≤ a → exec (.rdb c t) s = faults 3)
      ∧ (a < size → exec (.rdb c t) s = loads a (fun r => BitVec.ofNat 32 (bits r.toNat (8 * (a % 4)) 8))))
    ∧ (s.dev.Issues e t 0x12 w x → (a % 4 ≠ 0 → exec (.wrw c t) s = faults 2) ∧ (a % 4 = 0 → size ≤ a → exec (.wrw c t) s = faults 3)
      ∧ (a % 4 = 0 → a < size → exec (.wrw c t) s = stores (fun _ => v)))
    ∧ (s.dev.Issues e t 0x13 w x → (size ≤ a → exec (.wrb c t) s = faults 3)
      ∧ (a < size → exec (.wrb c t) s = stores (fun old => putByte old (a % 4) (v.setWidth 8))))
    ∧ (s.dev.Issues e t 0x14 w x → (a % 4 ≠ 0 → exec (.rds c t) s = faults 2) ∧ (a % 4 = 0 → 1024 ≤ a → exec (.rds c t) s = faults 3)
      ∧ (a % 4 = 0 → a < 1024 → exec (.rds c t) s = does (fun d => d.result e t x (fieldD w) (x.scratchWord (a / 4)))))
    ∧ (s.dev.Issues e t 0x15 w x → (a % 4 ≠ 0 → exec (.wrs c t) s = faults 2) ∧ (a % 4 = 0 → 1024 ≤ a → exec (.wrs c t) s = faults 3)
      ∧ (a % 4 = 0 → a < 1024 →
          exec (.wrs c t) s = does (fun d => d.complete e t { x with scratch := Map.ins x.scratch (a / 4) v })))
    ∧ (s.dev.Issues e t 0x1A w x → (g % 4 ≠ 0 → exec (.atom c t) s = faults 2) ∧ (g % 4 = 0 → size ≤ g → exec (.atom c t) s = faults 3)
      ∧ (∀ k ∈ [(0, fun (old : Word) => old + b), (1, fun _ => b), (2, fun old => if old = v then b else old), (3, fun old => old ||| b),
          (4, fun old => old &&& b)], fieldFn w = k.1 → g % 4 = 0 → g < size → exec (.atom c t) s = swaps k.2)))
  ∧ ((∀ (d : Dev) (t a : Nat) (k : Word → Dev → Dev), d.fault (supKey a) ≠ 2 → d.loadWord supCore t a k = k (d.rd (supKey a)) d)
  ∧ (∀ (d : Dev) (t a : Nat) (k : Word → Dev → Dev), d.fault (supKey a) = 2 →
      d.loadWord supCore t a k = d.raise (.chipFatal 0x06 0x40 a))
  ∧ (∀ (d : Dev) (t a : Nat) (f : Word → Word) (k : Word → Dev → Dev),
      d.storeWordAt supCore t a f k = k (d.rd (supKey a)) (d.wrMem (supKey a) (f (d.rd (supKey a)))))
  ∧ (∀ (d : Dev) (e t a : Nat) (h : HeldLine) (k : Word → Dev → Dev) (f : Word → Word), e < 64 → d.heldLine e (a / 64) = some h →
      d.loadWord e t a k = k (h.words.getD (a / 4 % 16) 0) d
      ∧ (h.owned = true → d.storeWordAt e t a f k =
          k (h.words.getD (a / 4 % 16) 0) (d.storeHeld e a (f (h.words.getD (a / 4 % 16) 0))))
      ∧ (h.owned = false → d.storeWordAt e t a f k = d.waitLine e t (a / 64) true))
  ∧ (∀ (d : Dev) (e t a : Nat) (k : Word → Dev → Dev) (f : Word → Word), e < 64 → d.heldLine e (a / 64) = none →
      d.loadWord e t a k = d.waitLine e t (a / 64) false ∧ d.storeWordAt e t a f k = d.waitLine e t (a / 64) true))

/-- Instructions on a thread's task (R446, R450, R451, R454, R456, Table 11-5): RDT reads a word of the task record, 0
without a task; RDF reads four bytes of the task's frame, 0 beyond its length; SEND, FWD and DROP stage outputs; a SEND
whose bytes do not lie in the data space faults with CAUSE 3; DONE completes the task as the clock ends, unless its block's
restart begins in it; CRC continues a CRC-32C over data bytes, faults with CAUSE 3 beyond the space, and gives a free value
for more than 9,216 bytes, for which the spec states no result (assumption 9). The task unit and the supervisor's watchdog
(R448, R452, R453, R476): what comes to a task unit in a clock takes its turn as the clock ends: DONEs, expiries, tasks
that enter, cancellations and dispatches in this order. The queue of the highest PRIO that can run a task gives its
earliest to an idle thread of the running engine with the most idle threads whose block has had no dispatch in the clock; a
task that runs WDOG_US is aborted; FLUSH cancels every task of a queue; a kick counts MS anew; the watchdog's expiry, while
the supervisor runs and MS is not 0, is a chip-fatal error. -/
def Obligations.EngineTasks : Prop :=
  (∀ (c : Core) (t : Fin 8) (s : State) (w : Word) (x : Thread), s.dev.chip.state ≠ .off →
    let e := coreNo c
    let a := (x.reg (fieldA w)).toNat
    let b := (x.reg (fieldB w)).toNat
    let at_ := (x.reg (fieldA w) + (w.setWidth 16).signExtend 32).toNat
    let does := fun (f : Dev → Dev) => Host.Outcome.next (s.done fun d => f (d.startIssue e t))
    (s.dev.Issues e t 0x18 w x → exec (.rdt c t) s = does (fun d =>
        d.result e t x (fieldD w) (BitVec.ofNat 32 (match d.taskOf e t with | some k => k.word (w.toNat % 16) | none => 0))))
    ∧ (s.dev.Issues e t 0x19 w x → exec (.rdf c t) s = does (fun d =>
        let bytes := match (if e = supCore then none else d.taskOf e t) with
          | some k => (match k.frame with | some f => (d.frameBytes (e / 16) f.head).take f.length | none => [])
          | none => []
        d.result e t x (fieldD w) (BitVec.ofNat 32 (beAt bytes at_ 4))))
    ∧ (s.dev.Issues e t 0x30 w x →
      (a + bits b 0 14 ≤ 0x20000 → exec (.send c t) s = does (stagesOutput e t x (.send a b (fieldFn w)) 4 outputSends))
      ∧ (0x20000 < a + bits b 0 14 → exec (.send c t) s = does (fun d => d.threadFault e t 3)))
    ∧ (s.dev.Issues e t 0x31 w x →
        exec (.fwd c t) s = does (stagesOutput e t x (.fwd (bits a 0 12) (bits a 12 3)) 1 (fun o => !outputSends o)))
    ∧ (s.dev.Issues e t 0x32 w x → exec (.drop c t) s = does (stagesOutput e t x .drop 1 (fun o => !outputSends o)))
    ∧ (s.dev.Issues e t 0x33 w x → exec (.done c t) s = does (fun d => (d.askTasks (.done e t x.task)).slotRetired e)
      ∧ ∀ d : Dev, (TaskTurn.done e t x.task).ends d =
        if (d.thread e t).task = x.task ∧ (d.thread e t).state = .ready then d.taskDone e t else d)
    ∧ (s.dev.Issues e t 0x3B w x →
      (9216 < b → exec (.crc c t) s = does (fun d => d.fresh.2.result e t x (fieldD w) d.fresh.1))
      ∧ (b ≤ 9216 → dataSize e < a + b → exec (.crc c t) s = does (fun d => d.threadFault e t 3))
      ∧ (b ≤ 9216 → a + b ≤ dataSize e → exec (.crc c t) s = does (fun d =>
          d.result e t x (fieldD w) (BitVec.ofNat 32 (crcContinue (x.reg (fieldD w)).toNat (d.coreBytes e a b)))))))
  ∧ (∀ s : State, s.dev.chip.state ≠ .off →
    (∀ n : Fin 4, exec (.taskDispatch n) s = .next (s.done fun d => d.askTasks (.dispatch n)))
    ∧ (∀ (e : Fin 64) (t : Fin 8), exec (.taskWatchdogExpiry e t) s = .next (s.done fun d => d.askTasks (.expiry e t)))
    ∧ (∀ (m : Master) (n : Fin 4) (queue : Byte), s.dev.Accepts m (R.TSK_CMD n) →
        exec (.tskFlush m n queue) s = .next (s.done fun d => d.askTasks (.flush n queue.toNat)))
    ∧ (∀ d : Dev, d.tasksEnd =
        let taken : Dev := { d with engine := { d.engine with turns := [] } }
        let ended := (taken.each d.engine.turns TaskTurn.ends).each d.engine.turns TaskTurn.expires
        let free : Dev := { ended with engine := { ended.engine with turns := [] } }
        let entered := free.each (inSourceOrder (d.engine.turns ++ ended.engine.turns)) TaskTurn.enters
        (d.engine.turns.foldl (fun (a : List Nat × Dev) x => match x with
          | .dispatch n => a.2.taskDispatch a.1 n
          | _ => a) ([], entered.each d.engine.turns TaskTurn.cancels)).2)
    ∧ (∀ (d : Dev) (used : List Nat) (n : Nat),
      (d.dispatchQueue used n = none → d.taskDispatch used n = (used, d))
      ∧ (∀ q k e th, d.dispatchQueue used n = some q → d.nextTask n q = some k → d.bestEngine used n q = some e →
          (d.idleThreads e).head? = some th → d.taskDispatch used n = (e / 8 :: used,
            let p := d.taskPart n
            let d := d.setTaskPart n { p with served := Map.put (fun _ => 255) p.served (d.queuePrio n q) q }
            ((d.setTask n { k with phase := .running e th }).startThread e th k.id).bump (R.TSK_DISPATCHED n))))
    ∧ (∀ (d : Dev) (e t : Nat), (TaskTurn.expiry e t).expires d = if d.taskWatched e t = false then d else
        ((((d.wasteWaiting e t).abortTask e t).bump (R.TSK_ABORTED (e / 16))).idleThread e t).setFlag
          (R.ENG_BLK_EVT (e / 8)) R.ENG_BLK_EVT.WDOG true)
    ∧ (∀ (d : Dev) (n q : Nat), (TaskTurn.flush n q).cancels d =
        d.each ((d.taskPart n).tasks.filter (fun x => x.queue == some q)) (fun x d => d.cancelTask n x))
    ∧ (∀ m : Master, s.dev.Accepts m R.SUP_WDOG → exec (.supWdogKick m) s = .next (s.done fun d =>
        d.arm ⟨.supWatchdog, 0, 0⟩ (d.fget R.SUP_WDOG R.SUP_WDOG.MS * ms)))
    ∧ (let expires := s.dev.due ⟨.supWatchdog, 0, 0⟩ = true ∧ s.dev.fget R.SUP_WDOG R.SUP_WDOG.MS ≠ 0 ∧ s.dev.coreRuns supCore = true
      (¬ expires → exec .supWatchdogExpiry s = .next (s.done id))
      ∧ (expires → exec .supWatchdogExpiry s = .next (s.done fun d =>
        ((d.disarm ⟨.supWatchdog, 0, 0⟩).setFlag R.SUP_STAT R.SUP_STAT.WDOG_EXPIRED true).raise (.chipFatal 0x05 0x40 0)))))

/-- Where a core's instruction does not issue (R444, R457, Table 11-5): a core that does not run or has issued in this
clock, or a thread whose turn it is not among the READY ones, issues nothing; a word that cannot be read is contained, and
chip-fatal in the supervisor's memory; a word that is no instruction faults with CAUSE 1; and an instruction is issued by
the command of its own code alone. -/
def Obligations.IssueStops : Prop :=
  ∀ (c : Core) (t : Fin 8) (s : State), s.dev.chip.state ≠ .off → ∀ k ∈ coreInstructions c t,
    let e := coreNo c
    let x := s.dev.thread e t
    let w := s.dev.fetch e x.pc
    let runs := s.dev.coreRuns e = true ∧ s.dev.engine.issued.testBit e = false ∧ s.dev.nextThread e = some t.val
    (¬ runs → exec k.2 s = .next (s.done id))
    ∧ (runs → s.dev.fault (pcKey e x.pc) = 2 →
        (c = .supervisor → exec k.2 s = .next (s.done fun d => d.raise (.chipFatal 0x06 0x40 x.pc)))
        ∧ (c ≠ .supervisor → exec k.2 s = .next (s.done fun d =>
            (d.bump (R.ENG_UNCORR (e / 8))).contained (e / 16) (4 + e / 8 % 2) (e % 8) (4 * x.pc))))
    ∧ (runs → s.dev.fault (pcKey e x.pc) ≠ 2 → legalWord e w = false →
        exec k.2 s = .next (s.done fun d => (d.startIssue e t).threadFault e t 1))
    ∧ (runs → s.dev.fault (pcKey e x.pc) ≠ 2 → legalWord e w = true → opOf w ≠ k.1 → exec k.2 s = .next (s.done id))

/-- Register windows of a core (R458, R459, Table 11-6): a window address that is not aligned faults with CAUSE 2, one
outside the windows with CAUSE 3; a window that leads to a Floor port sends REGR or REGW and the thread waits for the
answer; a direct one reads or writes the register at once, RDX waiting where the access has no value yet. -/
def Obligations.RegisterWindows : Prop :=
  ∀ (c : Core) (t : Fin 8) (s : State) (w : Word) (x : Thread), s.dev.chip.state ≠ .off →
    let e := coreNo c
    let a := (x.reg (fieldA w) + (w.setWidth 16).signExtend 32).toNat
    let v := x.reg (fieldD w)
    let s' := s.onDev (·.startIssue e t)
    let does := fun (f : Dev → Dev) => Host.Outcome.next (s.done fun d => f (d.startIssue e t))
    (s.dev.Issues e t 0x16 w x →
      (a % 4 ≠ 0 → exec (.rdx c t) s = does (fun d => d.threadFault e t 2))
      ∧ (a % 4 = 0 → window e a = none → exec (.rdx c t) s = does (fun d => d.threadFault e t 3))
      ∧ (a % 4 = 0 → ∀ p off, window e a = some (p, off) → p < 5 → exec (.rdx c t) s = does (fun d =>
          d.windowRequest e t p (windowTag x (fieldD w)) x (.regr (coreMaster e) (BitVec.ofNat 32 off))))
      ∧ (a % 4 = 0 → ∀ p off, window e a = some (p, off) → 5 ≤ p →
          let r := s'.readAccess (coreMaster e) off (some (5, fieldD w, 0))
          (∀ y, r.1 = some y → exec (.rdx c t) s = .next (s.did fun _ => r.2.onDev (·.result e t x (fieldD w) y)))
          ∧ (r.1 = none → exec (.rdx c t) s = .next (s.did fun _ => r.2.onDev (·.waitWindow e t x)))))
    ∧ (s.dev.Issues e t 0x17 w x →
      (a % 4 ≠ 0 → exec (.wrx c t) s = does (fun d => d.threadFault e t 2))
      ∧ (a % 4 = 0 → window e a = none → exec (.wrx c t) s = does (fun d => d.threadFault e t 3))
      ∧ (a % 4 = 0 → ∀ p off, window e a = some (p, off) → p < 5 → exec (.wrx c t) s = does (fun d =>
          d.windowRequest e t p (windowTag x 32) x (.regw (coreMaster e) (BitVec.ofNat 32 off) v)))
      ∧ (a % 4 = 0 → ∀ p off, window e a = some (p, off) → 5 ≤ p →
          exec (.wrx c t) s = .next (s.did fun s => ((s.onDev (·.startIssue e t)).onDev (·.complete e t x)).writeAccess (coreMaster e) off 15 v)))

/-- The Loft from a thread, and its mirror (R466, R468, R470, R473): LFPUT takes the slot and length of register a, the
data at register b, the source and number of registers 29 and 28, and returns what the update's row of Table 11-8 gives;
LFGET writes the slot's 272 bytes and returns its word; both fault with CAUSE 3 where their bytes do not lie in the data
space, wait for their turn at the end of the clock (configuration writes, LFPUTs by engine, mirrored updates, LFGETs) and
longer while the tables are down, and return a free value where a word cannot be read or the core has no Loft (assumption
9). A mirror record is sent over a link in service; RESYNC_ALL marks every mirrored slot that is filled. The directory of
an engine block (R460 to R462, R478): of the requests for a line the one that came first, then the engine first from the
pointer, is served, by the command of its kind, when the engine's line buffer has room: single-bit errors of the line are
corrected, the line is granted, and threads that waited for it perform their accesses; a word that cannot be corrected is
contained; PUTX writes an owned line back and leaves it HOME. -/
def Obligations.LoftAndDirectory : Prop :=
  (∀ s : State, s.dev.chip.state ≠ .off →
    (∀ (c : Core) (t : Fin 8) (w : Word) (x : Thread),
      let e := coreNo c
      let a := (x.reg (fieldA w)).toNat
      let b := (x.reg (fieldB w)).toNat
      let len := bits a 16 9
      let free := fun (d : Dev) => d.fresh.2.result e t x (fieldD w) d.fresh.1
      let does := fun (f : Dev → Dev) => Host.Outcome.next (s.done fun d => f (d.startIssue e t))
      let waits := fun (o : LoftTurn) => does (fun d => (d.setThread e t { x with state := .wait, waits := some .loft }).askLoft o)
      (s.dev.Issues e t 0x38 w x →
        (e = supCore → exec (.lfput c t) s = does free)
        ∧ (e ≠ supCore → len ≤ 256 → 0x20000 < b + len → exec (.lfput c t) s = does (fun d => d.threadFault e t 3))
        ∧ (e ≠ supCore → (256 < len ∨ b + len ≤ 0x20000) → exec (.lfput c t) s = waits (.put e t)))
      ∧ (s.dev.Issues e t 0x39 w x →
        (e = supCore → exec (.lfget c t) s = does free)
        ∧ (e ≠ supCore → 0x20000 < b + 272 → exec (.lfget c t) s = does (fun d => d.threadFault e t 3))
        ∧ (e ≠ supCore → b + 272 ≤ 0x20000 → exec (.lfget c t) s = waits (.get e t))))
    ∧ (∀ d : Dev, d.loftEnd =
        ({ d with engine := { d.engine with loftTurns := [], loftBusy := [] } } : Dev).each
          (inLoftOrder d.engine.loftTurns) LoftTurn.act)
    ∧ (∀ (d : Dev) (e t : Nat) (k : LoftTurn × (Dev → Dev)), k ∈ [(LoftTurn.put e t, putRuns e t), (.get e t, getRuns e t)] →
        let waits := (d.thread e t).waits = some .loft
        (¬ waits → k.1.act d = d)
        ∧ (waits → d.tablesUp (e / 16) = false → k.1.act d = d.askLoft k.1)
        ∧ (waits → d.tablesUp (e / 16) = true → k.1.act d = k.2 d))
    ∧ (∀ n : Fin 4,
      (s.dev.loftLink = false → exec (.loftMirrorSend n) s = .next (s.done id))
      ∧ (s.dev.loftLink = true → (resyncJoins n s.dev).mirrorQ n = [] → exec (.loftMirrorSend n) s = .next (s.done (resyncJoins n)))
      ∧ (s.dev.loftLink = true → ∀ r rest, (resyncJoins n s.dev).mirrorQ n = r :: rest →
          exec (.loftMirrorSend n) s = .next (s.done fun d =>
            let words := (List.range ((r.data.length + 3) / 4)).map (fun i => leAt (r.data ++ [0, 0, 0]) (4 * i) 4)
            (((resyncJoins n d).setMirrorQ n rest).bump (R.LOFT_MIRROR_TX n)).abdSend 0x10 n ([r.slot, r.seq, r.length] ++ words)))
      ∧ (∀ m : Master, s.dev.Accepts m (R.LOFT_CMD n) → exec (.loftResyncAll m n) s = .next (s.done fun d =>
          d.each (d.loftSlotsWith n (fun k => d.loftMirrored n k && d.loftFilled n k)) (fun k d => d.setLoftBit n k 18 true)))))
  ∧ (∀ s : State, s.dev.chip.state ≠ .off →
    (∀ (k : Fin 8) (l : Fin 2048) (c : Bool × Instr), c ∈ [(false, Instr.dirGets k l), (true, .dirGetx k l)] →
      let next := s.dev.nextReq k l
      let keys := (List.range 16).map (fun w => dataKey k (64 * l + 4 * w))
      (next = none → exec c.2 s = .next (s.done id))
      ∧ (∀ r, next = some r → (r.own ≠ c.1 ∨ s.dev.lineRoom (8 * k + r.eng) l = false) → exec c.2 s = .next (s.done id))
      ∧ (∀ r, next = some r → r.own = c.1 → s.dev.lineRoom (8 * k + r.eng) l = true →
          (∀ a, keys.find? (fun a => s.dev.fault a = 2) = some a → exec c.2 s = .next (s.done fun d =>
            (d.bump (R.ENG_UNCORR k)).contained (k / 2) (4 + k % 2) r.eng (a % 65536)))
          ∧ (keys.find? (fun a => s.dev.fault a = 2) = none → exec c.2 s = .next (s.done fun d =>
            let bad := keys.filter (fun a => s.dev.fault a = 1)
            let d := d.each bad (fun a d => (d.bump (R.ENG_CORR k)).corrected (k / 2) (4 + k % 2) (some a))
            (d.grantLine k r).serveWaiting (8 * k + r.eng) l))))
    ∧ (∀ (e : Fin 64) (l : Fin 2048),
      ((s.dev.dirLine (e / 8) l).owner = some (e.val % 8) → exec (.dirPutx e l) s = .next (s.done fun d =>
          ((d.writeBackLine (e / 8) (e % 8) l).dropLine e l).setDirLine (e / 8) l DirLine.home))
      ∧ ((s.dev.dirLine (e / 8) l).owner ≠ some (e.val % 8) → exec (.dirPutx e l) s = .next (s.done id))))

/-- The voter judges (R484, R487 to R490, R492, Table 12-2), as the clock ends and with the channels that were in service
as it began: with three channels in service, three equal records release, two equal ones release and the third channel
takes a strike, none equal discards; with two, equal records release, else the frame is discarded and the disagreement
counted; with fewer the frame is discarded. A channel's record is the single-path one changed by its mask, or missing.
Counts and self-test of the voter (R489 to R491): strikes and disagreements clear 1 s after the last one; a self-test that
ends puts the channels that passed in service with no strikes, and with fewer than two of them the region enters
VITAL_DOWN; without a test under way it does nothing. -/
def Obligations.VoterJudgesAndCounts : Prop :=
  ((∀ (n : Fin 4) (a b c : Option (BitVec 176)) (s : State), s.dev.chip.state ≠ .off →
    exec (.vote n a b c) s = .next (s.done fun d =>
      { d with clk := { d.clk with votes := d.clk.votes ++ [(n.val, [a, b, c].map (fun x => x.map BitVec.toNat))] } }))
  ∧ (∀ d : Dev, d.votesEnd = ({ d with clk := { d.clk with votes := [] } } : Dev).each d.clk.votes (fun x d =>
      d.vote x.1 (fun c => x.2.getD c none)))
  ∧ (∀ (d : Dev) (n : Nat) (masks : Nat → Option Nat),
    let serving := [0, 1, 2].filter (fun c => (d.was.fget (R.VOTE_STAT n) R.VOTE_STAT.IN_SERVICE).testBit c)
    (d.voteQueue n = [] → d.vote n masks = d)
    ∧ (∀ id rest l dec r, d.voteQueue n = id :: rest → d.frame.landing.find? (fun l => l.id == id) = some l → l.pre = some dec →
        l.vote = some r → l.region = n →
      let popped : Dev := { d with frame := { d.frame with votes := Map.put (fun _ => []) d.frame.votes n rest } }
      let rec_ := fun (i : Nat) => (masks i).map (fun m => r.pack ^^^ m)
      let release := fun (v : Nat) (d : Dev) => d.released l dec (VoteRecord.unpack v)
      let judged := fun (f : Dev → Dev) => d.vote n masks = f popped
      let wins := fun (v odd : Nat) (other : Option Nat) (d : Dev) =>
        release v ((d.voteLast n (2 ^ odd) 0 ((other.map (voteFields v)).getD 0)).strike n odd)
      (serving = [0, 1, 2] →
        (∀ v, rec_ 0 = some v → rec_ 1 = some v → rec_ 2 = some v → judged (release v))
        ∧ (∀ v, rec_ 0 = some v → rec_ 1 = some v → rec_ 2 ≠ some v → judged (wins v 2 (rec_ 2)))
        ∧ (∀ v, rec_ 0 = some v → rec_ 1 ≠ some v → rec_ 2 = some v → judged (wins v 1 (rec_ 1)))
        ∧ (∀ v, rec_ 0 ≠ some v → rec_ 1 = some v → rec_ 2 = some v → judged (wins v 0 (rec_ 0)))
        ∧ (sameRecord (rec_ 0) (rec_ 1) = false → sameRecord (rec_ 0) (rec_ 2) = false → sameRecord (rec_ 1) (rec_ 2) = false →
            judged (fun d => (((d.voteLast n 7 1 (allFields (serving.filterMap rec_))).bump (R.VOTE_NO_MAJORITY n)).voteEvt n
              R.VOTE_EVT.NO_MAJORITY).discardLanding l true)))
      ∧ (∀ i j, serving = [i, j] →
        (∀ v, rec_ i = some v → rec_ j = some v → judged (release v))
        ∧ (sameRecord (rec_ i) (rec_ j) = false → judged (fun d =>
            ((d.voteLast n (2 ^ i + 2 ^ j) 2 (allFields (serving.filterMap rec_))).discardLanding l true).disagreement n)))
      ∧ (serving.length < 2 → judged (fun d => (d.bump (R.VOTE_DOWN_DROP n)).discardLanding l true)))))
  ∧ (∀ (n : Fin 4) (s : State), s.dev.chip.state ≠ .off →
    (∀ c : Fin 3,
      (s.dev.due ⟨.strikeClear, n, c⟩ = true → exec (.strikeClear n c) s = .next (s.done fun d =>
          (d.disarm ⟨.strikeClear, n, c⟩).fset (R.VOTE_STAT n)
            (if c.val = 0 then R.VOTE_STAT.STRIKE_A else if c.val = 1 then R.VOTE_STAT.STRIKE_B else R.VOTE_STAT.STRIKE_C) 0))
      ∧ (s.dev.due ⟨.strikeClear, n, c⟩ = false → exec (.strikeClear n c) s = .next (s.done id)))
    ∧ (s.dev.due ⟨.disagreeClear, n, 0⟩ = true → exec (.disagreeClear n) s = .next (s.done fun d =>
        (d.disarm ⟨.disagreeClear, n, 0⟩).setVoter n { d.voter n with disagree := 0 }))
    ∧ (s.dev.due ⟨.disagreeClear, n, 0⟩ = false → exec (.disagreeClear n) s = .next (s.done id))
    ∧ (∀ pass : BitVec 3,
      let good := [0, 1, 2].filter (fun c => pass.toNat.testBit c)
      let ends := fun (d : Dev) =>
        let d := d.each good (fun c d => (d.fset (R.VOTE_STAT n) (strikeField c) 0).disarm ⟨.strikeClear, n, c⟩)
        let d := (d.fset (R.VOTE_STAT n) R.VOTE_STAT.IN_SERVICE pass.toNat).fset (R.VOTE_STAT n) R.VOTE_STAT.TEST_FAIL (7 - pass.toNat % 8)
        (d.setFlag (R.VOTE_STAT n) R.VOTE_STAT.TESTING false).when (decide (good.length < 3)) (·.voteEvt n R.VOTE_EVT.TEST_FAIL)
      (s.dev.flag (R.VOTE_STAT n) R.VOTE_STAT.TESTING = false → exec (.channelSelfTest n pass) s = .next (s.done id))
      ∧ (s.dev.flag (R.VOTE_STAT n) R.VOTE_STAT.TESTING = true → good.length < 2 →
          exec (.channelSelfTest n pass) s = .next (s.done fun d => (ends d).enterVitalDown n))
      ∧ (s.dev.flag (R.VOTE_STAT n) R.VOTE_STAT.TESTING = true → 2 ≤ good.length →
          exec (.channelSelfTest n pass) s = .next (s.done fun d =>
            ((ends d).setFlag (R.VOTE_STAT n) R.VOTE_STAT.VITAL_DOWN false).tryClaim))))

/-- Lanes and timers of the Abaide link (R493 to R500): an enabled lane that comes up sends HELLO and starts the keepalive
time and, while no HELLO is accepted, its resending; one that goes down takes the link down where it was the last and none
is up as the clock ends; a bad frame is counted on a lane that is up; a number that stays missing is counted lost and, in
native mode, a resync requested; silence takes the link down unless a frame was accepted in the clock; with nothing to send
each 100 µs sends KEEPALIVE; the end of a frame starts the next. -/
def Obligations.AbaideLink : Prop :=
  ∀ s : State, s.dev.chip.state ≠ .off →
    (∀ lane : Fin 2,
      let up := s.dev.laneEnabled lane = true ∧ s.dev.chip.state ≠ .held
      (s.dev.laneEnabled lane = false ∨ s.dev.chip.state = .held → exec (.abaideLaneUp lane) s = .next (s.done id))
      ∧ (up → (s.dev.setFieldBit R.ABD_STAT R.ABD_STAT.LANE_UP lane true).twinMode = 0 → exec (.abaideLaneUp lane) s = .next (s.done fun d =>
          d.setFieldBit R.ABD_STAT R.ABD_STAT.LANE_UP lane true))
      ∧ (up → (s.dev.setFieldBit R.ABD_STAT R.ABD_STAT.LANE_UP lane true).twinMode ≠ 0 → exec (.abaideLaneUp lane) s = .next (s.done fun d =>
          let d := d.setFieldBit R.ABD_STAT R.ABD_STAT.LANE_UP lane true
          let d := d.when (!d.armed ⟨.keepalive, 0, 0⟩) (·.arm ⟨.keepalive, 0, 0⟩ (100 * us))
          (d.when (!d.twin.link.hello) (·.arm ⟨.helloResend, 0, 0⟩ (10 * ms))).sendHello))
      ∧ ((s.dev.setFieldBit R.ABD_STAT R.ABD_STAT.LANE_UP lane false).abdLanes ≠ 0 → exec (.abaideLaneDown lane) s = .next (s.done fun d =>
          d.setFieldBit R.ABD_STAT R.ABD_STAT.LANE_UP lane false))
      ∧ ((s.dev.setFieldBit R.ABD_STAT R.ABD_STAT.LANE_UP lane false).abdLanes = 0 → exec (.abaideLaneDown lane) s = .next (s.done fun d =>
          let d := d.setFieldBit R.ABD_STAT R.ABD_STAT.LANE_UP lane false
          let d := d.setLink { d.twin.link with queue := [], sending := none }
          let d := (d.setFlag R.ABD_STAT R.ABD_STAT.TX_BUSY false).disarm ⟨.keepalive, 0, 0⟩
          (d.disarm ⟨.helloResend, 0, 0⟩).askTwin .lost))
      ∧ (∀ (good : Bool) (type : Byte),
        (s.dev.abdLanes.testBit lane = true → (good = false ∨ abdTypeUsed s.dev.twinMode type.toNat = false) →
          exec (.abaideBadFrame lane good type) s = .next (s.done fun d => d.bump R.ABD_CRC_ERR))
        ∧ (s.dev.abdLanes.testBit lane = false ∨ (good = true ∧ abdTypeUsed s.dev.twinMode type.toNat = true) →
          exec (.abaideBadFrame lane good type) s = .next (s.done id))))
    ∧ (∀ seq : Word,
      (s.dev.due ⟨.abdGap, seq.toNat, 0⟩ = false → exec (.abaideGapExpiry seq) s = .next (s.done id))
      ∧ (s.dev.due ⟨.abdGap, seq.toNat, 0⟩ = true → exec (.abaideGapExpiry seq) s = .next (s.done fun d =>
          let l := d.twin.link
          let d := (d.disarm ⟨.abdGap, seq.toNat, 0⟩).setLink { l with
            missing := l.missing.erase seq.toNat, lost := (seq.toNat :: l.lost).take 4096 }
          (d.bump R.ABD_GAP).when (d.twinMode == 1) (·.abdSend 0x11 0 []))))
    ∧ exec .abaideSilenceExpiry s = .next (s.done fun d => d.askTwin .silence)
    ∧ (∀ d : Dev,
      (TwinTurn.lost.act d = if d.abdLanes = 0 then d.linkLost else d)
      ∧ (d.stillDue ⟨.abdSilence, 0, 0⟩ = true → TwinTurn.silence.act d = (d.disarm ⟨.abdSilence, 0, 0⟩).linkLost)
      ∧ (d.stillDue ⟨.abdSilence, 0, 0⟩ = false → TwinTurn.silence.act d = d))
    ∧ (s.dev.due ⟨.keepalive, 0, 0⟩ = true → exec .keepaliveTimer s = .next (s.done fun d =>
        (d.arm ⟨.keepalive, 0, 0⟩ (100 * us)).when (d.twin.link.queue.isEmpty && d.twin.link.sending.isNone) (·.abdSend 0x08 0 [])))
    ∧ (s.dev.due ⟨.keepalive, 0, 0⟩ = false → exec .keepaliveTimer s = .next (s.done id))
    ∧ (s.dev.due ⟨.helloResend, 0, 0⟩ = true → s.dev.twin.link.hello = true →
        exec .helloResendTimer s = .next (s.done fun d => d.disarm ⟨.helloResend, 0, 0⟩))
    ∧ (s.dev.due ⟨.helloResend, 0, 0⟩ = true → s.dev.twin.link.hello = false → exec .helloResendTimer s = .next (s.done fun d =>
        let d := d.when (d.fget R.ABD_STAT R.ABD_STAT.PEER_CAUSE == 0) (·.fset R.ABD_STAT R.ABD_STAT.PEER_CAUSE 1)
        d.sendHello.arm ⟨.helloResend, 0, 0⟩ (10 * ms)))
    ∧ (s.dev.due ⟨.helloResend, 0, 0⟩ = false → exec .helloResendTimer s = .next (s.done id))
    ∧ (s.dev.twin.link.sending ≠ none → exec .abaideFrameTx s = .next (s.done fun d => d.abdStart))
    ∧ (s.dev.twin.link.sending = none → exec .abaideFrameTx s = .next (s.done id))

/-- Native messages of the lease that are delivered (R505, R507 to R512): CLAIM is judged as the clock ends, after a yield
in it: it is acknowledged by a STANDBY device, makes an ACTIVE one stand by, and is ignored by a CLAIMING one whose serial
number is lower; CLAIM_ACK of its own serial number makes a CLAIMING device ACTIVE; RENEW sets the view and is
acknowledged, or resolves dual acting by the serial numbers; RENEW_ACK of one of the last four RENEWs acknowledges it;
YIELD brings the view deadline to this clock. The other messages of the link, and messages that are not delivered (R474,
R494 to R499, R511, R514): HELLO is judged by device, serial number and version, and the first accepted one brings the link
into service; STATUS drives the role rules of compatibility mode; KEEPALIVE counts only towards service; LOFT records take
their turn at the Loft where TWIN_APPLY is set; RESYNC_REQ marks every mirrored slot; TWINMSG becomes a task where engines
run, else it is dropped. A message on a lane that is not UP, nor was as the clock began, does nothing, one whose TYPE the
mode does not use counts as bad, one whose number is not accepted ends there, and one of an older EPOCH counts as stale. -/
def Obligations.TwinMessages : Prop :=
  (∀ (lane : Fin 2) (seq : Word) (epoch : BitVec 16) (serial : BitVec 64) (lseq : Word) (s : State), s.dev.chip.state ≠ .off →
    let q := lseq.toNat
    let ack := fun (d : Dev) => d.abdSend 0x03 0 (serialWords serial.toNat)
    let note := fun (d : Dev) => d.wr R.TWN_LEASE (BitVec.ofNat 32 q)
    let ends := fun (f : Dev) => Host.Outcome.next (s.done fun _ => f)
    (∀ e, s.dev.Delivers lane 0x02 seq.toNat epoch.toNat e →
        exec (.claim lane seq epoch serial) s = ends (e.askTwin (.claim serial.toNat)))
    ∧ (∀ d : Dev,
      let judged := fun (f : Dev) => (TwinTurn.claim serial.toNat).act d = f
      (d.leaseState = 1 → judged ((ack d).setView))
      ∧ (d.leaseState = 3 → judged (((ack d.standBy).setView).twnEvt R.TWN_EVT.YIELDED))
      ∧ (d.leaseState = 2 → d.ownSerial < serial.toNat → judged d)
      ∧ (d.leaseState = 2 → serial.toNat ≤ d.ownSerial →
          judged (((((ack d.standBy).setView).bump R.TWN_SIMUL).twnEvt R.TWN_EVT.SIMUL).twnEvt R.TWN_EVT.YIELDED))
      ∧ (d.leaseState = 0 → judged d))
    ∧ (∀ e, s.dev.Delivers lane 0x03 seq.toNat epoch.toNat e →
      (e.leaseState = 2 → serial.toNat = e.ownSerial → exec (.claimAck lane seq epoch serial) s = ends e.enterActive)
      ∧ (e.leaseState ≠ 2 ∨ serial.toNat ≠ e.ownSerial → exec (.claimAck lane seq epoch serial) s = ends e))
    ∧ (∀ e, s.dev.Delivers lane 0x04 seq.toNat epoch.toNat e →
      (e.leaseState = 1 → exec (.renew lane seq epoch lseq) s = ends (((note e).abdSend 0x05 0 [q]).setView))
      ∧ (e.leaseState = 2 → exec (.renew lane seq epoch lseq) s =
          ends ((((note e.standBy).abdSend 0x05 0 [q]).setView).twnEvt R.TWN_EVT.YIELDED))
      ∧ (e.leaseState = 3 → (e.twnEvt R.TWN_EVT.DUAL).peerSerial < (e.twnEvt R.TWN_EVT.DUAL).ownSerial → exec (.renew lane seq epoch lseq) s =
          ends (((note (e.twnEvt R.TWN_EVT.DUAL).standBy).setView).twnEvt R.TWN_EVT.YIELDED))
      ∧ (e.leaseState = 3 → (e.twnEvt R.TWN_EVT.DUAL).ownSerial ≤ (e.twnEvt R.TWN_EVT.DUAL).peerSerial → exec (.renew lane seq epoch lseq) s =
          ends ((e.twnEvt R.TWN_EVT.DUAL).setFlag R.TWN_STAT R.TWN_STAT.DUAL true))
      ∧ (e.leaseState = 0 → exec (.renew lane seq epoch lseq) s = ends e))
    ∧ (∀ e, s.dev.Delivers lane 0x05 seq.toNat epoch.toNat e →
      let l := e.twin.lease
      (∀ x, e.leaseState = 3 → l.renews.find? (fun x => x.1 == q) = some x → exec (.renewAck lane seq epoch lseq) s =
          ends ((((e.setLease { l with lastAcked := max l.lastAcked x.2 }).bump R.TWN_RENEW_ACK_RX).setFlag R.TWN_STAT
            R.TWN_STAT.DUAL false).armOwnLease))
      ∧ (e.leaseState ≠ 3 ∨ l.renews.find? (fun x => x.1 == q) = none → exec (.renewAck lane seq epoch lseq) s = ends e))
    ∧ (∀ e, s.dev.Delivers lane 0x06 seq.toNat epoch.toNat e →
      (e.leaseState = 1 ∨ e.leaseState = 2 → exec (.yield lane seq epoch) s = ends (e.arm ⟨.view, 0, 0⟩ 0))
      ∧ (e.leaseState ≠ 1 → e.leaseState ≠ 2 → exec (.yield lane seq epoch) s = ends (e.setFlag R.TWN_STAT R.TWN_STAT.DUAL false))))
  ∧ (∀ (lane : Fin 2) (seq : Word) (epoch : BitVec 16) (s : State), s.dev.chip.state ≠ .off →
    let q := seq.toNat
    let heard := s.dev.abdLanes.testBit lane || s.dev.was.abdLanes.testBit lane
    let ends := fun (f : Dev) => Host.Outcome.next (s.done fun _ => f)
    (∀ e (serial : BitVec 64) (device : Word) (version : BitVec 4), s.dev.Delivers lane 0x01 q epoch.toNat e →
      let dev := if e.twinMode = 2 then 0x8420 else 0x9664
      let cause := if device.toNat ≠ dev then 2 else if serial.toNat = e.ownSerial then 3
        else if version.toNat ≠ (if e.twinMode = 2 then 1 else 2) then 4 else 0
      (cause ≠ 0 → exec (.hello lane seq epoch version serial device) s =
          ends ((e.fset R.ABD_STAT R.ABD_STAT.PEER_CAUSE cause).twnEvt R.TWN_EVT.PEER_BAD))
      ∧ (cause = 0 →
        let d := ((e.fset R.ABD_STAT R.ABD_STAT.PEER_CAUSE 0).wr R.TWN_PEER_LO (BitVec.ofNat 32 serial.toNat)).wr R.TWN_PEER_HI
          (BitVec.ofNat 32 (serial.toNat / 2 ^ 32))
        let d := (d.setLink { d.twin.link with hello := true }).disarm ⟨.helloResend, 0, 0⟩
        (d.linkUp = true → exec (.hello lane seq epoch version serial device) s = ends d)
        ∧ (d.linkUp = false → exec (.hello lane seq epoch version serial device) s = ends (
          let d := d.setFlag R.ABD_STAT R.ABD_STAT.IN_SERVICE true
          let d := d.setLease { d.twin.lease with barred := false }
          let d := d.when d.loftLink (fun d => d.each ([0, 1, 2, 3].filter d.regionEnabled) (fun n d => d.loftResyncAll n))
          d.armOwnLease.tryClaim))))
    ∧ (∀ e (serial : BitVec 64) (role : Word), s.dev.Delivers lane 0x07 q 0 e →
      let seen := e.arm ⟨.compatActive, 0, 0⟩ (150 * ms)
      let dual := (seen.twnEvt R.TWN_EVT.DUAL).setFlag R.TWN_STAT R.TWN_STAT.DUAL true
      let cmd := exec (.status lane seq serial role) s
      (role ≠ 1 → cmd = ends ((e.setFlag R.TWN_STAT R.TWN_STAT.DUAL false).disarm ⟨.compatDual, 0, 0⟩))
      ∧ (role = 1 → seen.leaseState ≠ 3 → cmd = ends seen)
      ∧ (role = 1 → seen.leaseState = 3 → seen.twin.lease.yielding = true → cmd = ends seen.standBy)
      ∧ (role = 1 → seen.leaseState = 3 → seen.twin.lease.yielding = false →
        (serial.toNat < dual.ownSerial → cmd = ends dual.standBy)
        ∧ (dual.ownSerial ≤ serial.toNat → cmd = ends (dual.when (!dual.armed ⟨.compatDual, 0, 0⟩) (·.arm ⟨.compatDual, 0, 0⟩ (150 * ms))))))
    ∧ (∀ e, s.dev.Delivers lane 0x08 q epoch.toNat e → exec (.keepalive lane seq epoch) s = ends e)
    ∧ (∀ e (n : Fin 4) (l : List LoftUpdate), s.dev.Delivers lane 0x10 q epoch.toNat e →
      let applies := e.regionEnabled n && e.regionRuns n && e.flag (R.LOFT_CFG n) R.LOFT_CFG.TWIN_APPLY
      (applies = true → exec (.loft lane seq epoch n l) s =
        ends (e.each (l.map loftUpdate) (fun r d => d.askLoft (.twin n r))))
      ∧ (applies = false → exec (.loft lane seq epoch n l) s = ends e))
    ∧ (∀ (d : Dev) (n : Nat) (r : LoftRec), (LoftTurn.twin n r).act d = (d.loftPut n r.slot r.data r.length r.seq 0 true).2)
    ∧ (∀ e, s.dev.Delivers lane 0x11 q epoch.toNat e →
        exec (.resyncReq lane seq epoch) s = ends (e.each ([0, 1, 2, 3].filter e.regionEnabled) (fun n d => d.loftResyncAll n)))
    ∧ (∀ e (n : Fin 4) (queue : Byte) (body : BitVec 128), s.dev.Delivers lane 0x20 q epoch.toNat e →
      (e.regionEnabled n = true → (e.rl n).engFw = true → exec (.twinmsg lane seq epoch n queue body) s =
        ends (e.enterTask n queue.toNat (Task.make 5 (bodyWords 0 0 (messageWords body)) none none)))
      ∧ (e.regionEnabled n = false ∨ (e.rl n).engFw = false → exec (.twinmsg lane seq epoch n queue body) s = ends (e.bump R.ABD_TX_DROP)))
    ∧ (∀ (serial : BitVec 64) (device lseq role : Word) (version : BitVec 4) (n : Fin 4) (l : List LoftUpdate) (queue : Byte) (body : BitVec 128),
      ∀ k ∈ [(0x01, epoch.toNat, Instr.hello lane seq epoch version serial device), (0x02, epoch.toNat, .claim lane seq epoch serial),
        (0x03, epoch.toNat, .claimAck lane seq epoch serial), (0x04, epoch.toNat, .renew lane seq epoch lseq),
        (0x05, epoch.toNat, .renewAck lane seq epoch lseq), (0x06, epoch.toNat, .yield lane seq epoch), (0x07, 0, .status lane seq serial role),
        (0x08, epoch.toNat, .keepalive lane seq epoch), (0x10, epoch.toNat, .loft lane seq epoch n l),
        (0x11, epoch.toNat, .resyncReq lane seq epoch), (0x20, epoch.toNat, .twinmsg lane seq epoch n queue body)],
        (heard = false → exec k.2.2 s = .next (s.done id))
        ∧ (heard = true → abdTypeUsed s.dev.twinMode k.1 = false →
            exec k.2.2 s = .next (s.done fun d => d.bump R.ABD_CRC_ERR))
        ∧ (heard = true → abdTypeUsed s.dev.twinMode k.1 = true → (s.dev.abdAccept q).1 = false →
            exec k.2.2 s = ends (s.dev.abdAccept q).2)
        ∧ (heard = true → abdTypeUsed s.dev.twinMode k.1 = true → (s.dev.abdAccept q).1 = true → k.1 ≠ 0x01 →
            s.dev.twinMode ≠ 2 → k.2.1 ≠ s.dev.epoch → seqAfter 16 k.2.1 s.dev.epoch = false →
            exec k.2.2 s = ends ((s.dev.abdAccept q).2.bump R.TWN_STALE))))

/-- Timers and commands of the lease (R499, R503 to R506, R508, R510, R512, R514, R518): an ACTIVE device sends RENEW with
the next LSEQ each 8 ms while it is healthy; 22 ms without an acknowledged renewal make it stand by; a view that expires
lets a STANDBY device claim; both are judged as the clock ends, unless what came in it set them anew; a CLAIM that is not
answered is sent again; a yield stands by and tells the peer; a TWINMSG is queued, or refused while one waits, or dropped
out of service; in compatibility mode STATUS goes out each 8 ms and the 150 ms limits act; RESET_N low for 50 ms puts the
held outputs in the safe state. A timer that is not due does nothing. -/
def Obligations.LeaseTimers : Prop :=
  ∀ s : State, s.dev.chip.state ≠ .off →
    let due := fun (k : TimerKind) => s.dev.due ⟨k, 0, 0⟩
    let acts := s.dev.leaseState = 3 ∧ s.dev.twinMode = 1
    (due .renew = true → acts → (s.dev.arm ⟨.renew, 0, 0⟩ (8 * ms)).healthy = true → exec .renewTimer s = .next (s.done fun d =>
        let d := d.arm ⟨.renew, 0, 0⟩ (8 * ms)
        let seq := ((d.rd R.TWN_LEASE).toNat + 1) % 2 ^ 32
        let l := d.twin.lease
        let d := (d.wr R.TWN_LEASE (BitVec.ofNat 32 seq)).setLease { l with lastSent := d.now, renews := ((seq, d.now) :: l.renews).take 4 }
        ((d.bump R.TWN_RENEW_TX).abdSend 0x04 0 [seq]).armOwnLease))
    ∧ (due .renew = true → acts → (s.dev.arm ⟨.renew, 0, 0⟩ (8 * ms)).healthy = false →
        exec .renewTimer s = .next (s.done fun d => d.arm ⟨.renew, 0, 0⟩ (8 * ms)))
    ∧ (due .renew = false ∨ ¬acts → exec .renewTimer s = .next (s.done id))
    ∧ exec .ownLeaseExpiry s = .next (s.done fun d => d.askTwin .own)
    ∧ exec .viewDeadlineExpiry s = .next (s.done fun d => d.askTwin .view)
    ∧ (∀ d : Dev, d.twinEnd =
        let isClaim := fun (t : TwinTurn) => match t with | .claim _ => true | _ => false
        let taken : Dev := { d with clk := { d.clk with twin := [] } }
        (taken.each (d.clk.twin.filter isClaim) TwinTurn.act).each (d.clk.twin.filter (fun t => !isClaim t)) TwinTurn.act)
    ∧ (∀ d : Dev,
      let still := fun (k : TimerKind) => d.stillDue ⟨k, 0, 0⟩
      (still .ownLease = true → d.leaseState = 3 → TwinTurn.own.act d =
        let d := ((d.standBy.bump R.TWN_OWN_EXPIRED).twnEvt R.TWN_EVT.OWN_EXPIRED).alarm 2
        (d.setLease { d.twin.lease with barred := !d.linkUp }).tryClaim)
      ∧ (still .ownLease = false ∨ d.leaseState ≠ 3 → TwinTurn.own.act d = d)
      ∧ (still .view = true → TwinTurn.view.act d =
        (((d.disarm ⟨.view, 0, 0⟩).bump R.TWN_PEER_EXPIRED).twnEvt R.TWN_EVT.PEER_EXPIRED).tryClaim)
      ∧ (still .view = false → TwinTurn.view.act d = d))
    ∧ (due .claimResend = true → s.dev.leaseState = 2 → exec .claimResendTimer s = .next (s.done fun d =>
        (d.abdSend 0x02 0 (serialWords d.ownSerial)).arm ⟨.claimResend, 0, 0⟩ (2 * ms)))
    ∧ (due .claimResend = false ∨ s.dev.leaseState ≠ 2 → exec .claimResendTimer s = .next (s.done id))
    ∧ (∀ m : Master, s.dev.Accepts m R.TWN_CMD →
      (s.dev.leaseState ≠ 3 → exec (.twnCmdYield m) s = .next (s.done id))
      ∧ (s.dev.leaseState = 3 → s.dev.twinMode = 2 → exec (.twnCmdYield m) s = .next (s.done fun d =>
          ((d.sendStatus 2).setLease { d.twin.lease with yielding := true }).arm ⟨.compatYield, 0, 0⟩ (150 * ms)))
      ∧ (s.dev.leaseState = 3 → s.dev.twinMode ≠ 2 → exec (.twnCmdYield m) s = .next (s.done fun d =>
          (((d.abdSend 0x06 0 []).standBy.setView).bump R.TWN_YIELDS).twnEvt R.TWN_EVT.YIELDED)))
    ∧ (∀ (m : Master) (queue : Byte) (n : Fin 4), s.dev.Accepts m R.ABD_TX_CMD →
      let busy := s.dev.flag R.ABD_STAT R.ABD_STAT.TX_BUSY
      (busy = true → exec (.abdTxSend m queue n) s = .next (s.done fun d => d.setFlag R.ABD_STAT R.ABD_STAT.OVERRUN true))
      ∧ (busy = false → (s.dev.linkUp = false ∨ s.dev.twinMode ≠ 1) → exec (.abdTxSend m queue n) s = .next (s.done fun d => d.bump R.ABD_TX_DROP))
      ∧ (busy = false → s.dev.linkUp = true → s.dev.twinMode = 1 → exec (.abdTxSend m queue n) s = .next (s.done fun d =>
          (d.setFlag R.ABD_STAT R.ABD_STAT.TX_BUSY true).abdSend 0x20 n
            (queue.toNat :: (List.range 4).map (fun w => (d.rd (R.ABD_TX_MSG w)).toNat)))))
    ∧ (due .compatStatus = true → s.dev.twinMode = 2 → exec .compatStatusTimer s = .next (s.done fun d =>
        (d.arm ⟨.compatStatus, 0, 0⟩ (8 * ms)).sendStatus (if d.leaseState = 3 then (if d.twin.lease.yielding then 2 else 1) else 0)))
    ∧ (due .compatStatus = false ∨ s.dev.twinMode ≠ 2 → exec .compatStatusTimer s = .next (s.done id))
    ∧ (due .compatActive = true → exec .compatActiveTimeout s = .next (s.done fun d => (d.disarm ⟨.compatActive, 0, 0⟩).tryClaim))
    ∧ (due .compatActive = false → exec .compatActiveTimeout s = .next (s.done id))
    ∧ (due .compatDual = true → s.dev.leaseState = 3 → exec .compatDualTimeout s = .next (s.done fun d =>
        (d.standBy.twnEvt R.TWN_EVT.COMPAT_OVER).alarm 3))
    ∧ (due .compatDual = false ∨ s.dev.leaseState ≠ 3 → exec .compatDualTimeout s = .next (s.done id))
    ∧ (due .compatYield = true → exec .compatYieldTimeout s = .next (s.done fun d =>
        ((d.disarm ⟨.compatYield, 0, 0⟩).setLease { d.twin.lease with yielding := false }).twnEvt R.TWN_EVT.YIELD_FAIL))
    ∧ (due .compatYield = false → exec .compatYieldTimeout s = .next (s.done id))
    ∧ (due .resetSafe = true → exec .resetSafeStateExpiry s = .next (s.done fun d =>
        ((d.disarm ⟨.resetSafe, 0, 0⟩).setFlag R.OUT_STAT R.OUT_STAT.SAFE true).heldHosts))
    ∧ (due .resetSafe = false → exec .resetSafeStateExpiry s = .next (s.done id))

/-- Configuration, link and resets of a PCIe host port (R521 to R525, R534, R543, R571): a configuration request is
answered with retry status while RESET_N is low and its 50 ms run, not answered while the chip is else held or the port has
no power, answered with retry status before the port is ready at a cold start, and else is served; a link that comes up
sets LINK_UP with its speed and width, unless a shedding stage keeps it down; a link that goes down resets every instance,
unless a stage disabled it; PCIE_PERST_N, a hot reset and a function level reset of the physical function reset every
instance, one of a virtual function its own. A reset asks once for the clock's end, where several make one, then the
functions that exist are brought in line, the waits that end do so and the messages posted have left. -/
def Obligations.HostPorts : Prop :=
  ∀ (n : Fin 4) (s : State), s.dev.chip.state ≠ .off →
    let a := R.HST_STAT n
    let answers := fun (v : Nat) (d : Dev) => d.emit (.cfgCompletion n false v)
    let retry := s.dev.chip.state = .held ∧ s.dev.armed ⟨.resetSafe, 0, 0⟩ = true ∧ s.dev.hostPowered n = true
    let served := s.dev.chip.state ≠ .held ∧ s.dev.hostPowered n = true
    let ready := served ∧ s.dev.flag a R.HST_STAT.READY = true
    let resets := fun (d : Dev) => (d.each (List.range 64) (fun i d => d.askReset n i)).setFlag (R.HST_EVT n) R.HST_EVT.PORT_RESET true
    (∀ r, retry → exec (.pcieConfigRequest n r) s = .next (s.done fun d => d.emit (.cfgCompletion n true 0)))
    ∧ (∀ r, ¬ retry → ¬ served → exec (.pcieConfigRequest n r) s = .next (s.done id))
    ∧ (∀ r, served → s.dev.flag a R.HST_STAT.READY = false →
        exec (.pcieConfigRequest n r) s = .next (s.done fun d => (d.bump (R.HST_CFG_RETRY n)).emit (.cfgCompletion n true 0)))
    ∧ (ready →
      (∀ vf, exec (.pcieConfigRequest n (.deviceId vf)) s =
          .next (s.done (answers (Config.pciVendor.toNat + (if vf then 0x9665 else 0x9664) * 65536))))
      ∧ exec (.pcieConfigRequest n .classRev) s = .next (s.done fun d => answers (0x02800000 + d.fget R.ID_DEVICE R.ID_DEVICE.REV) d)
      ∧ exec (.pcieConfigRequest n .vfCounts) s = .next (s.done fun d => answers ((d.hostCount n - 1) * 65537) d)
      ∧ exec (.pcieConfigRequest n .vfOffsetStride) s = .next (s.done (answers 0x00010001))
      ∧ (∀ en num, exec (.pcieConfigRequest n (.vfControl en num)) s = .next (s.done fun d =>
          let two := d.hostMode n == 2
          answers 0 (((d.setFlag a R.HST_STAT.VF_ENABLE (en && two)).fset a R.HST_STAT.NUM_VFS
            (if two then min num.toNat (d.hostCount n - 1) else 0)).askHost (.enable n))))
      ∧ (∀ en, exec (.pcieConfigRequest n (.pasidEnable en)) s = .next (s.done fun d =>
          answers 0 (d.setFlag a R.HST_STAT.PASID_EN (en && d.hostMode n == 1)))))
    ∧ (∀ speed width : BitVec 3,
      (¬ served ∨ s.dev.flag a R.HST_STAT.SHED = true → exec (.pcieLinkUp n speed width) s = .next (s.done id))
      ∧ (served → s.dev.flag a R.HST_STAT.SHED = false → exec (.pcieLinkUp n speed width) s = .next (s.done fun d =>
          (((d.setFlag a R.HST_STAT.LINK_UP true).fset a R.HST_STAT.SPEED speed.toNat).fset a R.HST_STAT.WIDTH width.toNat).setFlag
            (R.HST_EVT n) R.HST_EVT.LINK_UP true)))
    ∧ (s.dev.flag a R.HST_STAT.LINK_UP = false → exec (.pcieLinkDown n) s = .next (s.done id))
    ∧ (s.dev.flag a R.HST_STAT.LINK_UP = true →
      ((s.dev.hostLinkGone n).flag a R.HST_STAT.SHED = true → exec (.pcieLinkDown n) s = .next (s.done fun d => d.hostLinkGone n))
      ∧ ((s.dev.hostLinkGone n).flag a R.HST_STAT.SHED = false →
          exec (.pcieLinkDown n) s = .next (s.done fun d => resets (d.hostLinkGone n))))
    ∧ exec (.pciePerst n) s = .next (s.done fun d =>
        let d := d.hostLinkGone n
        let d := ((d.setFlag a R.HST_STAT.VF_ENABLE false).fset a R.HST_STAT.NUM_VFS 0).setFlag a R.HST_STAT.PASID_EN false
        let mine := fun (k : Nat) => k / 65536 == n.val
        let d : Dev := { d with host := { d.host with
          unmasked := d.host.unmasked.filter (fun k => !mine k), pendingBits := d.host.pendingBits.filter (fun k => !mine k) } }
        (resets d).askHost (.enable n))
    ∧ exec (.pcieHotReset n) s = .next (s.done resets)
    ∧ exec (.pfFlr n) s = .next (s.done fun d => (resets (d.setFlag a R.HST_STAT.VF_ENABLE false)).askHost (.enable n))
    ∧ (∀ i : Fin 64,
      (s.dev.hostMode n = 2 → i.val ≠ 0 → exec (.vfFlr n i) s = .next (s.done fun d => d.askReset n i))
      ∧ (s.dev.hostMode n ≠ 2 ∨ i.val = 0 → exec (.vfFlr n i) s = .next (s.done id)))
    ∧ (∀ (d : Dev) (i : Nat),
      (d.instState n i = 0 ∨ d.instState n i = 1 → d.askReset n i = d)
      ∧ (d.instState n i ≠ 0 → d.instState n i ≠ 1 →
          d.askReset n i = { d with clk := { d.clk with host := d.clk.host ++ [.reset n i] } }))
    ∧ (∀ d : Dev,
      let asked := d.clk.host.eraseDups
      let after := d.each asked (fun t d => match t with | .reset n i => d.instReset n i | _ => d)
      let after := after.each asked (fun t d => match t with | .enable n => d.instEnable n | _ => d)
      let after := after.each asked (fun t d => match t with | .stampWait n i q k => d.tsWaitEnd n i q k | _ => d)
      let after := after.each d.clk.posted (fun p d => d.setFlag (R.INST_STAT p.1 p.2) R.INST_STAT.MSG_BUSY false)
      d.hostEnd = { after with clk := { after.clk with host := [], posted := [], completed := [] } })

/-- Host instances (R530 to R535, R547, R548): INST_CTL.RESET asks for a reset where the instance's page answers, and
INST_MSG_CMD.SEND posts a task of kind 4, is refused without the grant or engines, and is ignored while MSG_BUSY; a reset
at the clock's end advances the generation, discards what the instance has under way, sets its page Cold and counts the
completions of its clock as stale; it is complete when the instance is ACTIVE; a DMA error, or 10 ms without a completion,
puts it in ERROR; an unmasked vector sends its pending message; the end of a moderation time sends. -/
def Obligations.HostInstances : Prop :=
  ∀ (n : Fin 4) (i : Fin 64) (s : State), s.dev.chip.state ≠ .off →
    let st := R.INST_STAT n i
    let state := s.dev.instState n i
    let busy := s.dev.flag st R.INST_STAT.MSG_BUSY
    (s.dev.instServes n i = false → exec (.instReset n i) s = .next (s.done id) ∧ exec (.instMsgSend n i) s = .next (s.done id))
    ∧ (s.dev.instServes n i = true → (state = 0 ∨ state = 1 → exec (.instReset n i) s = .next (s.done id))
      ∧ (state ≠ 0 → state ≠ 1 → exec (.instReset n i) s = .next (s.done fun d => d.askHost (.reset n i)))
      ∧ (busy = true → exec (.instMsgSend n i) s = .next (s.done id))
      ∧ (busy = false → s.dev.flag (R.INSTE_GRANT n i) R.INSTE_GRANT.MSG = false ∨ (s.dev.rl n).engFw = false →
          exec (.instMsgSend n i) s = .next (s.done fun d => d.bump (R.INST_MSG_REFUSED n i)))
      ∧ (busy = false → s.dev.flag (R.INSTE_GRANT n i) R.INSTE_GRANT.MSG = true → (s.dev.rl n).engFw = true →
          exec (.instMsgSend n i) s = .next (s.done fun d =>
            let body := (List.range 4).map (fun w => (d.rd (R.INST_MSG n i w)).toNat)
            let d : Dev := { d.setFlag st R.INST_STAT.MSG_BUSY true with clk := { d.clk with posted := (n.val, i.val) :: d.clk.posted } }
            d.askTasks (.enter n (d.fget (R.INSTE_MSGQ n i) R.INSTE_MSGQ.QUEUE)
              (Task.make 4 (bodyWords (i + d.instGen n i * 256) 0 body) none (some i.val))))))
    ∧ (∀ d : Dev, (d.instState n i = 0 ∨ d.instState n i = 1 → d.instReset n i = d)
      ∧ (d.instState n i ≠ 0 → d.instState n i ≠ 1 → d.instReset n i =
          let d := (d.fset st R.INST_STAT.STATE 1).fset st R.INST_STAT.GEN (d.instGen n i + 1)
          let d := ((d.fset st R.INST_STAT.ERR_CAUSE 0).bump (R.HST_INST_RESETS n)).instDiscard n i
          let d := d.instPageCold n i (fun o => decide (0x0C ≤ o ∧ o < 0x18 ∨ 0x40 ≤ o))
          (d.each (d.clk.completed.filter (· == (n.val, i.val))) (fun _ d =>
            (d.bump (R.INST_STALE_CPL n i)).bump (R.HST_STALE_CPL n))).txServe n))
    ∧ (state = 1 → exec (.instResetComplete n i) s = .next (s.done fun d => (d.fset st R.INST_STAT.STATE 2).instEvt n i 0))
    ∧ (state ≠ 1 → exec (.instResetComplete n i) s = .next (s.done id))
    ∧ (∀ (q : Fin 8) (kind : Fin 3) (gen : Byte) (cause : Fin 3),
        exec (.dmaError n i q kind gen cause) s = .next (s.done (dmaFails n i q kind gen.toNat cause)))
    ∧ (∀ (q : Fin 8) (kind : Fin 3),
      (s.dev.due (dmaTimer n i q kind) = true → exec (.dmaCompletionTimeout n i q kind) s = .next (s.done fun d =>
          dmaFails n i q kind (d.instGen n i) 4 (d.disarm (dmaTimer n i q kind))))
      ∧ (s.dev.due (dmaTimer n i q kind) = false → exec (.dmaCompletionTimeout n i q kind) s = .next (s.done id)))
    ∧ (∀ q : Fin 8,
      let t : TimerId := ⟨.msixModeration, 64 * n + i, q⟩
      (s.dev.due t = true → exec (.msixModerationExpiry n i q) s = .next (s.done fun d => (d.disarm t).moderate n i q true))
      ∧ (s.dev.due t = false → exec (.msixModerationExpiry n i q) s = .next (s.done id)))
    ∧ (∀ e : Fin 1024,
      let k := 65536 * n.val + 1024 * i.val + e.val
      exec (.msixUnmask n i e) s = .next (s.done fun d =>
        let was := d.host.pendingBits.contains k
        let d : Dev := { d with host := { d.host with
          unmasked := k :: d.host.unmasked.erase k, pendingBits := d.host.pendingBits.erase k } }
        d.when was (·.msixOut n i e)))

/-- Transmit rings of an instance (R533, R534, R536 to R539): a doorbell of a page that answers moves TAIL, or raises an
event where the value is beyond the ring; a descriptor is taken or ends BAD_DESC; a frame read enters the pipeline; the
oldest slot that is ready receives its write-back and HEAD moves past it; a timestamp not seen in TS_WAIT_US, nor in the
clock that ends it, is MISSED. Answers of an earlier generation are counted as stale, and one that meets a reset in its
clock is left to the reset. -/
def Obligations.HostTransmit : Prop :=
  ∀ (n : Fin 4) (i : Fin 64) (q : Fin 8) (s : State), s.dev.chip.state ≠ .off →
    let serves := s.dev.instServes n i = true ∧ q.val < s.dev.qpCount n i
    let stale := fun (d : Dev) => (d.bump (R.INST_STALE_CPL n i)).bump (R.HST_STALE_CPL n)
    let meets := fun (d : Dev) => ({ d with clk := { d.clk with completed := (n.val, i.val) :: d.clk.completed } } : Dev)
    let answers := fun (c : Instr) (gen : Nat) (act : Dev → Dev) =>
      (gen ≠ s.dev.instGen n i → exec c s = .next (s.done stale))
      ∧ (gen = s.dev.instGen n i → s.dev.clk.host.contains (.reset n i) = true → exec c s = .next (s.done meets))
      ∧ (gen = s.dev.instGen n i → s.dev.clk.host.contains (.reset n i) = false → exec c s = .next (s.done fun d => act (meets d)))
    (∀ v : Word,
      (s.dev.instServes n i = false ∨ s.dev.qpCount n i ≤ q → exec (.txqTailWrite n i q v) s = .next (s.done id))
      ∧ (serves → s.dev.txSize n i q ≤ v.toNat % 4096 → exec (.txqTailWrite n i q v) s = .next (s.done fun d => d.instEvt n i 2))
      ∧ (serves → v.toNat % 4096 < s.dev.txSize n i q → exec (.txqTailWrite n i q v) s = .next (s.done fun d =>
          (d.wr (R.TXQ_TAIL n i q) (BitVec.ofNat 32 (v.toNat % 4096))).kick n i q)))
    ∧ (∀ (gen : Byte) (w : List Word), answers (.txDescriptorFetch n i q gen w) gen.toNat (descriptorComes n i q w))
    ∧ (∀ (gen : Byte) (b : List Byte), answers (.txFrameReadComplete n i gen b) gen.toNat (frameComes n i b))
    ∧ (let works := s.dev.dmaUp n = true ∧ (s.dev.instActive n i = true ∨ s.dev.instState n i = 3)
      let r := s.dev.txRing n i q
      (¬works → exec (.txWriteback n i q) s = .next (s.done id))
      ∧ (works → r.slots = [] → exec (.txWriteback n i q) s = .next (s.done id))
      ∧ (works → ∀ k rest, r.slots = k :: rest → (∀ a b, k.phase ≠ .ready a b) → exec (.txWriteback n i q) s = .next (s.done id))
      ∧ (works → ∀ k rest status ts, r.slots = k :: rest → k.phase = .ready status ts →
          exec (.txWriteback n i q) s = .next (s.done fun d =>
            let w := (txWords k status ts (d.instGen n i)).flatMap (leBytes 4)
            let d := (d.emit (.hostWrite n i (d.pasid n i) (d.txSlotAddr n i q k.slot) w)).setTxRing n i q { r with slots := rest }
            let d := d.wr (R.TXQ_HEAD n i q) (BitVec.ofNat 32 ((k.slot + 1) % d.txSize n i q))
            let d := d.when (status == 2 || status == 4 || status == 5) (·.bump (R.QP_TX_DISCARDED n i q))
            d.wroteBack n i q)))
    ∧ (∀ k : Fin 4096,
      let t : TimerId := ⟨.tsWait, 64 * n + i, 4096 * q + k⟩
      (s.dev.due t = true → exec (.tsWaitExpiry n i q k) s = .next (s.done fun d => d.askHost (.stampWait n i q k)))
      ∧ (s.dev.due t = false → exec (.tsWaitExpiry n i q k) s = .next (s.done id))
      ∧ (∀ d : Dev,
        (d.due t = true → d.deadline t = d.was.deadline t → d.tsWaitEnd n i q k =
          (d.disarm t).modSlot n i q k (fun y => if y.phase = .stamp then { y with phase := .ready 3 none } else y))
        ∧ (d.due t = false ∨ d.deadline t ≠ d.was.deadline t → d.tsWaitEnd n i q k = d)))

/-- Receive rings of an instance (R536, R541 to R546): a doorbell moves TAIL, or raises an event; the frame at the head of
a queue pair is handed over when its turn has come, its bytes have been read, descriptors for it are posted and no earlier
guarded frame of its lane holds it back; one that is not guarded and waits RX_WAIT_US for descriptors is removed and
counted. The port takes the next frame in hand by reading the descriptors it needs, and the read has 10 ms. -/
def Obligations.HostReceive : Prop :=
  ∀ (n : Fin 4) (i : Fin 64) (q : Fin 8) (s : State), s.dev.chip.state ≠ .off →
    let serves := s.dev.instServes n i = true ∧ q.val < s.dev.qpCount n i
    (∀ v : Word,
      (s.dev.instServes n i = false ∨ s.dev.qpCount n i ≤ q → exec (.rxqTailWrite n i q v) s = .next (s.done id))
      ∧ (serves → s.dev.rxSize n i q ≤ v.toNat % 4096 → exec (.rxqTailWrite n i q v) s = .next (s.done fun d => d.instEvt n i 2))
      ∧ (serves → v.toNat % 4096 < s.dev.rxSize n i q → exec (.rxqTailWrite n i q v) s = .next (s.done fun d =>
          d.wr (R.RXQ_TAIL n i q) (BitVec.ofNat 32 (v.toNat % 4096)))))
    ∧ (∀ descs : List (List Word),
      (s.dev.rxHead n i q = none → exec (.rxHandover n i q descs) s = .next (s.done id))
      ∧ (∀ h, s.dev.rxHead n i q = some h →
          let places := placeBuffers (s.dev.rxBuf n i q) (descs.take (s.dev.rxPosted n i q)) 0 h.body
          let ready := h.readsLeft = 0 ∧ s.dev.rxWaits n i q h = false ∧ s.dev.laneHolds n h = false ∧ s.dev.dmaUp n = true
            ∧ s.dev.rxHand n = some (i.val, q.val, h.descr.uid)
          (¬ready → exec (.rxHandover n i q descs) s = .next (s.done id))
          ∧ (ready → places = none → exec (.rxHandover n i q descs) s = .next (s.done id))
          ∧ (ready → ∀ l, places = some l → exec (.rxHandover n i q descs) s = .next (s.done (handedOver n i q h l)))))
    ∧ (let t : TimerId := ⟨.rxWait, 64 * n + i, q⟩
      (s.dev.due t = false ∨ s.dev.rxHead n i q = none → exec (.rxWaitExpiry n i q) s = .next (s.done id))
      ∧ (∀ h, s.dev.due t = true → s.dev.rxHead n i q = some h →
        (h.descr.guarded = true → exec (.rxWaitExpiry n i q) s = .next (s.done id))
        ∧ (h.descr.guarded = false → exec (.rxWaitExpiry n i q) s = .next (s.done fun d =>
            ((d.bump (R.QP_RX_NODESC_DROP n i q)).recipientDone n h.descr.uid i q false).refreshRxWait n))))
    ∧ (∀ d : Dev,
      (d.rxNext n = none → d.rxTake n = d)
      ∧ (∀ j p h, d.rxNext n = some (j, p, h) → d.rxTake n =
          let need := (h.body.length + d.rxBuf n j p - 1) / d.rxBuf n j p
          let d : Dev := { d with host := { d.host with rxTurn := Map.put (fun _ => 511) d.host.rxTurn n (8 * j + p) } }
          ((d.setRxHand n (some (j, p, h.descr.uid))).emit
            (.hostRead n j (d.pasid n j) (d.rxSlotAddr n j p (d.rd (R.RXQ_HEAD n j p)).toNat) (32 * need))).arm (dmaTimer n j p 2) (10 * ms)))

/-- Starts (R558 to R560, R567, R573 to R575): a cold start begins at step 1 on its cause, and with the power-on reset at
step 2; a warm start begins on its cause, as a cold one with cause 9 where the retained state may not be used; both only
while the chip is neither OFF nor HELD. STR_CMD.COLD clears the failed-start counts first; STR_CMD.WARM acts in SERVICE
alone. A start enters SERVICE once the minimal set is ready, with MIN_SET set and STR_TIME in microseconds. A change of the
chip state is logged and judges the ports' readiness anew; entering SERVICE sets RETAIN_OK, and 10 s of serving states
without a break clear the counts of failed starts. A start that is not ready in time fails with cause 3. A loss of
retention clears RETAIN_OK; which of the two rails fell is a free value. -/
def Obligations.StartsBegin : Prop :=
  ∀ s : State,
    let a := R.STR_STAT
    (s.dev.chip.state = .off → exec .powerOn s = .next { (coldStart s 0 2).settle false with pending := s.pending })
    ∧ (s.dev.chip.state ≠ .off → exec .powerOn s = .next s)
    ∧ (s.dev.chip.state ≠ .off →
      (∀ c : Fin 12, s.dev.chip.state ≠ .held →
        exec (.coldStart c) s = .next (s.did fun s => coldStart s c 1)
        ∧ (s.dev.flag a R.STR_STAT.RETAIN_OK = true → exec (.warmStart c) s = .next (s.did fun s => warmStart s c false))
        ∧ (s.dev.flag a R.STR_STAT.RETAIN_OK = false → exec (.warmStart c) s = .next (s.did fun s => coldStart s 9 1)))
      ∧ (∀ c : Fin 12, s.dev.chip.state = .held → exec (.coldStart c) s = .next (s.done id) ∧ exec (.warmStart c) s = .next (s.done id))
      ∧ (∀ m : Master,
        (s.dev.chip.state = .held → exec (.strCmdCold m) s = .next (s.done id) ∧ exec (.strCmdWarm m) s = .next (s.done id))
        ∧ (s.dev.Accepts m R.STR_CMD →
          exec (.strCmdCold m) s = .next (s.did fun s =>
            coldStart (s.onDev fun d => (d.fset a R.STR_STAT.WARM_FAILS 0).fset a R.STR_STAT.COLD_FAILS 0) 4 1)
          ∧ (s.dev.chip.state = .service → exec (.strCmdWarm m) s = .next (s.did fun s => warmStart s 5 false))
          ∧ (s.dev.chip.state ≠ .service → exec (.strCmdWarm m) s = .next (s.done id))))
      ∧ (s.dev.chip.state.starting = true → s.dev.minimalSet = true → exec .enterService s = .next (s.done fun d =>
          let d := ((d.toState .service).setFlag a R.STR_STAT.MIN_SET true).wr R.STR_TIME (BitVec.ofNat 32 ((d.now - d.start.edge) / us))
          (d.disarm ⟨.startLimit, 0, 0⟩).tryClaim))
      ∧ (s.dev.chip.state.starting = false ∨ s.dev.minimalSet = false → exec .enterService s = .next (s.done id))
      ∧ (s.dev.due ⟨.startLimit, 0, 0⟩ = true → s.dev.chip.state.starting = true → exec .startTimeout s = .next (s.did fun s =>
          failStart s (s.dev.chip.state == .startWarm) s.dev.failStep 3))
      ∧ (s.dev.due ⟨.startLimit, 0, 0⟩ = false ∨ s.dev.chip.state.starting = false → exec .startTimeout s = .next (s.done id))
      ∧ (s.dev.due ⟨.failClear, 0, 0⟩ = true → s.dev.chip.state.serving = true → exec .failCountClear s = .next (s.done fun d =>
          ((d.fset a R.STR_STAT.WARM_FAILS 0).fset a R.STR_STAT.COLD_FAILS 0).disarm ⟨.failClear, 0, 0⟩))
      ∧ (s.dev.due ⟨.failClear, 0, 0⟩ = false ∨ s.dev.chip.state.serving = false → exec .failCountClear s = .next (s.done id))
      ∧ exec .retentionLoss s = .next (s.done fun d =>
          let sram := Config.freeBool d.free
          let d : Dev := { d with free := d.free + 1, supply := { d.supply with sramLost := d.supply.sramLost || sram } }
          d.setFlag a R.STR_STAT.RETAIN_OK false))
    ∧ (∀ (d : Dev) (c : ChipState),
      (d.chip.state = c → d.toState c = d)
      ∧ (d.chip.state ≠ c → d.toState c =
          let old := d.chip.state
          let d := d.logChip 0x0008 (old.code + 16 * c.code)
          let d := ({ d with chip := { d.chip with prev := d.chip.state, state := c, since := d.now } } : Dev)
          let d := if d.chip.state = .service then d.setFlag a R.STR_STAT.RETAIN_OK true else d
          let d := if d.chip.state.serving then (if d.chip.prev.serving then d else d.arm ⟨.failClear, 0, 0⟩ (10000 * ms))
            else (if d.chip.state = .test then d else { d with supply := { d.supply with exiting := 0 } }).disarm ⟨.failClear, 0, 0⟩
          d.each allPorts (fun p d => d.refreshReady p)))

/-- A cold start begins (R558, R560, R561, R578, R623, R624, Table 14-1): from any state the chip is in a cold START at the
given step since this clock, CAUSE and LAST_KIND tell of it, RETAIN_OK is clear; 4 s are allowed; frames, custody, tables,
engines, time bases, Loft and rings are as at reset, and the Silo's contents, the supplies' triggers, fuses, flash and the
queue are as they were; the user calibration is the valid copy with the later sequence; a dump whose retention area was
lost is not valid. Begun at a later step, the time bases start over with it. -/
def Obligations.ColdStartBegins : Prop :=
  ∀ (s : State) (cause : Fin 12),
    (∀ k : Nat, k ≤ 1 →
      let t := coldStart s cause k
      let a := R.STR_STAT
      t.dev.chip.state = .startCold ∧ t.dev.start.step = k ∧ t.dev.start.edge = s.dev.now ∧ t.dev.now = s.dev.now
      ∧ t.dev.fget a R.STR_STAT.CAUSE = cause ∧ t.dev.fget a R.STR_STAT.LAST_KIND = 0 ∧ t.dev.fget a R.STR_STAT.RETAIN_OK = 0
      ∧ t.dev.timers = [(⟨.startLimit, 0, 0⟩, s.dev.now + 4000 * ms)]
      ∧ t.dev.frame = Dev.initial.frame ∧ t.dev.tables = Dev.initial.tables ∧ t.dev.host = Dev.initial.host ∧ t.dev.twin = Dev.initial.twin
      ∧ t.dev.floor = Dev.initial.floor ∧ t.dev.faults = Dev.initial.faults ∧ t.dev.time = Dev.initial.time
      ∧ t.dev.engine = { Dev.initial.engine with loftZero := s.dev.now }
      ∧ (∀ n < 4, (t.dev.dramOf n).array = (s.dev.dramOf n).array)
      ∧ t.dev.supply = { s.dev.supply with
          sramLost := false, exiting := if s.dev.chip.state = .startCold then s.dev.supply.exiting else 0 }
      ∧ t.dev.dump.area = s.dev.dump.area
      ∧ t.dev.start.userCal = (calChoice s).map (·.2)
      ∧ t.pending = s.pending ∧ t.fuses = s.fuses ∧ t.flash = s.flash ∧ t.sfdp = s.sfdp)
    ∧ (∀ k : Nat, 1 < k → coldStart s cause k = { s with
        dev :=
          let d := (coldStart s cause 1).dev
          ({ d with start := { d.start with step := k }, timers := [] } : Dev).timeCold.arm ⟨.startLimit, 0, 0⟩ (4000 * ms) })
    ∧ (∀ d : Dev, d.dumpLost =
        let lost := d.supply.sramLost && d.flag R.DUMP_STAT R.DUMP_STAT.ON_CHIP
        let d : Dev := { d with supply := { d.supply with sramLost := false } }
        if lost then d.setFlag R.DUMP_STAT R.DUMP_STAT.VALID false else d)

/-- The steps of a start (R561 to R566, R687, Table 14-1): steps 1 to 5 end in their order and only while a start runs, in
TEST too where it was entered from one; step 2 reads the fuses and the image headers; step 3 ends once an image is applied,
with the host blocks and the supervisor core; step 4's memory tests take out what failed, and a failure of the chip's own
memories or of region 0 fails the start; steps 6 to 8 run together once the Floor is up, and end block by block and region
by region. -/
def Obligations.StartStepsEnd : Prop :=
  ∀ s : State, s.dev.chip.state ≠ .off → ∀ (k : Fin 12) (u : StepUnit) (fails : List BistFail),
    let ends := fun (o : State) => exec (.startStepComplete k u fails) s = .next o
    let here := s.dev.runState.starting = true ∧ s.dev.start.step = k.val
    let cold := s.dev.runState = .startCold
    let noBlock9 := fun (x : BistFail) => match x.unit with | .block _ j => j.val != 9 | _ => true
    let block9 := fun (x : BistFail) => match x.unit with | .block _ j => j.val == 9 | _ => false
    (k.val ≤ 5 → ¬here → ends (s.done id))
    ∧ (k.val = 1 → here → ends (s.done fun d => { d.timeCold with start := { d.start with step := 2 } }))
    ∧ (k.val = 2 → here → ends (s.did fun s => headerReads (s.onDev fun d => (d.fuseRegs s.fuses).bist (if cold then fails.filter block9 else []))))
    ∧ (k.val = 3 → here → s.dev.loader.applied = false → ends (s.done id))
    ∧ (k.val = 3 → here → s.dev.loader.applied = true → ends (s.done fun d =>
        let d := d.hostBlocksReady.supervisorStart
        if d.runState = .startCold then { d with start := { d.start with step := 4 } } else d.startParallel))
    ∧ (k.val = 4 → here →
        let tested := fun (d : Dev) => let d := d.bist (fails.filter noBlock9)
          ({ d with start := { d.start with step := 5 } } : Dev)
        let lost := fails.any (fun x => x.unit == .chip) || (s.dev.bist (fails.filter noBlock9)).start.downRegions.testBit 0
        (lost = true → ends (s.did fun s => startFail (s.onDev tested) 4)) ∧ (lost = false → ends (s.done tested)))
    ∧ (k.val = 5 → here → ends (s.done fun d => ({ d with log := { EventLog.init with intake := d.log.intake } } : Dev).startParallel))
    ∧ (6 ≤ k.val → s.dev.start.step ≠ 6 → ends (s.done id))
    ∧ (k.val = 6 → s.dev.start.step = 6 → ∀ n j, u = .block n j → (j.val < 4 ∨ j.val = 9) → ends (s.done fun d =>
        let d := ({ d with start := { d.start with calDone := setBit d.start.calDone (calIndex n j) true } } : Dev)
        d.each (blockPorts n j) (fun p d => d.calComplete p)))
    ∧ (k.val = 7 → s.dev.start.step = 6 → ∀ n, u = .region n → ends (s.done fun d => d.trainingComplete n true))
    ∧ (k.val = 8 → s.dev.start.step = 6 → ∀ n, u = .region n → ends (s.done fun d => d.tablesReady n))
    ∧ (k.val = 9 → s.dev.start.step = 6 → ∀ n, u = .region n → ends (s.done fun d => d.buffersReady n))
    ∧ (6 ≤ k.val → (match u with
        | .block _ j => ¬(k.val = 6 ∧ (j.val < 4 ∨ j.val = 9)) | .region _ => k.val = 6 ∨ 9 < k.val | .chip => True) → ends (s.done id))

/-- A failed start escalates (R574): STR_CAUSE and the log tell of it; a failed warm start counts in WARM_FAILS, and a warm
start follows while the count is below 3, else the count clears and a cold start follows; a failed cold start counts in
COLD_FAILS, and a cold start follows while the count is below 3, else the built-in recovery image starts. A start that is
not ready in time fails so. -/
def Obligations.FailedStarts : Prop :=
  ∀ (s : State) (step cause : Nat),
    let a := R.STR_STAT
    let told := fun (warm : Bool) =>
      (((s.dev.fset R.STR_CAUSE R.STR_CAUSE.FAIL_CAUSE cause).fset R.STR_CAUSE R.STR_CAUSE.FAIL_KIND (b2n warm)).fset R.STR_CAUSE
        R.STR_CAUSE.FAIL_STEP step).logChip 0x0014 (cause + 256 * step)
    let warmFails := s.dev.fget a R.STR_STAT.WARM_FAILS + 1
    let coldFails := s.dev.fget a R.STR_STAT.COLD_FAILS + 1
    let warmTold := (told true).fset a R.STR_STAT.WARM_FAILS warmFails
    let coldTold := (told false).fset a R.STR_STAT.COLD_FAILS coldFails
    (warmFails < 3 → failStart s true step cause = warmStart { s with dev := warmTold } 10 warmTold.start.clearCustody)
    ∧ (3 ≤ warmFails → failStart s true step cause = coldStart { s with dev := warmTold.fset a R.STR_STAT.WARM_FAILS 0 } 6 1)
    ∧ (coldFails < 3 → failStart s false step cause = coldStart { s with dev := coldTold } 10 1)
    ∧ (3 ≤ coldFails → failStart s false step cause = recoveryImage { s with dev := coldTold })
    ∧ (s.dev.due ⟨.startLimit, 0, 0⟩ = true → s.dev.chip.state = .startWarm →
        exec .startTimeout s = .next (s.did fun s => failStart s true s.dev.failStep 3))
    ∧ (s.dev.due ⟨.startLimit, 0, 0⟩ = true → s.dev.chip.state = .startCold →
        exec .startTimeout s = .next (s.did fun s => failStart s false s.dev.failStep 3))

/-- Saving calibration (R577 to R581): in SERVICE and with no save under way, SAVE composes a copy with 16 board-tag bytes
that the spec does not give and RESULT reads 1; it ends with the copy in flash and RESULT 2, or RESULT 3 with bytes that
are not known; RESTORE_FACTORY erases the start of both copies and sets FACTORY_PENDING. The fatal dump (R597, R599, R621,
R622, R624, R626): it ends with every section of its place complete, or after MAX_MS truncated with a number of complete
sections and a part of the next that the spec does not give; either way it is stored, DUMP_STAT and DUMP_LEN show it,
DUMP_WRITTEN is logged and the restart begins. Without a dump under way nothing ends. DUMP_CMD.RELEASE clears UNREAD. -/
def Obligations.CalibrationAndDump : Prop :=
  (∀ s : State, s.dev.chip.state ≠ .off → ∀ m : Master, s.dev.Accepts m R.CAL_CMD →
    let taken := s.dev.chip.state = .service ∧ s.dev.fget R.CAL_STAT R.CAL_STAT.RESULT ≠ 1
    let a := R.CAL_STAT
    (¬taken → exec (.calSave m) s = .next (s.done id) ∧ exec (.calRestoreFactory m) s = .next (s.done id))
    ∧ (taken → exec (.calSave m) s = .next (s.done fun d =>
        let c := calSaveCopy s (d.freshBytes 16).1
        let d := (d.freshBytes 16).2
        ({ d with start := { d.start with saving := some (0x1000000 + 0x20000 * b2n c.1, c.2) } } : Dev).fset a R.CAL_STAT.RESULT 1))
    ∧ (taken → exec (.calRestoreFactory m) s = .next (s.did fun s => { s with
        flash := eraseUnits s.sfdp (eraseUnits s.sfdp s.flash 0x1000000 1) 0x1020000 1
        dev := s.dev.setFlag a R.CAL_STAT.FACTORY_PENDING true }))
    ∧ (s.dev.start.saving = none → ∀ good, exec (.calSaveComplete good) s = .next (s.done id))
    ∧ (∀ at_ b, s.dev.start.saving = some (at_, b) →
      let erased := fun (s : State) => eraseUnits s.sfdp s.flash at_ b.length
      let idle := fun (d : Dev) => ({ d with start := { d.start with saving := none } } : Dev)
      exec (.calSaveComplete true) s = .next (s.did fun s => { s with
          flash := programBytes (erased s) at_ b
          dev := ((idle s.dev).fset a R.CAL_STAT.RESULT 2).setFlag a R.CAL_STAT.FACTORY_PENDING false })
      ∧ exec (.calSaveComplete false) s = .next (s.did fun s => { s with
          flash := programBytes (erased s) at_ ((idle s.dev).freshBytes b.length).1
          dev := ((idle s.dev).freshBytes b.length).2.fset a R.CAL_STAT.RESULT 3 })))
  ∧ (∀ s : State, s.dev.chip.state ≠ .off →
    let ended := fun (s : State) (l : List DumpSection) (complete truncated : Bool) =>
      let d := s.dev
      let d := ({ d with dump := { d.dump with sections := l, complete := complete, truncated := truncated, second := false } } : Dev)
      let len := 0x200 + 4 * (l.flatMap (fun y => pad64 y.words)).length
      let x := { d.dump with length := len, dumpUs := min 0xFFFFFFFF ((d.now - d.dump.since) / us), cold := d.restartCold }
      let d := ({ d with dump := x } : Dev).storeDump
      let a := R.DUMP_STAT
      let d := ((d.setFlag a R.DUMP_STAT.VALID true).setFlag a R.DUMP_STAT.UNREAD true).setFlag a R.DUMP_STAT.COMPLETE complete
      let d := (d.setFlag a R.DUMP_STAT.ON_CHIP x.onChip).fset a R.DUMP_STAT.CAUSE x.cause
      let d := d.fset R.DUMP_LEN R.DUMP_LEN.BYTES len
      fatalRestart { s with dev := d.logChip 0x0033 (b2n x.onChip + 2 * b2n complete + 256 * ((len + 1023) / 1024)) }
    let all := fun (s : State) => (sectionTypes s.dev.dump.onChip).map fun t =>
      ({ type := t, words := sectionWords s t, complete := true } : DumpSection)
    (s.dev.dump.active = true → exec .dumpComplete s = .next (s.did fun s => ended s (all s) true false))
    ∧ (s.dev.dump.active = false → exec .dumpComplete s = .next (s.done id))
    ∧ (s.dev.due ⟨.dumpMax, 0, 0⟩ = true → exec .dumpTimeout s = .next (s.did fun s =>
        let k := s.dev.fresh.1.toNat % ((all s).length + 1)
        let part := ((all s)[k]?).map fun (y : DumpSection) =>
          { y with words := y.words.take (s.dev.fresh.2.fresh.1.toNat % (y.words.length + 1)), complete := false }
        ended { s with dev := s.dev.fresh.2.fresh.2 } ((all s).take k ++ part.toList) false true))
    ∧ (s.dev.due ⟨.dumpMax, 0, 0⟩ = false → exec .dumpTimeout s = .next (s.done id))
    ∧ (∀ m : Master, s.dev.Accepts m R.DUMP_CMD → exec (.dumpRelease m) s = .next (s.done fun d =>
        d.setFlag R.DUMP_STAT R.DUMP_STAT.UNREAD false)))

/-- SAG_N and the monitors (R582, R583, R676, R677): SAG_N low is counted, shown, and requests a stage as each ladder time
passes; high it requests nothing. A rail's monitor requests the deepest of stages 1, 3 and 5 whose entry it has crossed, or
whose exit it has not yet left; so does the thermal monitor with stages 1, 4 and 5 at 151, 153 and 155 °C, left at 147, 149
and 140 °C, as CHIP_TEMP and its peak show the temperature. A new request of a monitor sets PWR_EVT.MON. The dwell timers
follow the request. -/
def Obligations.SupplyMonitors : Prop :=
  ∀ s : State, s.dev.chip.state ≠ .off →
    let mon := fun (d : Dev) (old new : Nat) => if old < new then (d.setFlag R.PWR_EVT R.PWR_EVT.MON true).refreshDwell else d.refreshDwell
    (s.dev.supply.sag = false → exec .sagNFall s = .next (s.done fun d =>
        let d := (d.bump R.PWR_SAG_CNT).setFlag R.PWR_EVT R.PWR_EVT.SAG true
        let now := ((List.range 6).filter (fun k => d.ladderTime k == 0)).foldl max 0
        let d := ({ d with supply := { d.supply with sag := true, ladder := now } } : Dev)
        (d.each ((List.range 6).filter (fun k => decide (now < k))) (fun k d => d.arm ⟨.sagLadder, k, 0⟩ (d.ladderTime k))).refreshDwell))
    ∧ (s.dev.supply.sag = true → exec .sagNFall s = .next (s.done id))
    ∧ exec .sagNRise s = .next (s.done fun d =>
        let d := ({ d with supply := { d.supply with sag := false, ladder := 0 } } : Dev)
        (d.each (List.range 6) (fun k d => d.disarm ⟨.sagLadder, k, 0⟩)).refreshDwell)
    ∧ (∀ k : Fin 6,
      (s.dev.due ⟨.sagLadder, k, 0⟩ = true → exec (.sagLadderExpiry k) s = .next (s.done fun d =>
          (({ d with supply := { d.supply with ladder := max d.supply.ladder k } } : Dev).disarm ⟨.sagLadder, k, 0⟩).refreshDwell))
      ∧ (s.dev.due ⟨.sagLadder, k, 0⟩ = false → exec (.sagLadderExpiry k) s = .next (s.done id)))
    ∧ (∀ (rail : Fin 7) (mv : BitVec 12),
        let old := Map.get (fun _ => 0) s.dev.supply.rails rail
        let asks := fun (k : Nat) => (railThresholds rail).any fun t => t.1 == k && (decide (mv.toNat ≤ t.2.1)
          || (decide (k ≤ old) && decide (mv.toNat ≤ t.2.2)))
        let new := if asks 5 then 5 else if asks 3 then 3 else if asks 1 then 1 else 0
        exec (.railMonitorCrossing rail mv) s = .next (s.done fun d =>
          mon { d with supply := { d.supply with rails := Map.put (fun _ => 0) d.supply.rails rail new } } old new))
    ∧ (List.range 7).map railThresholds =
        [[(1, 720, 731), (3, 705, 716), (5, 683, 694)], [(1, 768, 780), (3, 752, 764), (5, 728, 740)],
         [(1, 864, 878), (3, 846, 860), (5, 819, 833)], [(1, 1152, 1170), (3, 1128, 1146), (5, 1092, 1110)],
         [(1, 480, 488), (3, 470, 478), (5, 455, 463)], [(1, 1728, 1755), (3, 1692, 1719), (5, 1638, 1665)],
         [(1, 3168, 3218), (3, 3102, 3152), (5, 3003, 3053)]]
    ∧ (∀ temp : BitVec 11,
        let old := s.dev.supply.thermal
        let new := if 4 * 155 ≤ temp.toInt ∨ (5 ≤ old ∧ 4 * 140 ≤ temp.toInt) then 5
          else if 4 * 153 ≤ temp.toInt ∨ (4 ≤ old ∧ 4 * 149 ≤ temp.toInt) then 4
          else if 4 * 151 ≤ temp.toInt ∨ (1 ≤ old ∧ 4 * 147 ≤ temp.toInt) then 1 else 0
        exec (.thermalMonitorCrossing temp) s = .next (s.done fun d =>
          let d := d.fset R.CHIP_TEMP R.CHIP_TEMP.TEMP temp.toNat
          let d := if signed 11 (d.fget R.CHIP_TEMP_PEAK R.CHIP_TEMP_PEAK.PEAK) < temp.toInt
            then d.fset R.CHIP_TEMP_PEAK R.CHIP_TEMP_PEAK.PEAK temp.toNat else d
          mon { d with supply := { d.supply with thermal := new } } old new))

/-- Stages of shedding (R6, R7, R584 to R589, Table 14-10): while a deeper stage than the one in force is requested and no
exit action of a deeper one is under way, the cause of the next stage arises; outside service only that of SHED-5; when the
dwell has passed, the cause of leaving every stage deeper than the requested one arises. The causes of a clock are ranked
as it ends: those overtaken are logged and do not act, a chip-fatal error among them counted too, and the highest acts.
Each entry is counted and shown; SHED-5 yields the lease, completes what is being sent, logs who asked, puts the held
outputs in the safe state and enters HELD. A stage left changes the state at once, and the exit actions follow deepest
first, one stage a clock. -/
def Obligations.SheddingStages : Prop :=
  (∀ s : State, s.dev.chip.state ≠ .off →
    let st := if s.dev.chip.state = .test then s.dev.chip.testFrom
      else if s.dev.chip.state = .held ∧ s.dev.chip.since = s.dev.now then s.dev.chip.prev else s.dev.chip.state
    let r := s.dev.requested
    let notes := fun (c : Cause) => s.done fun d => d.noteCause c
    (st = .held ∨ st = .off → exec .shedStageEntry s = .next (s.done id))
    ∧ (st.serving = true → r < st.stage + 1 ∨ st.stage < s.dev.supply.exiting → exec .shedStageEntry s = .next (s.done id))
    ∧ (st.serving = true → st.stage + 1 ≤ r → s.dev.supply.exiting ≤ st.stage →
        exec .shedStageEntry s = .next (notes (.deeper (st.stage + 1))))
    ∧ (st.serving = false → st ≠ .held → st ≠ .off → r = 5 → exec .shedStageEntry s = .next (notes (.deeper 5)))
    ∧ (st.serving = false → r ≠ 5 → exec .shedStageEntry s = .next (s.done id))
    ∧ (s.dev.due ⟨.shedDwell, 0, 0⟩ = false ∨ st.stage ≤ r → exec .shedDwellExpiry s = .next (s.done id))
    ∧ (s.dev.due ⟨.shedDwell, 0, 0⟩ = true → r < st.stage → exec .shedDwellExpiry s = .next (notes (.shallower r))))
  ∧ ∀ d : Dev,
    let up := fun (d : Dev) (k : Nat) => (d.bump k).setFlag R.PWR_EVT R.PWR_EVT.STAGE_UP true
    let ports := fun (d : Dev) => d.each allPorts (fun p d => d.refreshEnabled p)
    (∀ c : Cause, (c ∈ d.clk.causes → d.noteCause c = d)
      ∧ (c ∉ d.clk.causes → d.noteCause c = { d with clk := { d.clk with causes := d.clk.causes ++ [c] } }))
    ∧ (∀ k : Nat, (Cause.deeper k).rank = (if k = 5 then 5 else 3) ∧ (Cause.shallower k).rank = 2)
    ∧ (∀ b : Bool, (Cause.test b).rank = 1)
    ∧ (let held := if d.chip.state = .held ∧ d.chip.since = d.now then 6 else 0
      let fatal := if d.raised.any (fun r => r.rank == 3) then 4 else 0
      let top := (d.clk.causes.map Cause.rank).foldl max (max held fatal)
      let after := d.each (d.clk.causes.filter (fun c => decide (c.rank < top))) (fun c d => d.logChip 0x0007 c.state.code)
      let after := if top ≤ 4 then after else
        let d := after.each (after.raised.filter (fun r => r.rank == 3)) (fun _ d => (d.bump R.ERR_CHIP_FATAL).logChip 0x0007 ChipState.recovery.code)
        { d with raised := d.raised.filter (fun r => r.rank != 3) }
      let after : Dev := { after with clk := { after.clk with causes := [] } }
      d.resolveCauses = match d.clk.causes.find? (fun c => c.rank == top) with
        | none => after
        | some (.deeper k) => after.enterDeeper k
        | some (.shallower r) => after.leaveTo r
        | some (.test drives) => after.enterTest drives)
    ∧ d.enterDeeper 1 = (ports (up (d.drainAbandon.toState .shed1) R.PWR_ENTER1)).refreshDwell
    ∧ d.enterDeeper 2 = (let d := up (d.drainAbandon.toState .shed2) R.PWR_ENTER2
        (d.enginesStop fun e => d.shedHalted e).engineShed.refreshDwell)
    ∧ d.enterDeeper 3 = (ports ((((up (d.drainAbandon.toState .shed3) R.PWR_ENTER3).each [0, 1, 2, 3]
        (fun n d => d.dramSleep n .shed)).hostShed 2).hostShed 3)).refreshDwell
    ∧ d.enterDeeper 4 = (((ports (up (d.drainAbandon.toState .shed4) R.PWR_ENTER4)).hostShed 0).hostShed 1).refreshDwell
    ∧ d.enterDeeper 5 = (
        let who := b2n (d.sagRequest == 5) + 2 * b2n (d.monitorRequest == 5)
        let d := ((d.drainAbandon.yieldLease.toState .shed5).bump R.PWR_ENTER5).setFlag R.PWR_EVT R.PWR_EVT.STAGE_UP true
        let d := d.each allPorts (fun p d => if (d.eport p).sending.isSome && (d.eport p).readsLeft == 0 then d.transmitComplete p else d)
        let d := ((d.logChip 0x0015 who).setFlag R.OUT_STAT R.OUT_STAT.SAFE true).enterHeld.heldHosts
        ({ d with supply := { d.supply with fromShed5 := true } } : Dev).refreshDwell)
    ∧ (∀ r : Nat, d.leaveTo r =
        let old := d.chip.state.stage
        let below : ChipState := match r with | 0 => .service | 1 => .shed1 | 2 => .shed2 | 3 => .shed3 | 4 => .shed4 | _ => .shed5
        let d := ((d.disarm ⟨.shedDwell, 0, 0⟩).toState below).setFlag R.PWR_EVT R.PWR_EVT.STAGE_DOWN true
        ({ d with supply := { d.supply with exiting := old } } : Dev).exitNext.refreshDwell)
    ∧ (d.supply.exiting ≤ d.runState.stage → d.exitNext = d)
    ∧ (d.runState.stage < d.supply.exiting →
        let k := d.supply.exiting
        let e : Dev := { d with supply := { d.supply with exiting := if k ≤ d.runState.stage + 1 then 0 else k - 1 } }
        d.exitNext = match k with
          | 4 => ports ((e.hostUnshed 1).hostUnshed 0)
          | 3 => ports (((e.each [0, 1, 2, 3] (fun n d => d.dramWake n)).hostUnshed 3).hostUnshed 2)
          | 2 => e.engineUnshed
          | _ => ports e)

/-- RESET_N, HELD, the loss of VDD_AUX and TEST (R5, R6, R569 to R572, R590, R591, R674, R686, R687): a recognised low
enters HELD; a high ends it with a warm start after less than 50 ms and a cold start after more, unless SHED-5 is still
requested, and a low of less than 1 µs is only logged; a warm start that ends a HELD entered from SHED-5 clears custody;
without VDD_AUX the chip is OFF with nothing of its state left; TEST is entered, as the highest cause of its clock, by a
boundary-scan instruction and left by a cold start where balls were driven. -/
def Obligations.HeldOffAndTest : Prop :=
  ∀ s : State, s.dev.chip.state ≠ .off →
    let raised := fun (d : Dev) => ({ d with supply := { d.supply with resetLow := false } } : Dev).disarm ⟨.resetSafe, 0, 0⟩
    (s.dev.supply.resetLow = true → exec .resetNFall s = .next (s.done id))
    ∧ (s.dev.supply.resetLow = false → exec .resetNFall s = .next (s.done fun d =>
        let d := ({ d with supply := { d.supply with resetLow := true, resetAt := d.now - us } } : Dev)
        let d := if d.chip.state = .held then d else d.enterHeld
        (d.arm ⟨.resetSafe, 0, 0⟩ (50 * ms - us)).refreshDwell))
    ∧ (∀ low : Word,
      (s.dev.supply.resetLow = false → low.toNat < us → exec (.resetNRise low) s = .next (s.done (·.logChip 0x0013 low.toNat)))
      ∧ (s.dev.supply.resetLow = false → us ≤ low.toNat → exec (.resetNRise low) s = .next (s.done id))
      ∧ (s.dev.supply.resetLow = true → low.toNat < us → exec (.resetNRise low) s = .next (s.done id))
      ∧ (s.dev.supply.resetLow = true → us ≤ low.toNat →
          let stays := s.dev.supply.fromShed5 && (raised s.dev).requested == 5
          let free := fun (d : Dev) => ({ raised d with supply := { (raised d).supply with fromShed5 := false } } : Dev)
          (stays = true → exec (.resetNRise low) s = .next (s.done fun d => (raised d).refreshDwell))
          ∧ (stays = false → low.toNat < 50 * ms → exec (.resetNRise low) s = .next (s.did fun s => warmStart (s.onDev free) 2 s.dev.supply.fromShed5))
          ∧ (stays = false → 50 * ms ≤ low.toNat → exec (.resetNRise low) s = .next (s.did fun s => coldStart (s.onDev free) 1 1))))
    ∧ (s.dev.due ⟨.heldExit, 0, 0⟩ = true → s.dev.chip.state = .held → s.dev.supply.fromShed5 = true → s.dev.supply.resetLow = false →
        exec .heldExit s = .next (s.did fun s => warmStart (s.onDev fun d =>
          ({ d with supply := { d.supply with fromShed5 := false } } : Dev).disarm ⟨.heldExit, 0, 0⟩) 8 true))
    ∧ (s.dev.due ⟨.heldExit, 0, 0⟩ = false ∨ s.dev.chip.state ≠ .held ∨ s.dev.supply.fromShed5 = false ∨ s.dev.supply.resetLow = true →
        exec .heldExit s = .next (s.done id))
    ∧ exec .vddAuxLoss s = .next (s.done fun d =>
        { Dev.initial with free := d.free, mgmt := { MgmtPart.init with refLost := d.mgmt.refLost },
                           chip := { Dev.initial.chip with prev := d.chip.state } })
    ∧ (∀ drives : Bool,
      (s.dev.chip.state = .test → exec (.testEntry drives) s = .next (s.done fun d =>
          { d with start := { d.start with drove := d.start.drove || drives } }))
      ∧ (s.dev.chip.state ≠ .test → s.dev.causeState = .off ∨ s.dev.causeState = .held → exec (.testEntry drives) s = .next (s.done id))
      ∧ (s.dev.chip.state ≠ .test → s.dev.causeState ≠ .off → s.dev.causeState ≠ .held →
          exec (.testEntry drives) s = .next (s.done fun d => d.noteCause (.test drives)))
      ∧ (∀ d : Dev,
        (d.chip.state = .test → d.enterTest drives = { d with start := { d.start with drove := d.start.drove || drives } })
        ∧ (d.chip.state ≠ .test → d.enterTest drives =
            { d.toState .test with chip := { (d.toState .test).chip with testFrom := d.chip.state },
                                   start := { (d.toState .test).start with drove := drives } })))
    ∧ (s.dev.chip.state ≠ .test → exec .testExit s = .next (s.done id))
    ∧ (s.dev.chip.state = .test → s.dev.start.drove = true → exec .testExit s = .next (s.did fun s => coldStart s 11 1))
    ∧ (s.dev.chip.state = .test → s.dev.start.drove = false → exec .testExit s = .next (s.done fun d => d.toState d.chip.testFrom))
end

