-- ==== Sys2Proof/Laws/State.lean ====
section
/-! SUPPORT. What each small update of the device leaves as it was: one lemma per field per update. -/

namespace Sys2Proof.Machine

@[simp] theorem Dev.wr_now (d : Dev) (a : Nat) (v : Word) : (d.wr a v).now = d.now := rfl
@[simp] theorem Dev.wr_free (d : Dev) (a : Nat) (v : Word) : (d.wr a v).free = d.free := rfl
@[simp] theorem Dev.wr_cellCtl (d : Dev) (a : Nat) (v : Word) : (d.wr a v).cellCtl = d.cellCtl := rfl
@[simp] theorem Dev.wr_latches (d : Dev) (a : Nat) (v : Word) : (d.wr a v).latches = d.latches := rfl
@[simp] theorem Dev.wr_ind (d : Dev) (a : Nat) (v : Word) : (d.wr a v).ind = d.ind := rfl
@[simp] theorem Dev.wr_timers (d : Dev) (a : Nat) (v : Word) : (d.wr a v).timers = d.timers := rfl
@[simp] theorem Dev.wr_chip (d : Dev) (a : Nat) (v : Word) : (d.wr a v).chip = d.chip := rfl
@[simp] theorem Dev.wr_log (d : Dev) (a : Nat) (v : Word) : (d.wr a v).log = d.log := rfl
@[simp] theorem Dev.wr_err (d : Dev) (a : Nat) (v : Word) : (d.wr a v).err = d.err := rfl
@[simp] theorem Dev.wr_raised (d : Dev) (a : Nat) (v : Word) : (d.wr a v).raised = d.raised := rfl
@[simp] theorem Dev.wr_clk (d : Dev) (a : Nat) (v : Word) : (d.wr a v).clk = d.clk := rfl
@[simp] theorem Dev.wr_before (d : Dev) (a : Nat) (v : Word) : (d.wr a v).before = d.before := rfl
@[simp] theorem Dev.wr_snap (d : Dev) (a : Nat) (v : Word) : (d.wr a v).snap = d.snap := rfl
@[simp] theorem Dev.wr_mboxOut (d : Dev) (a : Nat) (v : Word) : (d.wr a v).mboxOut = d.mboxOut := rfl
@[simp] theorem Dev.wr_uart (d : Dev) (a : Nat) (v : Word) : (d.wr a v).uart = d.uart := rfl
@[simp] theorem Dev.wr_dump (d : Dev) (a : Nat) (v : Word) : (d.wr a v).dump = d.dump := rfl
@[simp] theorem Dev.wr_time (d : Dev) (a : Nat) (v : Word) : (d.wr a v).time = d.time := rfl
@[simp] theorem Dev.wr_loader (d : Dev) (a : Nat) (v : Word) : (d.wr a v).loader = d.loader := rfl
@[simp] theorem Dev.wr_floor (d : Dev) (a : Nat) (v : Word) : (d.wr a v).floor = d.floor := rfl
@[simp] theorem Dev.wr_frame (d : Dev) (a : Nat) (v : Word) : (d.wr a v).frame = d.frame := rfl
@[simp] theorem Dev.wr_tables (d : Dev) (a : Nat) (v : Word) : (d.wr a v).tables = d.tables := rfl
@[simp] theorem Dev.wr_mgmt (d : Dev) (a : Nat) (v : Word) : (d.wr a v).mgmt = d.mgmt := rfl
@[simp] theorem Dev.wr_dram (d : Dev) (a : Nat) (v : Word) : (d.wr a v).dram = d.dram := rfl
@[simp] theorem Dev.wr_engine (d : Dev) (a : Nat) (v : Word) : (d.wr a v).engine = d.engine := rfl
@[simp] theorem Dev.wr_twin (d : Dev) (a : Nat) (v : Word) : (d.wr a v).twin = d.twin := rfl
@[simp] theorem Dev.wr_host (d : Dev) (a : Nat) (v : Word) : (d.wr a v).host = d.host := rfl
@[simp] theorem Dev.wr_start (d : Dev) (a : Nat) (v : Word) : (d.wr a v).start = d.start := rfl
@[simp] theorem Dev.wr_supply (d : Dev) (a : Nat) (v : Word) : (d.wr a v).supply = d.supply := rfl
@[simp] theorem Dev.wr_faults (d : Dev) (a : Nat) (v : Word) : (d.wr a v).faults = d.faults := rfl
@[simp] theorem Dev.wr_out (d : Dev) (a : Nat) (v : Word) : (d.wr a v).out = d.out := rfl

@[simp] theorem Dev.fset_now (d : Dev) (a : Nat) (f : Fld) (v : Nat) : (d.fset a f v).now = d.now := rfl
@[simp] theorem Dev.fset_free (d : Dev) (a : Nat) (f : Fld) (v : Nat) : (d.fset a f v).free = d.free := rfl
@[simp] theorem Dev.fset_cellCtl (d : Dev) (a : Nat) (f : Fld) (v : Nat) : (d.fset a f v).cellCtl = d.cellCtl := rfl
@[simp] theorem Dev.fset_latches (d : Dev) (a : Nat) (f : Fld) (v : Nat) : (d.fset a f v).latches = d.latches := rfl
@[simp] theorem Dev.fset_ind (d : Dev) (a : Nat) (f : Fld) (v : Nat) : (d.fset a f v).ind = d.ind := rfl
@[simp] theorem Dev.fset_timers (d : Dev) (a : Nat) (f : Fld) (v : Nat) : (d.fset a f v).timers = d.timers := rfl
@[simp] theorem Dev.fset_chip (d : Dev) (a : Nat) (f : Fld) (v : Nat) : (d.fset a f v).chip = d.chip := rfl
@[simp] theorem Dev.fset_log (d : Dev) (a : Nat) (f : Fld) (v : Nat) : (d.fset a f v).log = d.log := rfl
@[simp] theorem Dev.fset_err (d : Dev) (a : Nat) (f : Fld) (v : Nat) : (d.fset a f v).err = d.err := rfl
@[simp] theorem Dev.fset_raised (d : Dev) (a : Nat) (f : Fld) (v : Nat) : (d.fset a f v).raised = d.raised := rfl
@[simp] theorem Dev.fset_clk (d : Dev) (a : Nat) (f : Fld) (v : Nat) : (d.fset a f v).clk = d.clk := rfl
@[simp] theorem Dev.fset_before (d : Dev) (a : Nat) (f : Fld) (v : Nat) : (d.fset a f v).before = d.before := rfl
@[simp] theorem Dev.fset_snap (d : Dev) (a : Nat) (f : Fld) (v : Nat) : (d.fset a f v).snap = d.snap := rfl
@[simp] theorem Dev.fset_mboxOut (d : Dev) (a : Nat) (f : Fld) (v : Nat) : (d.fset a f v).mboxOut = d.mboxOut := rfl
@[simp] theorem Dev.fset_uart (d : Dev) (a : Nat) (f : Fld) (v : Nat) : (d.fset a f v).uart = d.uart := rfl
@[simp] theorem Dev.fset_dump (d : Dev) (a : Nat) (f : Fld) (v : Nat) : (d.fset a f v).dump = d.dump := rfl
@[simp] theorem Dev.fset_time (d : Dev) (a : Nat) (f : Fld) (v : Nat) : (d.fset a f v).time = d.time := rfl
@[simp] theorem Dev.fset_loader (d : Dev) (a : Nat) (f : Fld) (v : Nat) : (d.fset a f v).loader = d.loader := rfl
@[simp] theorem Dev.fset_floor (d : Dev) (a : Nat) (f : Fld) (v : Nat) : (d.fset a f v).floor = d.floor := rfl
@[simp] theorem Dev.fset_frame (d : Dev) (a : Nat) (f : Fld) (v : Nat) : (d.fset a f v).frame = d.frame := rfl
@[simp] theorem Dev.fset_tables (d : Dev) (a : Nat) (f : Fld) (v : Nat) : (d.fset a f v).tables = d.tables := rfl
@[simp] theorem Dev.fset_mgmt (d : Dev) (a : Nat) (f : Fld) (v : Nat) : (d.fset a f v).mgmt = d.mgmt := rfl
@[simp] theorem Dev.fset_dram (d : Dev) (a : Nat) (f : Fld) (v : Nat) : (d.fset a f v).dram = d.dram := rfl
@[simp] theorem Dev.fset_engine (d : Dev) (a : Nat) (f : Fld) (v : Nat) : (d.fset a f v).engine = d.engine := rfl
@[simp] theorem Dev.fset_twin (d : Dev) (a : Nat) (f : Fld) (v : Nat) : (d.fset a f v).twin = d.twin := rfl
@[simp] theorem Dev.fset_host (d : Dev) (a : Nat) (f : Fld) (v : Nat) : (d.fset a f v).host = d.host := rfl
@[simp] theorem Dev.fset_start (d : Dev) (a : Nat) (f : Fld) (v : Nat) : (d.fset a f v).start = d.start := rfl
@[simp] theorem Dev.fset_supply (d : Dev) (a : Nat) (f : Fld) (v : Nat) : (d.fset a f v).supply = d.supply := rfl
@[simp] theorem Dev.fset_faults (d : Dev) (a : Nat) (f : Fld) (v : Nat) : (d.fset a f v).faults = d.faults := rfl
@[simp] theorem Dev.fset_out (d : Dev) (a : Nat) (f : Fld) (v : Nat) : (d.fset a f v).out = d.out := rfl

@[simp] theorem Dev.setFlag_now (d : Dev) (a : Nat) (f : Fld) (b : Bool) : (d.setFlag a f b).now = d.now := rfl
@[simp] theorem Dev.setFlag_free (d : Dev) (a : Nat) (f : Fld) (b : Bool) : (d.setFlag a f b).free = d.free := rfl
@[simp] theorem Dev.setFlag_cellCtl (d : Dev) (a : Nat) (f : Fld) (b : Bool) : (d.setFlag a f b).cellCtl = d.cellCtl := rfl
@[simp] theorem Dev.setFlag_latches (d : Dev) (a : Nat) (f : Fld) (b : Bool) : (d.setFlag a f b).latches = d.latches := rfl
@[simp] theorem Dev.setFlag_ind (d : Dev) (a : Nat) (f : Fld) (b : Bool) : (d.setFlag a f b).ind = d.ind := rfl
@[simp] theorem Dev.setFlag_timers (d : Dev) (a : Nat) (f : Fld) (b : Bool) : (d.setFlag a f b).timers = d.timers := rfl
@[simp] theorem Dev.setFlag_chip (d : Dev) (a : Nat) (f : Fld) (b : Bool) : (d.setFlag a f b).chip = d.chip := rfl
@[simp] theorem Dev.setFlag_log (d : Dev) (a : Nat) (f : Fld) (b : Bool) : (d.setFlag a f b).log = d.log := rfl
@[simp] theorem Dev.setFlag_err (d : Dev) (a : Nat) (f : Fld) (b : Bool) : (d.setFlag a f b).err = d.err := rfl
@[simp] theorem Dev.setFlag_raised (d : Dev) (a : Nat) (f : Fld) (b : Bool) : (d.setFlag a f b).raised = d.raised := rfl
@[simp] theorem Dev.setFlag_before (d : Dev) (a : Nat) (f : Fld) (b : Bool) : (d.setFlag a f b).before = d.before := rfl
@[simp] theorem Dev.setFlag_snap (d : Dev) (a : Nat) (f : Fld) (b : Bool) : (d.setFlag a f b).snap = d.snap := rfl
@[simp] theorem Dev.setFlag_mboxOut (d : Dev) (a : Nat) (f : Fld) (b : Bool) : (d.setFlag a f b).mboxOut = d.mboxOut := rfl
@[simp] theorem Dev.setFlag_uart (d : Dev) (a : Nat) (f : Fld) (b : Bool) : (d.setFlag a f b).uart = d.uart := rfl
@[simp] theorem Dev.setFlag_dump (d : Dev) (a : Nat) (f : Fld) (b : Bool) : (d.setFlag a f b).dump = d.dump := rfl
@[simp] theorem Dev.setFlag_time (d : Dev) (a : Nat) (f : Fld) (b : Bool) : (d.setFlag a f b).time = d.time := rfl
@[simp] theorem Dev.setFlag_loader (d : Dev) (a : Nat) (f : Fld) (b : Bool) : (d.setFlag a f b).loader = d.loader := rfl
@[simp] theorem Dev.setFlag_floor (d : Dev) (a : Nat) (f : Fld) (b : Bool) : (d.setFlag a f b).floor = d.floor := rfl
@[simp] theorem Dev.setFlag_frame (d : Dev) (a : Nat) (f : Fld) (b : Bool) : (d.setFlag a f b).frame = d.frame := rfl
@[simp] theorem Dev.setFlag_tables (d : Dev) (a : Nat) (f : Fld) (b : Bool) : (d.setFlag a f b).tables = d.tables := rfl
@[simp] theorem Dev.setFlag_mgmt (d : Dev) (a : Nat) (f : Fld) (b : Bool) : (d.setFlag a f b).mgmt = d.mgmt := rfl
@[simp] theorem Dev.setFlag_dram (d : Dev) (a : Nat) (f : Fld) (b : Bool) : (d.setFlag a f b).dram = d.dram := rfl
@[simp] theorem Dev.setFlag_engine (d : Dev) (a : Nat) (f : Fld) (b : Bool) : (d.setFlag a f b).engine = d.engine := rfl
@[simp] theorem Dev.setFlag_twin (d : Dev) (a : Nat) (f : Fld) (b : Bool) : (d.setFlag a f b).twin = d.twin := rfl
@[simp] theorem Dev.setFlag_host (d : Dev) (a : Nat) (f : Fld) (b : Bool) : (d.setFlag a f b).host = d.host := rfl
@[simp] theorem Dev.setFlag_start (d : Dev) (a : Nat) (f : Fld) (b : Bool) : (d.setFlag a f b).start = d.start := rfl
@[simp] theorem Dev.setFlag_supply (d : Dev) (a : Nat) (f : Fld) (b : Bool) : (d.setFlag a f b).supply = d.supply := rfl
@[simp] theorem Dev.setFlag_faults (d : Dev) (a : Nat) (f : Fld) (b : Bool) : (d.setFlag a f b).faults = d.faults := rfl
@[simp] theorem Dev.setFlag_out (d : Dev) (a : Nat) (f : Fld) (b : Bool) : (d.setFlag a f b).out = d.out := rfl

@[simp] theorem Dev.setFieldBit_now (d : Dev) (a : Nat) (f : Fld) (i : Nat) (b : Bool) : (d.setFieldBit a f i b).now = d.now := rfl
@[simp] theorem Dev.setFieldBit_free (d : Dev) (a : Nat) (f : Fld) (i : Nat) (b : Bool) : (d.setFieldBit a f i b).free = d.free := rfl
@[simp] theorem Dev.setFieldBit_cellCtl (d : Dev) (a : Nat) (f : Fld) (i : Nat) (b : Bool) : (d.setFieldBit a f i b).cellCtl = d.cellCtl := rfl
@[simp] theorem Dev.setFieldBit_latches (d : Dev) (a : Nat) (f : Fld) (i : Nat) (b : Bool) : (d.setFieldBit a f i b).latches = d.latches := rfl
@[simp] theorem Dev.setFieldBit_ind (d : Dev) (a : Nat) (f : Fld) (i : Nat) (b : Bool) : (d.setFieldBit a f i b).ind = d.ind := rfl
@[simp] theorem Dev.setFieldBit_timers (d : Dev) (a : Nat) (f : Fld) (i : Nat) (b : Bool) : (d.setFieldBit a f i b).timers = d.timers := rfl
@[simp] theorem Dev.setFieldBit_chip (d : Dev) (a : Nat) (f : Fld) (i : Nat) (b : Bool) : (d.setFieldBit a f i b).chip = d.chip := rfl
@[simp] theorem Dev.setFieldBit_log (d : Dev) (a : Nat) (f : Fld) (i : Nat) (b : Bool) : (d.setFieldBit a f i b).log = d.log := rfl
@[simp] theorem Dev.setFieldBit_err (d : Dev) (a : Nat) (f : Fld) (i : Nat) (b : Bool) : (d.setFieldBit a f i b).err = d.err := rfl
@[simp] theorem Dev.setFieldBit_raised (d : Dev) (a : Nat) (f : Fld) (i : Nat) (b : Bool) : (d.setFieldBit a f i b).raised = d.raised := rfl
@[simp] theorem Dev.setFieldBit_before (d : Dev) (a : Nat) (f : Fld) (i : Nat) (b : Bool) : (d.setFieldBit a f i b).before = d.before := rfl
@[simp] theorem Dev.setFieldBit_snap (d : Dev) (a : Nat) (f : Fld) (i : Nat) (b : Bool) : (d.setFieldBit a f i b).snap = d.snap := rfl
@[simp] theorem Dev.setFieldBit_mboxOut (d : Dev) (a : Nat) (f : Fld) (i : Nat) (b : Bool) : (d.setFieldBit a f i b).mboxOut = d.mboxOut := rfl
@[simp] theorem Dev.setFieldBit_uart (d : Dev) (a : Nat) (f : Fld) (i : Nat) (b : Bool) : (d.setFieldBit a f i b).uart = d.uart := rfl
@[simp] theorem Dev.setFieldBit_dump (d : Dev) (a : Nat) (f : Fld) (i : Nat) (b : Bool) : (d.setFieldBit a f i b).dump = d.dump := rfl
@[simp] theorem Dev.setFieldBit_time (d : Dev) (a : Nat) (f : Fld) (i : Nat) (b : Bool) : (d.setFieldBit a f i b).time = d.time := rfl
@[simp] theorem Dev.setFieldBit_loader (d : Dev) (a : Nat) (f : Fld) (i : Nat) (b : Bool) : (d.setFieldBit a f i b).loader = d.loader := rfl
@[simp] theorem Dev.setFieldBit_floor (d : Dev) (a : Nat) (f : Fld) (i : Nat) (b : Bool) : (d.setFieldBit a f i b).floor = d.floor := rfl
@[simp] theorem Dev.setFieldBit_frame (d : Dev) (a : Nat) (f : Fld) (i : Nat) (b : Bool) : (d.setFieldBit a f i b).frame = d.frame := rfl
@[simp] theorem Dev.setFieldBit_tables (d : Dev) (a : Nat) (f : Fld) (i : Nat) (b : Bool) : (d.setFieldBit a f i b).tables = d.tables := rfl
@[simp] theorem Dev.setFieldBit_mgmt (d : Dev) (a : Nat) (f : Fld) (i : Nat) (b : Bool) : (d.setFieldBit a f i b).mgmt = d.mgmt := rfl
@[simp] theorem Dev.setFieldBit_dram (d : Dev) (a : Nat) (f : Fld) (i : Nat) (b : Bool) : (d.setFieldBit a f i b).dram = d.dram := rfl
@[simp] theorem Dev.setFieldBit_engine (d : Dev) (a : Nat) (f : Fld) (i : Nat) (b : Bool) : (d.setFieldBit a f i b).engine = d.engine := rfl
@[simp] theorem Dev.setFieldBit_twin (d : Dev) (a : Nat) (f : Fld) (i : Nat) (b : Bool) : (d.setFieldBit a f i b).twin = d.twin := rfl
@[simp] theorem Dev.setFieldBit_host (d : Dev) (a : Nat) (f : Fld) (i : Nat) (b : Bool) : (d.setFieldBit a f i b).host = d.host := rfl
@[simp] theorem Dev.setFieldBit_start (d : Dev) (a : Nat) (f : Fld) (i : Nat) (b : Bool) : (d.setFieldBit a f i b).start = d.start := rfl
@[simp] theorem Dev.setFieldBit_supply (d : Dev) (a : Nat) (f : Fld) (i : Nat) (b : Bool) : (d.setFieldBit a f i b).supply = d.supply := rfl
@[simp] theorem Dev.setFieldBit_faults (d : Dev) (a : Nat) (f : Fld) (i : Nat) (b : Bool) : (d.setFieldBit a f i b).faults = d.faults := rfl
@[simp] theorem Dev.setFieldBit_out (d : Dev) (a : Nat) (f : Fld) (i : Nat) (b : Bool) : (d.setFieldBit a f i b).out = d.out := rfl

@[simp] theorem Dev.notedSet_now (d : Dev) (a i : Nat) (b : Bool) : (d.notedSet a i b).now = d.now := rfl
@[simp] theorem Dev.notedSet_free (d : Dev) (a i : Nat) (b : Bool) : (d.notedSet a i b).free = d.free := rfl
@[simp] theorem Dev.notedSet_regs (d : Dev) (a i : Nat) (b : Bool) : (d.notedSet a i b).regs = d.regs := rfl
@[simp] theorem Dev.notedSet_cellCtl (d : Dev) (a i : Nat) (b : Bool) : (d.notedSet a i b).cellCtl = d.cellCtl := rfl
@[simp] theorem Dev.notedSet_latches (d : Dev) (a i : Nat) (b : Bool) : (d.notedSet a i b).latches = d.latches := rfl
@[simp] theorem Dev.notedSet_ind (d : Dev) (a i : Nat) (b : Bool) : (d.notedSet a i b).ind = d.ind := rfl
@[simp] theorem Dev.notedSet_timers (d : Dev) (a i : Nat) (b : Bool) : (d.notedSet a i b).timers = d.timers := rfl
@[simp] theorem Dev.notedSet_chip (d : Dev) (a i : Nat) (b : Bool) : (d.notedSet a i b).chip = d.chip := rfl
@[simp] theorem Dev.notedSet_log (d : Dev) (a i : Nat) (b : Bool) : (d.notedSet a i b).log = d.log := rfl
@[simp] theorem Dev.notedSet_err (d : Dev) (a i : Nat) (b : Bool) : (d.notedSet a i b).err = d.err := rfl
@[simp] theorem Dev.notedSet_raised (d : Dev) (a i : Nat) (b : Bool) : (d.notedSet a i b).raised = d.raised := rfl
@[simp] theorem Dev.notedSet_before (d : Dev) (a i : Nat) (b : Bool) : (d.notedSet a i b).before = d.before := rfl
@[simp] theorem Dev.notedSet_snap (d : Dev) (a i : Nat) (b : Bool) : (d.notedSet a i b).snap = d.snap := rfl
@[simp] theorem Dev.notedSet_mboxOut (d : Dev) (a i : Nat) (b : Bool) : (d.notedSet a i b).mboxOut = d.mboxOut := rfl
@[simp] theorem Dev.notedSet_uart (d : Dev) (a i : Nat) (b : Bool) : (d.notedSet a i b).uart = d.uart := rfl
@[simp] theorem Dev.notedSet_dump (d : Dev) (a i : Nat) (b : Bool) : (d.notedSet a i b).dump = d.dump := rfl
@[simp] theorem Dev.notedSet_time (d : Dev) (a i : Nat) (b : Bool) : (d.notedSet a i b).time = d.time := rfl
@[simp] theorem Dev.notedSet_loader (d : Dev) (a i : Nat) (b : Bool) : (d.notedSet a i b).loader = d.loader := rfl
@[simp] theorem Dev.notedSet_floor (d : Dev) (a i : Nat) (b : Bool) : (d.notedSet a i b).floor = d.floor := rfl
@[simp] theorem Dev.notedSet_frame (d : Dev) (a i : Nat) (b : Bool) : (d.notedSet a i b).frame = d.frame := rfl
@[simp] theorem Dev.notedSet_tables (d : Dev) (a i : Nat) (b : Bool) : (d.notedSet a i b).tables = d.tables := rfl
@[simp] theorem Dev.notedSet_mgmt (d : Dev) (a i : Nat) (b : Bool) : (d.notedSet a i b).mgmt = d.mgmt := rfl
@[simp] theorem Dev.notedSet_dram (d : Dev) (a i : Nat) (b : Bool) : (d.notedSet a i b).dram = d.dram := rfl
@[simp] theorem Dev.notedSet_engine (d : Dev) (a i : Nat) (b : Bool) : (d.notedSet a i b).engine = d.engine := rfl
@[simp] theorem Dev.notedSet_twin (d : Dev) (a i : Nat) (b : Bool) : (d.notedSet a i b).twin = d.twin := rfl
@[simp] theorem Dev.notedSet_host (d : Dev) (a i : Nat) (b : Bool) : (d.notedSet a i b).host = d.host := rfl
@[simp] theorem Dev.notedSet_start (d : Dev) (a i : Nat) (b : Bool) : (d.notedSet a i b).start = d.start := rfl
@[simp] theorem Dev.notedSet_supply (d : Dev) (a i : Nat) (b : Bool) : (d.notedSet a i b).supply = d.supply := rfl
@[simp] theorem Dev.notedSet_faults (d : Dev) (a i : Nat) (b : Bool) : (d.notedSet a i b).faults = d.faults := rfl
@[simp] theorem Dev.notedSet_out (d : Dev) (a i : Nat) (b : Bool) : (d.notedSet a i b).out = d.out := rfl

@[simp] theorem Dev.hwWr_now (d : Dev) (a : Nat) (v : Word) : (d.hwWr a v).now = d.now := rfl
@[simp] theorem Dev.hwWr_free (d : Dev) (a : Nat) (v : Word) : (d.hwWr a v).free = d.free := rfl
@[simp] theorem Dev.hwWr_cellCtl (d : Dev) (a : Nat) (v : Word) : (d.hwWr a v).cellCtl = d.cellCtl := rfl
@[simp] theorem Dev.hwWr_latches (d : Dev) (a : Nat) (v : Word) : (d.hwWr a v).latches = d.latches := rfl
@[simp] theorem Dev.hwWr_ind (d : Dev) (a : Nat) (v : Word) : (d.hwWr a v).ind = d.ind := rfl
@[simp] theorem Dev.hwWr_timers (d : Dev) (a : Nat) (v : Word) : (d.hwWr a v).timers = d.timers := rfl
@[simp] theorem Dev.hwWr_chip (d : Dev) (a : Nat) (v : Word) : (d.hwWr a v).chip = d.chip := rfl
@[simp] theorem Dev.hwWr_log (d : Dev) (a : Nat) (v : Word) : (d.hwWr a v).log = d.log := rfl
@[simp] theorem Dev.hwWr_err (d : Dev) (a : Nat) (v : Word) : (d.hwWr a v).err = d.err := rfl
@[simp] theorem Dev.hwWr_raised (d : Dev) (a : Nat) (v : Word) : (d.hwWr a v).raised = d.raised := rfl
@[simp] theorem Dev.hwWr_clk (d : Dev) (a : Nat) (v : Word) : (d.hwWr a v).clk = d.clk := rfl
@[simp] theorem Dev.hwWr_before (d : Dev) (a : Nat) (v : Word) : (d.hwWr a v).before = d.before := rfl
@[simp] theorem Dev.hwWr_snap (d : Dev) (a : Nat) (v : Word) : (d.hwWr a v).snap = d.snap := rfl
@[simp] theorem Dev.hwWr_mboxOut (d : Dev) (a : Nat) (v : Word) : (d.hwWr a v).mboxOut = d.mboxOut := rfl
@[simp] theorem Dev.hwWr_uart (d : Dev) (a : Nat) (v : Word) : (d.hwWr a v).uart = d.uart := rfl
@[simp] theorem Dev.hwWr_dump (d : Dev) (a : Nat) (v : Word) : (d.hwWr a v).dump = d.dump := rfl
@[simp] theorem Dev.hwWr_time (d : Dev) (a : Nat) (v : Word) : (d.hwWr a v).time = d.time := rfl
@[simp] theorem Dev.hwWr_loader (d : Dev) (a : Nat) (v : Word) : (d.hwWr a v).loader = d.loader := rfl
@[simp] theorem Dev.hwWr_floor (d : Dev) (a : Nat) (v : Word) : (d.hwWr a v).floor = d.floor := rfl
@[simp] theorem Dev.hwWr_frame (d : Dev) (a : Nat) (v : Word) : (d.hwWr a v).frame = d.frame := rfl
@[simp] theorem Dev.hwWr_tables (d : Dev) (a : Nat) (v : Word) : (d.hwWr a v).tables = d.tables := rfl
@[simp] theorem Dev.hwWr_mgmt (d : Dev) (a : Nat) (v : Word) : (d.hwWr a v).mgmt = d.mgmt := rfl
@[simp] theorem Dev.hwWr_dram (d : Dev) (a : Nat) (v : Word) : (d.hwWr a v).dram = d.dram := rfl
@[simp] theorem Dev.hwWr_engine (d : Dev) (a : Nat) (v : Word) : (d.hwWr a v).engine = d.engine := rfl
@[simp] theorem Dev.hwWr_twin (d : Dev) (a : Nat) (v : Word) : (d.hwWr a v).twin = d.twin := rfl
@[simp] theorem Dev.hwWr_host (d : Dev) (a : Nat) (v : Word) : (d.hwWr a v).host = d.host := rfl
@[simp] theorem Dev.hwWr_start (d : Dev) (a : Nat) (v : Word) : (d.hwWr a v).start = d.start := rfl
@[simp] theorem Dev.hwWr_supply (d : Dev) (a : Nat) (v : Word) : (d.hwWr a v).supply = d.supply := rfl
@[simp] theorem Dev.hwWr_faults (d : Dev) (a : Nat) (v : Word) : (d.hwWr a v).faults = d.faults := rfl
@[simp] theorem Dev.hwWr_out (d : Dev) (a : Nat) (v : Word) : (d.hwWr a v).out = d.out := rfl

@[simp] theorem Dev.hwPut_now (d : Dev) (a : Nat) (f : Fld) (v : Nat) : (d.hwPut a f v).now = d.now := rfl
@[simp] theorem Dev.hwPut_free (d : Dev) (a : Nat) (f : Fld) (v : Nat) : (d.hwPut a f v).free = d.free := rfl
@[simp] theorem Dev.hwPut_cellCtl (d : Dev) (a : Nat) (f : Fld) (v : Nat) : (d.hwPut a f v).cellCtl = d.cellCtl := rfl
@[simp] theorem Dev.hwPut_latches (d : Dev) (a : Nat) (f : Fld) (v : Nat) : (d.hwPut a f v).latches = d.latches := rfl
@[simp] theorem Dev.hwPut_ind (d : Dev) (a : Nat) (f : Fld) (v : Nat) : (d.hwPut a f v).ind = d.ind := rfl
@[simp] theorem Dev.hwPut_timers (d : Dev) (a : Nat) (f : Fld) (v : Nat) : (d.hwPut a f v).timers = d.timers := rfl
@[simp] theorem Dev.hwPut_chip (d : Dev) (a : Nat) (f : Fld) (v : Nat) : (d.hwPut a f v).chip = d.chip := rfl
@[simp] theorem Dev.hwPut_log (d : Dev) (a : Nat) (f : Fld) (v : Nat) : (d.hwPut a f v).log = d.log := rfl
@[simp] theorem Dev.hwPut_err (d : Dev) (a : Nat) (f : Fld) (v : Nat) : (d.hwPut a f v).err = d.err := rfl
@[simp] theorem Dev.hwPut_raised (d : Dev) (a : Nat) (f : Fld) (v : Nat) : (d.hwPut a f v).raised = d.raised := rfl
@[simp] theorem Dev.hwPut_clk (d : Dev) (a : Nat) (f : Fld) (v : Nat) : (d.hwPut a f v).clk = d.clk := rfl
@[simp] theorem Dev.hwPut_before (d : Dev) (a : Nat) (f : Fld) (v : Nat) : (d.hwPut a f v).before = d.before := rfl
@[simp] theorem Dev.hwPut_snap (d : Dev) (a : Nat) (f : Fld) (v : Nat) : (d.hwPut a f v).snap = d.snap := rfl
@[simp] theorem Dev.hwPut_mboxOut (d : Dev) (a : Nat) (f : Fld) (v : Nat) : (d.hwPut a f v).mboxOut = d.mboxOut := rfl
@[simp] theorem Dev.hwPut_uart (d : Dev) (a : Nat) (f : Fld) (v : Nat) : (d.hwPut a f v).uart = d.uart := rfl
@[simp] theorem Dev.hwPut_dump (d : Dev) (a : Nat) (f : Fld) (v : Nat) : (d.hwPut a f v).dump = d.dump := rfl
@[simp] theorem Dev.hwPut_time (d : Dev) (a : Nat) (f : Fld) (v : Nat) : (d.hwPut a f v).time = d.time := rfl
@[simp] theorem Dev.hwPut_loader (d : Dev) (a : Nat) (f : Fld) (v : Nat) : (d.hwPut a f v).loader = d.loader := rfl
@[simp] theorem Dev.hwPut_floor (d : Dev) (a : Nat) (f : Fld) (v : Nat) : (d.hwPut a f v).floor = d.floor := rfl
@[simp] theorem Dev.hwPut_frame (d : Dev) (a : Nat) (f : Fld) (v : Nat) : (d.hwPut a f v).frame = d.frame := rfl
@[simp] theorem Dev.hwPut_tables (d : Dev) (a : Nat) (f : Fld) (v : Nat) : (d.hwPut a f v).tables = d.tables := rfl
@[simp] theorem Dev.hwPut_mgmt (d : Dev) (a : Nat) (f : Fld) (v : Nat) : (d.hwPut a f v).mgmt = d.mgmt := rfl
@[simp] theorem Dev.hwPut_dram (d : Dev) (a : Nat) (f : Fld) (v : Nat) : (d.hwPut a f v).dram = d.dram := rfl
@[simp] theorem Dev.hwPut_engine (d : Dev) (a : Nat) (f : Fld) (v : Nat) : (d.hwPut a f v).engine = d.engine := rfl
@[simp] theorem Dev.hwPut_twin (d : Dev) (a : Nat) (f : Fld) (v : Nat) : (d.hwPut a f v).twin = d.twin := rfl
@[simp] theorem Dev.hwPut_host (d : Dev) (a : Nat) (f : Fld) (v : Nat) : (d.hwPut a f v).host = d.host := rfl
@[simp] theorem Dev.hwPut_start (d : Dev) (a : Nat) (f : Fld) (v : Nat) : (d.hwPut a f v).start = d.start := rfl
@[simp] theorem Dev.hwPut_supply (d : Dev) (a : Nat) (f : Fld) (v : Nat) : (d.hwPut a f v).supply = d.supply := rfl
@[simp] theorem Dev.hwPut_faults (d : Dev) (a : Nat) (f : Fld) (v : Nat) : (d.hwPut a f v).faults = d.faults := rfl
@[simp] theorem Dev.hwPut_out (d : Dev) (a : Nat) (f : Fld) (v : Nat) : (d.hwPut a f v).out = d.out := rfl

@[simp] theorem Dev.saturatingAdd_now (d : Dev) (a : Nat) (f : Fld) (k : Nat) : (d.saturatingAdd a f k).now = d.now := rfl
@[simp] theorem Dev.saturatingAdd_free (d : Dev) (a : Nat) (f : Fld) (k : Nat) : (d.saturatingAdd a f k).free = d.free := rfl
@[simp] theorem Dev.saturatingAdd_cellCtl (d : Dev) (a : Nat) (f : Fld) (k : Nat) : (d.saturatingAdd a f k).cellCtl = d.cellCtl := rfl
@[simp] theorem Dev.saturatingAdd_latches (d : Dev) (a : Nat) (f : Fld) (k : Nat) : (d.saturatingAdd a f k).latches = d.latches := rfl
@[simp] theorem Dev.saturatingAdd_ind (d : Dev) (a : Nat) (f : Fld) (k : Nat) : (d.saturatingAdd a f k).ind = d.ind := rfl
@[simp] theorem Dev.saturatingAdd_timers (d : Dev) (a : Nat) (f : Fld) (k : Nat) : (d.saturatingAdd a f k).timers = d.timers := rfl
@[simp] theorem Dev.saturatingAdd_chip (d : Dev) (a : Nat) (f : Fld) (k : Nat) : (d.saturatingAdd a f k).chip = d.chip := rfl
@[simp] theorem Dev.saturatingAdd_log (d : Dev) (a : Nat) (f : Fld) (k : Nat) : (d.saturatingAdd a f k).log = d.log := rfl
@[simp] theorem Dev.saturatingAdd_err (d : Dev) (a : Nat) (f : Fld) (k : Nat) : (d.saturatingAdd a f k).err = d.err := rfl
@[simp] theorem Dev.saturatingAdd_raised (d : Dev) (a : Nat) (f : Fld) (k : Nat) : (d.saturatingAdd a f k).raised = d.raised := rfl
@[simp] theorem Dev.saturatingAdd_clk (d : Dev) (a : Nat) (f : Fld) (k : Nat) : (d.saturatingAdd a f k).clk = d.clk := rfl
@[simp] theorem Dev.saturatingAdd_before (d : Dev) (a : Nat) (f : Fld) (k : Nat) : (d.saturatingAdd a f k).before = d.before := rfl
@[simp] theorem Dev.saturatingAdd_snap (d : Dev) (a : Nat) (f : Fld) (k : Nat) : (d.saturatingAdd a f k).snap = d.snap := rfl
@[simp] theorem Dev.saturatingAdd_mboxOut (d : Dev) (a : Nat) (f : Fld) (k : Nat) : (d.saturatingAdd a f k).mboxOut = d.mboxOut := rfl
@[simp] theorem Dev.saturatingAdd_uart (d : Dev) (a : Nat) (f : Fld) (k : Nat) : (d.saturatingAdd a f k).uart = d.uart := rfl
@[simp] theorem Dev.saturatingAdd_dump (d : Dev) (a : Nat) (f : Fld) (k : Nat) : (d.saturatingAdd a f k).dump = d.dump := rfl
@[simp] theorem Dev.saturatingAdd_time (d : Dev) (a : Nat) (f : Fld) (k : Nat) : (d.saturatingAdd a f k).time = d.time := rfl
@[simp] theorem Dev.saturatingAdd_loader (d : Dev) (a : Nat) (f : Fld) (k : Nat) : (d.saturatingAdd a f k).loader = d.loader := rfl
@[simp] theorem Dev.saturatingAdd_floor (d : Dev) (a : Nat) (f : Fld) (k : Nat) : (d.saturatingAdd a f k).floor = d.floor := rfl
@[simp] theorem Dev.saturatingAdd_frame (d : Dev) (a : Nat) (f : Fld) (k : Nat) : (d.saturatingAdd a f k).frame = d.frame := rfl
@[simp] theorem Dev.saturatingAdd_tables (d : Dev) (a : Nat) (f : Fld) (k : Nat) : (d.saturatingAdd a f k).tables = d.tables := rfl
@[simp] theorem Dev.saturatingAdd_mgmt (d : Dev) (a : Nat) (f : Fld) (k : Nat) : (d.saturatingAdd a f k).mgmt = d.mgmt := rfl
@[simp] theorem Dev.saturatingAdd_dram (d : Dev) (a : Nat) (f : Fld) (k : Nat) : (d.saturatingAdd a f k).dram = d.dram := rfl
@[simp] theorem Dev.saturatingAdd_engine (d : Dev) (a : Nat) (f : Fld) (k : Nat) : (d.saturatingAdd a f k).engine = d.engine := rfl
@[simp] theorem Dev.saturatingAdd_twin (d : Dev) (a : Nat) (f : Fld) (k : Nat) : (d.saturatingAdd a f k).twin = d.twin := rfl
@[simp] theorem Dev.saturatingAdd_host (d : Dev) (a : Nat) (f : Fld) (k : Nat) : (d.saturatingAdd a f k).host = d.host := rfl
@[simp] theorem Dev.saturatingAdd_start (d : Dev) (a : Nat) (f : Fld) (k : Nat) : (d.saturatingAdd a f k).start = d.start := rfl
@[simp] theorem Dev.saturatingAdd_supply (d : Dev) (a : Nat) (f : Fld) (k : Nat) : (d.saturatingAdd a f k).supply = d.supply := rfl
@[simp] theorem Dev.saturatingAdd_faults (d : Dev) (a : Nat) (f : Fld) (k : Nat) : (d.saturatingAdd a f k).faults = d.faults := rfl
@[simp] theorem Dev.saturatingAdd_out (d : Dev) (a : Nat) (f : Fld) (k : Nat) : (d.saturatingAdd a f k).out = d.out := rfl

@[simp] theorem Dev.setOvf_now (d : Dev) (a : Nat) : (d.setOvf a).now = d.now := rfl
@[simp] theorem Dev.setOvf_free (d : Dev) (a : Nat) : (d.setOvf a).free = d.free := rfl
@[simp] theorem Dev.setOvf_regs (d : Dev) (a : Nat) : (d.setOvf a).regs = d.regs := rfl
@[simp] theorem Dev.setOvf_latches (d : Dev) (a : Nat) : (d.setOvf a).latches = d.latches := rfl
@[simp] theorem Dev.setOvf_ind (d : Dev) (a : Nat) : (d.setOvf a).ind = d.ind := rfl
@[simp] theorem Dev.setOvf_timers (d : Dev) (a : Nat) : (d.setOvf a).timers = d.timers := rfl
@[simp] theorem Dev.setOvf_chip (d : Dev) (a : Nat) : (d.setOvf a).chip = d.chip := rfl
@[simp] theorem Dev.setOvf_log (d : Dev) (a : Nat) : (d.setOvf a).log = d.log := rfl
@[simp] theorem Dev.setOvf_err (d : Dev) (a : Nat) : (d.setOvf a).err = d.err := rfl
@[simp] theorem Dev.setOvf_raised (d : Dev) (a : Nat) : (d.setOvf a).raised = d.raised := rfl
@[simp] theorem Dev.setOvf_before (d : Dev) (a : Nat) : (d.setOvf a).before = d.before := rfl
@[simp] theorem Dev.setOvf_snap (d : Dev) (a : Nat) : (d.setOvf a).snap = d.snap := rfl
@[simp] theorem Dev.setOvf_mboxOut (d : Dev) (a : Nat) : (d.setOvf a).mboxOut = d.mboxOut := rfl
@[simp] theorem Dev.setOvf_uart (d : Dev) (a : Nat) : (d.setOvf a).uart = d.uart := rfl
@[simp] theorem Dev.setOvf_dump (d : Dev) (a : Nat) : (d.setOvf a).dump = d.dump := rfl
@[simp] theorem Dev.setOvf_time (d : Dev) (a : Nat) : (d.setOvf a).time = d.time := rfl
@[simp] theorem Dev.setOvf_loader (d : Dev) (a : Nat) : (d.setOvf a).loader = d.loader := rfl
@[simp] theorem Dev.setOvf_floor (d : Dev) (a : Nat) : (d.setOvf a).floor = d.floor := rfl
@[simp] theorem Dev.setOvf_frame (d : Dev) (a : Nat) : (d.setOvf a).frame = d.frame := rfl
@[simp] theorem Dev.setOvf_tables (d : Dev) (a : Nat) : (d.setOvf a).tables = d.tables := rfl
@[simp] theorem Dev.setOvf_mgmt (d : Dev) (a : Nat) : (d.setOvf a).mgmt = d.mgmt := rfl
@[simp] theorem Dev.setOvf_dram (d : Dev) (a : Nat) : (d.setOvf a).dram = d.dram := rfl
@[simp] theorem Dev.setOvf_engine (d : Dev) (a : Nat) : (d.setOvf a).engine = d.engine := rfl
@[simp] theorem Dev.setOvf_twin (d : Dev) (a : Nat) : (d.setOvf a).twin = d.twin := rfl
@[simp] theorem Dev.setOvf_host (d : Dev) (a : Nat) : (d.setOvf a).host = d.host := rfl
@[simp] theorem Dev.setOvf_start (d : Dev) (a : Nat) : (d.setOvf a).start = d.start := rfl
@[simp] theorem Dev.setOvf_supply (d : Dev) (a : Nat) : (d.setOvf a).supply = d.supply := rfl
@[simp] theorem Dev.setOvf_faults (d : Dev) (a : Nat) : (d.setOvf a).faults = d.faults := rfl
@[simp] theorem Dev.setOvf_out (d : Dev) (a : Nat) : (d.setOvf a).out = d.out := rfl

@[simp] theorem Dev.emit_now (d : Dev) (e : OutEvent) : (d.emit e).now = d.now := rfl
@[simp] theorem Dev.emit_free (d : Dev) (e : OutEvent) : (d.emit e).free = d.free := rfl
@[simp] theorem Dev.emit_regs (d : Dev) (e : OutEvent) : (d.emit e).regs = d.regs := rfl
@[simp] theorem Dev.emit_cellCtl (d : Dev) (e : OutEvent) : (d.emit e).cellCtl = d.cellCtl := rfl
@[simp] theorem Dev.emit_latches (d : Dev) (e : OutEvent) : (d.emit e).latches = d.latches := rfl
@[simp] theorem Dev.emit_ind (d : Dev) (e : OutEvent) : (d.emit e).ind = d.ind := rfl
@[simp] theorem Dev.emit_timers (d : Dev) (e : OutEvent) : (d.emit e).timers = d.timers := rfl
@[simp] theorem Dev.emit_chip (d : Dev) (e : OutEvent) : (d.emit e).chip = d.chip := rfl
@[simp] theorem Dev.emit_log (d : Dev) (e : OutEvent) : (d.emit e).log = d.log := rfl
@[simp] theorem Dev.emit_err (d : Dev) (e : OutEvent) : (d.emit e).err = d.err := rfl
@[simp] theorem Dev.emit_raised (d : Dev) (e : OutEvent) : (d.emit e).raised = d.raised := rfl
@[simp] theorem Dev.emit_clk (d : Dev) (e : OutEvent) : (d.emit e).clk = d.clk := rfl
@[simp] theorem Dev.emit_before (d : Dev) (e : OutEvent) : (d.emit e).before = d.before := rfl
@[simp] theorem Dev.emit_snap (d : Dev) (e : OutEvent) : (d.emit e).snap = d.snap := rfl
@[simp] theorem Dev.emit_mboxOut (d : Dev) (e : OutEvent) : (d.emit e).mboxOut = d.mboxOut := rfl
@[simp] theorem Dev.emit_uart (d : Dev) (e : OutEvent) : (d.emit e).uart = d.uart := rfl
@[simp] theorem Dev.emit_dump (d : Dev) (e : OutEvent) : (d.emit e).dump = d.dump := rfl
@[simp] theorem Dev.emit_time (d : Dev) (e : OutEvent) : (d.emit e).time = d.time := rfl
@[simp] theorem Dev.emit_loader (d : Dev) (e : OutEvent) : (d.emit e).loader = d.loader := rfl
@[simp] theorem Dev.emit_floor (d : Dev) (e : OutEvent) : (d.emit e).floor = d.floor := rfl
@[simp] theorem Dev.emit_frame (d : Dev) (e : OutEvent) : (d.emit e).frame = d.frame := rfl
@[simp] theorem Dev.emit_tables (d : Dev) (e : OutEvent) : (d.emit e).tables = d.tables := rfl
@[simp] theorem Dev.emit_mgmt (d : Dev) (e : OutEvent) : (d.emit e).mgmt = d.mgmt := rfl
@[simp] theorem Dev.emit_dram (d : Dev) (e : OutEvent) : (d.emit e).dram = d.dram := rfl
@[simp] theorem Dev.emit_engine (d : Dev) (e : OutEvent) : (d.emit e).engine = d.engine := rfl
@[simp] theorem Dev.emit_twin (d : Dev) (e : OutEvent) : (d.emit e).twin = d.twin := rfl
@[simp] theorem Dev.emit_host (d : Dev) (e : OutEvent) : (d.emit e).host = d.host := rfl
@[simp] theorem Dev.emit_start (d : Dev) (e : OutEvent) : (d.emit e).start = d.start := rfl
@[simp] theorem Dev.emit_supply (d : Dev) (e : OutEvent) : (d.emit e).supply = d.supply := rfl
@[simp] theorem Dev.emit_faults (d : Dev) (e : OutEvent) : (d.emit e).faults = d.faults := rfl

@[simp] theorem Dev.arm_now (d : Dev) (t : TimerId) (n : Nat) : (d.arm t n).now = d.now := rfl
@[simp] theorem Dev.arm_free (d : Dev) (t : TimerId) (n : Nat) : (d.arm t n).free = d.free := rfl
@[simp] theorem Dev.arm_regs (d : Dev) (t : TimerId) (n : Nat) : (d.arm t n).regs = d.regs := rfl
@[simp] theorem Dev.arm_cellCtl (d : Dev) (t : TimerId) (n : Nat) : (d.arm t n).cellCtl = d.cellCtl := rfl
@[simp] theorem Dev.arm_latches (d : Dev) (t : TimerId) (n : Nat) : (d.arm t n).latches = d.latches := rfl
@[simp] theorem Dev.arm_ind (d : Dev) (t : TimerId) (n : Nat) : (d.arm t n).ind = d.ind := rfl
@[simp] theorem Dev.arm_chip (d : Dev) (t : TimerId) (n : Nat) : (d.arm t n).chip = d.chip := rfl
@[simp] theorem Dev.arm_log (d : Dev) (t : TimerId) (n : Nat) : (d.arm t n).log = d.log := rfl
@[simp] theorem Dev.arm_err (d : Dev) (t : TimerId) (n : Nat) : (d.arm t n).err = d.err := rfl
@[simp] theorem Dev.arm_raised (d : Dev) (t : TimerId) (n : Nat) : (d.arm t n).raised = d.raised := rfl
@[simp] theorem Dev.arm_clk (d : Dev) (t : TimerId) (n : Nat) : (d.arm t n).clk = d.clk := rfl
@[simp] theorem Dev.arm_before (d : Dev) (t : TimerId) (n : Nat) : (d.arm t n).before = d.before := rfl
@[simp] theorem Dev.arm_snap (d : Dev) (t : TimerId) (n : Nat) : (d.arm t n).snap = d.snap := rfl
@[simp] theorem Dev.arm_mboxOut (d : Dev) (t : TimerId) (n : Nat) : (d.arm t n).mboxOut = d.mboxOut := rfl
@[simp] theorem Dev.arm_uart (d : Dev) (t : TimerId) (n : Nat) : (d.arm t n).uart = d.uart := rfl
@[simp] theorem Dev.arm_dump (d : Dev) (t : TimerId) (n : Nat) : (d.arm t n).dump = d.dump := rfl
@[simp] theorem Dev.arm_time (d : Dev) (t : TimerId) (n : Nat) : (d.arm t n).time = d.time := rfl
@[simp] theorem Dev.arm_loader (d : Dev) (t : TimerId) (n : Nat) : (d.arm t n).loader = d.loader := rfl
@[simp] theorem Dev.arm_floor (d : Dev) (t : TimerId) (n : Nat) : (d.arm t n).floor = d.floor := rfl
@[simp] theorem Dev.arm_frame (d : Dev) (t : TimerId) (n : Nat) : (d.arm t n).frame = d.frame := rfl
@[simp] theorem Dev.arm_tables (d : Dev) (t : TimerId) (n : Nat) : (d.arm t n).tables = d.tables := rfl
@[simp] theorem Dev.arm_mgmt (d : Dev) (t : TimerId) (n : Nat) : (d.arm t n).mgmt = d.mgmt := rfl
@[simp] theorem Dev.arm_dram (d : Dev) (t : TimerId) (n : Nat) : (d.arm t n).dram = d.dram := rfl
@[simp] theorem Dev.arm_engine (d : Dev) (t : TimerId) (n : Nat) : (d.arm t n).engine = d.engine := rfl
@[simp] theorem Dev.arm_twin (d : Dev) (t : TimerId) (n : Nat) : (d.arm t n).twin = d.twin := rfl
@[simp] theorem Dev.arm_host (d : Dev) (t : TimerId) (n : Nat) : (d.arm t n).host = d.host := rfl
@[simp] theorem Dev.arm_start (d : Dev) (t : TimerId) (n : Nat) : (d.arm t n).start = d.start := rfl
@[simp] theorem Dev.arm_supply (d : Dev) (t : TimerId) (n : Nat) : (d.arm t n).supply = d.supply := rfl
@[simp] theorem Dev.arm_faults (d : Dev) (t : TimerId) (n : Nat) : (d.arm t n).faults = d.faults := rfl
@[simp] theorem Dev.arm_out (d : Dev) (t : TimerId) (n : Nat) : (d.arm t n).out = d.out := rfl

@[simp] theorem Dev.disarm_now (d : Dev) (t : TimerId) : (d.disarm t).now = d.now := rfl
@[simp] theorem Dev.disarm_free (d : Dev) (t : TimerId) : (d.disarm t).free = d.free := rfl
@[simp] theorem Dev.disarm_regs (d : Dev) (t : TimerId) : (d.disarm t).regs = d.regs := rfl
@[simp] theorem Dev.disarm_cellCtl (d : Dev) (t : TimerId) : (d.disarm t).cellCtl = d.cellCtl := rfl
@[simp] theorem Dev.disarm_latches (d : Dev) (t : TimerId) : (d.disarm t).latches = d.latches := rfl
@[simp] theorem Dev.disarm_ind (d : Dev) (t : TimerId) : (d.disarm t).ind = d.ind := rfl
@[simp] theorem Dev.disarm_chip (d : Dev) (t : TimerId) : (d.disarm t).chip = d.chip := rfl
@[simp] theorem Dev.disarm_log (d : Dev) (t : TimerId) : (d.disarm t).log = d.log := rfl
@[simp] theorem Dev.disarm_err (d : Dev) (t : TimerId) : (d.disarm t).err = d.err := rfl
@[simp] theorem Dev.disarm_raised (d : Dev) (t : TimerId) : (d.disarm t).raised = d.raised := rfl
@[simp] theorem Dev.disarm_clk (d : Dev) (t : TimerId) : (d.disarm t).clk = d.clk := rfl
@[simp] theorem Dev.disarm_before (d : Dev) (t : TimerId) : (d.disarm t).before = d.before := rfl
@[simp] theorem Dev.disarm_snap (d : Dev) (t : TimerId) : (d.disarm t).snap = d.snap := rfl
@[simp] theorem Dev.disarm_mboxOut (d : Dev) (t : TimerId) : (d.disarm t).mboxOut = d.mboxOut := rfl
@[simp] theorem Dev.disarm_uart (d : Dev) (t : TimerId) : (d.disarm t).uart = d.uart := rfl
@[simp] theorem Dev.disarm_dump (d : Dev) (t : TimerId) : (d.disarm t).dump = d.dump := rfl
@[simp] theorem Dev.disarm_time (d : Dev) (t : TimerId) : (d.disarm t).time = d.time := rfl
@[simp] theorem Dev.disarm_loader (d : Dev) (t : TimerId) : (d.disarm t).loader = d.loader := rfl
@[simp] theorem Dev.disarm_floor (d : Dev) (t : TimerId) : (d.disarm t).floor = d.floor := rfl
@[simp] theorem Dev.disarm_frame (d : Dev) (t : TimerId) : (d.disarm t).frame = d.frame := rfl
@[simp] theorem Dev.disarm_tables (d : Dev) (t : TimerId) : (d.disarm t).tables = d.tables := rfl
@[simp] theorem Dev.disarm_mgmt (d : Dev) (t : TimerId) : (d.disarm t).mgmt = d.mgmt := rfl
@[simp] theorem Dev.disarm_dram (d : Dev) (t : TimerId) : (d.disarm t).dram = d.dram := rfl
@[simp] theorem Dev.disarm_engine (d : Dev) (t : TimerId) : (d.disarm t).engine = d.engine := rfl
@[simp] theorem Dev.disarm_twin (d : Dev) (t : TimerId) : (d.disarm t).twin = d.twin := rfl
@[simp] theorem Dev.disarm_host (d : Dev) (t : TimerId) : (d.disarm t).host = d.host := rfl
@[simp] theorem Dev.disarm_start (d : Dev) (t : TimerId) : (d.disarm t).start = d.start := rfl
@[simp] theorem Dev.disarm_supply (d : Dev) (t : TimerId) : (d.disarm t).supply = d.supply := rfl
@[simp] theorem Dev.disarm_faults (d : Dev) (t : TimerId) : (d.disarm t).faults = d.faults := rfl
@[simp] theorem Dev.disarm_out (d : Dev) (t : TimerId) : (d.disarm t).out = d.out := rfl

@[simp] theorem Dev.raise_now (d : Dev) (r : Raised) : (d.raise r).now = d.now := rfl
@[simp] theorem Dev.raise_free (d : Dev) (r : Raised) : (d.raise r).free = d.free := rfl
@[simp] theorem Dev.raise_regs (d : Dev) (r : Raised) : (d.raise r).regs = d.regs := rfl
@[simp] theorem Dev.raise_cellCtl (d : Dev) (r : Raised) : (d.raise r).cellCtl = d.cellCtl := rfl
@[simp] theorem Dev.raise_latches (d : Dev) (r : Raised) : (d.raise r).latches = d.latches := rfl
@[simp] theorem Dev.raise_ind (d : Dev) (r : Raised) : (d.raise r).ind = d.ind := rfl
@[simp] theorem Dev.raise_timers (d : Dev) (r : Raised) : (d.raise r).timers = d.timers := rfl
@[simp] theorem Dev.raise_chip (d : Dev) (r : Raised) : (d.raise r).chip = d.chip := rfl
@[simp] theorem Dev.raise_log (d : Dev) (r : Raised) : (d.raise r).log = d.log := rfl
@[simp] theorem Dev.raise_err (d : Dev) (r : Raised) : (d.raise r).err = d.err := rfl
@[simp] theorem Dev.raise_clk (d : Dev) (r : Raised) : (d.raise r).clk = d.clk := rfl
@[simp] theorem Dev.raise_before (d : Dev) (r : Raised) : (d.raise r).before = d.before := rfl
@[simp] theorem Dev.raise_snap (d : Dev) (r : Raised) : (d.raise r).snap = d.snap := rfl
@[simp] theorem Dev.raise_mboxOut (d : Dev) (r : Raised) : (d.raise r).mboxOut = d.mboxOut := rfl
@[simp] theorem Dev.raise_uart (d : Dev) (r : Raised) : (d.raise r).uart = d.uart := rfl
@[simp] theorem Dev.raise_dump (d : Dev) (r : Raised) : (d.raise r).dump = d.dump := rfl
@[simp] theorem Dev.raise_time (d : Dev) (r : Raised) : (d.raise r).time = d.time := rfl
@[simp] theorem Dev.raise_loader (d : Dev) (r : Raised) : (d.raise r).loader = d.loader := rfl
@[simp] theorem Dev.raise_floor (d : Dev) (r : Raised) : (d.raise r).floor = d.floor := rfl
@[simp] theorem Dev.raise_frame (d : Dev) (r : Raised) : (d.raise r).frame = d.frame := rfl
@[simp] theorem Dev.raise_tables (d : Dev) (r : Raised) : (d.raise r).tables = d.tables := rfl
@[simp] theorem Dev.raise_mgmt (d : Dev) (r : Raised) : (d.raise r).mgmt = d.mgmt := rfl
@[simp] theorem Dev.raise_dram (d : Dev) (r : Raised) : (d.raise r).dram = d.dram := rfl
@[simp] theorem Dev.raise_engine (d : Dev) (r : Raised) : (d.raise r).engine = d.engine := rfl
@[simp] theorem Dev.raise_twin (d : Dev) (r : Raised) : (d.raise r).twin = d.twin := rfl
@[simp] theorem Dev.raise_host (d : Dev) (r : Raised) : (d.raise r).host = d.host := rfl
@[simp] theorem Dev.raise_start (d : Dev) (r : Raised) : (d.raise r).start = d.start := rfl
@[simp] theorem Dev.raise_supply (d : Dev) (r : Raised) : (d.raise r).supply = d.supply := rfl
@[simp] theorem Dev.raise_faults (d : Dev) (r : Raised) : (d.raise r).faults = d.faults := rfl
@[simp] theorem Dev.raise_out (d : Dev) (r : Raised) : (d.raise r).out = d.out := rfl

@[simp] theorem Dev.contained_now (d : Dev) (n k cell addr : Nat) : (d.contained n k cell addr).now = d.now := rfl
@[simp] theorem Dev.contained_free (d : Dev) (n k cell addr : Nat) : (d.contained n k cell addr).free = d.free := rfl
@[simp] theorem Dev.contained_regs (d : Dev) (n k cell addr : Nat) : (d.contained n k cell addr).regs = d.regs := rfl
@[simp] theorem Dev.contained_cellCtl (d : Dev) (n k cell addr : Nat) : (d.contained n k cell addr).cellCtl = d.cellCtl := rfl
@[simp] theorem Dev.contained_latches (d : Dev) (n k cell addr : Nat) : (d.contained n k cell addr).latches = d.latches := rfl
@[simp] theorem Dev.contained_ind (d : Dev) (n k cell addr : Nat) : (d.contained n k cell addr).ind = d.ind := rfl
@[simp] theorem Dev.contained_timers (d : Dev) (n k cell addr : Nat) : (d.contained n k cell addr).timers = d.timers := rfl
@[simp] theorem Dev.contained_chip (d : Dev) (n k cell addr : Nat) : (d.contained n k cell addr).chip = d.chip := rfl
@[simp] theorem Dev.contained_log (d : Dev) (n k cell addr : Nat) : (d.contained n k cell addr).log = d.log := rfl
@[simp] theorem Dev.contained_err (d : Dev) (n k cell addr : Nat) : (d.contained n k cell addr).err = d.err := rfl
@[simp] theorem Dev.contained_clk (d : Dev) (n k cell addr : Nat) : (d.contained n k cell addr).clk = d.clk := rfl
@[simp] theorem Dev.contained_before (d : Dev) (n k cell addr : Nat) : (d.contained n k cell addr).before = d.before := rfl
@[simp] theorem Dev.contained_snap (d : Dev) (n k cell addr : Nat) : (d.contained n k cell addr).snap = d.snap := rfl
@[simp] theorem Dev.contained_mboxOut (d : Dev) (n k cell addr : Nat) : (d.contained n k cell addr).mboxOut = d.mboxOut := rfl
@[simp] theorem Dev.contained_uart (d : Dev) (n k cell addr : Nat) : (d.contained n k cell addr).uart = d.uart := rfl
@[simp] theorem Dev.contained_dump (d : Dev) (n k cell addr : Nat) : (d.contained n k cell addr).dump = d.dump := rfl
@[simp] theorem Dev.contained_time (d : Dev) (n k cell addr : Nat) : (d.contained n k cell addr).time = d.time := rfl
@[simp] theorem Dev.contained_loader (d : Dev) (n k cell addr : Nat) : (d.contained n k cell addr).loader = d.loader := rfl
@[simp] theorem Dev.contained_floor (d : Dev) (n k cell addr : Nat) : (d.contained n k cell addr).floor = d.floor := rfl
@[simp] theorem Dev.contained_frame (d : Dev) (n k cell addr : Nat) : (d.contained n k cell addr).frame = d.frame := rfl
@[simp] theorem Dev.contained_tables (d : Dev) (n k cell addr : Nat) : (d.contained n k cell addr).tables = d.tables := rfl
@[simp] theorem Dev.contained_mgmt (d : Dev) (n k cell addr : Nat) : (d.contained n k cell addr).mgmt = d.mgmt := rfl
@[simp] theorem Dev.contained_dram (d : Dev) (n k cell addr : Nat) : (d.contained n k cell addr).dram = d.dram := rfl
@[simp] theorem Dev.contained_engine (d : Dev) (n k cell addr : Nat) : (d.contained n k cell addr).engine = d.engine := rfl
@[simp] theorem Dev.contained_twin (d : Dev) (n k cell addr : Nat) : (d.contained n k cell addr).twin = d.twin := rfl
@[simp] theorem Dev.contained_host (d : Dev) (n k cell addr : Nat) : (d.contained n k cell addr).host = d.host := rfl
@[simp] theorem Dev.contained_start (d : Dev) (n k cell addr : Nat) : (d.contained n k cell addr).start = d.start := rfl
@[simp] theorem Dev.contained_supply (d : Dev) (n k cell addr : Nat) : (d.contained n k cell addr).supply = d.supply := rfl
@[simp] theorem Dev.contained_faults (d : Dev) (n k cell addr : Nat) : (d.contained n k cell addr).faults = d.faults := rfl
@[simp] theorem Dev.contained_out (d : Dev) (n k cell addr : Nat) : (d.contained n k cell addr).out = d.out := rfl

@[simp] theorem Dev.setFault_now (d : Dev) (k v : Nat) : (d.setFault k v).now = d.now := rfl
@[simp] theorem Dev.setFault_free (d : Dev) (k v : Nat) : (d.setFault k v).free = d.free := rfl
@[simp] theorem Dev.setFault_regs (d : Dev) (k v : Nat) : (d.setFault k v).regs = d.regs := rfl
@[simp] theorem Dev.setFault_cellCtl (d : Dev) (k v : Nat) : (d.setFault k v).cellCtl = d.cellCtl := rfl
@[simp] theorem Dev.setFault_latches (d : Dev) (k v : Nat) : (d.setFault k v).latches = d.latches := rfl
@[simp] theorem Dev.setFault_ind (d : Dev) (k v : Nat) : (d.setFault k v).ind = d.ind := rfl
@[simp] theorem Dev.setFault_timers (d : Dev) (k v : Nat) : (d.setFault k v).timers = d.timers := rfl
@[simp] theorem Dev.setFault_chip (d : Dev) (k v : Nat) : (d.setFault k v).chip = d.chip := rfl
@[simp] theorem Dev.setFault_log (d : Dev) (k v : Nat) : (d.setFault k v).log = d.log := rfl
@[simp] theorem Dev.setFault_err (d : Dev) (k v : Nat) : (d.setFault k v).err = d.err := rfl
@[simp] theorem Dev.setFault_raised (d : Dev) (k v : Nat) : (d.setFault k v).raised = d.raised := rfl
@[simp] theorem Dev.setFault_clk (d : Dev) (k v : Nat) : (d.setFault k v).clk = d.clk := rfl
@[simp] theorem Dev.setFault_before (d : Dev) (k v : Nat) : (d.setFault k v).before = d.before := rfl
@[simp] theorem Dev.setFault_snap (d : Dev) (k v : Nat) : (d.setFault k v).snap = d.snap := rfl
@[simp] theorem Dev.setFault_mboxOut (d : Dev) (k v : Nat) : (d.setFault k v).mboxOut = d.mboxOut := rfl
@[simp] theorem Dev.setFault_uart (d : Dev) (k v : Nat) : (d.setFault k v).uart = d.uart := rfl
@[simp] theorem Dev.setFault_dump (d : Dev) (k v : Nat) : (d.setFault k v).dump = d.dump := rfl
@[simp] theorem Dev.setFault_time (d : Dev) (k v : Nat) : (d.setFault k v).time = d.time := rfl
@[simp] theorem Dev.setFault_loader (d : Dev) (k v : Nat) : (d.setFault k v).loader = d.loader := rfl
@[simp] theorem Dev.setFault_floor (d : Dev) (k v : Nat) : (d.setFault k v).floor = d.floor := rfl
@[simp] theorem Dev.setFault_frame (d : Dev) (k v : Nat) : (d.setFault k v).frame = d.frame := rfl
@[simp] theorem Dev.setFault_tables (d : Dev) (k v : Nat) : (d.setFault k v).tables = d.tables := rfl
@[simp] theorem Dev.setFault_mgmt (d : Dev) (k v : Nat) : (d.setFault k v).mgmt = d.mgmt := rfl
@[simp] theorem Dev.setFault_dram (d : Dev) (k v : Nat) : (d.setFault k v).dram = d.dram := rfl
@[simp] theorem Dev.setFault_engine (d : Dev) (k v : Nat) : (d.setFault k v).engine = d.engine := rfl
@[simp] theorem Dev.setFault_twin (d : Dev) (k v : Nat) : (d.setFault k v).twin = d.twin := rfl
@[simp] theorem Dev.setFault_host (d : Dev) (k v : Nat) : (d.setFault k v).host = d.host := rfl
@[simp] theorem Dev.setFault_start (d : Dev) (k v : Nat) : (d.setFault k v).start = d.start := rfl
@[simp] theorem Dev.setFault_supply (d : Dev) (k v : Nat) : (d.setFault k v).supply = d.supply := rfl
@[simp] theorem Dev.setFault_out (d : Dev) (k v : Nat) : (d.setFault k v).out = d.out := rfl

@[simp] theorem Dev.wrMem_now (d : Dev) (k : Nat) (v : Word) : (d.wrMem k v).now = d.now := rfl
@[simp] theorem Dev.wrMem_free (d : Dev) (k : Nat) (v : Word) : (d.wrMem k v).free = d.free := rfl
@[simp] theorem Dev.wrMem_cellCtl (d : Dev) (k : Nat) (v : Word) : (d.wrMem k v).cellCtl = d.cellCtl := rfl
@[simp] theorem Dev.wrMem_latches (d : Dev) (k : Nat) (v : Word) : (d.wrMem k v).latches = d.latches := rfl
@[simp] theorem Dev.wrMem_ind (d : Dev) (k : Nat) (v : Word) : (d.wrMem k v).ind = d.ind := rfl
@[simp] theorem Dev.wrMem_timers (d : Dev) (k : Nat) (v : Word) : (d.wrMem k v).timers = d.timers := rfl
@[simp] theorem Dev.wrMem_chip (d : Dev) (k : Nat) (v : Word) : (d.wrMem k v).chip = d.chip := rfl
@[simp] theorem Dev.wrMem_log (d : Dev) (k : Nat) (v : Word) : (d.wrMem k v).log = d.log := rfl
@[simp] theorem Dev.wrMem_err (d : Dev) (k : Nat) (v : Word) : (d.wrMem k v).err = d.err := rfl
@[simp] theorem Dev.wrMem_raised (d : Dev) (k : Nat) (v : Word) : (d.wrMem k v).raised = d.raised := rfl
@[simp] theorem Dev.wrMem_clk (d : Dev) (k : Nat) (v : Word) : (d.wrMem k v).clk = d.clk := rfl
@[simp] theorem Dev.wrMem_before (d : Dev) (k : Nat) (v : Word) : (d.wrMem k v).before = d.before := rfl
@[simp] theorem Dev.wrMem_snap (d : Dev) (k : Nat) (v : Word) : (d.wrMem k v).snap = d.snap := rfl
@[simp] theorem Dev.wrMem_mboxOut (d : Dev) (k : Nat) (v : Word) : (d.wrMem k v).mboxOut = d.mboxOut := rfl
@[simp] theorem Dev.wrMem_uart (d : Dev) (k : Nat) (v : Word) : (d.wrMem k v).uart = d.uart := rfl
@[simp] theorem Dev.wrMem_dump (d : Dev) (k : Nat) (v : Word) : (d.wrMem k v).dump = d.dump := rfl
@[simp] theorem Dev.wrMem_time (d : Dev) (k : Nat) (v : Word) : (d.wrMem k v).time = d.time := rfl
@[simp] theorem Dev.wrMem_loader (d : Dev) (k : Nat) (v : Word) : (d.wrMem k v).loader = d.loader := rfl
@[simp] theorem Dev.wrMem_floor (d : Dev) (k : Nat) (v : Word) : (d.wrMem k v).floor = d.floor := rfl
@[simp] theorem Dev.wrMem_frame (d : Dev) (k : Nat) (v : Word) : (d.wrMem k v).frame = d.frame := rfl
@[simp] theorem Dev.wrMem_tables (d : Dev) (k : Nat) (v : Word) : (d.wrMem k v).tables = d.tables := rfl
@[simp] theorem Dev.wrMem_mgmt (d : Dev) (k : Nat) (v : Word) : (d.wrMem k v).mgmt = d.mgmt := rfl
@[simp] theorem Dev.wrMem_dram (d : Dev) (k : Nat) (v : Word) : (d.wrMem k v).dram = d.dram := rfl
@[simp] theorem Dev.wrMem_engine (d : Dev) (k : Nat) (v : Word) : (d.wrMem k v).engine = d.engine := rfl
@[simp] theorem Dev.wrMem_twin (d : Dev) (k : Nat) (v : Word) : (d.wrMem k v).twin = d.twin := rfl
@[simp] theorem Dev.wrMem_host (d : Dev) (k : Nat) (v : Word) : (d.wrMem k v).host = d.host := rfl
@[simp] theorem Dev.wrMem_start (d : Dev) (k : Nat) (v : Word) : (d.wrMem k v).start = d.start := rfl
@[simp] theorem Dev.wrMem_supply (d : Dev) (k : Nat) (v : Word) : (d.wrMem k v).supply = d.supply := rfl
@[simp] theorem Dev.wrMem_out (d : Dev) (k : Nat) (v : Word) : (d.wrMem k v).out = d.out := rfl

@[simp] theorem Dev.bump_now (d : Dev) (a k : Nat) : (d.bump a k).now = d.now := by
  simp only [Dev.bump]; repeat' split
  all_goals rfl
@[simp] theorem Dev.bump_free (d : Dev) (a k : Nat) : (d.bump a k).free = d.free := by
  simp only [Dev.bump]; repeat' split
  all_goals rfl
@[simp] theorem Dev.bump_latches (d : Dev) (a k : Nat) : (d.bump a k).latches = d.latches := by
  simp only [Dev.bump]; repeat' split
  all_goals rfl
@[simp] theorem Dev.bump_ind (d : Dev) (a k : Nat) : (d.bump a k).ind = d.ind := by
  simp only [Dev.bump]; repeat' split
  all_goals rfl
@[simp] theorem Dev.bump_timers (d : Dev) (a k : Nat) : (d.bump a k).timers = d.timers := by
  simp only [Dev.bump]; repeat' split
  all_goals rfl
@[simp] theorem Dev.bump_chip (d : Dev) (a k : Nat) : (d.bump a k).chip = d.chip := by
  simp only [Dev.bump]; repeat' split
  all_goals rfl
@[simp] theorem Dev.bump_log (d : Dev) (a k : Nat) : (d.bump a k).log = d.log := by
  simp only [Dev.bump]; repeat' split
  all_goals rfl
@[simp] theorem Dev.bump_err (d : Dev) (a k : Nat) : (d.bump a k).err = d.err := by
  simp only [Dev.bump]; repeat' split
  all_goals rfl
@[simp] theorem Dev.bump_raised (d : Dev) (a k : Nat) : (d.bump a k).raised = d.raised := by
  simp only [Dev.bump]; repeat' split
  all_goals rfl
@[simp] theorem Dev.bump_before (d : Dev) (a k : Nat) : (d.bump a k).before = d.before := by
  simp only [Dev.bump]; repeat' split
  all_goals rfl
@[simp] theorem Dev.bump_snap (d : Dev) (a k : Nat) : (d.bump a k).snap = d.snap := by
  simp only [Dev.bump]; repeat' split
  all_goals rfl
@[simp] theorem Dev.bump_mboxOut (d : Dev) (a k : Nat) : (d.bump a k).mboxOut = d.mboxOut := by
  simp only [Dev.bump]; repeat' split
  all_goals rfl
@[simp] theorem Dev.bump_uart (d : Dev) (a k : Nat) : (d.bump a k).uart = d.uart := by
  simp only [Dev.bump]; repeat' split
  all_goals rfl
@[simp] theorem Dev.bump_dump (d : Dev) (a k : Nat) : (d.bump a k).dump = d.dump := by
  simp only [Dev.bump]; repeat' split
  all_goals rfl
@[simp] theorem Dev.bump_time (d : Dev) (a k : Nat) : (d.bump a k).time = d.time := by
  simp only [Dev.bump]; repeat' split
  all_goals rfl
@[simp] theorem Dev.bump_loader (d : Dev) (a k : Nat) : (d.bump a k).loader = d.loader := by
  simp only [Dev.bump]; repeat' split
  all_goals rfl
@[simp] theorem Dev.bump_floor (d : Dev) (a k : Nat) : (d.bump a k).floor = d.floor := by
  simp only [Dev.bump]; repeat' split
  all_goals rfl
@[simp] theorem Dev.bump_frame (d : Dev) (a k : Nat) : (d.bump a k).frame = d.frame := by
  simp only [Dev.bump]; repeat' split
  all_goals rfl
@[simp] theorem Dev.bump_tables (d : Dev) (a k : Nat) : (d.bump a k).tables = d.tables := by
  simp only [Dev.bump]; repeat' split
  all_goals rfl
@[simp] theorem Dev.bump_mgmt (d : Dev) (a k : Nat) : (d.bump a k).mgmt = d.mgmt := by
  simp only [Dev.bump]; repeat' split
  all_goals rfl
@[simp] theorem Dev.bump_dram (d : Dev) (a k : Nat) : (d.bump a k).dram = d.dram := by
  simp only [Dev.bump]; repeat' split
  all_goals rfl
@[simp] theorem Dev.bump_engine (d : Dev) (a k : Nat) : (d.bump a k).engine = d.engine := by
  simp only [Dev.bump]; repeat' split
  all_goals rfl
@[simp] theorem Dev.bump_twin (d : Dev) (a k : Nat) : (d.bump a k).twin = d.twin := by
  simp only [Dev.bump]; repeat' split
  all_goals rfl
@[simp] theorem Dev.bump_host (d : Dev) (a k : Nat) : (d.bump a k).host = d.host := by
  simp only [Dev.bump]; repeat' split
  all_goals rfl
@[simp] theorem Dev.bump_start (d : Dev) (a k : Nat) : (d.bump a k).start = d.start := by
  simp only [Dev.bump]; repeat' split
  all_goals rfl
@[simp] theorem Dev.bump_supply (d : Dev) (a k : Nat) : (d.bump a k).supply = d.supply := by
  simp only [Dev.bump]; repeat' split
  all_goals rfl
@[simp] theorem Dev.bump_faults (d : Dev) (a k : Nat) : (d.bump a k).faults = d.faults := by
  simp only [Dev.bump]; repeat' split
  all_goals rfl
@[simp] theorem Dev.bump_out (d : Dev) (a k : Nat) : (d.bump a k).out = d.out := by
  simp only [Dev.bump]; repeat' split
  all_goals rfl

@[simp] theorem Dev.bumpPerf_now (d : Dev) (a k : Nat) : (d.bumpPerf a k).now = d.now := by
  simp only [Dev.bumpPerf]; split <;> simp
@[simp] theorem Dev.bumpPerf_free (d : Dev) (a k : Nat) : (d.bumpPerf a k).free = d.free := by
  simp only [Dev.bumpPerf]; split <;> simp
@[simp] theorem Dev.bumpPerf_latches (d : Dev) (a k : Nat) : (d.bumpPerf a k).latches = d.latches := by
  simp only [Dev.bumpPerf]; split <;> simp
@[simp] theorem Dev.bumpPerf_ind (d : Dev) (a k : Nat) : (d.bumpPerf a k).ind = d.ind := by
  simp only [Dev.bumpPerf]; split <;> simp
@[simp] theorem Dev.bumpPerf_timers (d : Dev) (a k : Nat) : (d.bumpPerf a k).timers = d.timers := by
  simp only [Dev.bumpPerf]; split <;> simp
@[simp] theorem Dev.bumpPerf_chip (d : Dev) (a k : Nat) : (d.bumpPerf a k).chip = d.chip := by
  simp only [Dev.bumpPerf]; split <;> simp
@[simp] theorem Dev.bumpPerf_log (d : Dev) (a k : Nat) : (d.bumpPerf a k).log = d.log := by
  simp only [Dev.bumpPerf]; split <;> simp
@[simp] theorem Dev.bumpPerf_err (d : Dev) (a k : Nat) : (d.bumpPerf a k).err = d.err := by
  simp only [Dev.bumpPerf]; split <;> simp
@[simp] theorem Dev.bumpPerf_raised (d : Dev) (a k : Nat) : (d.bumpPerf a k).raised = d.raised := by
  simp only [Dev.bumpPerf]; split <;> simp
@[simp] theorem Dev.bumpPerf_before (d : Dev) (a k : Nat) : (d.bumpPerf a k).before = d.before := by
  simp only [Dev.bumpPerf]; split <;> simp
@[simp] theorem Dev.bumpPerf_snap (d : Dev) (a k : Nat) : (d.bumpPerf a k).snap = d.snap := by
  simp only [Dev.bumpPerf]; split <;> simp
@[simp] theorem Dev.bumpPerf_mboxOut (d : Dev) (a k : Nat) : (d.bumpPerf a k).mboxOut = d.mboxOut := by
  simp only [Dev.bumpPerf]; split <;> simp
@[simp] theorem Dev.bumpPerf_uart (d : Dev) (a k : Nat) : (d.bumpPerf a k).uart = d.uart := by
  simp only [Dev.bumpPerf]; split <;> simp
@[simp] theorem Dev.bumpPerf_dump (d : Dev) (a k : Nat) : (d.bumpPerf a k).dump = d.dump := by
  simp only [Dev.bumpPerf]; split <;> simp
@[simp] theorem Dev.bumpPerf_time (d : Dev) (a k : Nat) : (d.bumpPerf a k).time = d.time := by
  simp only [Dev.bumpPerf]; split <;> simp
@[simp] theorem Dev.bumpPerf_loader (d : Dev) (a k : Nat) : (d.bumpPerf a k).loader = d.loader := by
  simp only [Dev.bumpPerf]; split <;> simp
@[simp] theorem Dev.bumpPerf_floor (d : Dev) (a k : Nat) : (d.bumpPerf a k).floor = d.floor := by
  simp only [Dev.bumpPerf]; split <;> simp
@[simp] theorem Dev.bumpPerf_frame (d : Dev) (a k : Nat) : (d.bumpPerf a k).frame = d.frame := by
  simp only [Dev.bumpPerf]; split <;> simp
@[simp] theorem Dev.bumpPerf_tables (d : Dev) (a k : Nat) : (d.bumpPerf a k).tables = d.tables := by
  simp only [Dev.bumpPerf]; split <;> simp
@[simp] theorem Dev.bumpPerf_mgmt (d : Dev) (a k : Nat) : (d.bumpPerf a k).mgmt = d.mgmt := by
  simp only [Dev.bumpPerf]; split <;> simp
@[simp] theorem Dev.bumpPerf_dram (d : Dev) (a k : Nat) : (d.bumpPerf a k).dram = d.dram := by
  simp only [Dev.bumpPerf]; split <;> simp
@[simp] theorem Dev.bumpPerf_engine (d : Dev) (a k : Nat) : (d.bumpPerf a k).engine = d.engine := by
  simp only [Dev.bumpPerf]; split <;> simp
@[simp] theorem Dev.bumpPerf_twin (d : Dev) (a k : Nat) : (d.bumpPerf a k).twin = d.twin := by
  simp only [Dev.bumpPerf]; split <;> simp
@[simp] theorem Dev.bumpPerf_host (d : Dev) (a k : Nat) : (d.bumpPerf a k).host = d.host := by
  simp only [Dev.bumpPerf]; split <;> simp
@[simp] theorem Dev.bumpPerf_start (d : Dev) (a k : Nat) : (d.bumpPerf a k).start = d.start := by
  simp only [Dev.bumpPerf]; split <;> simp
@[simp] theorem Dev.bumpPerf_supply (d : Dev) (a k : Nat) : (d.bumpPerf a k).supply = d.supply := by
  simp only [Dev.bumpPerf]; split <;> simp
@[simp] theorem Dev.bumpPerf_faults (d : Dev) (a k : Nat) : (d.bumpPerf a k).faults = d.faults := by
  simp only [Dev.bumpPerf]; split <;> simp
@[simp] theorem Dev.bumpPerf_out (d : Dev) (a k : Nat) : (d.bumpPerf a k).out = d.out := by
  simp only [Dev.bumpPerf]; split <;> simp

@[simp] theorem Dev.logEntry_now (d : Dev) (c n b x : Nat) : (d.logEntry c n b x).now = d.now := by
  simp only [Dev.logEntry]; split <;> simp
@[simp] theorem Dev.logEntry_free (d : Dev) (c n b x : Nat) : (d.logEntry c n b x).free = d.free := by
  simp only [Dev.logEntry]; split <;> simp
@[simp] theorem Dev.logEntry_latches (d : Dev) (c n b x : Nat) : (d.logEntry c n b x).latches = d.latches := by
  simp only [Dev.logEntry]; split <;> simp
@[simp] theorem Dev.logEntry_ind (d : Dev) (c n b x : Nat) : (d.logEntry c n b x).ind = d.ind := by
  simp only [Dev.logEntry]; split <;> simp
@[simp] theorem Dev.logEntry_timers (d : Dev) (c n b x : Nat) : (d.logEntry c n b x).timers = d.timers := by
  simp only [Dev.logEntry]; split <;> simp
@[simp] theorem Dev.logEntry_chip (d : Dev) (c n b x : Nat) : (d.logEntry c n b x).chip = d.chip := by
  simp only [Dev.logEntry]; split <;> simp
@[simp] theorem Dev.logEntry_err (d : Dev) (c n b x : Nat) : (d.logEntry c n b x).err = d.err := by
  simp only [Dev.logEntry]; split <;> simp
@[simp] theorem Dev.logEntry_raised (d : Dev) (c n b x : Nat) : (d.logEntry c n b x).raised = d.raised := by
  simp only [Dev.logEntry]; split <;> simp
@[simp] theorem Dev.logEntry_before (d : Dev) (c n b x : Nat) : (d.logEntry c n b x).before = d.before := by
  simp only [Dev.logEntry]; split <;> simp
@[simp] theorem Dev.logEntry_snap (d : Dev) (c n b x : Nat) : (d.logEntry c n b x).snap = d.snap := by
  simp only [Dev.logEntry]; split <;> simp
@[simp] theorem Dev.logEntry_mboxOut (d : Dev) (c n b x : Nat) : (d.logEntry c n b x).mboxOut = d.mboxOut := by
  simp only [Dev.logEntry]; split <;> simp
@[simp] theorem Dev.logEntry_uart (d : Dev) (c n b x : Nat) : (d.logEntry c n b x).uart = d.uart := by
  simp only [Dev.logEntry]; split <;> simp
@[simp] theorem Dev.logEntry_dump (d : Dev) (c n b x : Nat) : (d.logEntry c n b x).dump = d.dump := by
  simp only [Dev.logEntry]; split <;> simp
@[simp] theorem Dev.logEntry_time (d : Dev) (c n b x : Nat) : (d.logEntry c n b x).time = d.time := by
  simp only [Dev.logEntry]; split <;> simp
@[simp] theorem Dev.logEntry_loader (d : Dev) (c n b x : Nat) : (d.logEntry c n b x).loader = d.loader := by
  simp only [Dev.logEntry]; split <;> simp
@[simp] theorem Dev.logEntry_floor (d : Dev) (c n b x : Nat) : (d.logEntry c n b x).floor = d.floor := by
  simp only [Dev.logEntry]; split <;> simp
@[simp] theorem Dev.logEntry_frame (d : Dev) (c n b x : Nat) : (d.logEntry c n b x).frame = d.frame := by
  simp only [Dev.logEntry]; split <;> simp
@[simp] theorem Dev.logEntry_tables (d : Dev) (c n b x : Nat) : (d.logEntry c n b x).tables = d.tables := by
  simp only [Dev.logEntry]; split <;> simp
@[simp] theorem Dev.logEntry_mgmt (d : Dev) (c n b x : Nat) : (d.logEntry c n b x).mgmt = d.mgmt := by
  simp only [Dev.logEntry]; split <;> simp
@[simp] theorem Dev.logEntry_dram (d : Dev) (c n b x : Nat) : (d.logEntry c n b x).dram = d.dram := by
  simp only [Dev.logEntry]; split <;> simp
@[simp] theorem Dev.logEntry_engine (d : Dev) (c n b x : Nat) : (d.logEntry c n b x).engine = d.engine := by
  simp only [Dev.logEntry]; split <;> simp
@[simp] theorem Dev.logEntry_twin (d : Dev) (c n b x : Nat) : (d.logEntry c n b x).twin = d.twin := by
  simp only [Dev.logEntry]; split <;> simp
@[simp] theorem Dev.logEntry_host (d : Dev) (c n b x : Nat) : (d.logEntry c n b x).host = d.host := by
  simp only [Dev.logEntry]; split <;> simp
@[simp] theorem Dev.logEntry_start (d : Dev) (c n b x : Nat) : (d.logEntry c n b x).start = d.start := by
  simp only [Dev.logEntry]; split <;> simp
@[simp] theorem Dev.logEntry_supply (d : Dev) (c n b x : Nat) : (d.logEntry c n b x).supply = d.supply := by
  simp only [Dev.logEntry]; split <;> simp
@[simp] theorem Dev.logEntry_faults (d : Dev) (c n b x : Nat) : (d.logEntry c n b x).faults = d.faults := by
  simp only [Dev.logEntry]; split <;> simp
@[simp] theorem Dev.logEntry_out (d : Dev) (c n b x : Nat) : (d.logEntry c n b x).out = d.out := by
  simp only [Dev.logEntry]; split <;> simp

@[simp] theorem Dev.logChip_now (d : Dev) (c x : Nat) : (d.logChip c x).now = d.now := by simp [Dev.logChip]
@[simp] theorem Dev.logChip_free (d : Dev) (c x : Nat) : (d.logChip c x).free = d.free := by simp [Dev.logChip]
@[simp] theorem Dev.logChip_latches (d : Dev) (c x : Nat) : (d.logChip c x).latches = d.latches := by simp [Dev.logChip]
@[simp] theorem Dev.logChip_ind (d : Dev) (c x : Nat) : (d.logChip c x).ind = d.ind := by simp [Dev.logChip]
@[simp] theorem Dev.logChip_timers (d : Dev) (c x : Nat) : (d.logChip c x).timers = d.timers := by simp [Dev.logChip]
@[simp] theorem Dev.logChip_chip (d : Dev) (c x : Nat) : (d.logChip c x).chip = d.chip := by simp [Dev.logChip]
@[simp] theorem Dev.logChip_err (d : Dev) (c x : Nat) : (d.logChip c x).err = d.err := by simp [Dev.logChip]
@[simp] theorem Dev.logChip_raised (d : Dev) (c x : Nat) : (d.logChip c x).raised = d.raised := by simp [Dev.logChip]
@[simp] theorem Dev.logChip_before (d : Dev) (c x : Nat) : (d.logChip c x).before = d.before := by simp [Dev.logChip]
@[simp] theorem Dev.logChip_snap (d : Dev) (c x : Nat) : (d.logChip c x).snap = d.snap := by simp [Dev.logChip]
@[simp] theorem Dev.logChip_mboxOut (d : Dev) (c x : Nat) : (d.logChip c x).mboxOut = d.mboxOut := by simp [Dev.logChip]
@[simp] theorem Dev.logChip_uart (d : Dev) (c x : Nat) : (d.logChip c x).uart = d.uart := by simp [Dev.logChip]
@[simp] theorem Dev.logChip_dump (d : Dev) (c x : Nat) : (d.logChip c x).dump = d.dump := by simp [Dev.logChip]
@[simp] theorem Dev.logChip_time (d : Dev) (c x : Nat) : (d.logChip c x).time = d.time := by simp [Dev.logChip]
@[simp] theorem Dev.logChip_loader (d : Dev) (c x : Nat) : (d.logChip c x).loader = d.loader := by simp [Dev.logChip]
@[simp] theorem Dev.logChip_floor (d : Dev) (c x : Nat) : (d.logChip c x).floor = d.floor := by simp [Dev.logChip]
@[simp] theorem Dev.logChip_frame (d : Dev) (c x : Nat) : (d.logChip c x).frame = d.frame := by simp [Dev.logChip]
@[simp] theorem Dev.logChip_tables (d : Dev) (c x : Nat) : (d.logChip c x).tables = d.tables := by simp [Dev.logChip]
@[simp] theorem Dev.logChip_mgmt (d : Dev) (c x : Nat) : (d.logChip c x).mgmt = d.mgmt := by simp [Dev.logChip]
@[simp] theorem Dev.logChip_dram (d : Dev) (c x : Nat) : (d.logChip c x).dram = d.dram := by simp [Dev.logChip]
@[simp] theorem Dev.logChip_engine (d : Dev) (c x : Nat) : (d.logChip c x).engine = d.engine := by simp [Dev.logChip]
@[simp] theorem Dev.logChip_twin (d : Dev) (c x : Nat) : (d.logChip c x).twin = d.twin := by simp [Dev.logChip]
@[simp] theorem Dev.logChip_host (d : Dev) (c x : Nat) : (d.logChip c x).host = d.host := by simp [Dev.logChip]
@[simp] theorem Dev.logChip_start (d : Dev) (c x : Nat) : (d.logChip c x).start = d.start := by simp [Dev.logChip]
@[simp] theorem Dev.logChip_supply (d : Dev) (c x : Nat) : (d.logChip c x).supply = d.supply := by simp [Dev.logChip]
@[simp] theorem Dev.logChip_faults (d : Dev) (c x : Nat) : (d.logChip c x).faults = d.faults := by simp [Dev.logChip]
@[simp] theorem Dev.logChip_out (d : Dev) (c x : Nat) : (d.logChip c x).out = d.out := by simp [Dev.logChip]

@[simp] theorem Dev.escalation_now (d : Dev) (n k u v w : Nat) : (d.escalation n k u v w).now = d.now := by simp [Dev.escalation]
@[simp] theorem Dev.escalation_free (d : Dev) (n k u v w : Nat) : (d.escalation n k u v w).free = d.free := by simp [Dev.escalation]
@[simp] theorem Dev.escalation_latches (d : Dev) (n k u v w : Nat) : (d.escalation n k u v w).latches = d.latches := by simp [Dev.escalation]
@[simp] theorem Dev.escalation_ind (d : Dev) (n k u v w : Nat) : (d.escalation n k u v w).ind = d.ind := by simp [Dev.escalation]
@[simp] theorem Dev.escalation_timers (d : Dev) (n k u v w : Nat) : (d.escalation n k u v w).timers = d.timers := by simp [Dev.escalation]
@[simp] theorem Dev.escalation_chip (d : Dev) (n k u v w : Nat) : (d.escalation n k u v w).chip = d.chip := by simp [Dev.escalation]
@[simp] theorem Dev.escalation_err (d : Dev) (n k u v w : Nat) : (d.escalation n k u v w).err = d.err := by simp [Dev.escalation]
@[simp] theorem Dev.escalation_raised (d : Dev) (n k u v w : Nat) : (d.escalation n k u v w).raised = d.raised := by simp [Dev.escalation]
@[simp] theorem Dev.escalation_before (d : Dev) (n k u v w : Nat) : (d.escalation n k u v w).before = d.before := by simp [Dev.escalation]
@[simp] theorem Dev.escalation_snap (d : Dev) (n k u v w : Nat) : (d.escalation n k u v w).snap = d.snap := by simp [Dev.escalation]
@[simp] theorem Dev.escalation_mboxOut (d : Dev) (n k u v w : Nat) : (d.escalation n k u v w).mboxOut = d.mboxOut := by simp [Dev.escalation]
@[simp] theorem Dev.escalation_uart (d : Dev) (n k u v w : Nat) : (d.escalation n k u v w).uart = d.uart := by simp [Dev.escalation]
@[simp] theorem Dev.escalation_dump (d : Dev) (n k u v w : Nat) : (d.escalation n k u v w).dump = d.dump := by simp [Dev.escalation]
@[simp] theorem Dev.escalation_time (d : Dev) (n k u v w : Nat) : (d.escalation n k u v w).time = d.time := by simp [Dev.escalation]
@[simp] theorem Dev.escalation_loader (d : Dev) (n k u v w : Nat) : (d.escalation n k u v w).loader = d.loader := by simp [Dev.escalation]
@[simp] theorem Dev.escalation_floor (d : Dev) (n k u v w : Nat) : (d.escalation n k u v w).floor = d.floor := by simp [Dev.escalation]
@[simp] theorem Dev.escalation_frame (d : Dev) (n k u v w : Nat) : (d.escalation n k u v w).frame = d.frame := by simp [Dev.escalation]
@[simp] theorem Dev.escalation_tables (d : Dev) (n k u v w : Nat) : (d.escalation n k u v w).tables = d.tables := by simp [Dev.escalation]
@[simp] theorem Dev.escalation_mgmt (d : Dev) (n k u v w : Nat) : (d.escalation n k u v w).mgmt = d.mgmt := by simp [Dev.escalation]
@[simp] theorem Dev.escalation_dram (d : Dev) (n k u v w : Nat) : (d.escalation n k u v w).dram = d.dram := by simp [Dev.escalation]
@[simp] theorem Dev.escalation_engine (d : Dev) (n k u v w : Nat) : (d.escalation n k u v w).engine = d.engine := by simp [Dev.escalation]
@[simp] theorem Dev.escalation_twin (d : Dev) (n k u v w : Nat) : (d.escalation n k u v w).twin = d.twin := by simp [Dev.escalation]
@[simp] theorem Dev.escalation_host (d : Dev) (n k u v w : Nat) : (d.escalation n k u v w).host = d.host := by simp [Dev.escalation]
@[simp] theorem Dev.escalation_start (d : Dev) (n k u v w : Nat) : (d.escalation n k u v w).start = d.start := by simp [Dev.escalation]
@[simp] theorem Dev.escalation_supply (d : Dev) (n k u v w : Nat) : (d.escalation n k u v w).supply = d.supply := by simp [Dev.escalation]
@[simp] theorem Dev.escalation_faults (d : Dev) (n k u v w : Nat) : (d.escalation n k u v w).faults = d.faults := by simp [Dev.escalation]
@[simp] theorem Dev.escalation_out (d : Dev) (n k u v w : Nat) : (d.escalation n k u v w).out = d.out := by simp [Dev.escalation]

@[simp] theorem Dev.fresh_now (d : Dev) : d.fresh.2.now = d.now := rfl
@[simp] theorem Dev.fresh_regs (d : Dev) : d.fresh.2.regs = d.regs := rfl
@[simp] theorem Dev.fresh_cellCtl (d : Dev) : d.fresh.2.cellCtl = d.cellCtl := rfl
@[simp] theorem Dev.fresh_latches (d : Dev) : d.fresh.2.latches = d.latches := rfl
@[simp] theorem Dev.fresh_ind (d : Dev) : d.fresh.2.ind = d.ind := rfl
@[simp] theorem Dev.fresh_timers (d : Dev) : d.fresh.2.timers = d.timers := rfl
@[simp] theorem Dev.fresh_chip (d : Dev) : d.fresh.2.chip = d.chip := rfl
@[simp] theorem Dev.fresh_log (d : Dev) : d.fresh.2.log = d.log := rfl
@[simp] theorem Dev.fresh_err (d : Dev) : d.fresh.2.err = d.err := rfl
@[simp] theorem Dev.fresh_raised (d : Dev) : d.fresh.2.raised = d.raised := rfl
@[simp] theorem Dev.fresh_clk (d : Dev) : d.fresh.2.clk = d.clk := rfl
@[simp] theorem Dev.fresh_before (d : Dev) : d.fresh.2.before = d.before := rfl
@[simp] theorem Dev.fresh_snap (d : Dev) : d.fresh.2.snap = d.snap := rfl
@[simp] theorem Dev.fresh_mboxOut (d : Dev) : d.fresh.2.mboxOut = d.mboxOut := rfl
@[simp] theorem Dev.fresh_uart (d : Dev) : d.fresh.2.uart = d.uart := rfl
@[simp] theorem Dev.fresh_dump (d : Dev) : d.fresh.2.dump = d.dump := rfl
@[simp] theorem Dev.fresh_time (d : Dev) : d.fresh.2.time = d.time := rfl
@[simp] theorem Dev.fresh_loader (d : Dev) : d.fresh.2.loader = d.loader := rfl
@[simp] theorem Dev.fresh_floor (d : Dev) : d.fresh.2.floor = d.floor := rfl
@[simp] theorem Dev.fresh_frame (d : Dev) : d.fresh.2.frame = d.frame := rfl
@[simp] theorem Dev.fresh_tables (d : Dev) : d.fresh.2.tables = d.tables := rfl
@[simp] theorem Dev.fresh_mgmt (d : Dev) : d.fresh.2.mgmt = d.mgmt := rfl
@[simp] theorem Dev.fresh_dram (d : Dev) : d.fresh.2.dram = d.dram := rfl
@[simp] theorem Dev.fresh_engine (d : Dev) : d.fresh.2.engine = d.engine := rfl
@[simp] theorem Dev.fresh_twin (d : Dev) : d.fresh.2.twin = d.twin := rfl
@[simp] theorem Dev.fresh_host (d : Dev) : d.fresh.2.host = d.host := rfl
@[simp] theorem Dev.fresh_start (d : Dev) : d.fresh.2.start = d.start := rfl
@[simp] theorem Dev.fresh_supply (d : Dev) : d.fresh.2.supply = d.supply := rfl
@[simp] theorem Dev.fresh_faults (d : Dev) : d.fresh.2.faults = d.faults := rfl
@[simp] theorem Dev.fresh_out (d : Dev) : d.fresh.2.out = d.out := rfl

@[simp] theorem Dev.freshBool_now (d : Dev) : d.freshBool.2.now = d.now := rfl
@[simp] theorem Dev.freshBool_regs (d : Dev) : d.freshBool.2.regs = d.regs := rfl
@[simp] theorem Dev.freshBool_cellCtl (d : Dev) : d.freshBool.2.cellCtl = d.cellCtl := rfl
@[simp] theorem Dev.freshBool_latches (d : Dev) : d.freshBool.2.latches = d.latches := rfl
@[simp] theorem Dev.freshBool_ind (d : Dev) : d.freshBool.2.ind = d.ind := rfl
@[simp] theorem Dev.freshBool_timers (d : Dev) : d.freshBool.2.timers = d.timers := rfl
@[simp] theorem Dev.freshBool_chip (d : Dev) : d.freshBool.2.chip = d.chip := rfl
@[simp] theorem Dev.freshBool_log (d : Dev) : d.freshBool.2.log = d.log := rfl
@[simp] theorem Dev.freshBool_err (d : Dev) : d.freshBool.2.err = d.err := rfl
@[simp] theorem Dev.freshBool_raised (d : Dev) : d.freshBool.2.raised = d.raised := rfl
@[simp] theorem Dev.freshBool_clk (d : Dev) : d.freshBool.2.clk = d.clk := rfl
@[simp] theorem Dev.freshBool_before (d : Dev) : d.freshBool.2.before = d.before := rfl
@[simp] theorem Dev.freshBool_snap (d : Dev) : d.freshBool.2.snap = d.snap := rfl
@[simp] theorem Dev.freshBool_mboxOut (d : Dev) : d.freshBool.2.mboxOut = d.mboxOut := rfl
@[simp] theorem Dev.freshBool_uart (d : Dev) : d.freshBool.2.uart = d.uart := rfl
@[simp] theorem Dev.freshBool_dump (d : Dev) : d.freshBool.2.dump = d.dump := rfl
@[simp] theorem Dev.freshBool_time (d : Dev) : d.freshBool.2.time = d.time := rfl
@[simp] theorem Dev.freshBool_loader (d : Dev) : d.freshBool.2.loader = d.loader := rfl
@[simp] theorem Dev.freshBool_floor (d : Dev) : d.freshBool.2.floor = d.floor := rfl
@[simp] theorem Dev.freshBool_frame (d : Dev) : d.freshBool.2.frame = d.frame := rfl
@[simp] theorem Dev.freshBool_tables (d : Dev) : d.freshBool.2.tables = d.tables := rfl
@[simp] theorem Dev.freshBool_mgmt (d : Dev) : d.freshBool.2.mgmt = d.mgmt := rfl
@[simp] theorem Dev.freshBool_dram (d : Dev) : d.freshBool.2.dram = d.dram := rfl
@[simp] theorem Dev.freshBool_engine (d : Dev) : d.freshBool.2.engine = d.engine := rfl
@[simp] theorem Dev.freshBool_twin (d : Dev) : d.freshBool.2.twin = d.twin := rfl
@[simp] theorem Dev.freshBool_host (d : Dev) : d.freshBool.2.host = d.host := rfl
@[simp] theorem Dev.freshBool_start (d : Dev) : d.freshBool.2.start = d.start := rfl
@[simp] theorem Dev.freshBool_supply (d : Dev) : d.freshBool.2.supply = d.supply := rfl
@[simp] theorem Dev.freshBool_faults (d : Dev) : d.freshBool.2.faults = d.faults := rfl
@[simp] theorem Dev.freshBool_out (d : Dev) : d.freshBool.2.out = d.out := rfl

/-- A change of the device leaves the queue, the fuses and the flash alone. -/
@[simp] theorem State.onDev_pending (s : State) (g : Dev → Dev) : (s.onDev g).pending = s.pending := rfl
@[simp] theorem State.onDev_fuses (s : State) (g : Dev → Dev) : (s.onDev g).fuses = s.fuses := rfl
@[simp] theorem State.onDev_flash (s : State) (g : Dev → Dev) : (s.onDev g).flash = s.flash := rfl
@[simp] theorem State.onDev_sfdp (s : State) (g : Dev → Dev) : (s.onDev g).sfdp = s.sfdp := rfl
@[simp] theorem State.onDev_dev (s : State) (g : Dev → Dev) : (s.onDev g).dev = g s.dev := rfl

@[simp] theorem Dev.when_true (d : Dev) (g : Dev → Dev) : d.when true g = g d := rfl
@[simp] theorem Dev.when_false (d : Dev) (g : Dev → Dev) : d.when false g = d := rfl
@[simp] theorem Dev.each_nil {α : Type} (d : Dev) (g : α → Dev → Dev) : d.each [] g = d := rfl
@[simp] theorem Dev.each_cons {α : Type} (d : Dev) (x : α) (l : List α) (g : α → Dev → Dev) :
    d.each (x :: l) g = (g x d).each l g := rfl

end Sys2Proof.Machine
end

