-- ==== Sys2Proof/Laws/Maps.lean ====
section
/-! SUPPORT. Sparse maps: what a read gives after a write, and that every operation keeps the canonical form; register words
and fields read back. -/

namespace Sys2Proof.Machine

variable {α : Type}

theorem Map.get_ins (dflt : Nat → α) (m : NMap α) (k j : Nat) (v : α) :
    Map.get dflt (Map.ins m k v) j = if j = k then v else Map.get dflt m j := by
  induction m with
  | nil => simp [Map.ins, Map.get]
  | cons x m ih =>
    obtain ⟨a, b⟩ := x
    simp only [Map.ins]
    split
    · subst_vars; simp only [Map.get]; split <;> simp_all
    · split
      · simp only [Map.get]
      · simp only [Map.get, ih]; split <;> split <;> simp_all

theorem Map.get_del (dflt : Nat → α) (m : NMap α) (k j : Nat) :
    Map.get dflt (Map.del m k) j = if j = k then dflt j else Map.get dflt m j := by
  induction m with
  | nil => simp [Map.del, Map.get]
  | cons x m ih =>
    obtain ⟨a, b⟩ := x
    simp only [Map.del] at ih ⊢
    simp only [List.filter_cons]
    split
    · simp only [Map.get, ih]; split <;> split <;> simp_all
    · simp only [ih, Map.get]; split <;> simp_all

/-- A read after a write gives the value written at its key and leaves every other key alone. -/
theorem Map.get_put [DecidableEq α] (dflt : Nat → α) (m : NMap α) (k j : Nat) (v : α) :
    Map.get dflt (Map.put dflt m k v) j = if j = k then v else Map.get dflt m j := by
  unfold Map.put
  split
  · rw [Map.get_del]; split <;> simp_all
  · rw [Map.get_ins]

theorem Map.get_put_same [DecidableEq α] (dflt : Nat → α) (m : NMap α) (k : Nat) (v : α) :
    Map.get dflt (Map.put dflt m k v) k = v := by simp [Map.get_put]

theorem Map.get_put_ne [DecidableEq α] (dflt : Nat → α) (m : NMap α) {k j : Nat} (v : α) (h : j ≠ k) :
    Map.get dflt (Map.put dflt m k v) j = Map.get dflt m j := by simp [Map.get_put, h]

/-- The canonical form, said of the list: keys strictly rising, no default listed. -/
theorem Map.wf_iff [DecidableEq α] (dflt : Nat → α) (m : NMap α) :
    Map.wf dflt m = true ↔ m.Pairwise (fun x y => x.1 < y.1) ∧ ∀ x ∈ m, x.2 ≠ dflt x.1 := by
  match m with
  | [] => simp [Map.wf]
  | [(k, v)] => simp [Map.wf]
  | (k, v) :: (k', v') :: rest =>
    have ih := Map.wf_iff dflt ((k', v') :: rest)
    simp only [Map.wf, Bool.and_eq_true, decide_eq_true_eq, bne_iff_ne, ih]
    constructor
    · rintro ⟨⟨hk, hv⟩, hp, hd⟩
      refine ⟨List.pairwise_cons.2 ⟨?_, hp⟩, ?_⟩
      · intro y hy
        rcases List.mem_cons.1 hy with rfl | hy
        · exact hk
        · exact Nat.lt_trans hk ((List.pairwise_cons.1 hp).1 y hy)
      · intro x hx
        rcases List.mem_cons.1 hx with rfl | hx
        · exact hv
        · exact hd x hx
    · rintro ⟨hp, hd⟩
      have := List.pairwise_cons.1 hp
      exact ⟨⟨this.1 (k', v') (by simp), hd (k, v) (by simp)⟩, this.2, fun x hx => hd x (List.mem_cons_of_mem _ hx)⟩

theorem Map.ins_mem {m : NMap α} {k : Nat} {v : α} {x : Nat × α} (h : x ∈ Map.ins m k v) : x = (k, v) ∨ x ∈ m := by
  induction m with
  | nil => simpa [Map.ins] using h
  | cons y m ih =>
    obtain ⟨a, b⟩ := y
    simp only [Map.ins] at h
    split at h
    · rcases List.mem_cons.1 h with h | h
      · exact .inl h
      · exact .inr (List.mem_cons_of_mem _ h)
    · split at h
      · rcases List.mem_cons.1 h with h | h
        · exact .inl h
        · exact .inr h
      · rcases List.mem_cons.1 h with h | h
        · exact .inr (by simp [h])
        · rcases ih h with h | h
          · exact .inl h
          · exact .inr (List.mem_cons_of_mem _ h)

theorem Map.ins_sorted {m : NMap α} (k : Nat) (v : α) (h : m.Pairwise (fun x y => x.1 < y.1)) :
    (Map.ins m k v).Pairwise (fun x y => x.1 < y.1) := by
  induction m with
  | nil => simp [Map.ins]
  | cons y m ih =>
    obtain ⟨a, b⟩ := y
    have hc := List.pairwise_cons.1 h
    simp only [Map.ins]
    split
    · subst_vars; exact List.pairwise_cons.2 ⟨hc.1, hc.2⟩
    · split
      · rename_i hlt
        refine List.pairwise_cons.2 ⟨?_, h⟩
        intro z hz
        rcases List.mem_cons.1 hz with rfl | hz
        · exact hlt
        · exact Nat.lt_trans hlt (hc.1 z hz)
      · rename_i hne hnl
        refine List.pairwise_cons.2 ⟨?_, ih hc.2⟩
        intro z hz
        rcases Map.ins_mem hz with rfl | hz
        · show a < k; omega
        · exact hc.1 z hz

/-- A write keeps the canonical form. -/
theorem Map.wf_put [DecidableEq α] (dflt : Nat → α) {m : NMap α} (k : Nat) (v : α) (h : Map.wf dflt m = true) :
    Map.wf dflt (Map.put dflt m k v) = true := by
  rw [Map.wf_iff] at h ⊢
  unfold Map.put
  split
  · exact ⟨h.1.filter _, fun x hx => h.2 x (List.mem_filter.1 hx).1⟩
  · refine ⟨Map.ins_sorted k v h.1, ?_⟩
    intro x hx
    rcases Map.ins_mem hx with rfl | hx
    · assumption
    · exact h.2 x hx

/-! ## Register words -/

/-- A word reads back after it is written; every other word is as it was. -/
theorem Dev.rd_wr (d : Dev) (a b : Nat) (v : Word) : (d.wr a v).rd b = if b = a then v else d.rd b := by
  simp [Dev.rd, Dev.wr, Map.get_put]

@[simp] theorem Dev.rd_wr_same (d : Dev) (a : Nat) (v : Word) : (d.wr a v).rd a = v := by simp [Dev.rd_wr]

theorem Dev.rd_wr_ne (d : Dev) {a b : Nat} (v : Word) (h : b ≠ a) : (d.wr a v).rd b = d.rd b := by simp [Dev.rd_wr, h]

theorem Fld.get_lt (f : Fld) (w : Word) : f.get w < 2 ^ f.width := Nat.mod_lt _ (Nat.two_pow_pos _)

/-- Arithmetic of a field: `L` and `D` are the field's weight and size, `W` the word and `X` the new value. -/
theorem Fld.replace {W L D X T : Nat} (hl : 0 < L) (hW : W < L * D * T) (hx : X < D) :
    W - W / L % D * L + X * L < L * D * T ∧ (W - W / L % D * L + X * L) / L % D = X
      ∧ (W - W / L % D * L + X * L) % L = W % L ∧ (W - W / L % D * L + X * L) / L / D = W / L / D := by
  have hd : 0 < D := by omega
  have hml := Nat.mod_lt W hl
  have key : W - W / L % D * L + X * L = L * (D * (W / L / D) + X) + W % L := by
    have e : W = L * (D * (W / L / D)) + L * (W / L % D) + W % L := by
      rw [← Nat.mul_add, Nat.div_add_mod]; exact (Nat.div_add_mod W L).symm
    have c : W / L % D * L = L * (W / L % D) := Nat.mul_comm _ _
    have c2 : X * L = L * X := Nat.mul_comm _ _
    rw [c, c2, Nat.mul_add]
    omega
  have q : (L * (D * (W / L / D) + X) + W % L) / L = D * (W / L / D) + X := by
    rw [Nat.mul_add_div hl, Nat.div_eq_of_lt hml, Nat.add_zero]
  refine ⟨?_, ?_, ?_, ?_⟩
  · rw [key]
    have hq : W / L / D < T := by
      rw [Nat.div_div_eq_div_mul]
      exact Nat.div_lt_of_lt_mul hW
    have a : D * (W / L / D) + X + 1 ≤ D * T := by
      have := Nat.mul_le_mul_left D (show W / L / D + 1 ≤ T from hq)
      rw [Nat.mul_add, Nat.mul_one] at this
      omega
    have b := Nat.mul_le_mul_left L a
    rw [Nat.mul_add, Nat.mul_one, ← Nat.mul_assoc] at b
    omega
  · rw [key, q, Nat.mul_add_mod, Nat.mod_eq_of_lt hx]
  · rw [key, Nat.mul_add_mod, Nat.mod_eq_of_lt hml]
  · rw [key, q, Nat.mul_add_div hd, Nat.div_eq_of_lt hx, Nat.add_zero]

theorem Fld.weight (f : Fld) (h : f.lo + f.width ≤ 32) : 2 ^ f.lo * 2 ^ f.width * 2 ^ (32 - f.lo - f.width) = 2 ^ 32 := by
  rw [← Nat.pow_add, ← Nat.pow_add]; congr 1; omega

/-- The word with a field put, as a number. -/
theorem Fld.put_toNat (f : Fld) (w : Word) (v : Nat) (h : f.lo + f.width ≤ 32) :
    (f.put w v).toNat = w.toNat - w.toNat / 2 ^ f.lo % 2 ^ f.width * 2 ^ f.lo + v % 2 ^ f.width * 2 ^ f.lo := by
  have hw : w.toNat < 2 ^ f.lo * 2 ^ f.width * 2 ^ (32 - f.lo - f.width) := by rw [Fld.weight f h]; exact w.isLt
  have r := Fld.replace (Nat.two_pow_pos f.lo) hw (Nat.mod_lt v (Nat.two_pow_pos f.width))
  unfold Fld.put Fld.get
  rw [BitVec.toNat_ofNat, Nat.mod_eq_of_lt (by rw [← Fld.weight f h]; exact r.1)]

/-- A field that fits into the word reads back after it is put. -/
theorem Fld.get_put (f : Fld) (w : Word) (v : Nat) (h : f.lo + f.width ≤ 32) : f.get (f.put w v) = v % 2 ^ f.width := by
  have hw : w.toNat < 2 ^ f.lo * 2 ^ f.width * 2 ^ (32 - f.lo - f.width) := by rw [Fld.weight f h]; exact w.isLt
  have r := Fld.replace (Nat.two_pow_pos f.lo) hw (Nat.mod_lt v (Nat.two_pow_pos f.width))
  show (f.put w v).toNat / 2 ^ f.lo % 2 ^ f.width = _
  rw [Fld.put_toNat f w v h]; exact r.2.1

theorem Dev.fget_fset (d : Dev) (a : Nat) (f : Fld) (v : Nat) (h : f.lo + f.width ≤ 32) :
    (d.fset a f v).fget a f = v % 2 ^ f.width := by
  simp [Dev.fget, Dev.fset, Fld.get_put _ _ _ h]

theorem Dev.fget_wr_ne (d : Dev) {a b : Nat} (v : Word) (f : Fld) (h : b ≠ a) : (d.wr a v).fget b f = d.fget b f := by
  simp [Dev.fget, Dev.rd_wr_ne d v h]

theorem Dev.fget_fset_ne (d : Dev) {a b : Nat} (f g : Fld) (v : Nat) (h : b ≠ a) :
    (d.fset a f v).fget b g = d.fget b g := Dev.fget_wr_ne d _ g h

/-- Another field of the same word keeps its value. -/
theorem Fld.get_put_other (f g : Fld) (w : Word) (v : Nat) (h : f.lo + f.width ≤ 32)
    (d : g.lo + g.width ≤ f.lo ∨ f.lo + f.width ≤ g.lo) : g.get (f.put w v) = g.get w := by
  have hw : w.toNat < 2 ^ f.lo * 2 ^ f.width * 2 ^ (32 - f.lo - f.width) := by rw [Fld.weight f h]; exact w.isLt
  have r := Fld.replace (Nat.two_pow_pos f.lo) hw (Nat.mod_lt v (Nat.two_pow_pos f.width))
  show (f.put w v).toNat / 2 ^ g.lo % 2 ^ g.width = w.toNat / 2 ^ g.lo % 2 ^ g.width
  rw [Fld.put_toNat f w v h]
  generalize w.toNat - w.toNat / 2 ^ f.lo % 2 ^ f.width * 2 ^ f.lo + v % 2 ^ f.width * 2 ^ f.lo = Z at *
  generalize w.toNat = W at *
  rcases d with d | d
  · have low : ∀ n : Nat, n / 2 ^ g.lo % 2 ^ g.width = n % 2 ^ f.lo / 2 ^ g.lo % 2 ^ g.width := by
      intro n
      have e : 2 ^ f.lo = 2 ^ g.lo * 2 ^ (f.lo - g.lo) := by rw [← Nat.pow_add]; congr 1; omega
      rw [e, Nat.mod_mul_right_div_self, Nat.mod_mod_of_dvd]
      exact Nat.pow_dvd_pow 2 (by omega)
    rw [low Z, low W, r.2.2.1]
  · have high : ∀ n : Nat, n / 2 ^ g.lo = n / 2 ^ f.lo / 2 ^ f.width / 2 ^ (g.lo - f.lo - f.width) := by
      intro n
      rw [Nat.div_div_eq_div_mul, Nat.div_div_eq_div_mul, ← Nat.pow_add, ← Nat.pow_add]; congr 2; omega
    rw [high Z, high W, r.2.2.2]

end Sys2Proof.Machine
end

