-- ==== Sys2Proof/Laws/Calm.lean ====
section
/-! SUPPORT. A command that leaves a calm device settles at once: the state it answers is the one its own effect gives. -/

namespace Sys2Proof.Machine

theorem Dev.Calm.intDeliverable {d : Dev} (h : d.Calm) : d.intDeliverable = false := by
  unfold Dev.intDeliverable
  rcases h.message with h | h
  · rw [h]
  · split <;> simp [Dev.intSummary, h]

theorem Dev.Calm.interrupt {d : Dev} (h : d.Calm) (b : Bool) : d.interrupt b = d := by
  unfold Dev.interrupt
  split <;> simp [h.intDeliverable]

theorem Dev.Calm.refreshRxWait {d : Dev} (h : d.Calm) (n : Nat) : d.refreshRxWait n = d := by
  have e : d.timers.filter (fun x => x.1.kind == .rxWait && x.1.a / 64 == n && !(List.contains [] (x.1.a % 64, x.1.b))) = [] := by
    apply List.filter_eq_nil_iff.2
    intro x hx
    have := h.rxWait x hx
    simp [this]
  have p : d.hostFrames n = [] := by simp [Dev.hostFrames, h.hostRx, Map.get]
  unfold Dev.refreshRxWait
  simp only [p, List.flatMap_nil, List.eraseDups_nil, e, Dev.each_nil]

theorem Dev.Calm.siloNews {s : State} (h : s.dev.Calm) : s.siloNews = s := by
  have e1 : s.dev.out.filter (·.isSilo) = [] := List.filter_eq_nil_iff.2 (fun e he => by simp [h.silo e he])
  have e2 : s.dev.out.filter (fun e => !e.isSilo) = s.dev.out := List.filter_eq_self.2 (fun e he => by simp [h.silo e he])
  simp only [State.siloNews, e1, e2, List.foldl_nil]

theorem Dev.Calm.hostNews {d : Dev} (h : d.Calm) : d.hostNews = d := by
  have e : ∀ x y, x = d.frame.heard → y = d.frame.tsBack →
      ({ d with frame := { d.frame with heard := x, tsBack := y } } : Dev) = d := by rintro _ _ rfl rfl; rfl
  unfold Dev.hostNews
  simp only [h.heard, h.tsBack, List.filter_nil, Dev.each_nil, e _ _ h.heard.symm h.tsBack.symm]

theorem Dev.Calm.txDoneTasks {d : Dev} (h : d.Calm) : d.txDoneTasks = d := by
  have e : ∀ y, y = d.frame.tsBack → ({ d with frame := { d.frame with tsBack := y } } : Dev) = d := by rintro _ rfl; rfl
  unfold Dev.txDoneTasks
  simp only [h.tsBack, List.filter_nil, Dev.each_nil, e _ h.tsBack.symm]

theorem Dev.Calm.rxServe {d : Dev} (h : d.Calm) (n : Nat) : d.rxServe n = d := by
  have hand : d.rxHand n = none := by simp [Dev.rxHand, h.rxHand, Map.get]
  have head : ∀ i q, d.rxHead n i q = none := by
    intro i q; simp [Dev.rxHead, Dev.hostFrames, h.hostRx, Map.get]
  have ready : ∀ i q, d.rxReady n i q = none := by intro i q; simp [Dev.rxReady, head]
  have next : d.rxNext n = none := by simp [Dev.rxNext, ready]
  simp [Dev.rxServe, Dev.rxDrop, Dev.rxTake, hand, next, Dev.when]

theorem Dev.Calm.windowPasses {d : Dev} (h : d.Calm) : d.windowPasses = d := by simp [Dev.windowPasses, h.passes]

theorem Dev.Calm.follow {d : Dev} (h : d.Calm) : d.follow = d := by
  unfold Dev.follow
  simp only [h.txDoneTasks, h.hostNews, Dev.each_cons, Dev.each_nil, h.refreshRxWait, h.rxServe, h.windowPasses, h.started,
    Dev.when_false]
  simp [Dev.dumpFollowsSilo, h.dump]

theorem Dev.Calm.handleRaised {s : State} (h : s.dev.Calm) (k : Nat) : s.handleRaised k = s := by
  cases k with
  | zero => rfl
  | succ k => simp [State.handleRaised, h.raised, nextRaised]

/-- On a calm device the end of a command changes nothing. -/
theorem State.settle_calm {s : State} (h : s.dev.Calm) (b : Bool) : s.settle b = s := by
  have f : s.onDev (·.follow) = s := by simp [State.onDev, h.follow]
  have g : s.onDev (·.interrupt b) = s := by simp [State.onDev, h.interrupt]
  simp only [State.settle, h.siloNews, f, g]

/-- A command whose own effect leaves a calm device answers the state of that effect, with the queue as it was. -/
theorem State.run_calm {s : State} {act : State → State} (on : s.dev.chip.state ≠ .off) (h : (act s).dev.Calm) :
    s.run act = .next { act s with pending := s.pending } := by
  simp [State.run, on, State.settle_calm h]

theorem State.runDev_calm {s : State} {act : Dev → Dev} (on : s.dev.chip.state ≠ .off) (h : (act s.dev).Calm) :
    s.runDev act = .next (s.onDev act) := by
  rw [State.runDev, State.run_calm (act := fun s => s.onDev act) on h]; rfl

end Sys2Proof.Machine
end

