-- ==== Sys2Proof/Laws/Done.lean ====
section
/-! SUPPORT. Citing a command's meaning without unfolding it: a command of a device that has its supplies answers the state
its own effect leaves (`State.done`, `State.did`), a register command where the register takes the write, and a command that
raises one error the state in which that error is handled. -/

namespace Sys2Proof.Machine

theorem State.run_did {s : State} {act g : State → State} (on : s.dev.chip.state ≠ .off) (e : act s = g s) :
    s.run act = .next (s.did g) := by simp [State.run, on, State.did, e]

theorem State.runDev_done {s : State} {act g : Dev → Dev} (on : s.dev.chip.state ≠ .off) (e : act s.dev = g s.dev) :
    s.runDev act = .next (s.done g) := State.run_did on (by simp [State.onDev, e])

theorem State.runPort_done {s : State} {p : PortId} {act g : Dev → Dev} (on : s.dev.chip.state ≠ .off) (hp : portExists p = true)
    (e : act s.dev = g s.dev) : s.runPort p act = .next (s.done g) := State.runDev_done on (by simp [hp, e])

theorem State.runSource_done {s : State} {src : FrameSource} {act : Origin → Dev → Dev} {g : Dev → Dev} (on : s.dev.chip.state ≠ .off)
    (h : sourceExists src = true) (e : act (sourceOrigin src) s.dev = g s.dev) : s.runSource src act = .next (s.done g) :=
  State.runDev_done on (by simp [h, e])

theorem State.command_of {s : State} {m : Master} {a : Nat} {g : LiveGroup} {act : State → State} (acc : s.dev.Accepts m a)
    (live : s.dev.groupLive g a = true) : s.command m a g act = act s := by
  simp [State.command, show s.dev.judgeWrite m a 15 = (s.dev, some a) from acc, live]

theorem State.writeAccess_of {s : State} {m : Master} {a : Nat} (v : Word) (acc : s.dev.Accepts m a) :
    s.writeAccess m a 15 v = s.writeReg m a v := by
  simp [State.writeAccess, show s.dev.judgeWrite m a 15 = (s.dev, some a) from acc]

theorem State.runCommand_did {s : State} {m : Master} {a : Nat} {g : LiveGroup} {act k : State → State} (on : s.dev.chip.state ≠ .off)
    (acc : s.dev.Accepts m a) (live : s.dev.groupLive g a = true) (e : act s = k s) :
    s.run (fun s => s.command m a g act) = .next (s.did k) := State.run_did on (by rw [State.command_of acc live, e])

theorem State.runCommand_done {s : State} {m : Master} {a : Nat} {g : LiveGroup} {act k : Dev → Dev} (on : s.dev.chip.state ≠ .off)
    (acc : s.dev.Accepts m a) (live : s.dev.groupLive g a = true) (e : act s.dev = k s.dev) :
    s.run (fun s => s.command m a g (fun s => s.onDev act)) = .next (s.done k) :=
  State.runCommand_did on acc live (by simp [State.onDev, e])

theorem State.runTakes_done {s : State} {m : Master} {a : Nat} {g : LiveGroup} {act k : Dev → Dev} (on : s.dev.chip.state ≠ .off)
    (tk : s.dev.Takes m a g) (e : act s.dev = k s.dev) :
    s.run (fun s => s.command m a g (fun s => s.onDev act)) = .next (s.done k) := State.runCommand_done on tk.1 tk.2 e

/-- The handling of one error, where no other is raised (R9). -/
theorem State.raise_handled {s : State} {r : Raised} {g : State → State} (q : s.dev.raised = []) (e : State.handle s r = g s) :
    (s.onDev (·.raise r)).handleErrors = s.handled g := by
  have h : ∀ d : Dev, d.raised = [] → ({ d.raise r with raised := [] } : Dev) = d := by
    intro d h
    obtain ⟨c, b⟩ := d
    cases c
    simp only [Dev.raise] at *; subst h; rfl
  have k : (s.dev.raise r).raised = [r] := by simp [Dev.raise, q]
  have f : nextRaised [r] = some r := by cases r <;> simp [nextRaised, Raised.rank]
  have y : [r].filter (fun x => !yields [r] x) = [r] := by cases r <;> simp [yields]
  unfold State.handleErrors
  simp only [State.onDev, k, y, List.length_cons, List.length_nil]
  show State.handleRaised _ (64 + 1) = _
  rw [State.handleRaised]
  simp only [f, List.erase_cons_head, State.handled]
  have : ({ s with dev := { { s.dev.raise r with raised := [r] } with raised := [] } } : State) = s := by
    have := h s.dev q
    cases s; simp only at this ⊢; exact congrArg _ this
  rw [this, e]

theorem State.did_calm {s : State} {act : State → State} (h : (act s).dev.Calm) : s.did act = { act s with pending := s.pending } := by
  simp [State.did, State.settle_calm h]

theorem State.done_calm {s : State} {g : Dev → Dev} (h : (g s.dev).Calm) : s.done g = s.onDev g := by
  rw [State.done, State.did_calm h]; rfl

theorem Dev.issued_of {d : Dev} {e t op : Nat} {w : Word} {x : Thread} (h : d.Issues e t op w x) :
    d.issued e t op = (some (w, x), d.startIssue e t) := by
  obtain ⟨rfl, r, i, n, f, rfl, l, o⟩ := h
  simp only [Dev.issued, r, i, n, Bool.not_true, Bool.or_self, bne_self_eq_false, Bool.false_eq_true, ↓reduceIte, f, l, o, ne_eq,
    not_true_eq_false]

theorem Dev.issue_of {d : Dev} {e t op : Nat} {w : Word} {x : Thread} {run : Word → Thread → Dev → Dev} (h : d.Issues e t op w x) :
    d.issue e t op run = run w x (d.startIssue e t) := by simp only [Dev.issue, Dev.issued_of h]

/-- A register command whose write is refused does what the refusal does. -/
theorem State.command_refused {s : State} {m : Master} {a : Nat} {g : LiveGroup} {act : State → State} (on : s.dev.chip.state ≠ .off)
    (h : (s.dev.judgeWrite m a 15).2 = none) : s.run (fun s => s.command m a g act) = .next (s.done fun d => (d.judgeWrite m a 15).1) :=
  State.run_did on (by simp only [State.command, h, State.onDev])

/-- A register command whose group is not live is counted and does nothing else (R93). -/
theorem State.command_guarded {s : State} {m : Master} {a : Nat} {g : LiveGroup} {act : State → State} (on : s.dev.chip.state ≠ .off)
    (acc : s.dev.Accepts m a) (h : s.dev.groupLive g a = false) :
      s.run (fun s => s.command m a g act) = .next (s.done fun d => d.bump R.LDR_LIVE_IGN) :=
  State.run_did on (by simp only [State.command, show s.dev.judgeWrite m a 15 = (s.dev, some a) from acc, h,
    State.onDev, Bool.false_eq_true, ↓reduceIte])

/-- A command of a port without a MAC does nothing. -/
theorem State.port_absent {s : State} {p : PortId} {act : Dev → Dev} (on : s.dev.chip.state ≠ .off) (h : (!portExists p) = true) :
    s.runPort p act = .next (s.done id) := by
  have h' : portExists p = false := by simpa using h
  exact State.runDev_done (g := id) on (by simp [h'])

/-- A command of a source that does not exist does nothing. -/
theorem State.source_absent {s : State} {p : FrameSource} {act} (on : s.dev.chip.state ≠ .off) (h : (!sourceExists p) = true) :
    s.runSource p act = .next (s.done id) := by
  have h' : sourceExists p = false := by simpa using h
  exact State.runDev_done (g := id) on (by simp [h'])

end Sys2Proof.Machine
end

