-- ==== Sys2Proof/Laws/Fields.lean ====
section
/-! SUPPORT. Software writes of a register word, field by field: the fields of every row of the register maps stand apart, so
each takes what its access says. -/

namespace Sys2Proof.Machine

/-- Fields that lie within a word and do not overlap. -/
def fieldsApart (l : List FieldDesc) : Bool :=
  l.all (fun f => decide (f.fld.lo + f.fld.width ≤ 32)) &&
    decide (l.Pairwise (fun f g => f.fld.lo + f.fld.width ≤ g.fld.lo ∨ g.fld.lo + g.fld.width ≤ f.fld.lo))

/-- Every row of the register maps. -/
def allRegs : List RegDesc :=
  (List.range 16).flatMap chipMap ++ (List.range 256).flatMap rgnMap ++ mapInstance ++ (List.range 256).flatMap spaceMap

theorem allRegs_apart : allRegs.all (fun r => fieldsApart r.fields) = true := by decide +kernel

theorem regAt_mem {a : Nat} {r : RegDesc} (h : regAt a = some r) : r ∈ allRegs := by
  unfold regAt at h
  unfold allRegs
  split at h
  · have := List.mem_of_find?_eq_some h
    have k : a / 0x10000 < 16 := by omega
    simp only [List.mem_append, List.mem_flatMap, List.mem_range]
    exact .inl (.inl (.inl ⟨_, k, this⟩))
  · split at h
    · cases h
    · split at h
      · have := List.mem_of_find?_eq_some h
        have k : a / 0x10000 % 0x100 < 256 := Nat.mod_lt _ (by decide)
        simp only [List.mem_append, List.mem_flatMap, List.mem_range]
        exact .inl (.inl (.inr ⟨_, k, this⟩))
      · split at h
        · cases h
        · split at h
          · have := List.mem_of_find?_eq_some h
            simp only [List.mem_append]; exact .inl (.inr this)
          · dsimp only at h
            have m := List.mem_of_find?_eq_some h
            by_cases k : (a - 0x200000000) / 0x04000000 < 256
            · simp only [List.mem_append, List.mem_flatMap, List.mem_range]
              exact .inr ⟨_, k, m⟩
            · exfalso
              have : spaceMap ((a - 0x200000000) / 0x04000000) = [] := by
                generalize (a - 0x200000000) / 0x04000000 = x at k ⊢
                unfold spaceMap
                split <;> first | rfl | omega
              rw [this] at m; cases m

theorem fieldsApart_of {a : Nat} {r : RegDesc} (h : regAt a = some r) : fieldsApart r.fields = true :=
  List.all_eq_true.1 allRegs_apart r (regAt_mem h)

theorem Nat.land_lt_pow {x y w : Nat} (h : x < 2 ^ w) : Nat.land x y < 2 ^ w := Nat.lt_of_le_of_lt Nat.and_le_left h

theorem applyField_same (live : Bool) (set : Nat) (f : FieldDesc) (w v : Word) (h : f.fld.lo + f.fld.width ≤ 32) :
    f.fld.get (applyField live set f w v) = fieldAfter live set f w v := by
  have hm : ∀ x, f.fld.get x % 2 ^ f.fld.width = f.fld.get x := fun x => Nat.mod_eq_of_lt (Fld.get_lt _ _)
  unfold applyField fieldAfter
  cases e : f.access <;> dsimp only
  · rw [Fld.get_put _ _ _ h, hm]
  · split
    · rw [Fld.get_put _ _ _ h, hm]
    · rfl
  · rw [Fld.get_put _ _ _ h]
    exact Nat.mod_eq_of_lt (Nat.land_lt_pow (Fld.get_lt _ _))

theorem applyField_other (live : Bool) (set : Nat) (f g : FieldDesc) (w v : Word) (h : f.fld.lo + f.fld.width ≤ 32)
    (d : f.fld.lo + f.fld.width ≤ g.fld.lo ∨ g.fld.lo + g.fld.width ≤ f.fld.lo) :
    g.fld.get (applyField live set f w v) = g.fld.get w := by
  unfold applyField
  cases e : f.access <;> dsimp only
  · exact Fld.get_put_other _ _ _ _ h (by omega)
  · split
    · exact Fld.get_put_other _ _ _ _ h (by omega)
    · rfl
  · exact Fld.get_put_other _ _ _ _ h (by omega)

theorem fieldAfter_congr (live : Bool) (set : Nat) (f : FieldDesc) {w w' : Word} (v : Word) (h : f.fld.get w = f.fld.get w') :
    fieldAfter live set f w v = fieldAfter live set f w' v := by unfold fieldAfter; rw [h]

theorem foldFields_other (live : FieldDesc → Bool) (set : Nat) (g : FieldDesc) (v : Word) (l : List FieldDesc) (w : Word)
    (h : ∀ f ∈ l, f.fld.lo + f.fld.width ≤ 32)
    (d : ∀ f ∈ l, f.fld.lo + f.fld.width ≤ g.fld.lo ∨ g.fld.lo + g.fld.width ≤ f.fld.lo) :
    g.fld.get (l.foldl (fun w f => applyField (live f) set f w v) w) = g.fld.get w := by
  induction l generalizing w with
  | nil => rfl
  | cons f l ih =>
    rw [List.foldl_cons, ih _ (fun f hf => h f (by simp [hf])) (fun f hf => d f (by simp [hf]))]
    exact applyField_other _ _ _ _ _ _ (h f (by simp)) (d f (by simp))

theorem foldFields (live : FieldDesc → Bool) (set : Nat) (v : Word) (l : List FieldDesc) (w : Word)
    (h : ∀ f ∈ l, f.fld.lo + f.fld.width ≤ 32)
    (p : l.Pairwise (fun f g => f.fld.lo + f.fld.width ≤ g.fld.lo ∨ g.fld.lo + g.fld.width ≤ f.fld.lo)) (g : FieldDesc) (hg : g ∈ l) :
    g.fld.get (l.foldl (fun w f => applyField (live f) set f w v) w) = fieldAfter (live g) set g w v := by
  induction l generalizing w with
  | nil => cases hg
  | cons f l ih =>
    rw [List.pairwise_cons] at p
    rw [List.foldl_cons]
    rcases List.mem_cons.1 hg with rfl | hg
    · rw [foldFields_other live set g v l _ (fun f hf => h f (by simp [hf])) (fun f hf => by have := p.1 f hf; omega)]
      exact applyField_same _ _ _ _ _ (h g (by simp))
    · rw [ih _ (fun f hf => h f (by simp [hf])) p.2 hg]
      exact fieldAfter_congr _ _ _ _ (applyField_other _ _ _ _ _ _ (h f (by simp)) (p.1 g hg))

theorem Dev.rd_bump_ne (d : Dev) {a b : Nat} (k : Nat) (h : b ≠ a) (h' : b ≠ a + 4) : (d.bump a k).rd b = d.rd b := by
  unfold Dev.bump
  split
  · rfl
  · dsimp only
    split
    · rw [Dev.rd_wr_ne _ _ h]
    · split
      · split
        · rw [Dev.rd_wr_ne _ _ h', Dev.rd_wr_ne _ _ h]
        · show Dev.rd (Dev.setOvf _ _) b = _
          show Dev.rd (Dev.wr (Dev.wr d a _) (a + 4) _) b = _
          rw [Dev.rd_wr_ne _ _ h', Dev.rd_wr_ne _ _ h]
      · show Dev.rd (Dev.wr d a _) b = _
        rw [Dev.rd_wr_ne _ _ h]

def guardedField (f : FieldDesc) : Bool := (f.access == .rwl || f.access == .wo || f.access == .w1s) && f.group != .none

theorem Dev.rd_storeWord (d : Dev) (a : Nat) (r : RegDesc) (v : Word) (h : regAt a = some r) :
    (d.storeWord a r v).rd a = r.fields.foldl (fun w f => applyField (d.groupLive f.group a) (maskAt d.clk.hwSet a) f w v) (d.rd a) := by
  unfold Dev.storeWord
  dsimp only
  split
  · rename_i k
    rw [List.any_eq_true] at k
    obtain ⟨f, hf, k⟩ := k
    rw [Dev.rd_bump_ne]
    · exact Dev.rd_wr_same _ _ _
    · rintro rfl
      have e : ∀ r, regAt R.LDR_LIVE_IGN = some r → r.fields.any guardedField = false := by
        intro r h; have : (regAt R.LDR_LIVE_IGN).all (fun r => !r.fields.any guardedField) = true := by decide +kernel
        rw [h] at this; simpa using this
      have := e r h
      rw [List.any_eq_false] at this
      exact this f hf (by simp only [guardedField]; simp only [Bool.and_eq_true] at k ⊢; exact k.1)
    · rintro rfl
      have e : ∀ r, regAt (R.LDR_LIVE_IGN + 4) = some r → r.fields.any guardedField = false := by
        intro r h; have : (regAt (R.LDR_LIVE_IGN + 4)).all (fun r => !r.fields.any guardedField) = true := by decide +kernel
        rw [h] at this; simpa using this
      have := e r h
      rw [List.any_eq_false] at this
      exact this f hf (by simp only [guardedField]; simp only [Bool.and_eq_true] at k ⊢; exact k.1)
  · exact Dev.rd_wr_same _ _ _

/-- A field after a plain write of its register (R19, R92, Table 0-8). -/
theorem Dev.fget_plain (d : Dev) (a : Nat) (r : RegDesc) (v : Word) (h : regAt a = some r) (f : FieldDesc) (hf : f ∈ r.fields) :
    (d.plain a v).fget a f.fld = fieldAfter (d.groupLive f.group a) (maskAt d.clk.hwSet a) f (d.rd a) v := by
  have ap := fieldsApart_of h
  simp only [fieldsApart, Bool.and_eq_true, List.all_eq_true, decide_eq_true_eq] at ap
  simp only [Dev.plain, h, Dev.fget]
  rw [Dev.rd_storeWord d a r v h]
  exact foldFields (fun f => d.groupLive f.group a) _ v r.fields (d.rd a) ap.1 ap.2 f hf

end Sys2Proof.Machine
end

