-- ==== Sys2Proof/Laws/Kept.lean ====
section
/-! SUPPORT. What each operation of the block leaves of the parts no loss of supply clears: the device's operations leave
fuses and flash alone; those that blow fuses only add to them; those that erase or program the flash keep its canonical
form. -/

namespace Sys2Proof.Machine

/-- What no loss of supply clears: fuses, flash, and the flash's own parameters. -/
def State.nv (s : State) : Fuses × List Host.Cell × Sfdp := (s.fuses, s.flash, s.sfdp)

@[simp] theorem State.nv_mk (s : State) (d : Dev) : State.nv { s with dev := d } = s.nv := rfl
@[simp] theorem State.nv_onDev (s : State) (g : Dev → Dev) : (s.onDev g).nv = s.nv := id rfl
@[simp] theorem State.nv_pending (s : State) (l : List Instr) : State.nv { s with pending := l } = s.nv := rfl

@[simp] theorem State.nv_ite (p : Prop) [Decidable p] (x y : State) : State.nv (if p then x else y) = if p then x.nv else y.nv := apply_ite _ _ _ _

@[simp] theorem coldStart_nv (s : State) (c k : Nat) : (coldStart s c k).nv = s.nv := id rfl
@[simp] theorem State.readSfdp_nv (s : State) : s.readSfdp.nv = s.nv := id rfl
@[simp] theorem imageAtStart_nv (s : State) : (imageAtStart s).nv = s.nv := by
  have h : ∀ t : State, t.nv = s.nv → State.nv { t with dev := (t.dev.fuseRegs t.fuses).imageApplied } = s.nv := fun t h => h
  unfold imageAtStart; dsimp only; split
  · exact h _ ((State.readSfdp_nv _).trans (coldStart_nv _ _ _))
  · exact State.nv_mk s _
set_option maxRecDepth 8192 in
@[simp] theorem warmStart_nv (s : State) (c : Nat) (b : Bool) : (warmStart s c b).nv = s.nv := by
  have h : ∀ d g, State.nv { imageAtStart { s with dev := d } with dev := g } = s.nv := fun d _ => imageAtStart_nv { s with dev := d }
  unfold warmStart
  split
  · exact coldStart_nv _ _ _
  · extract_lets
    split
    · exact h _ _
    · exact State.nv_mk s _
@[simp] theorem recoveryImage_nv (s : State) : (recoveryImage s).nv = s.nv := id rfl
@[simp] theorem failStart_nv (s : State) (w : Bool) (k c : Nat) : (failStart s w k c).nv = s.nv := by
  unfold failStart; dsimp only; split <;> split <;> simp
@[simp] theorem startFail_nv (s : State) (c : Nat) : (startFail s c).nv = s.nv := by unfold startFail; split <;> simp
@[simp] theorem headerReads_nv (s : State) : (headerReads s).nv = s.nv := by unfold headerReads; dsimp only; rw [State.nv_ite]; rw [startFail_nv]; simp only [State.nv, ite_self]
@[simp] theorem imageCopyChecked_nv (s : State) (c : FlashCopy) (b : Bool) : (imageCopyChecked s c b).nv = s.nv := by
  unfold imageCopyChecked; simp only [State.nv_ite, State.nv_mk, startFail_nv, imageAtStart_nv, ite_self]
@[simp] theorem startStepComplete_nv (s : State) (k : Nat) (u : StepUnit) (l : List BistFail) : (startStepComplete s k u l).nv = s.nv := by
  unfold startStepComplete
  cases u <;> simp only [State.nv_ite, State.nv_mk, startFail_nv, headerReads_nv, ite_self]
@[simp] theorem startTimeout_nv (s : State) : (startTimeout s).nv = s.nv := by unfold startTimeout; split <;> simp
@[simp] theorem strCmdCold_nv (s : State) : (strCmdCold s).nv = s.nv := by unfold strCmdCold; split <;> simp
@[simp] theorem strCmdWarm_nv (s : State) : (strCmdWarm s).nv = s.nv := by unfold strCmdWarm; split <;> simp
@[simp] theorem calSave_nv (s : State) : (calSave s).nv = s.nv := by unfold calSave; dsimp only; split <;> simp
@[simp] theorem resetRise_nv (s : State) (k : Nat) : (resetRise s k).nv = s.nv := by
  unfold resetRise; dsimp only; repeat' first | rfl | split | simp
@[simp] theorem heldExit_nv (s : State) : (heldExit s).nv = s.nv := by unfold heldExit; dsimp only; split <;> simp
@[simp] theorem powerOn_nv (s : State) : (powerOn s).nv = s.nv := by unfold powerOn; split <;> simp
@[simp] theorem testExit_nv (s : State) : (testExit s).nv = s.nv := by unfold testExit; dsimp only; repeat' first | rfl | split
@[simp] theorem fatalRestart_nv (s : State) : (fatalRestart s).nv = s.nv := by unfold fatalRestart; dsimp only; repeat' first | rfl | split | simp
@[simp] theorem dumpEnd_nv (s : State) (l) (a b c) : (dumpEnd s l a b c).nv = s.nv := by unfold dumpEnd; dsimp only; rw [fatalRestart_nv, State.nv_mk]
@[simp] theorem dumpComplete_nv (s : State) : (dumpComplete s).nv = s.nv := by unfold dumpComplete; split <;> simp
@[simp] theorem dumpCut_nv (s : State) (a b) : (dumpCut s a b).nv = s.nv := by unfold dumpCut; dsimp only; rw [dumpEnd_nv, State.nv_mk]
@[simp] theorem dumpTimeout_nv (s : State) : (dumpTimeout s).nv = s.nv := by unfold dumpTimeout; split <;> simp
@[simp] theorem fatalTaken_nv (s : State) (a b c) : (fatalTaken s a b c).nv = s.nv := by
  unfold fatalTaken; dsimp only; split
  · rw [fatalRestart_nv, State.nv_mk]
  · rfl
@[simp] theorem chipFatal_nv (s : State) (a b c) : (chipFatal s a b c).nv = s.nv := by
  unfold chipFatal; dsimp only; repeat' first | rfl | split | simp
@[simp] theorem State.handle_nv (s : State) (r) : (s.handle r).nv = s.nv := by cases r <;> simp [State.handle]
@[simp] theorem State.handleRaised_nv (s : State) (k) : (s.handleRaised k).nv = s.nv := by
  induction k generalizing s with
  | zero => rfl
  | succ k ih => unfold State.handleRaised; split <;> simp [ih]
@[simp] theorem State.prefetch_nv (s : State) (m) : (s.prefetch m).nv = s.nv := by unfold State.prefetch; dsimp only; repeat' first | rfl | split
@[simp] theorem State.indAdvance_nv (s : State) (m) : (s.indAdvance m).nv = s.nv := id rfl
@[simp] theorem State.spaceWrite_nv (s : State) (c n a v) : (s.spaceWrite c n a v).nv = s.nv := by
  unfold State.spaceWrite; dsimp only; repeat' first | rfl | split
@[simp] theorem State.indRead_nv (s : State) (m) : (s.indRead m).2.nv = s.nv := by unfold State.indRead; simp
@[simp] theorem State.fetchWord_nv (s : State) (c n a) : (s.fetchWord c n a).2.nv = s.nv := by
  unfold State.fetchWord; dsimp only; repeat' first | rfl | split

/-- What may happen to fuses and flash: fuses blow and stay blown, and the flash keeps its canonical form. -/
def State.Keeps (s t : State) : Prop := s.fuses.keeps t.fuses ∧ (flashCanonical s.flash → flashCanonical t.flash) ∧ t.sfdp = s.sfdp

theorem KeySlot.keeps_refl (a : KeySlot) : a.keeps a := ⟨id, id, fun _ => rfl⟩
theorem KeySlot.keeps_trans {a b c : KeySlot} (h : a.keeps b) (k : b.keeps c) : a.keeps c :=
  ⟨fun x => k.1 (h.1 x), fun x => k.2.1 (h.2.1 x), fun x => (k.2.2 (h.1 x)).trans (h.2.2 x)⟩
theorem Fuses.keeps_refl (a : Fuses) : a.keeps a := ⟨rfl, fun _ => KeySlot.keeps_refl _, BitVec.and_self, rfl, rfl, rfl, rfl⟩
theorem Fuses.keeps_trans {a b c : Fuses} (h : a.keeps b) (k : b.keeps c) : a.keeps c := by
  obtain ⟨h1, h2, h3, h4, h5, h6, h7⟩ := h
  obtain ⟨k1, k2, k3, k4, k5, k6, k7⟩ := k
  refine ⟨k1.trans h1, fun j => KeySlot.keeps_trans (h2 j) (k2 j), ?_, k4.trans h4, k5.trans h5, k6.trans h6, k7.trans h7⟩
  rw [← h3, BitVec.and_assoc, k3]

theorem State.Keeps.of_nv {s t : State} (h : t.nv = s.nv) : s.Keeps t := by
  simp only [State.nv, Prod.mk.injEq] at h
  exact ⟨h.1 ▸ Fuses.keeps_refl _, fun c => h.2.1 ▸ c, h.2.2⟩
theorem State.Keeps.trans {a b c : State} (h : a.Keeps b) (k : b.Keeps c) : a.Keeps c :=
  ⟨Fuses.keeps_trans h.1 k.1, fun x => k.2.1 (h.2.1 x), k.2.2.trans h.2.2⟩
theorem State.Keeps.nv_right {a b c : State} (h : a.Keeps b) (k : c.nv = b.nv) : a.Keeps c := h.trans (.of_nv k)
theorem State.Keeps.nv_left {a b c : State} (h : b.Keeps c) (k : b.nv = a.nv) : a.Keeps c := (State.Keeps.of_nv k).trans h

theorem canonical_erase {l : List Host.Cell} (a n : Nat) (h : flashCanonical l) : flashCanonical (eraseRange l a n) :=
  ⟨h.1.filter _, fun x hx => h.2 x (List.mem_filter.1 hx).1⟩
theorem canonical_put {l : List Host.Cell} (a : Nat) (v : Byte) (h : flashCanonical l) :
    flashCanonical (Map.put (fun _ => (0xFF : Byte)) l a v) := by
  have w : Map.wf (fun _ => (0xFF : Byte)) l = true := by rw [Map.wf_iff]; exact h
  exact (Map.wf_iff _ _).1 (Map.wf_put _ a v w)
theorem canonical_program {l : List Host.Cell} (a : Nat) (b : List Byte) (h : flashCanonical l) : flashCanonical (programBytes l a b) := by
  unfold programBytes
  generalize List.range b.length = r
  induction r generalizing l with
  | nil => exact h
  | cons i r ih => exact ih (canonical_put _ _ h)
theorem canonical_units {l : List Host.Cell} (f : Sfdp) (a n : Nat) (h : flashCanonical l) : flashCanonical (eraseUnits f l a n) :=
  canonical_erase _ _ h

theorem modify_getD {α : Type} (l : List α) (k j : Nat) (g : α → α) (z : α) :
    (l.modify k g).getD j z = if k = j ∧ j < l.length then g (l.getD j z) else l.getD j z := by
  simp only [List.getD_eq_getElem?_getD, List.getElem?_modify]
  by_cases h : k = j
  · subst h
    by_cases hj : k < l.length
    · simp [hj]
    · simp [hj]
  · simp [h]

theorem keeps_keys (f : Fuses) (k : Nat) (g : KeySlot → KeySlot) (h : (f.slot k).keeps (g (f.slot k))) :
    f.keeps { f with keys := modAt f.keys k g } := by
  refine ⟨?_, fun j => ?_, BitVec.and_self, rfl, rfl, rfl, rfl⟩
  · simp [modAt]
  · simp only [Fuses.slot, modAt, modify_getD]
    split
    · next e => obtain ⟨rfl, _⟩ := e; exact h
    · exact KeySlot.keeps_refl _

/-- Setting a clear bit keeps the bits that are set. -/
theorem testBit_add_two_pow {n i j : Nat} (c : n.testBit i = false) (h : n.testBit j = true) : (n + 2 ^ i).testBit j = true := by
  have r : n % 2 ^ i < 2 ^ i := Nat.mod_lt _ (Nat.two_pow_pos i)
  have even : n / 2 ^ i % 2 = 0 := by
    simp only [Nat.testBit_eq_decide_div_mod_eq, decide_eq_false_iff_not] at c; omega
  have split : n + 2 ^ i = 2 ^ i * (n / 2 ^ i + 1) + n % 2 ^ i := by
    rw [Nat.mul_add, Nat.mul_one]; have := Nat.div_add_mod n (2 ^ i); omega
  rw [split, Nat.testBit_two_pow_mul_add _ r]
  rw [← Nat.div_add_mod n (2 ^ i), Nat.testBit_two_pow_mul_add _ r] at h
  by_cases k : j < i
  · simpa [k] using h
  · simp only [k, ↓reduceIte] at h ⊢
    simp only [Nat.testBit_eq_decide_div_mod_eq, decide_eq_true_eq] at h ⊢
    cases e : j - i with
    | zero => rw [e] at h; simp at h; omega
    | succ m =>
      rw [e] at h
      rw [Nat.pow_succ', ← Nat.div_div_eq_div_mul] at h ⊢
      have : (n / 2 ^ i + 1) / 2 = n / 2 ^ i / 2 := by omega
      rw [this]; exact h

theorem setBit_keeps (a n i : Nat) (h : ∀ j, a.testBit j = true → n.testBit j = true) (j : Nat) (hj : a.testBit j = true) :
    (setBit n i true).testBit j = true := by
  unfold setBit
  split
  · simp [h j hj]
  · next c => exact testBit_add_two_pow (by simpa using c) (h j hj)

theorem keeps_svn (f : Fuses) (n : Nat) : f.keeps { f with svn := BitVec.ofNat 64 (blowUpTo f.svn.toNat n) } := by
  refine ⟨rfl, fun _ => KeySlot.keeps_refl _, ?_, rfl, rfl, rfl, rfl⟩
  have key : ∀ (l : List Nat) (v : Nat), (∀ j, f.svn.toNat.testBit j = true → v.testBit j = true) →
      ∀ j, f.svn.toNat.testBit j = true → (l.foldl (fun v i => if popCount 64 v < n then setBit v i true else v) v).testBit j = true := by
    intro l
    induction l with
    | nil => intro v h j hj; exact h j hj
    | cons i l ih =>
      intro v h j hj
      refine ih _ (fun j hj => ?_) j hj
      dsimp only
      split
      · exact setBit_keeps _ v i h j hj
      · exact h j hj
  apply BitVec.eq_of_getElem_eq
  intro i hi
  have k := key (List.range 64) f.svn.toNat (fun _ h => h) i
  simp only [BitVec.getElem_and]
  by_cases e : f.svn[i] = true
  · rw [e, Bool.true_and]
    have e' : f.svn.toNat.testBit i = true := by rw [← e]; simp [BitVec.getElem_eq_testBit_toNat]
    rw [BitVec.getElem_eq_testBit_toNat, BitVec.toNat_ofNat, Nat.testBit_mod_two_pow]; simp only [hi, decide_true, Bool.true_and]; exact k e'
  · simp [e]

theorem State.blow_keeps (s : State) (k : Nat) (h : (s.fuses.slot k).programmed = false) : s.Keeps (s.blow k) := by
  refine ⟨?_, fun c => c, rfl⟩
  refine keeps_keys s.fuses k _ ⟨fun _ => rfl, fun h => h, fun p => ?_⟩
  rw [h] at p; cases p

theorem advanceSvn_keeps (s : State) : s.Keeps (advanceSvn s) := by
  unfold advanceSvn
  dsimp only
  split
  · exact .of_nv rfl
  · split
    · exact .of_nv rfl
    · exact ⟨keeps_svn _ _, id, rfl⟩
theorem revokeSlot_keeps (s : State) (k : Nat) : s.Keeps (revokeSlot s k) := by
  unfold revokeSlot
  dsimp only
  split
  · exact .of_nv rfl
  · split
    · exact .of_nv rfl
    · exact ⟨keeps_keys _ _ _ ⟨fun h => h, fun _ => rfl, fun _ => rfl⟩, id, rfl⟩

theorem calSaveComplete_keeps (s : State) (b : Bool) : s.Keeps (calSaveComplete s b) := by
  unfold calSaveComplete
  dsimp only
  split
  · exact .of_nv rfl
  · split
    · exact ⟨Fuses.keeps_refl _, fun c => canonical_program _ _ (canonical_units _ _ _ c), rfl⟩
    · exact ⟨Fuses.keeps_refl _, fun c => canonical_program _ _ (canonical_units _ _ _ c), rfl⟩
theorem calRestoreFactory_keeps (s : State) : s.Keeps (calRestoreFactory s) := by
  unfold calRestoreFactory
  split
  · exact ⟨Fuses.keeps_refl _, fun c => canonical_units _ _ _ (canonical_units _ _ _ c), rfl⟩
  · exact .of_nv rfl

theorem State.indWrite_keeps (s : State) (m : Nat) (v : Word) (aux : Bool) : s.Keeps (s.indWrite m v aux) := by
  unfold State.indWrite
  dsimp only
  split
  · exact .of_nv (by simp)
  · split
    · exact .of_nv (by simp)
    · next r =>
      split
      · exact .of_nv (by simp)
      · split
        · next b =>
          refine State.Keeps.nv_left (b := { s with dev := _ }) (State.blow_keeps _ _ ?_) (State.nv_mk s _)
          simp only [isBlow, Bool.and_eq_true, decide_eq_true_eq, beq_iff_eq] at b
          have c3 : (s.dev.ctx m).space = 3 := b.1.1.1
          simp only [State.ruleRefuses, c3, isBlow, Bool.not_eq_true] at r
          simp [b.1.1.2, b.1.2, b.2] at r
          exact r.1.2
        · exact .of_nv (by simp)
theorem State.indPerform_keeps (s : State) (m : Nat) (a : IndAccess) : s.Keeps (s.indPerform m a) := by
  unfold State.indPerform
  cases a with
  | ctl v => exact .of_nv (by simp)
  | addr v => exact .of_nv (by simp)
  | write v => exact State.Keeps.nv_left (b := { s with dev := s.dev.freshBool.2 }) (State.indWrite_keeps _ _ _ _) (State.nv_mk _ _)
  | read r => exact .of_nv (by simp only [State.nv_mk, State.indRead_nv])
theorem State.indServe_keeps (s : State) (m k : Nat) : s.Keeps (s.indServe m k) := by
  induction k generalizing s with
  | zero => exact .of_nv rfl
  | succ k ih =>
    unfold State.indServe
    dsimp only
    split
    · exact .of_nv rfl
    · split
      · exact .of_nv rfl
      · exact State.Keeps.nv_left (State.Keeps.trans (State.indPerform_keeps _ _ _) (ih _)) (State.nv_mk s _)
theorem State.indAccess_keeps (s : State) (m : Nat) (a : IndAccess) : s.Keeps (s.indAccess m a) := by
  unfold State.indAccess; dsimp only; split
  · exact State.indPerform_keeps _ _ _
  · exact .of_nv rfl
theorem State.indFree_keeps (s : State) (m : Nat) : s.Keeps (s.indFree m) := State.indServe_keeps _ _ _
theorem State.fetched_keeps (s : State) (m : Nat) (v : Word) : s.Keeps (s.fetched m v) := State.Keeps.nv_left (State.indFree_keeps _ _) (State.nv_mk s _)
theorem State.indWritten_keeps (s : State) (m : Nat) : s.Keeps (s.indWritten m) := State.Keeps.nv_left (State.indFree_keeps _ _) (by simp)
theorem State.prefetchComplete_keeps (s : State) (m : Nat) : s.Keeps (s.prefetchComplete m) := by
  unfold State.prefetchComplete; dsimp only; split
  · split
    · exact .of_nv rfl
    · exact State.Keeps.nv_left (State.indWritten_keeps _ _) (by simp)
  · split
    · exact .of_nv rfl
    · split
      · split
        · exact State.fetched_keeps _ _ _
        · exact State.Keeps.nv_left (State.fetched_keeps _ _ _) (State.nv_mk s _)
      · exact State.Keeps.nv_left (State.fetched_keeps _ _ _) (by simp)
theorem State.waitTimeout_nv (s : State) (m : Nat) : (s.waitTimeout m).nv = s.nv := by
  unfold State.waitTimeout; dsimp only; repeat' first | rfl | split
theorem State.flashEnded_keeps (s : State) (o : FlashOp) : s.Keeps (s.flashEnded o) := by
  unfold State.flashEnded; dsimp only; split
  · exact State.Keeps.nv_left (State.indWritten_keeps _ _) (State.nv_mk s _)
  · exact .of_nv rfl
theorem State.flashStarts_keeps (s : State) : s.Keeps s.flashStarts := by
  have h : (flashStart s).1.nv = s.nv := by
    unfold flashStart; dsimp only; repeat' first | rfl | split
  unfold State.flashStarts; dsimp only; split
  · exact State.Keeps.nv_left (State.flashEnded_keeps _ _) h
  · exact .of_nv h
theorem State.flashCompletes_keeps (s : State) : s.Keeps s.flashCompletes := by
  have h : s.Keeps (flashComplete s).1 := by
    unfold flashComplete; dsimp only; split
    · exact .of_nv rfl
    · split
      · exact .of_nv rfl
      · refine ⟨Fuses.keeps_refl _, fun c => ?_, rfl⟩
        dsimp only
        split
        · exact canonical_erase _ _ c
        · exact canonical_program _ _ c
  unfold State.flashCompletes; dsimp only; split
  · exact h.trans (State.flashEnded_keeps _ _)
  · exact h
theorem State.siloDelivered_keeps (s : State) (n b : Nat) (v : Option Nat) : s.Keeps (s.siloDelivered n b v) := by
  unfold State.siloDelivered
  generalize s.dev.ind.map (·.1) = l
  induction l generalizing s with
  | nil => exact .of_nv rfl
  | cons x l ih =>
    refine State.Keeps.trans ?_ (ih _)
    dsimp only
    split
    · exact State.fetched_keeps _ _ _
    · exact .of_nv rfl
theorem State.siloNews_keeps (s : State) : s.Keeps s.siloNews := by
  have key : ∀ (l : List OutEvent) (s : State), s.Keeps (l.foldl (fun s e => match e with | .silo n b v => s.siloDelivered n b v | _ => s) s) := by
    intro l
    induction l with
    | nil => intro s; exact .of_nv rfl
    | cons x l ih =>
      intro s
      refine State.Keeps.trans ?_ (ih _)
      dsimp only
      split
      · exact State.siloDelivered_keeps _ _ _ _
      · exact .of_nv rfl
  exact State.Keeps.nv_left (key _ _) (State.nv_mk s _)
theorem State.settle_keeps (s : State) (b : Bool) : s.Keeps (s.settle b) := by
  unfold State.settle
  exact (State.siloNews_keeps s).nv_right (by rw [State.nv_onDev, State.nv_onDev])
/-- The end of a clock leaves fuses and flash alone. -/
@[simp] theorem State.handleErrors_nv (s : State) : s.handleErrors.nv = s.nv := by
  unfold State.handleErrors; dsimp only; rw [State.handleRaised_nv, State.nv_mk]
@[simp] theorem State.clockEnd_nv (s : State) : s.clockEnd.nv = s.nv := by
  unfold State.clockEnd; dsimp only; rw [State.handleErrors_nv, State.nv_onDev, State.handleErrors_nv, State.nv_onDev]
theorem State.loaderCommand_keeps (s : State) (v) : s.Keeps (s.loaderCommand v) := by
  unfold State.loaderCommand; split
  · exact .of_nv rfl
  · exact .of_nv rfl
  · exact advanceSvn_keeps _
  · exact revokeSlot_keeps _ _
  · exact .of_nv rfl
theorem strCommand_keeps (s : State) (v) : s.Keeps (strCommand s v) := by
  unfold strCommand; exact .of_nv (by simp)
theorem calCommand_keeps (s : State) (v) : s.Keeps (calCommand s v) := by
  unfold calCommand; dsimp only; split
  · refine State.Keeps.nv_left (calRestoreFactory_keeps _) ?_
    split <;> simp
  · exact .of_nv (by simp)
theorem State.indPageWrite_keeps (s : State) (m w : Nat) (v) : s.Keeps (s.indPageWrite m w v) := by
  unfold State.indPageWrite
  split
  · exact State.indAccess_keeps _ _ _
  · split
    · exact State.indAccess_keeps _ _ _
    · split
      · exact State.indAccess_keeps _ _ _
      · exact .of_nv rfl

theorem opt_keeps {s d : State} {c : Prop} [Decidable c] {x y : Option State} (h : s.Keeps (x.getD d)) (k : s.Keeps (y.getD d)) :
    s.Keeps ((if c then x else y).getD d) := by split <;> assumption
theorem State.chipCommand_keeps (s : State) (a : Nat) (v : Word) (d : State) (h : s.Keeps d) : s.Keeps ((s.chipCommand a v).getD d) := by
  unfold State.chipCommand
  dsimp only
  repeat' first
    | refine opt_keeps ?_ ?_ | exact h | exact State.Keeps.of_nv rfl | exact State.loaderCommand_keeps _ _ | exact strCommand_keeps _ _
    | exact calCommand_keeps _ _
theorem State.regionCommand_keeps (s : State) (n a : Nat) (v : Word) (d : State) (h : s.Keeps d) : s.Keeps ((s.regionCommand n a v).getD d) := by
  unfold State.regionCommand
  dsimp only
  repeat' first
    | refine opt_keeps ?_ ?_ | exact h | exact State.Keeps.of_nv rfl
  cases placeOf a (R.TBL_CMD n 0) 64 4 with
  | none => exact h
  | some c => exact State.Keeps.of_nv rfl
theorem State.writeNow_keeps (s : State) (m a v) : s.Keeps (s.writeNow m a v) := by
  unfold State.writeNow
  split
  · exact State.indPageWrite_keeps _ _ _ _
  · split
    · exact .of_nv rfl
    · split
      · exact State.chipCommand_keeps _ _ _ _ (.of_nv rfl)
      · exact State.regionCommand_keeps _ _ _ _ _ (.of_nv rfl)
theorem State.writeReg_keeps (s : State) (m a v) : s.Keeps (s.writeReg m a v) := by
  unfold State.writeReg
  split
  · exact State.writeNow_keeps _ _ _ _
  · dsimp only
    split
    · split
      · exact State.Keeps.nv_left (State.writeNow_keeps _ _ _ _) (State.nv_onDev _ _)
      · exact (State.Keeps.nv_left (State.writeNow_keeps _ _ _ _) (State.nv_onDev _ _)).trans (State.writeNow_keeps _ _ _ _)
    · exact State.Keeps.nv_left (State.writeNow_keeps _ _ _ _) (State.nv_onDev _ _)
theorem State.writeAccess_keeps (s : State) (m a b v) : s.Keeps (s.writeAccess m a b v) := by
  unfold State.writeAccess
  dsimp only
  split
  · exact .of_nv rfl
  · exact State.Keeps.nv_left (State.writeReg_keeps _ _ _ _) (State.nv_mk s _)
theorem State.registerWrite_keeps (s : State) (m t b v) : s.Keeps (s.registerWrite m t b v) := by
  unfold State.registerWrite
  split
  · exact State.writeAccess_keeps _ _ _ _ _
  · exact .of_nv rfl
theorem State.readReg_keeps (s : State) (m a r) : s.Keeps (s.readReg m a r).2 := by
  unfold State.readReg
  dsimp only
  split
  · split
    · split
      · exact State.indAccess_keeps _ _ _
      · exact .of_nv (State.indRead_nv _ _)
    · exact .of_nv rfl
  · repeat' first | exact State.Keeps.of_nv rfl | split
theorem State.readAccess_keeps (s : State) (m a r) : s.Keeps (s.readAccess m a r).2 := by
  unfold State.readAccess
  split
  · exact .of_nv rfl
  · split
    · exact .of_nv rfl
    · split
      · exact .of_nv rfl
      · exact State.readReg_keeps _ _ _ _
theorem State.hostRead_keeps (s : State) (m a) : s.Keeps (s.hostRead m a) := by
  unfold State.hostRead
  dsimp only
  split
  · exact (State.readAccess_keeps _ _ _ _).nv_right rfl
  · exact State.readAccess_keeps _ _ _ _
theorem State.targetRead_keeps (s : State) (m t) : s.Keeps (s.targetRead m t) := by
  unfold State.targetRead
  split
  · exact State.hostRead_keeps _ _ _
  · exact .of_nv rfl
theorem State.command_keeps (s : State) (m a g) (act : State → State) (h : ∀ s : State, s.Keeps (act s)) : s.Keeps (s.command m a g act) := by
  unfold State.command
  dsimp only
  split
  · exact .of_nv rfl
  · split
    · exact State.Keeps.nv_left (h _) (State.nv_mk s _)
    · exact .of_nv rfl
theorem State.spaceCommand_nv (s : State) (m c n a g act) : (s.spaceCommand m c n a g act).nv = s.nv := by
  unfold State.spaceCommand
  repeat' first | rfl | split
theorem State.fuseBlow_keeps (s : State) (m k b) : s.Keeps (s.fuseBlow m k b) := by
  unfold State.fuseBlow
  dsimp only
  split
  · exact .of_nv rfl
  · split
    · exact State.indAccess_keeps _ _ _
    · exact State.Keeps.nv_left (State.indWrite_keeps _ _ _ _) (State.nv_mk s _)
theorem State.atWindow_keeps (s : State) (e t a) (k : Nat → Nat → State) (h : ∀ p o, s.Keeps (k p o)) : s.Keeps (s.atWindow e t a k) := by
  unfold State.atWindow
  split
  · exact .of_nv rfl
  · split
    · exact .of_nv rfl
    · exact h _ _
theorem State.rdx_keeps (s : State) (e t) : s.Keeps (s.rdx e t) := by
  unfold State.rdx
  split
  · exact .of_nv rfl
  · dsimp only
    refine State.Keeps.nv_left (State.atWindow_keeps _ _ _ _ _ fun p o => ?_) (State.nv_mk s _)
    split
    · exact .of_nv rfl
    · split
      · exact (State.readAccess_keeps _ _ _ _).nv_right rfl
      · exact (State.readAccess_keeps _ _ _ _).nv_right rfl
theorem State.wrx_keeps (s : State) (e t) : s.Keeps (s.wrx e t) := by
  unfold State.wrx
  split
  · exact .of_nv rfl
  · dsimp only
    refine State.Keeps.nv_left (State.atWindow_keeps _ _ _ _ _ fun p o => ?_) (State.nv_mk s _)
    split
    · exact .of_nv rfl
    · exact State.Keeps.nv_left (State.writeAccess_keeps _ _ _ _ _) rfl
theorem State.registerArrives_keeps (s : State) (a b k) (f : FloorMsg → State → State) (h : ∀ m s, State.Keeps s (f m s)) :
    s.Keeps (s.registerArrives a b k f) := by
  unfold State.registerArrives
  split
  · exact .of_nv rfl
  · split
    · exact .of_nv rfl
    · dsimp only
      split
      · exact .of_nv rfl
      · split
        · exact .of_nv rfl
        · exact State.Keeps.nv_left (h _ _) (State.nv_mk s _)
theorem State.regrArrival_keeps (s : State) (a b) : s.Keeps (s.regrArrival a b) := by
  refine State.registerArrives_keeps _ _ _ _ _ fun m s => ?_
  dsimp only
  split
  · split
    · exact (State.readAccess_keeps _ _ _ _).nv_right rfl
    · exact State.readAccess_keeps _ _ _ _
  · exact .of_nv rfl
theorem State.regwArrival_keeps (s : State) (a b) : s.Keeps (s.regwArrival a b) := by
  refine State.registerArrives_keeps _ _ _ _ _ fun m s => ?_
  split
  · exact (State.writeAccess_keeps _ _ _ _ _).nv_right rfl
  · exact .of_nv rfl

end Sys2Proof.Machine
end

