-- ==== Sys2Proof/Laws/Same.lean ====
section
/-! SUPPORT. Loops over a device, and devices that agree on every part but their registers and outputs. -/

namespace Sys2Proof.Machine

/-- What holds of a device and survives each step of a loop holds after the loop. -/
theorem Dev.each_induct {α : Type} {P : Dev → Prop} {g : α → Dev → Dev} (l : List α) {d : Dev} (h : P d)
    (step : ∀ x ∈ l, ∀ e, P e → P (g x e)) : P (d.each l g) := by
  induction l generalizing d with
  | nil => exact h
  | cons x l ih => exact ih (step x (by simp) d h) (fun y hy => step y (by simp [hy]))

/-- The two devices differ in registers, outputs and the other parts this names none of. -/
structure Dev.Same (d e : Dev) : Prop where
  now : e.now = d.now
  chip : e.chip = d.chip
  timers : e.timers = d.timers
  frame : e.frame = d.frame
  tables : e.tables = d.tables
  host : e.host = d.host
  twin : e.twin = d.twin
  floor : e.floor = d.floor
  faults : e.faults = d.faults
  time : e.time = d.time
  engine : e.engine = d.engine
  dram : e.dram = d.dram
  supply : e.supply = d.supply
  dump : e.dump = d.dump
  start : e.start = d.start

theorem Dev.Same.refl (d : Dev) : Dev.Same d d := ⟨rfl, rfl, rfl, rfl, rfl, rfl, rfl, rfl, rfl, rfl, rfl, rfl, rfl, rfl, rfl⟩

theorem Dev.Same.trans {a b c : Dev} (h : Dev.Same a b) (k : Dev.Same b c) : Dev.Same a c := by
  constructor <;> first
    | exact k.now.trans h.now | exact k.chip.trans h.chip | exact k.timers.trans h.timers | exact k.frame.trans h.frame
    | exact k.tables.trans h.tables | exact k.host.trans h.host | exact k.twin.trans h.twin | exact k.floor.trans h.floor
    | exact k.faults.trans h.faults | exact k.time.trans h.time | exact k.engine.trans h.engine | exact k.dram.trans h.dram
    | exact k.supply.trans h.supply | exact k.dump.trans h.dump | exact k.start.trans h.start

theorem Dev.Same.wr (d : Dev) (a : Nat) (v : Word) : Dev.Same d (d.wr a v) := by
  constructor <;> simp

theorem Dev.Same.fset (d : Dev) (a : Nat) (f : Fld) (v : Nat) : Dev.Same d (d.fset a f v) := Dev.Same.wr _ _ _

theorem Dev.Same.setFlag (d : Dev) (a : Nat) (f : Fld) (v : Bool) : Dev.Same d (d.setFlag a f v) := by constructor <;> simp

theorem Dev.Same.setFieldBit (d : Dev) (a : Nat) (f : Fld) (i : Nat) (v : Bool) : Dev.Same d (d.setFieldBit a f i v) := by
  constructor <;> simp

theorem Dev.Same.bump (d : Dev) (a k : Nat) : Dev.Same d (d.bump a k) := by constructor <;> simp

theorem Dev.Same.each {α : Type} {g : α → Dev → Dev} (l : List α) (d : Dev) (h : ∀ x e, Dev.Same e (g x e)) : Dev.Same d (d.each l g) :=
  Dev.each_induct (P := Dev.Same d) l (Dev.Same.refl d) (fun x _ e he => he.trans (h x e))

theorem Dev.Same.refreshReady (d : Dev) (p : Nat) : Dev.Same d (d.refreshReady p) := by
  unfold Dev.refreshReady; dsimp only
  split
  · exact (Dev.Same.setFlag _ _ _ _).trans (Dev.Same.setFieldBit _ _ _ _ _)
  · exact Dev.Same.setFlag _ _ _ _

/-- What a change of the chip's state starts and ends keeps the chip's state, the clock, the channels, the dump, and the supplies but
for the stages whose exit actions run. -/
theorem Dev.stateEntered_eq (d : Dev) (old : ChipState) : (d.stateEntered old).chip = d.chip ∧ (d.stateEntered old).now = d.now
    ∧ (d.stateEntered old).dram = d.dram
    ∧ (d.stateEntered old).supply = { d.supply with exiting := (d.stateEntered old).supply.exiting }
    ∧ (d.stateEntered old).dump = d.dump := by
  simp only [Dev.stateEntered, Dev.when]
  repeat' split
  all_goals simp

/-- A change of the chip's state keeps the clock, the channels, the dump, and the supplies but for the stages whose exit actions
run. -/
theorem Dev.toState_eq (d : Dev) (s : ChipState) : (d.toState s).chip.state = s ∧ (d.toState s).now = d.now ∧ (d.toState s).dram = d.dram
    ∧ (d.toState s).supply = { d.supply with exiting := (d.toState s).supply.exiting } ∧ (d.toState s).dump = d.dump := by
  unfold Dev.toState; split
  · exact ⟨‹_›, rfl, rfl, rfl, rfl⟩
  · dsimp only
    refine Dev.each_induct (P := fun e => e.chip.state = s ∧ e.now = d.now ∧ e.dram = d.dram
      ∧ e.supply = { d.supply with exiting := e.supply.exiting } ∧ e.dump = d.dump) allPorts ?_ ?_
    · obtain ⟨h1, h2, h3, h4, h5⟩ := Dev.stateEntered_eq ({ d.logChip 0x0008 (d.chip.state.code + 16 * s.code) with
        chip := { (d.logChip 0x0008 (d.chip.state.code + 16 * s.code)).chip with
          prev := (d.logChip 0x0008 (d.chip.state.code + 16 * s.code)).chip.state, state := s,
          since := (d.logChip 0x0008 (d.chip.state.code + 16 * s.code)).now } } : Dev)
        (d.logChip 0x0008 (d.chip.state.code + 16 * s.code)).chip.state
      exact ⟨by rw [h1], by rw [h2]; simp, by rw [h3]; simp, by rw [h4]; simp, by rw [h5]; simp⟩
    · intro p _ e h
      have k := Dev.Same.refreshReady e p
      exact ⟨by rw [k.chip]; exact h.1, k.now.trans h.2.1, k.dram.trans h.2.2.1, k.supply.trans (by rw [k.supply]; exact h.2.2.2.1), k.dump.trans h.2.2.2.2⟩

end Sys2Proof.Machine
end

