-- ==== Sys2Proof/Tests/Slice0.lean ====
section
/-! SUPPORT. Tests of this slice: for each statement a witness, which shows concrete states and operands that meet the
hypotheses of its clauses; an ill-formed command for each check of well-formedness; and small steps whose expected values
are read from the spec's rules. -/

namespace Sys2Proof.Tests

open Sys2Proof.Machine

set_option Elab.async false

/-! ## States -/

/-- A device in SERVICE whose layout enables all four regions. -/
def service : Dev :=
  let d := State.reset.dev
  let d : Dev := { d with
    chip := { d.chip with state := .service }, start := { d.start with step := 6 }, timers := [],
    loader := { d.loader with layout := { d.loader.layout with regions := 15 } } }
  d.each [0, 1, 2, 3] (fun n d => d.fset (R.RGN_STAT n) R.RGN_STAT.STATE 0)

/-- A device in a clock in which nothing has happened yet. -/
def clockBegins (d : Dev) : Dev := { d with before := d.toDevCore }

/-- A state of a device made from that one, as a clock begins. -/
def st (g : Dev → Dev) : State := { State.reset with dev := clockBegins (g service) }

/-- A state whose device is in a chip state. -/
def stIn (c : ChipState) (g : Dev → Dev) : State := st fun d => { g d with chip := { d.chip with state := c } }

/-- A state in which timers are armed. -/
def stT (l : List TimerId) (g : Dev → Dev) : State := st fun d => { g d with timers := l.map fun t => (t, 5) }

/-- A state in which every live group is live. -/
def stL (g : Dev → Dev) : State := st fun d =>
  let d := g d
  { d with loader := { d.loader with layout := { d.loader.layout with
      liveChip := 0xFFFF, liveRgn := [0xFFFF, 0xFFFF, 0xFFFF, 0xFFFF] } } }

/-- A state with a flash and fuses of its own. -/
def stF (flash : List Host.Cell) (f : Fuses) (g : Dev → Dev) : State := { st g with flash := flash, fuses := f }

/-- A state in which Winnow and the table blocks are ready. -/
def stUp (g : Dev → Dev) : State := st fun d =>
  g (d.each [0, 1, 2, 3] fun n d => (d.setFlag (R.WNW_STAT n) R.WNW_STAT.READY true).setFlag (R.TBL_STAT n) R.TBL_STAT.READY true)

/-- A decision with the targets given. -/
def decided (l : List Target) : Decision :=
  { cls := 0, colour := 0, pattern := 0, tag := 0, key := [], xtrunc := false, l3 := 0, l3base := 0, dscpEcn := none, da := [], outerTag := false,
    vid := 0, prio := 0, deiMark := false, generate := none, recover := none, namedQueue := none, targets := l, engineQueue := none,
    redirect := false }

/-- A target: port P0. -/
def toP0 : Target := { dest := 0, queue := none, mirror := false, entry := none, tagAct := 0 }

/-- A descriptor of a frame of one grain from P0. -/
def descr : Descr :=
  { uid := 1, ingress := 0, owner := 0, head := 0, grains := 1, length := 64, cls := 0, guarded := false, cong := false, seq := 0,
    entry := 0, gen := 0, src := 0, origin := .port 0, target := toP0, dec := decided [toP0], stamps := [], commitTime := 0,
    computeFcs := false, tsReq := none, rtag := none, sync := false, replay := false, spilledEntry := false, mirrorList := false,
    tier := .grains, at_ := 0, tx := false, data := [], primary := false, partner := false, bales := [], mbales := [],
    lateCounted := false, guardCounted := false, lost := false, badA := false, badB := false, queuedAt := 0, spillAt := 0,
    mirrorAt := 0, reread := false }

/-- A landing frame of P0 whose bytes have all come. -/
def landed : Landing := { Landing.begun 1 0 64 0 none [] false with ended := true, bytes := List.replicate 64 0, head := List.replicate 64 0 }

/-- A Floor message of generation 0. -/
def msg (src dst : Nat) (b : FloorBody) : FloorMsg := { src := src, dst := dst, origin := src, gen := 0, tag := 7, body := b }

/-- A state in which a message stands at the head of its path. -/
def stReq (m : FloorMsg) (g : Dev → Dev) : State := st fun d =>
  { g d with floor := { (g d).floor with req := [(pathKey m.src m.dst, [m])] } }
def stRsp (m : FloorMsg) (g : Dev → Dev) : State := st fun d =>
  { g d with floor := { (g d).floor with rsp := [(pathKey m.src m.dst, [m])] } }

/-- A device whose regions carve their banks as the list of owners says, with firmware for their engines. -/
def carved (owners : List Nat) (d : Dev) : Dev :=
  { d with loader := { d.loader with layout := { d.loader.layout with
      rgn := List.replicate 4 { RegionLayout.none_ with bankOwner := owners, bankIndex := List.replicate 64 0, engFw := true } } } }

/-- A state in which region 3 does not serve. -/
def down3 (d : Dev) : Dev := d.fset (R.RGN_STAT 3) R.RGN_STAT.STATE 1

/-- A state in which the port with an Ethernet MAC of the highest number, H5, stands in a link state. -/
def stLink (k : Nat) (g : Dev → Dev) : State := stT [⟨.holdUp, 133, 0⟩, ⟨.holdDown, 133, 0⟩] fun d =>
  g (d.fset (R.MAC_STAT 133) R.MAC_STAT.LSTATE k)

/-- A user of an axis at rest. -/
def atRest : AxisUser := { origin := 0, started := false, active := false, fallback := false, owed := 0, gapFrom := 0 }

/-- Sixty zero bytes with their FCS. -/
def goodFrame : List Byte := List.replicate 60 0 ++ leBytes 4 (fcs32 (List.replicate 60 0))

/-- A device whose channel 3 is in a state. -/
def channel (k : Nat) (d : Dev) : Dev := d.fset (R.DRC_STAT 3) R.DRC_STAT.STATE k

/-- A state in which task queue 0 of region 3 has room for one task and an engine that runs it. -/
def stTasks (g : Dev → Dev) : State := st fun d =>
  let d := (carved [] d).wr (spWord 0x66 3) 0x00010001
  g ((d.setFlag (R.ENG_BLK_STAT 6) R.ENG_BLK_STAT.READY true).fset (R.ENG_BLK_CFG 6) R.ENG_BLK_CFG.EN 1)

/-! ## A signed layout image -/

/-- What the signature of a layout image of one region covers. -/
def imageSigned : List Byte :=
  [[0x50, 0x4C, 0x49, 0x4D, 1, 0, 0, 4, 0, 0x10, 0, 0, 1, 0, 0, 0, 0x64, 0x96, 0, 0, 0, 0, 9],
  List.replicate 41 0,
  [1, 0, 0xFF, 1, 0, 4, 0, 0, 0x0C, 0, 0, 0, 0x6D, 0x61, 0x11, 0x1A, 4, 0, 0xFF, 1, 0x40, 4, 0, 0, 4, 0],
  [0, 0, 0xC7, 0x4B, 0x67, 0x48, 5, 0, 0xFF, 1, 0x80, 4, 0, 0, 0x28, 0, 0, 0, 0xB2, 0x6F, 0x17, 0x97, 8, 0, 0xFF, 1],
  [0xC0, 4, 0, 0, 0, 0, 0, 0, 0, 0, 0, 0, 9, 0, 0xFF, 1, 0xC0, 4, 0, 0, 0, 0, 0, 0, 0, 0],
  [0, 0, 0x10, 0, 0, 1, 0xC0, 4, 0, 0, 0x14, 0, 0, 0, 0x3E, 0x56, 0xC5, 0xBC, 0x11, 0, 0, 1, 0, 5, 0, 0],
  [0x40, 0, 0, 0, 0x91, 0x0A, 0x4F, 0xD7, 0x12, 0, 0, 1, 0x40, 5, 0, 0, 0x28, 0, 0, 0, 0xEF, 0x35, 0x5D, 0xB2, 0x16, 0],
  [0, 1, 0x80, 5, 0, 0, 0x44, 0, 0, 0, 0x8D, 0xB5, 0x2B, 0xCF],
  List.replicate 624 0,
  [4, 0xFB, 0xF9, 0x60, 0x95, 0x91, 0x5E, 0xB5, 0x87, 0x39, 0x0F, 0x85, 0x0E, 0xC9, 0x5B, 0x35, 0xF6, 0x18, 0xAE, 0x12, 0x1C, 0x72, 0xA7, 8, 8, 0xAD],
  [0x8F, 0x9F, 0x4C, 0x26, 0x1B, 0x60, 0x2B, 0x63, 0x54, 0x17, 0x43, 0xE3, 0x95, 0xF7, 0xC7, 0x78, 0xE5, 0x2B, 0xB2, 0x8C, 0x18, 0xDC, 0x83, 1, 0x6A, 0x6F],
  [0xF3, 0xF7, 0x2C, 0x93, 0x68, 0x32, 0x6A, 0xD5, 0x0A, 0x3B, 0xD1, 0x48, 0xA5, 0x3C, 0xD2, 0x21, 0x3B, 0xB4, 0x80, 0xE4, 0x73, 0x0A, 0xD0, 0x19, 0xDB, 0x87],
  [0xAE, 0x10, 9, 0x95, 0xEC, 0x65, 0xDF, 1, 0x1E, 0x19, 0x81, 0x1A, 0x15, 0xDC, 0x9D, 0xDF, 0xC9, 0xAB, 0x3C],
  List.replicate 91 0,
  [0xDC, 0x8D, 0x20, 0x69, 1],
  List.replicate 160 0,
  [1, 0xFF, 0xFF, 0xFF, 0xFF, 0xFF, 0xFF],
  List.replicate 88 0,
  [1, 0x11, 2, 3],
  List.replicate 61 0,
  [1, 0, 0, 0x40],
  List.replicate 59 0,
  [1, 1, 0, 0, 1],
  List.replicate 2555 0].flatten

/-- Its signature and CRC. -/
def imageTrailer : List Byte :=
  [[0x62, 0x1F, 0x26, 0x5A, 0xB6, 0xED, 0x62, 0x5C, 0xD6, 0x0C, 0x8A, 0x89, 0x23, 0x93, 0xC7, 0x48, 0xCA, 0xF8, 0xE5, 0xCE, 0xE5, 0x93, 0xB0, 1, 0xFB, 0x91],
  [0x87, 0xB1, 0xB2, 0x45, 0x79, 0x1D, 0xB1, 0xFF, 0x64, 0x87, 0xA6, 0x9F, 0x0F, 0x3E, 0xD8, 0xE0, 0xEF, 0x57, 0xC3, 0x21, 0x2F, 0xF5, 0x19, 0x40, 0x46, 0x97],
  [0x75, 0x32, 5, 0x5D, 0xA2, 0xCE, 0x4E, 6, 0xAB, 0x4A, 0x56, 0x9A, 0, 0x6B, 0xFB, 0x97, 0x5F, 0x1B, 0x8D, 0xCE, 0x4F, 0x1F, 0x99, 0x47, 0xB5, 0x6C],
  [0x80, 0x2C, 0xA0, 0xB4, 0x61, 0xFF, 0xCE, 0x63, 0x41, 0xFE, 0xCC, 0x37, 0xBB, 0xE6, 0x5D, 0xFD, 0xED, 0xB5, 0xE9, 0x37, 0xB3, 0xDE],
  List.replicate 28 0].flatten

/-- A layout image of one region (Tables 2-3 to 2-9), signed with a key of this test. -/
def image : List Byte := imageSigned ++ imageTrailer

/-- The sections of that image. -/
def imageParts : List ImgSection := [
  { type := 0x1, scope := 0xFF, sver := 1, offset := 0x400, length := 12, crc := 0x1A11616D,
    body := [1, 0, 0, 0, 0, 0, 0, 0, 0, 0, 0, 0] },
  { type := 0x4, scope := 0xFF, sver := 1, offset := 0x440, length := 4, crc := 0x48674BC7,
    body := [0, 0, 0, 0] },
  { type := 0x5, scope := 0xFF, sver := 1, offset := 0x480, length := 40, crc := 0x97176FB2,
    body := [List.replicate 33 0, [1, 0xFF, 0xFF, 0xFF, 0xFF, 0xFF, 0xFF]].flatten },
  { type := 0x8, scope := 0xFF, sver := 1, offset := 0x4C0, length := 0, crc := 0x00000000,
    body := [] },
  { type := 0x9, scope := 0xFF, sver := 1, offset := 0x4C0, length := 0, crc := 0x00000000,
    body := [] },
  { type := 0x10, scope := 0x0, sver := 1, offset := 0x4C0, length := 20, crc := 0xBCC5563E,
    body := List.replicate 20 0 },
  { type := 0x11, scope := 0x0, sver := 1, offset := 0x500, length := 64, crc := 0xD74F0A91,
    body := [[1, 0x11, 2, 3], List.replicate 60 0].flatten },
  { type := 0x12, scope := 0x0, sver := 1, offset := 0x540, length := 40, crc := 0xB25D35EF,
    body := [[0, 1, 0, 0, 0x40], List.replicate 35 0].flatten },
  { type := 0x16, scope := 0x0, sver := 1, offset := 0x580, length := 68, crc := 0xCF2BB58D,
    body := [[1, 1, 0, 0, 1], List.replicate 63 0].flatten }]

/-- That image as copy A of the flash. -/
def imageFlash : List Host.Cell := ((List.range 4096).zip image).filter fun c => c.2 != 0xFF

theorem zeroAt_eq (b : List Byte) (o n : Nat) : zeroAt b o n = ((b.drop o).take n).all (· == 0) := by
  rw [Bool.eq_iff_iff]
  simp only [zeroAt, byteAt, List.all_eq_true, List.mem_range, beq_iff_eq, List.getD_eq_getElem?_getD]
  constructor
  · intro h x hx
    obtain ⟨i, hi, rfl⟩ := List.mem_iff_getElem.mp hx
    rw [List.getElem_take, List.getElem_drop]
    simp only [List.length_take, List.length_drop] at hi
    have := h i (by omega)
    rw [List.getElem?_eq_getElem (by omega)] at this
    exact BitVec.eq_of_toNat_eq this
  · intro h i hi
    by_cases hb : o + i < b.length
    · rw [List.getElem?_eq_getElem hb, Option.getD_some,
        h b[o + i] (List.mem_iff_getElem.mpr ⟨i, by simp; omega, by simp⟩)]
      rfl
    · rw [List.getElem?_eq_none (by omega)]
      rfl

/-- A function's value at a number that is computed first. -/
def atNumber {α : Type} (f : Nat → α) : Nat → α
  | 0 => f 0
  | k + 1 => f (k + 1)

theorem atNumber_eq {α : Type} (f : Nat → α) (v : Nat) : atNumber f v = f v := by
  cases v <;> rfl

/-- The CRC's value after some bytes, computed byte by byte. -/
def crcAfter (poly : Nat) : List Byte → Nat → Nat
  | [], c => c
  | b :: l, c => atNumber (crcAfter poly l) (crcBits poly 8 (c ^^^ b.toNat))

theorem crcAfter_eq (poly : Nat) (l : List Byte) (c : Nat) :
    crcAfter poly l c = l.foldl (fun c b => crcBits poly 8 (c ^^^ b.toNat)) c := by
  induction l generalizing c with
  | nil => rfl
  | cons b l ih => rw [crcAfter, atNumber_eq, ih, List.foldl_cons]

theorem crc32_eq (poly : Nat) (l : List Byte) : crc32 poly l = crcAfter poly l 0xFFFFFFFF ^^^ 0xFFFFFFFF := by
  rw [crcAfter_eq, crc32]

theorem image_length : imageLen image = 4096 := by decide +kernel

theorem image_sections : imageSections image = imageParts := by decide +kernel

theorem image_signature : signatureOk image = true := by
  have h1 : image.take 3968 = imageSigned := by decide +kernel
  have h2 : image.drop 3968 = imageTrailer := by decide +kernel
  have h3 : imagePubkey image = (imageSigned.drop 0x340).take 97 := by decide +kernel
  have h4 : beAt ((imageSigned.drop 0x340).take 97) 1 48 = 0xFBF96095915EB587390F850EC95B35F618AE121C72A70808AD8F9F4C261B602B63541743E395F7C778E52BB28C18DC83 := by decide +kernel
  have h5 : beAt ((imageSigned.drop 0x340).take 97) 49 48 = 0x16A6FF3F72C9368326AD50A3BD148A53CD2213BB480E4730AD019DB87AE100995EC65DF011E19811A15DC9DDFC9AB3C := by decide +kernel
  have h6 : beAt imageTrailer 0 48 = 0x621F265AB6ED625CD60C8A892393C748CAF8E5CEE593B001FB9187B1B245791DB1FF6487A69F0F3ED8E0EF57C3212FF5 := by decide +kernel
  have h7 : beAt imageTrailer 0x30 48 = 0x194046977532055DA2CE4E06AB4A569A006BFB975F1B8DCE4F1F9947B56C802CA0B461FFCE6341FECC37BBE65DFDEDB5 := by decide +kernel
  have h8 : beAt (sha384 imageSigned) 0 48 = 0x94775B44DAB2F1120FBC617A2FE34E8A8847542C12553DB0C518CBFF1A2E4EB245792E5752891409A53EAF6C83ED9677 := by decide +kernel
  simp only [signatureOk, image_length, h1, h2, h3, Nat.reduceSub, crc32c, crc32_eq, ecdsaVerify, h4, h5, h6, h7, h8]
  decide +kernel

theorem image_bounds : boundsOk image imageParts = true := by
  simp only [boundsOk, zeroAt_eq]
  decide +kernel
theorem image_structure : structureOk image imageParts = true := by decide +kernel
theorem image_records : recordsOk imageParts = true := by decide +kernel

/-- A signed image passes every check of the loader (R95, R105, R106). -/
theorem image_accepted : refusalCode Fuses.blank image false = 0 := by
  have h1 : headerValid image = true := by
    rw [headerValid, crc32c, crc32_eq]
    decide +kernel
  have h2 : leAt image 0x10 4 = 0x9664 := by decide +kernel
  have h3 : keyOk Fuses.blank image = true := by decide +kernel
  have h4 : imageSvn image = 0 := by decide +kernel
  simp [refusalCode, image_sections, h1, h2, h3, h4, image_signature, image_bounds, image_structure, image_records,
    show Fuses.blank.open_ = true by decide, show Fuses.blank.svnCount = 0 by decide]

theorem image_read : readCopy imageFlash .a = image := by
  have h : (readCopy imageFlash .a == image) = true := by
    rw [readCopy, headerValid, crc32c, crc32_eq]
    decide +kernel
  exact eq_of_beq h

/-! ## Witnesses -/

theorem witness_StepRunsFront : (st id).pending = [] ∧ (st id).dev.chip.state ≠ .off ∧ (stIn .off id).pending = []
    ∧ (stIn .off id).dev.chip.state = .off ∧ ({ st id with pending := [.powerOn] } : State).pending = [.powerOn] := by
  repeat' apply And.intro
  all_goals decide +kernel

theorem witness_EveryCommandRuns : (stIn .off id).dev.chip.state = .off ∧ Instr.sagNRise ≠ .powerOn := by
  repeat' apply And.intro
  all_goals decide +kernel

theorem witness_CommandsTurnedAway : (st id).dev.chip.state ≠ .off
    ∧ (Instr.rgnRestartWarm (.pf 1) 3).commandRegister = some (.pf 1, R.RGN_RESTART 3, .none)
    ∧ ((st id).dev.judgeWrite (.pf 1) (R.RGN_RESTART 3) 15).2 = none
    ∧ (Instr.polWrite .supervisor 3 1023).commandRegister = some (.supervisor, R.POL_CMD 3, .rgn 4)
    ∧ (st id).dev.Accepts .supervisor (R.POL_CMD 3) ∧ (st id).dev.groupLive (.rgn 4) (R.POL_CMD 3) = false
    ∧ (Instr.signalDetected 128).namesAbsent = true ∧ (Instr.signalDetected 131).namesAbsent = true := by
  repeat' apply And.intro
  all_goals first | decide +kernel | rfl

theorem witness_ResetLeaves : (regAt R.LDR_RELAYOUT).any (fun r => r.fields.any fun f => f.cold == .num 20) = true := by
  decide +kernel

theorem witness_StepKeepsFusesAndFlash : flashCanonical (st id).flash
    ∧ flashCanonical ({ st id with flash := [(0, 0#8), (0x1FFFFFF, 0xFE#8)] } : State).flash := by
  unfold flashCanonical
  repeat' apply And.intro
  all_goals decide +kernel

theorem witness_FlashChangesOnlyBy : Instr.dumpTimeout.changesFlash = false ∧ exec .dumpTimeout (stIn .off id) = .next (stIn .off id) := by
  refine ⟨rfl, ?_⟩
  rfl

/-- Hardware, or software, has set the last bit of a word in this clock. -/
def setsLast (hw : Bool) (d : Dev) : Dev :=
  { d with clk := { d.clk with hwSet := if hw then [(R.REG_UNPRIV, 2 ^ 31)] else [], swSet := if hw then [] else [(R.REG_UNPRIV, 2 ^ 31)] } }

theorem witness_FieldWrites : (regAt R.IND_CTL).any (fun r => r.fields.length != 0) = true
    ∧ (maskAt (setsLast true service).clk.hwSet R.REG_UNPRIV).testBit 31 = true ∧ (31 : Nat) < 32
    ∧ (maskAt (setsLast false service).clk.swSet R.REG_UNPRIV).testBit 31 = true
    ∧ (maskAt service.clk.swSet R.REG_UNPRIV).testBit 0 = false := by
  repeat' apply And.intro
  all_goals decide +kernel

/-- A device whose H3 is PCIe with 64 instances and its link up, and whose frames are forwarded. -/
def pages (d : Dev) : Dev :=
  let d := (d.fset (R.HST_CFG 3) R.HST_CFG.MODE 1).setFlag (R.HST_STAT 3) R.HST_STAT.LINK_UP true
  (d.fset (R.HST_CFG 3) R.HST_CFG.COUNT 64).setFlag (R.INSTE_GRANT 3 63) R.INSTE_GRANT.CNT true

theorem witness_OffsetsReach : 0x7FFFFF < 0x800000 ∧ (decodeOffset 0x800000).isSome = true ∧ (decodeOffset 0x4000000).isSome = true
    ∧ 0x800000 ≤ 0xFFFFFF ∧ 0xFFFFFF < 0x1000000 := by
  repeat' apply And.intro
  all_goals decide +kernel

theorem witness_RegisterWrites : (st id).dev.chip.state ≠ .off
    ∧ State.reset.dev.masterServed (.pf 0) = false ∧ (st id).dev.masterServed (.pf 0) = true
    ∧ decodeOffset 0xFFFFFFFC = none ∧ decodeOffset (R.MDIO_CMD 0) = some (R.MDIO_CMD 0)
    ∧ (st fun d => { d with loader := { d.loader with layout := { d.loader.layout with regions := 14 } } }).dev.regionServes (R.MDIO_CMD 0) = false
    ∧ (st id).dev.recoveryServes (R.MDIO_CMD 0) = true ∧ (st id).dev.regionServes (R.MDIO_CMD 0) = true
    ∧ R.MDIO_CMD 0 / 0x10000 ≠ 3 ∧ (st id).dev.privileged (.pf 1) (R.MDIO_CMD 0) = false
    ∧ (st id).dev.privileged (.pf 0) (R.MDIO_CMD 0) = true ∧ (st id).dev.pageServes 0 63 (pageOffset 0xFFFF) = false := by
  repeat' apply And.intro
  all_goals decide +kernel

/-- A lower cell of a chained pair: the bytes a host port receives. -/
def stChained : State := st fun d => { d with cellCtl := [(R.REG_UNPRIV, 2#32)] }

theorem witness_RegisterReads : (st id).dev.chip.state ≠ .off
    ∧ (st id).dev.Answers (.pf 0) R.CHIP_TEMP_PEAK ∧ (st id).dev.privileged (.pf 0) R.CHIP_TEMP_PEAK = true
    ∧ (st id).dev.Answers (.pf 3) R.CHIP_TEMP_PEAK ∧ (st id).dev.privileged (.pf 3) R.CHIP_TEMP_PEAK = false
    ∧ (st id).dev.Answers (.pf 0) (R.ACC_JRNL_PEAK 3) ∧ (st id).dev.privileged (.pf 0) (R.ACC_JRNL_PEAK 3) = true
    ∧ (st id).dev.Answers (.pf 0) (R.GRN_POOL_PEAK 3 7) ∧ (st id).dev.privileged (.pf 0) (R.GRN_POOL_PEAK 3 7) = true
    ∧ (st id).dev.Answers (.pf 0) (R.TB_NS 3) ∧ (st id).dev.Answers (.pf 0) (R.LOFT_US_LO 3)
    ∧ decodeOffset R.REG_UNPRIV = some R.REG_UNPRIV ∧ R.REG_UNPRIV / 0x10000 ≠ 3 ∧ isCell R.REG_UNPRIV = true
    ∧ (st id).dev.masterServed (.pf 0) = true ∧ (st id).dev.recoveryServes R.REG_UNPRIV = true
    ∧ (st id).dev.regionServes R.REG_UNPRIV = true ∧ (st id).dev.privileged (.pf 0) R.REG_UNPRIV = true
    ∧ (st id).dev.cellsHidden true = false ∧ (st id).dev.chainedUp R.REG_UNPRIV = false
    ∧ stChained.dev.chained R.REG_UNPRIV = true
    ∧ (st id).dev.Answers (.pf 0) R.SUP_MBOX_OUT ∧ (st id).dev.Answers .supervisor R.SUP_MBOX_IN
    ∧ regPrivileged R.REG_UNPRIV = true ∧ (st id).dev.privileged (.pf 3) R.REG_UNPRIV = false
    ∧ (stChained.dev.chainedUp (R.REG_UNPRIV + 4) = true ∧ isCell (R.REG_UNPRIV + 4) = true)
    ∧ (st id).dev.pageServes 3 63 0 = false ∧ (st pages).dev.pageServes 3 63 0 = true ∧ isCell (instPage 3 63) = false
    ∧ (st pages).dev.pageServes 3 63 (pageOffset 0x40) = true ∧ isCell (instPage 3 63 + pageOffset 0x40) = true
    ∧ (st pages).dev.chip.state.serving = true ∧ (st pages).dev.flag (R.INSTE_GRANT 3 63) R.INSTE_GRANT.CNT = true
    ∧ (st fun d => (pages d).setFlag (R.INSTE_GRANT 3 63) R.INSTE_GRANT.CNT false).dev.flag (R.INSTE_GRANT 3 63) R.INSTE_GRANT.CNT = false
    ∧ (st pages).dev.chainedUp (instPage 3 63 + pageOffset 0x40) = false
    ∧ (st fun d => { pages d with cellCtl := [(instPage 3 63 + 0x40, 2#32)] }).dev.chainedUp (instPage 3 63 + pageOffset 0x44) = true := by
  unfold Dev.Answers
  repeat' apply And.intro
  all_goals decide +kernel

/-- A state in which H0 takes the chip's message, and a source asks for it. -/
def stMessage : State := st fun d =>
  let d := ((d.setFlag (R.HST_STAT 0) R.HST_STAT.READY true).setFlag (R.HST_STAT 0) R.HST_STAT.LINK_UP true).fset (R.HST_CFG 0) R.HST_CFG.MODE 1
  { d.fset R.INT_CHIP_EN R.INT_CHIP_EN.EN 0xFFF with mboxOut := true }

/-- A device in whose clock EOI has been written, and a message sent or not. -/
def asks (sent : Bool) (d : Dev) : Dev := { d with clk := { d.clk with eoi := true, messaged := sent } }

theorem witness_ServiceRegisters : (st id).dev.chip.state ≠ .off
    ∧ (st id).dev.Accepts (.pf 0) R.LOG_POP ∧ (st id).dev.Accepts (.pf 0) R.INT_CTL ∧ (st id).dev.intPort = some 0
    ∧ (st id).dev.intDeliverable = false
    ∧ stMessage.dev.intPort = some 0 ∧ stMessage.dev.intDeliverable = true
    ∧ stMessage.dev.intSummary = true ∧ (st id).dev.intSummary = false
    ∧ (asks false stMessage.dev).clk.eoi = true ∧ (asks false stMessage.dev).clk.messaged = false
    ∧ (asks false stMessage.dev).intDeliverable = true ∧ (asks false stMessage.dev).intPort = some 0
    ∧ (st id).dev.clk.eoi = false ∧ (asks true stMessage.dev).clk.messaged = true
    ∧ (st id).dev.Accepts (.pf 0) R.SNAP_CMD ∧ (st id).dev.clk.snap = false
    ∧ ({ service with clk := { service.clk with snap := true } } : Dev).clk.snap = true
    ∧ (st (·.setFlag R.UART_CFG R.UART_CFG.EN false)).dev.flag R.UART_CFG R.UART_CFG.EN = false
    ∧ (st id).dev.flag R.UART_CFG R.UART_CFG.EN = true
    ∧ (st id).dev.chip.state ≠ .held ∧ (st id).dev.uart.rx.length < 64
    ∧ 64 ≤ (st fun d => { d with uart := { d.uart with rx := List.replicate 64 0 } }).dev.uart.rx.length
    ∧ (st id).dev.Accepts (.pf 0) R.UART_RX_POP ∧ (st id).dev.Accepts (.pf 0) R.UART_TX
    ∧ 64 ≤ (st fun d => { d with uart := { d.uart with tx := List.replicate 64 0 } }).dev.uart.tx.length
    ∧ (st id).dev.uart.tx = [] ∧ (st id).dev.uart.sending = none
    ∧ (st fun d => { d with uart := { d.uart with sending := some 255 } }).dev.uart.sending = some 255
    ∧ (st id).dev.Accepts (.pf 0) R.SUP_MBOX_IN := by
  repeat' apply And.intro
  all_goals first | decide +kernel | rfl

/-- A state in which the indirect context of H0's physical function stands at a word of a space. -/
def stInd (g : IndContext → IndContext) : State := st fun d => d.setCtx (masterId (.pf 0)) (g (d.ctx (masterId (.pf 0))))

theorem witness_IndirectPair : (st id).dev.chip.state ≠ .off ∧ ((st id).dev.ctx (masterId (.pf 0))).busy = false
    ∧ (st id).dev.Accepts (.pf 0) R.IND_CTL ∧ (st id).dev.Accepts (.pf 0) R.IND_ADDR ∧ (st id).dev.Accepts (.pf 0) R.IND_DATA
    ∧ (st id).dev.Answers (.pf 0) R.IND_DATA
    ∧ (st id).mayWrite (.pf 0) 0xFF 0 0 = false
    ∧ (st id).mayWrite (.pf 0) 6 0 0 = true ∧ 6 ∉ [1, 2, 3, 4, 0x40, 0x51]
    ∧ ((stInd fun c => { c with busy := true }).dev.ctx (masterId (.pf 0))).busy = true
    ∧ ((stInd fun c => { c with busy := true, ctl := 6#32, writing := some 0 }).dev.ctx (masterId (.pf 0))).writing = some 0
    ∧ ((stInd fun c => { c with busy := true, ctl := 6#32, writing := some 0 }).dev.ctx (masterId (.pf 0))).space = 6
    ∧ ((st id).dev.ctx (masterId (.pf 0))).fetching = false ∧ ((st id).dev.ctx (masterId (.pf 0))).writing = none
    ∧ ((stInd fun c => { c with busy := true, ctl := 6#32, fetching := true }).dev.ctx (masterId (.pf 0))).fetching = true
    ∧ isCell (spWord 6 0 + 0) = false
    ∧ (stT [⟨.indWait, masterId (.pf 0), 0⟩] id).dev.armed ⟨.indWait, masterId (.pf 0), 0⟩ = true
    ∧ ((stInd fun c => { c with busy := true, waiting := [.read none, .write 0] }).dev.ctx (masterId (.pf 0))).waiting = [.read none, .write 0]
    ∧ (st id).dev.armed ⟨.indWait, masterId (.pf 0), 0⟩ = false ∧ State.reset.dev.masterServed (.pf 0) = false
    ∧ (st id).dev.masterServed (.pf 0) = true ∧ (st id).mayWrite (.pf 0) 3 0 (0x40 * 3 + 0x30) = true
    ∧ ((st id).fuses.slot 3).programmed = false
    ∧ ∃ w < 12, (st (·.wr (spWord 0x03 0 + 0x40 * 3 + 4 * 11) 1)).dev.rd (spWord 0x03 0 + 0x40 * 3 + 4 * w) ≠ 0 := by
  unfold Dev.Answers
  repeat' apply And.intro
  all_goals first | decide +kernel | rfl

theorem witness_ErrorsHandled : (st id).dev.chip.state ≠ .off ∧ (st id).dev.raised = []
    ∧ (stIn .recovery id).dev.chipAbsorbs = true ∧ (stT [⟨.regionBound, 3, 0⟩] id).dev.restarting 3 = true
    ∧ (st id).dev.chipAbsorbs = false ∧ (st id).dev.restarting 3 = false
    ∧ (st fun d => d.setFieldBit (R.RGN_STAT 3) R.RGN_STAT.BLOCK_RESTART 9 true).dev.blockInRestart 3 9 = true
    ∧ (st id).dev.blockInRestart 3 9 = false ∧ (st id).dev.recent (st id).dev.err.contained 57 (1000 * ms) < 2
    ∧ 2 ≤ (st id).dev.recent [(57, 0), (57, 0)] 57 (1000 * ms)
    ∧ (st id).dev.recent (st id).dev.err.regionFatal 3 (60000 * ms) < 2
    ∧ 2 ≤ (st id).dev.recent [(3, 0), (3, 0)] 3 (60000 * ms)
    ∧ (stIn .held id).dev.chip.state = .held ∧ (st id).dev.chip.state ≠ .held ∧ (st id).dev.chip.recoveryImage = false
    ∧ (st fun d => { d with chip := { d.chip with recoveryImage := true } }).dev.chip.recoveryImage = true
    ∧ (st fun d => { d with dump := { d.dump with active := true } }).dev.dump.active = true ∧ (st id).dev.dump.active = false
    ∧ nextRaised [.corrected 3 9 none, .chipFatal 0 0 0, .regionFatal 3 0 0] = some (.chipFatal 0 0 0) ∧ nextRaised [] = none
    ∧ yields [.contained 3 9 5 5, .corrected 3 9 none] (.corrected 3 9 none) = true
    ∧ nextRaised (st (·.raise (.regionFatal 3 0 0))).dev.raised = some (.regionFatal 3 0 0) := by
  repeat' apply And.intro
  all_goals decide +kernel

/-- A state in which region 3's restart may end. -/
def stRestarting : State := stT [⟨.regionBound, 3, 0⟩] fun d =>
  (((d.fset R.FLR_STAT R.FLR_STAT.PORT_UP 15).setFlag (R.WNW_STAT 3) R.WNW_STAT.READY true).setFlag (R.TBL_STAT 3) R.TBL_STAT.READY true).fset
    (R.RGN_STAT 3) R.RGN_STAT.STATE 1

theorem witness_RestartsRun : (st id).dev.chip.state ≠ .off
    ∧ (stT [⟨.containedBound, 3, 9⟩] id).dev.armed ⟨.containedBound, 3, 9⟩ = true
    ∧ (st id).dev.armed ⟨.containedBound, 3, 9⟩ = false
    ∧ (st fun d => d.setFieldBit (R.RGN_STAT 3) R.RGN_STAT.BLOCK_RESTART 9 true).dev.blockInRestart 3 9 = true
    ∧ (st id).dev.blockInRestart 3 9 = false
    ∧ stRestarting.dev.armed ⟨.regionBound, 3, 0⟩ = true ∧ (stRestarting.dev.fget R.FLR_STAT R.FLR_STAT.PORT_UP).testBit 3 = true
    ∧ stRestarting.dev.flag (R.WNW_STAT 3) R.WNW_STAT.READY = true ∧ stRestarting.dev.flag (R.TBL_STAT 3) R.TBL_STAT.READY = true
    ∧ (st id).dev.armed ⟨.regionBound, 3, 0⟩ = false
    ∧ (st id).dev.Accepts (.pf 0) (R.RGN_RESTART 3) ∧ stRestarting.dev.Accepts (.pf 0) (R.RGN_RESTART 3)
    ∧ stRestarting.dev.regionRuns 3 = false ∧ (st id).dev.regionRuns 3 = true ∧ (st id).dev.loader.draining ≠ some 3
    ∧ (st id).dev.relayoutArmed 3 = false
    ∧ (st fun d => (d.setFlag R.LDR_RELAYOUT R.LDR_RELAYOUT.ARMED true).fset R.LDR_RELAYOUT R.LDR_RELAYOUT.REGION 3).dev.relayoutArmed 3 = true := by
  repeat' apply And.intro
  all_goals first | decide +kernel | rfl

theorem witness_RestartingRegionIgnores : stRestarting.dev.chip.state ≠ .off ∧ stRestarting.dev.Accepts (.pf 0) (R.RGN_RESTART 3)
    ∧ stRestarting.dev.inRestart 3 = true := by
  repeat' apply And.intro
  all_goals first | decide +kernel | rfl

theorem witness_SlotsAndRetries : (st id).dev.chip.state ≠ .off ∧ (st id).dev.pipelineUp 3 = false ∧ (stUp id).dev.pipelineUp 3 = true
    ∧ (stUp id).dev.frame.busy.testBit 3 = false ∧ (stUp fun d => { d with frame := { d.frame with busy := 8 } }).dev.frame.busy.testBit 3 = true
    ∧ Map.get (fun _ => []) (stUp fun d => { d with frame := { d.frame with copies := [(3, [.port descr, .engine 7 descr])] } }).dev.frame.copies 3
        = [.port descr, .engine 7 descr]
    ∧ Map.get (fun _ => []) (stUp id).dev.frame.copies 0 = []
    ∧ ((stUp fun d => { d with frame := { d.frame with landing := [{ landed with phase := .offered }] } }).dev.nextOffered 0).isSome = true
    ∧ (stUp id).dev.nextOffered 0 = none
    ∧ Map.get (fun _ => []) (stUp fun d => { d with frame := { d.frame with mirrorWait := [(3, [(0, descr)])] } }).dev.frame.mirrorWait 3 = [(0, descr)]
    ∧ Map.get (fun _ => []) (stUp id).dev.frame.mirrorWait 3 = []
    ∧ Map.get (fun _ => 0) (st id).dev.floor.failures (pathKey 3 4) + 1 < max 1 ((st fun d => d.fset R.FLR_CFG R.FLR_CFG.RETRY_LIMIT 2).dev.fget R.FLR_CFG R.FLR_CFG.RETRY_LIMIT)
    ∧ max 1 ((st fun d => d.fset R.FLR_CFG R.FLR_CFG.RETRY_LIMIT 1).dev.fget R.FLR_CFG R.FLR_CFG.RETRY_LIMIT) ≤ Map.get (fun _ => 0) (st id).dev.floor.failures (pathKey 4 3) + 1
    ∧ (st fun d => (d.modTbl 3 fun t => { t with inPass := true })).dev.backgroundPending 3 63 = true
    ∧ (stUp fun d => { d with frame := { d.frame with landing := [{ landed with phase := .offered }] } }).dev.offered 0 = true
    ∧ (st id).dev.frame.busy.testBit 0 = false ∧ (st id).dev.backgroundPending 3 63 = false ∧ (st id).dev.offered 3 = false
    ∧ (stUp fun d => { d with frame := { d.frame with landing := [{ landed with phase := .offered }] } }).dev.frame.busy.testBit 0 = false
    ∧ (st fun d => d.modTbl 0 fun t => { t with inPass := true }).dev.backgroundPending 0 63 = true
    ∧ Map.get (fun _ => 0) (st id).dev.frame.background (112 * 0 + 63) + 64 ≤ (st fun d => { d with now := 64 }).dev.now
    ∧ ¬ Map.get (fun _ => 0) (st id).dev.frame.background (112 * 0 + 63) + 64 ≤ (st fun d => { d with now := 63 }).dev.now
    ∧ (st fun d => d.setRing 3 3 { FreeRing.init with cache := List.replicate 48 0 }).dev.backgroundPending 3 111 = true ∧ 64 ≤ (111 : Fin 112).val := by
  repeat' apply And.intro
  all_goals decide +kernel

/-- A sink of a block: space for the answer to a request of tag 7. -/
def sink (u : SinkUse) (v : Bool) : Sink := { block := 0, use := u, void := v }

/-- A response that a region which serves takes: it heads its path, and its generation is current. -/
def responds (b : FloorBody) : Bool :=
  let d := (stRsp (msg 3 0 b) id).dev
  d.headMsg false 3 0 == some (msg 3 0 b) && !b.isReq && !(d.takeMsg false 3 0).isStale (msg 3 0 b) && (d.takeMsg false 3 0).regionRuns 0
    && (d.takeMsg false 3 0).regionEnabled 0

/-- Space reserved for the answer that comes. -/
def reserved (b : FloorBody) (u : SinkUse) : Bool :=
  ((stRsp (msg 3 0 b) fun d => d.setSink 0 7 (some (sink u false))).dev.takeMsg false 3 0).sink 0 7 == some (sink u false)

theorem witness_FloorMessages : (st id).dev.chip.state ≠ .off
    ∧ (stReq (msg 0 3 (.read 0)) id).dev.headMsg true 0 3 = some (msg 0 3 (.read 0))
    ∧ ((stReq (msg 0 3 (.read 0)) fun d => d.wr R.FLR_GEN 1).dev.takeMsg true 0 3).isStale (msg 0 3 (.read 0)) = true
    ∧ ((stReq (msg 0 3 (.read 0)) id).dev.takeMsg true 0 3).isStale (msg 0 3 (.read 0)) = false
    ∧ ((stReq (msg 0 3 (.read 0)) down3).dev.takeMsg true 0 3).regionRuns 3 = false
    ∧ ((stReq (msg 0 3 (.read 0)) id).dev.takeMsg true 0 3).regionRuns 3 = true
    ∧ ((stReq (msg 0 3 (.read 0)) id).dev.takeMsg true 0 3).regionEnabled 3 = true
    ∧ ((stReq (msg 0 3 (.read 0)) fun d => { d with loader := { d.loader with layout := { d.loader.layout with regions := 7 } } }).dev.takeMsg true 0 3).regionEnabled 3 = false
    ∧ ((stReq (msg 3 3 (.read 0)) down3).dev.takeMsg true 3 3).isStale (msg 3 3 (.read 0)) = false
    ∧ (down3 service).regionRuns 3 = false ∧ service.regionRuns 3 = true ∧ (msg 0 3 (.enq descr)).dst = 3 ∧ descr.guarded = false
    ∧ (stReq (msg 0 3 (.enq descr)) id).dev.headMsg true 0 3 = some (msg 0 3 (.enq descr))
    ∧ (st id).dev.headMsg true 3 0 = none
    ∧ (stReq (msg 4 3 (.regr (.pf 0) (BitVec.ofNat 32 (R.RGN_STAT 3)))) id).dev.headMsg true 4 3 = some (msg 4 3 (.regr (.pf 0) (BitVec.ofNat 32 (R.RGN_STAT 3))))
    ∧ (stReq (msg 4 3 (.regw (.pf 0) (BitVec.ofNat 32 (R.MDIO_CMD 15)) 0)) id).dev.headMsg true 4 3 = some (msg 4 3 (.regw (.pf 0) (BitVec.ofNat 32 (R.MDIO_CMD 15)) 0))
    ∧ (BitVec.ofNat 32 (R.MDIO_CMD 15)).toNat = R.MDIO_CMD 15
    ∧ (service.takeMsg true 4 3).isStale (msg 4 3 (.regr (.pf 0) 0)) = false
    ∧ (service.takeMsg true 4 3).isStale { msg 4 3 (.regr (.pf 0) 0) with origin := 3, gen := 255 } = true
    ∧ (st id).dev.regionServes (R.MDIO_CMD 15) = true
    ∧ (st fun d => d.fset (R.RGN_STAT 3) R.RGN_STAT.STATE 2).dev.regionServes (R.MDIO_CMD 15) = false := by
  repeat' apply And.intro
  all_goals decide +kernel

theorem witness_FloorMessages_responses : (stRsp (msg 3 0 (.data [] false)) id).dev.headMsg false 3 0 = some (msg 3 0 (.data [] false))
    ∧ (∀ b ∈ [FloorBody.data [] false, .cplGuarded (some 4095) 5 133 7 .transmit, .cplOwner 49151 .transmit, .cplBales 1 133 [9], .cplMirror 1 7,
        .cplReg (some 9), .nack 1 (some descr), .nack 3 none], responds b = true)
    ∧ (∀ u ∈ [SinkUse.port 133 1, .spill 7 1, .mirror 7 1, .host 1, .engineReg 63 7 31], reserved (.data [] false) u = true)
    ∧ reserved (.cplReg (some 9)) (.engineReg 63 7 31) = true ∧ reserved (.nack 3 none) (.engineReg 63 7 31) = true
    ∧ (down3 service).regionRuns 3 = false ∧ service.regionRuns 3 = true
    ∧ ((stRsp (msg 3 0 (.data [] false)) fun d => d.wr R.FLR_GEN 0x01000000).dev.takeMsg false 3 0).isStale (msg 3 0 (.data [] false)) = true
    ∧ ((stRsp (msg 3 0 (.data [] false)) id).dev.takeMsg false 3 0).isStale (msg 3 0 (.data [] false)) = false
    ∧ ((stRsp (msg 0 3 (.data [] false)) down3).dev.takeMsg false 0 3).regionRuns 3 = false
    ∧ ((stRsp (msg 3 0 (.data [] false)) id).dev.takeMsg false 3 0).regionRuns 0 = true
    ∧ ((stRsp (msg 3 0 (.data [] false)) id).dev.takeMsg false 3 0).regionEnabled 0 = true
    ∧ ((stRsp (msg 3 0 (.data [] false)) id).dev.takeMsg false 3 0).sink 0 7 = none
    ∧ ((stRsp (msg 3 0 (.data [] false)) fun d => d.setSink 0 7 (some (sink (.host 0) true))).dev.takeMsg false 3 0).sink 0 7 = some (sink (.host 0) true)
    ∧ ((stRsp (msg 3 0 (.data [] false)) fun d => d.setSink 0 7 (some (sink (.port 0 1) false))).dev.takeMsg false 3 0).sink 0 7 = some (sink (.port 0 1) false)
    ∧ ((stRsp (msg 3 0 (.cplReg none)) fun d => d.setSink 0 7 (some (sink (.engineReg 63 7 31) false))).dev.takeMsg false 3 0).sink 0 7
      = some { block := 0, use := .engineReg 63 7 31, void := false }
    ∧ descr.mirrorList = false ∧ (msg 3 0 (.nack 1 (some descr))).dst = 0 := by
  repeat' apply And.intro
  all_goals decide +kernel

theorem witness_BusyLoaderIgnores : (st id).dev.chip.state ≠ .off
    ∧ (st fun d => d.fset R.LDR_STAT R.LDR_STAT.RESULT 1).dev.Accepts (.pf 0) R.LDR_CMD
    ∧ (st fun d => d.fset R.LDR_STAT R.LDR_STAT.RESULT 1).dev.fget R.LDR_STAT R.LDR_STAT.RESULT = 1
    ∧ (st fun d => d.fset R.LDR_RELAYOUT R.LDR_RELAYOUT.ACTIVE 1).dev.Accepts (.pf 0) R.LDR_CMD
    ∧ (st fun d => d.fset R.LDR_RELAYOUT R.LDR_RELAYOUT.ACTIVE 1).dev.fget R.LDR_RELAYOUT R.LDR_RELAYOUT.ACTIVE = 1 := by
  repeat' apply And.intro
  all_goals first | decide +kernel | rfl

/-- A device whose block 0 carries subports, of which P0 stands in HOLD_UP. -/
def usxgmii (d : Dev) : Dev :=
  ({ d with loader := { d.loader with layout := { d.loader.layout with
      rgn := List.replicate 4 { RegionLayout.none_ with pbMode := [10, 0, 0, 0], pbLanes := [15, 0, 0, 0] } } } } : Dev).fset
    (R.MAC_STAT 0) R.MAC_STAT.LSTATE 5

theorem witness_PortBringUp : portExists 133 = true ∧ portExists 0 = true ∧ (st id).dev.chip.state ≠ .off
    ∧ (stLink 1 id).dev.lstate 133 = 1 ∧ (stLink 1 id).dev.refPresent (refIndex 133) = true ∧ (stLink 2 id).dev.lstate 133 = 2
    ∧ (stLink 3 id).dev.lstate 133 ≠ 2 ∧ (stLink 3 id).dev.lstate 133 = 3 ∧ (stLink 4 id).dev.lstate 133 = 4
    ∧ (stLink 4 id).dev.flag (R.MAC_STAT 133) R.MAC_STAT.LOCAL_FAULT = false ∧ (stLink 4 id).dev.portMode 133 ≠ 1
    ∧ (stLink 5 id).dev.lstate 133 = 5 ∧ (stLink 5 id).dev.armed ⟨.holdUp, 133, 0⟩ = true
    ∧ 9 ≤ (st usxgmii).dev.portMode 0 ∧ 5 ≤ (st usxgmii).dev.lstate 0 := by
  repeat' apply And.intro
  all_goals decide +kernel

/-- Fuses with key slots 0 and 1 programmed. -/
def fusesTwo : Fuses := { Fuses.blank with keys := [⟨List.replicate 12 1, true, false⟩, ⟨List.replicate 12 2, true, false⟩] }

/-- An erase of the unit at an address. -/
def erase (a : Nat) (started : Bool) : FlashOp := { kind := 2, master := 0, addr := a, word := 0, started := started }

/-- A device with flash operations waiting. -/
def withOps (l : List FlashOp) (d : Dev) : Dev := { d with loader := { d.loader with flashOps := l } }

/-- A device that verifies copy A. -/
def verifyingA (d : Dev) : Dev := { d with loader := { d.loader with verifying := some .a } }

/-- A state of a start whose step 3 tries copies of the image. -/
def stTrying (l : List FlashCopy) : State := stF imageFlash Fuses.blank fun d =>
  { d with chip := { d.chip with state := .startCold }, start := { d.start with step := 3 }, loader := { d.loader with toTry := l } }

/-- A state whose loader holds an accepted candidate that differs in region 0. -/
def stCandidate : State := st fun d =>
  ({ d with loader := { d.loader with candidate := true, slot0 := ⟨image, .a⟩, slot1 := ⟨image, .b⟩ } } : Dev).fset R.LDR_STAT R.LDR_STAT.DIFF 1

/-- A state in which region 3 drains for a re-layout. -/
def stDraining (g : Dev → Dev) : State := stT [⟨.relayoutDrain, 3, 0⟩] fun d =>
  { g d with loader := { d.loader with draining := some 3 } }

theorem witness_LoaderCommands : (st id).dev.chip.state ≠ .off ∧ (st id).dev.Accepts (.pf 0) R.LDR_CMD
    ∧ (st fun d => d.fset R.LDR_STAT R.LDR_STAT.RESULT 1).dev.ldrBusy = true ∧ (st id).dev.ldrBusy = false
    ∧ (st id).dev.loader.verifying = none ∧ (stF imageFlash Fuses.blank verifyingA).dev.loader.verifying = some .a
    ∧ refusalCode Fuses.blank [] true ≠ 0
    ∧ (st id).dev.fget R.LDR_RUN_INFO R.LDR_RUN_INFO.SVN ≤ Fuses.blank.svnCount
    ∧ Fuses.blank.svnCount < (st fun d => d.fset R.LDR_RUN_INFO R.LDR_RUN_INFO.SVN 63).dev.fget R.LDR_RUN_INFO R.LDR_RUN_INFO.SVN
    ∧ (st id).dev.fget R.LDR_RUN_INFO R.LDR_RUN_INFO.KEY_SLOT = 0
    ∧ (fusesTwo.slot 1).programmed = true ∧ (fusesTwo.slot 1).revoked = false ∧ (fusesTwo.slot 0).programmed = true
    ∧ (fusesTwo.slot 0).revoked = false ∧ (fusesTwo.slot 3).programmed = false
    ∧ (st id).dev.loader.flashOps = [] ∧ (st id).dev.loader.reading = false
    ∧ (st (withOps [erase 0x1FFF000 false])).dev.loader.flashOps = [erase 0x1FFF000 false]
    ∧ (st (withOps [erase 0x1FFF000 false])).dev.inRunningCopy ((erase 0x1FFF000 false).range (st id).sfdp) = false
    ∧ (st (withOps [erase 0x7FF000 false])).dev.inRunningCopy ((erase 0x7FF000 false).range (st id).sfdp) = true
    ∧ (st (withOps [erase 0 true])).dev.loader.flashOps = [erase 0 true]
    ∧ (st id).dev.runState.starting = false ∧ (stTrying [.a]).dev.runState.starting = true ∧ (stTrying [.a]).dev.start.step = 3
    ∧ (stTrying [.a]).dev.loader.applied = false ∧ (stTrying [.a]).dev.loader.toTry = [.a] ∧ (stTrying [.a, .b]).dev.loader.toTry = [.a, .b]
    ∧ (st id).dev.Accepts (.pf 0) R.LDR_RELAYOUT ∧ stCandidate.dev.candidateEligible 0 = true ∧ (st id).dev.candidateEligible 3 = false
    ∧ (stDraining id).dev.loader.draining = some 3 ∧ (stDraining id).dev.drained 3 = true
    ∧ (stDraining fun d => d.setJentry 3 0 { JEntry.init with state := .sent }).dev.drained 3 = false
    ∧ (stDraining id).dev.armed ⟨.relayoutDrain, 3, 0⟩ = true := by
  repeat' apply And.intro
  all_goals first | decide +kernel | rfl

theorem stF_flash (l : List Host.Cell) (f : Fuses) (g : Dev → Dev) : (stF l f g).flash = l := rfl
theorem stF_fuses (l : List Host.Cell) (f : Fuses) (g : Dev → Dev) : (stF l f g).fuses = f := rfl

/-- The copies read in these states: accepted with the read whole, refused with it failed. -/
theorem witness_LoaderCommands_image : refusalCode (stF imageFlash Fuses.blank verifyingA).fuses
      (readCopy (stF imageFlash Fuses.blank verifyingA).flash .a) false = 0
    ∧ refusalCode (stTrying [.a]).fuses (readCopy (stTrying [.a]).flash .a) false = 0
    ∧ refusalCode (stTrying [.a]).fuses (readCopy (stTrying [.a]).flash .a) true ≠ 0 := by
  simp only [stTrying, stF_flash, stF_fuses, image_read]
  exact ⟨image_accepted, image_accepted, by simp [refusalCode]⟩

theorem witness_PortFaults : portExists 133 = true ∧ (stLink 4 id).dev.chip.state ≠ .off ∧ 4 ≤ (stLink 4 id).dev.lstate 133
    ∧ (stLink 6 id).dev.lstate 133 = 6
    ∧ (stLink 6 (·.fset (R.MAC_LINK 133) R.MAC_LINK.DOWN_MS 255)).dev.fget (R.MAC_LINK 133) R.MAC_LINK.DOWN_MS ≠ 0
    ∧ (stLink 6 (·.fset (R.MAC_LINK 133) R.MAC_LINK.DOWN_MS 0)).dev.fget (R.MAC_LINK 133) R.MAC_LINK.DOWN_MS = 0
    ∧ (stLink 5 id).dev.lstate 133 = 5 ∧ (stLink 7 id).dev.lstate 133 = 7 ∧ (stLink 6 id).dev.lstate 133 ≠ 7
    ∧ (stLink 7 id).dev.armed ⟨.holdDown, 133, 0⟩ = true ∧ 3 ≤ (stLink 3 id).dev.lstate 133 ∧ (stLink 5 id).dev.lstate 133 ≤ 5
    ∧ (stLink 4 id).dev.faultSignalling 133 = true ∧ 4 ≤ (stLink 5 id).dev.lstate 133 ∧ (stLink 0 id).dev.lstate 133 = 0
    ∧ (stLink 0 id).dev.portPresent 133 = true ∧ (67 : Fin 68).val ∈ userLanes ∧ (65 : Fin 68).val ∉ userLanes
    ∧ (st (·.fset (R.LN_PRBS 67) R.LN_PRBS.CHK 5)).dev.fget (R.LN_PRBS 67) R.LN_PRBS.CHK = 5
    ∧ (st id).dev.fget (R.LN_PRBS 0) R.LN_PRBS.CHK = 0 ∧ (st id).dev.workAllowed 3 3 = true
    ∧ (st fun d => ((d.setFlag (R.SCH_CFG 7) R.SCH_CFG.EN true).fset (R.SCH_CFG 7) R.SCH_CFG.KIND 3).fset (R.SCH_CFG 7) R.SCH_CFG.TARGET 8
        ).dev.workAllowed 3 3 = false := by
  repeat' apply And.intro
  all_goals decide +kernel

theorem witness_ManagementBuses : (st id).dev.chip.state ≠ .off ∧ (st id).dev.Accepts (.pf 0) (R.MDIO_CMD 15)
    ∧ (st id).dev.flag (R.MDIO_STAT 15) R.MDIO_STAT.BUSY = false
    ∧ (st (·.setFlag (R.MDIO_STAT 15) R.MDIO_STAT.BUSY true)).dev.flag (R.MDIO_STAT 15) R.MDIO_STAT.BUSY = true
    ∧ (st (·.setFlag (R.MDIO_STAT 15) R.MDIO_STAT.BUSY true)).dev.Accepts (.pf 0) (R.MDIO_CMD 15)
    ∧ (st id).dev.Accepts (.pf 0) (R.I2C_CMD 15) ∧ (st id).dev.flag (R.I2C_STAT 15) R.I2C_STAT.BUSY = false
    ∧ (st (·.setFlag (R.I2C_STAT 15) R.I2C_STAT.BUSY true)).dev.Accepts (.pf 0) (R.I2C_CMD 15)
    ∧ (st (·.setFlag (R.I2C_STAT 15) R.I2C_STAT.BUSY true)).dev.flag (R.I2C_STAT 15) R.I2C_STAT.BUSY = true
    ∧ Map.get (fun _ => none) (st fun d => { d with mgmt := { d.mgmt with i2c := [(15, some ⟨16, 16⟩)] } }).dev.mgmt.i2c 15 = some ⟨16, 16⟩ := by
  repeat' apply And.intro
  all_goals first | decide +kernel | rfl

/-- A device at whose time page a write waits. -/
def timeWaits (a : Nat) (v : Word) (d : Dev) : Dev := { d with time := { d.time with writes := [⟨0, 0, a, v⟩] } }

theorem witness_TimeBases : (st id).dev.chip.state ≠ .off ∧ (st id).dev.Accepts (.pf 0) (R.TB_RATE 3) ∧ (st id).dev.Accepts (.pf 0) (R.TB_CMD 3)
    ∧ (stT [⟨.tbWatch, 3, 0⟩] id).dev.armed ⟨.tbWatch, 3, 0⟩ = true
    ∧ (stT [⟨.tbWatch, 3, 0⟩] id).dev.flag (R.TB_STAT 3) R.TB_STAT.HOLDOVER = false
    ∧ (stT [⟨.tbWatch, 3, 0⟩] (·.setFlag (R.TB_STAT 3) R.TB_STAT.HOLDOVER true)).dev.flag (R.TB_STAT 3) R.TB_STAT.HOLDOVER = true
    ∧ (st id).dev.armed ⟨.tbWatch, 3, 0⟩ = false
    ∧ (timeWaits (R.TB_RATE 3) 5 service).time.writes = [⟨0, 0, R.TB_RATE 3, 5⟩]
    ∧ (timeWaits (R.TB_CMD 3) 1 service).time.writes = [⟨0, 0, R.TB_CMD 3, 1⟩]
    ∧ (timeWaits (R.TB_CMD 3) 2 service).time.writes = [⟨0, 0, R.TB_CMD 3, 2⟩] := by
  repeat' apply And.intro
  all_goals first | decide +kernel | rfl

/-- A state whose MAINS axis is on, in a state of Table 4-3, 40 ms after power came up. -/
def stMains (k : Nat) (g : Mains → Mains) : State := st fun d =>
  let d := (((d.setFlag R.PH_MAINS_CFG R.PH_MAINS_CFG.EN true).setFlag R.PH_MAINS_CFG R.PH_MAINS_CFG.EDGE false).fset R.PH_MAINS_CFG
    R.PH_MAINS_CFG.FILT 255).fset R.PH_MAINS_STAT R.PH_MAINS_STAT.STATE k
  { d with now := 40 * ms, time := { d.time with mains := g d.time.mains } }

theorem witness_MainsAxis : (st id).dev.chip.state ≠ .off ∧ (st id).dev.mainsOn = false ∧ (stMains 1 id).dev.mainsOn = true
    ∧ true = !(stMains 1 id).dev.flag R.PH_MAINS_CFG R.PH_MAINS_CFG.EDGE
    ∧ (stMains 1 id).dev.fget R.PH_MAINS_CFG R.PH_MAINS_CFG.FILT ≤ (255 : Byte).toNat
    ∧ (254 : Byte).toNat < (stMains 1 id).dev.fget R.PH_MAINS_CFG R.PH_MAINS_CFG.FILT
    ∧ (stMains 1 id).dev.mainsState = 1 ∧ (stMains 1 id).dev.time.mains.holding = false
    ∧ (stMains 1 id).dev.time.mains.phase < 65536 - (stMains 1 id).dev.mainsWin
    ∧ (stMains 1 fun m => { m with holding := true }).dev.time.mains.holding = true
    ∧ (stMains 0 id).dev.mainsState ≠ 1 ∧ (stMains 0 id).dev.time.mains.lastEdge = none
    ∧ (stMains 0 fun m => { m with lastEdge := some (20 * ms), intervals := [20 * ms] }).dev.mainsState = 0
    ∧ (stMains 0 fun m => { m with lastEdge := some (20 * ms), intervals := [20 * ms] }).dev.time.mains.lastEdge = some (20 * ms)
    ∧ (stMains 0 fun m => { m with lastEdge := some (20 * ms), intervals := [20 * ms] }).dev.time.mains.intervals = [20 * ms]
    ∧ usableInterval (40 * ms - 20 * ms) = true ∧ locks (20 * ms) (40 * ms - 20 * ms) = true
    ∧ (stMains 1 fun m => { m with holding := true }).dev.time.mains.nextPeriod = 0
    ∧ (stMains 1 fun m => { m with holding := true, progress := 2 ^ 40 }).dev.mainsWin *
        (stMains 1 fun m => { m with holding := true, progress := 2 ^ 40 }).dev.mainsPeriod
      ≤ (stMains 1 fun m => { m with holding := true, progress := 2 ^ 40 }).dev.time.mains.progress
    ∧ (stL id).dev.Accepts (.pf 0) R.PH_MAINS_CFG ∧ (1 : Word).getLsbD 0 = true ∧ (stL id).dev.mainsOn = false
    ∧ (stL id).dev.groupLive (.chip 2) R.PH_MAINS_CFG = true := by
  repeat' apply And.intro
  all_goals first | decide +kernel | rfl

/-- A state whose capture input 1 takes both edges and holds the entries given. -/
def stCapture (l : List CaptureEntry) : State := st fun d =>
  let d := d.fset (R.CAP_CFG 1) R.CAP_CFG.EDGE 3
  { d with time := { d.time with capture := [(1, l)] } }

/-- An entry of a capture FIFO. -/
def entry : CaptureEntry := ⟨[0, 0, 0, 0], 0, 0, true⟩

theorem witness_OdoAxisAndCaptures : (st id).dev.chip.state ≠ .off
    ∧ (st (·.setFlag R.PH_ODO_CFG R.PH_ODO_CFG.EN true)).dev.flag R.PH_ODO_CFG R.PH_ODO_CFG.EN = true
    ∧ (0 : Byte).toNat < (st (·.fset R.PH_ODO_CFG R.PH_ODO_CFG.FILT 1)).dev.fget R.PH_ODO_CFG R.PH_ODO_CFG.FILT
    ∧ (st (·.fset R.PH_ODO_CFG R.PH_ODO_CFG.FILT 1)).dev.fget R.PH_ODO_CFG R.PH_ODO_CFG.FILT ≤ (1 : Byte).toNat
    ∧ (st (·.setFlag R.PH_ODO_CFG R.PH_ODO_CFG.EN false)).dev.flag R.PH_ODO_CFG R.PH_ODO_CFG.EN = false
    ∧ (st id).dev.Accepts (.pf 0) R.PH_ODO_CMD ∧ (stT [⟨.odoStill, 0, 0⟩] id).dev.armed ⟨.odoStill, 0, 0⟩ = true
    ∧ (st id).dev.armed ⟨.odoStill, 0, 0⟩ = false
    ∧ ((stCapture []).dev.fget (R.CAP_CFG 1) R.CAP_CFG.EDGE).testBit 0 = true
    ∧ ((stCapture []).dev.fget (R.CAP_CFG 1) R.CAP_CFG.EDGE).testBit 1 = true
    ∧ (stCapture []).dev.fget (R.CAP_CFG 1) R.CAP_CFG.FILT ≤ (255 : Byte).toNat ∧ (stCapture []).dev.usersRun = true
    ∧ ((stCapture []).dev.captures 1).length < 16 ∧ 16 ≤ ((stCapture (List.replicate 16 entry)).dev.captures 1).length
    ∧ ((st (·.fset (R.CAP_CFG 1) R.CAP_CFG.EDGE 0)).dev.fget (R.CAP_CFG 1) R.CAP_CFG.EDGE).testBit 0 = false
    ∧ (0 : Byte).toNat < (st (·.fset (R.CAP_CFG 1) R.CAP_CFG.FILT 1)).dev.fget (R.CAP_CFG 1) R.CAP_CFG.FILT
    ∧ (stCapture [entry]).dev.Accepts (.pf 0) (R.CAP_CFG 1) ∧ (stCapture [entry, entry]).dev.captures 1 = [entry, entry]
    ∧ (stCapture [entry]).dev.captures 1 = [entry] ∧ (stCapture []).dev.captures 1 = [] ∧ (0x80000000 : Word).getLsbD 31 = true := by
  repeat' apply And.intro
  all_goals first | decide +kernel | rfl

/-- A state whose schedule slot 7 runs on the odometer with a cycle of 10 and a window of a length. -/
def stSlot (len : Nat) (u : AxisUser) : State := stT [⟨.schedGap, 7, 0⟩] fun d =>
  let d := ((d.setFlag (R.SCH_CFG 7) R.SCH_CFG.EN true).fset (R.SCH_CFG 7) R.SCH_CFG.KIND 1).fset (R.SCH_CFG 7) R.SCH_CFG.AXIS 5
  ((d.wr (R.SCH_CYCLE 7) 10).wr (R.SCH_LEN 7) (BitVec.ofNat 32 len)).setSlotUser 7 u

/-- A state whose gate table of P127 runs on MAINS with a switch armed. -/
def stGate (start : Option Int) (g : Dev → Dev) : State := st fun d =>
  let d := (d.setFlag (R.G_CTRL 3 31) R.G_CTRL.EN true).fset (R.G_CTRL 3 31) R.G_CTRL.AXIS 4
  g (d.setGate 127 { d.gate 127 with armed := start })

/-- A state whose pulse output 3 runs on the odometer, with its user as given. -/
def stPulse (u : AxisUser) : State := st fun d =>
  let d := (d.setFlag (R.PO_CFG 3) R.PO_CFG.EN true).fset (R.PO_CFG 3) R.PO_CFG.AXIS 5
  ((d.wr (R.PO_PERIOD 3) 10).wr (R.PO_WIDTH 3) 1).setPulseUser 3 u

theorem witness_AxisUsers : (st id).dev.chip.state ≠ .off ∧ ((stSlot 10 atRest).dev.slotUser 7).active = false
    ∧ (stSlot 10 atRest).dev.windowNow 7 = true ∧ (stSlot 0 atRest).dev.windowNow 7 = false
    ∧ ((stSlot 0 { atRest with active := true }).dev.slotUser 7).active = true
    ∧ ((stSlot 0 { atRest with active := true }).dev.slotUser 7).fallback = false
    ∧ (stSlot 0 { atRest with active := true }).dev.windowNow 7 = false
    ∧ ((stSlot 0 { atRest with fallback := true }).dev.slotUser 7).active = false
    ∧ ((stSlot 0 { atRest with fallback := true }).dev.slotUser 7).fallback = true
    ∧ ((stSlot 0 { atRest with fallback := true }).dev.slotUser 7).owed = 0
    ∧ (stSlot 0 atRest).dev.armed ⟨.schedGap, 7, 0⟩ = true ∧ (stSlot 0 atRest).dev.slotOn 7 = true ∧ (stSlot 0 atRest).dev.usersRun = true
    ∧ ((stGate (some 0) id).dev.gate 127).armed = some 0 ∧ (stGate (some 0) id).dev.gateOn 127 = true
    ∧ (0 : Int) ≤ (stGate (some 0) id).dev.axisAcc ((stGate (some 0) id).dev.gateAxis 127)
    ∧ (stGate (some 0) id).dev.gateAxis 127 ≠ 5
    ∧ (stGate (some 1) id).dev.axisAcc ((stGate (some 1) id).dev.gateAxis 127) < 1
    ∧ ((st id).dev.eport 127).sending = none
    ∧ ((st fun d => d.setEport 127 { d.eport 127 with sending := some (7, 1) }).dev.eport 127).sending = some (7, 1)
    ∧ ((st fun d => d.fset (R.G_CTRL 3 31) R.G_CTRL.IDLE 0).dev.gates 127).testBit 7 = false
    ∧ ((st fun d => d.setEport 127 { d.eport 127 with sending := some (7, 1) }).dev.eport 127).gateClosed = false
    ∧ (st id).dev.pulseOn 3 = false ∧ (stPulse { atRest with started := true }).dev.pulseOn 3 = true
    ∧ (stPulse { atRest with started := true }).dev.pulseBad 3 = false
    ∧ (stPulse { atRest with started := true }).dev.usersRun = true
    ∧ (stPulse { atRest with started := true }).dev.axisValid ((stPulse { atRest with started := true }).dev.pulseAxis 3) = true
    ∧ ((stPulse { atRest with started := true }).dev.pulseUser 3).started = true
    ∧ ((stPulse { atRest with started := true }).dev.pulseUser 3).active = false
    ∧ (stPulse { atRest with started := true }).dev.position 5 ((stPulse { atRest with started := true }).dev.pulseUser 3).origin
        ((stPulse { atRest with started := true }).dev.pulsePeriod 3) < ((stPulse { atRest with started := true }).dev.rd (R.PO_WIDTH 3)).toNat
    ∧ (stPulse { atRest with started := true }).dev.pulseAxis 3 = 5 := by
  repeat' apply And.intro
  all_goals decide +kernel

/-- A state in which region 3 has one bank of rules, 4,096 entries. -/
def stRules (g : Dev → Dev) : State := stL fun d => g (carved [2] d)

/-- A Winnow command in progress with its steps to come. -/
def rule (l : List WnwStep) : WnwCmd :=
  { op := 1, addr := 0, words := [0, 0, 0, 0], steps := l, notBefore := 0, moved := 0, result := 0, absent := none }

theorem witness_WinnowCommands : (stL id).dev.chip.state ≠ .off ∧ (stL id).dev.Accepts (.pf 0) (R.WNW_CMD 3)
    ∧ (stL id).dev.groupLive (.rgn 3) (R.WNW_CMD 3) = true
    ∧ (stL (·.setFlag (R.WNW_CMD_STAT 3) R.WNW_CMD_STAT.BUSY true)).dev.flag (R.WNW_CMD_STAT 3) R.WNW_CMD_STAT.BUSY = true
    ∧ (stL id).dev.flag (R.WNW_CMD_STAT 3) R.WNW_CMD_STAT.BUSY = false ∧ (stL down3).dev.tablesUp 3 = false
    ∧ (stRules id).dev.tablesUp 3 = true ∧ (stRules id).dev.ruleCapacity 3 ≤ (4096 : BitVec 14).toNat
    ∧ (4095 : BitVec 14).toNat < (stRules id).dev.ruleCapacity 3
    ∧ (stRules (·.wr (patKey 3 0) (patWord 1 true true))).dev.boundAt 3
        (stagedPattern (stRules (·.wr (patKey 3 0) (patWord 1 true true))).dev 3) = some 1
    ∧ (stRules id).dev.boundAt 3 (stagedPattern (stRules id).dev 3) = none
    ∧ (stRules id).dev.ruleFree 3 4095 = true
    ∧ (stRules (·.wr (ruleKey 3 4095 0) (ruleWord0 true false 1))).dev.ruleFree 3 4095 = false
    ∧ (stRules (·.wr (ruleKey 3 4095 0) (ruleWord0 true false 1))).dev.firstFree 3 4095 = none
    ∧ (stRules (·.wr (ruleKey 3 0 0) (ruleWord0 true false 1))).dev.ruleFree 3 0 = false
    ∧ (stRules (·.wr (ruleKey 3 0 0) (ruleWord0 true false 1))).dev.firstFree 3 0 = some 1
    ∧ (∀ l, ((stUp fun d => d.setWnw 3 { d.wnw 3 with cmd := some (rule l) }).dev.wnw 3).cmd = some (rule l))
    ∧ (rule []).notBefore ≤ (stUp id).dev.now ∧ (stUp id).dev.tablesUp 3 = true
    ∧ ((stRules id).dev.touchAll 3 ((WnwStep.copy 0 4095).reads 3)).1 = true
    ∧ ((stRules fun d => { d with faults := [(ruleKey 3 0 0, 2)] }).dev.touchAll 3 ((WnwStep.copy 0 4095).reads 3)).1 = false := by
  repeat' apply And.intro
  all_goals first | decide +kernel | rfl | (intro l; rfl)

/-- A table command of channel 3: key 5. -/
def tblCmd (op : Nat) (d0 : Nat) : TblCmd := { chan := 3, op := op, keyLo := 5, keyHi := 0, data := [d0], delta := 0 }

/-- A state in which that command runs in region 3, whose address table has two banks. -/
def stTbl (c : TblCmd) (g : Dev → Dev) : State := st fun d => (g (carved [1, 1] d)).modTbl 3 fun t => { t with running := some c }

/-- A device that holds the command's key in stash entry 31, with a destination. -/
def known (dest : Nat) (d : Dev) : Dev := d.writeSlot 3 (.stash 31) { (tblCmd 1 dest).entry with dest := dest }

/-- Every way of a bucket holds an entry of another key. -/
def fill (h i : Nat) (d : Dev) : Dev :=
  d.each [0, 1, 2, 3] fun y d => d.writeSlot 3 (.bucket h i y) { (tblCmd 1 0).entry with key := (tblCmd 1 0).key + 1 }

/-- A device in which the key finds no free way, and one kick of an entry of its buckets finds none either. -/
def crowded (d : Dev) : Dev :=
  let b := fun (h : Nat) => d.fdbBucket 3 h (tblCmd 1 0).key
  let d := (d.fset (R.TBL_FDB_CFG 3) R.TBL_FDB_CFG.MAX_KICKS 1).each [0, 1] fun h d => fill h (b h) d
  d.each [0, 1] fun h d => fill (1 - h) (d.fdbBucket 3 (1 - h) (d.readSlot 3 (.bucket h (b h) 0)).key) d

/-- Every stash entry of a device holds an entry of another key. -/
def stashFull (d : Dev) : Dev :=
  d.each (List.range 32) fun k d => d.writeSlot 3 (.stash k) { (tblCmd 1 0).entry with key := (tblCmd 1 0).key + 1 }

/-- A device whose running command has a relocation in progress: with copies to write, or with none left. -/
def planned (l : List (Slot × Entry)) (d : Dev) : Dev :=
  d.modTbl 3 fun t => { t with plan := some ⟨l, 1, .bucket 0 0 0⟩ }

/-- The device at a command's turn. -/
def turn (c : TblCmd) (g : Dev → Dev) : Dev := tblTurn 3 c (stTbl c g).dev

theorem witness_TableCommands : (st id).dev.chip.state ≠ .off ∧ (st id).dev.Accepts (.pf 0) (R.TBL_CMD 3 3)
    ∧ (.tblBadop (.pf 0) 3 3 15, 15) ∈ tblCommands (.pf 0) 3 3 15
    ∧ (st (·.setFlag (R.TBL_CMD_STAT 3 3) R.TBL_CMD_STAT.BUSY true)).dev.flag (R.TBL_CMD_STAT 3 3) R.TBL_CMD_STAT.BUSY = true
    ∧ (st id).dev.flag (R.TBL_CMD_STAT 3 3) R.TBL_CMD_STAT.BUSY = false ∧ (st down3).dev.regionRuns 3 = false
    ∧ (st id).dev.regionRuns 3 = true ∧ (st id).dev.blockInRestart 3 6 = false ∧ ((st id).dev.tbl 3).running = none
    ∧ ((List.range 4).map (fun i => (((st id).dev.tbl 3).served + 1 + i) % 4)).find?
        (fun c => ((st fun d => d.modTbl 3 fun t => { t with pending := [tblCmd 1 0] }).dev.tbl 3).pending.any (fun x => x.chan == c)) = some 3
    ∧ ((st id).dev.tbl 3).pending = [] ∧ (((stTbl (tblCmd 1 0) id).dev.planTbl 3).tbl 3).running = some (tblCmd 1 0) ∧ 6 < (tblCmd 7 0).op
    ∧ (((stTbl (tblCmd 1 0) (planned [(.stash 31, (tblCmd 1 0).entry)])).dev.planTbl 3).tbl 3).plan.any (fun p => !p.moves.isEmpty) = true
    ∧ (((stTbl (tblCmd 1 0) id).dev.planTbl 3).tbl 3).plan.any (fun p => !p.moves.isEmpty) = false
    ∧ destReserved (tblCmd 1 0x3FF).entry.dest = true ∧ destReserved (tblCmd 1 1).entry.dest = false
    ∧ (turn (tblCmd 1 1) (known 1)).hits 3 (tblCmd 1 1).key = [.stash 31]
    ∧ ((turn (tblCmd 1 1) (known 1)).readSlot 3 (.stash 31)).dest = (tblCmd 1 1).entry.dest
    ∧ ((turn (tblCmd 1 1) (known 1)).readSlot 3 (.stash 31)).isStatic = (tblCmd 1 1).entry.isStatic
    ∧ ((turn (tblCmd 1 1) (known 2)).hits 3 (tblCmd 1 1).key).head? = some (.stash 31)
    ∧ ((turn (tblCmd 1 1) (known 2)).readSlot 3 (.stash 31)).dest ≠ (tblCmd 1 1).entry.dest
    ∧ (∀ op ∈ [2, 3, 4], (turn (tblCmd op 1) (known 1)).hits 3 (tblCmd op 1).key = [.stash 31])
    ∧ (∀ op ∈ [2, 3, 4], (turn (tblCmd op 1) id).hits 3 (tblCmd op 1).key = []) ∧ destReserved (tblCmd 2 1).entry.dest = false
    ∧ bits ({ tblCmd 5 0 with keyLo := 4095 } : TblCmd).keyLo 0 12 = 4095 ∧ bits (tblCmd 5 0).keyLo 0 12 ≠ 4095
    ∧ (turn (tblCmd 1 0) (planned [])).hits 3 (tblCmd 1 0).key = []
    ∧ ((turn (tblCmd 1 0) (planned [])).tbl 3).plan = some ⟨[], 1, .bucket 0 0 0⟩
    ∧ (turn (tblCmd 1 0) id).hits 3 (tblCmd 1 0).key = [] ∧ ((turn (tblCmd 1 0) id).tbl 3).plan = none
    ∧ ((turn (tblCmd 1 0) id).placeInBuckets 3 (tblCmd 1 0).key).1.isSome = true
    ∧ (turn (tblCmd 1 0) crowded).hits 3 (tblCmd 1 0).key = [] ∧ ((turn (tblCmd 1 0) crowded).tbl 3).plan = none
    ∧ ((turn (tblCmd 1 0) crowded).placeInBuckets 3 (tblCmd 1 0).key).1 = none
    ∧ (List.range 32).find? (fun k => !((turn (tblCmd 1 0) crowded).readSlot 3 (.stash k)).valid) = some 0
    ∧ (turn (tblCmd 1 0) fun d => stashFull (crowded d)).hits 3 (tblCmd 1 0).key = []
    ∧ ((turn (tblCmd 1 0) fun d => stashFull (crowded d)).tbl 3).plan = none
    ∧ ((turn (tblCmd 1 0) fun d => stashFull (crowded d)).placeInBuckets 3 (tblCmd 1 0).key).1 = none
    ∧ (∀ k < 32, ((turn (tblCmd 1 0) fun d => stashFull (crowded d)).readSlot 3 (.stash k)).valid = true) := by
  repeat' apply And.intro
  all_goals first | decide +kernel | rfl

/-- A learn notification. -/
def learnt : Learn := { kind := 0, mac := 1, fid := 1, port := 0, oldDest := 0, loc := 0, gen := 0 }

/-- A device whose table block in region 3 holds that notification. -/
def learns (d : Dev) : Dev := d.modTbl 3 fun t => { t with learn := [learnt] }

theorem witness_LearningAndGleaner : (st id).dev.chip.state ≠ .off ∧ (st id).dev.Accepts (.pf 0) (R.TBL_LRN_POP 3)
    ∧ (st (·.setFlag (R.TBL_LRN_CFG 3) R.TBL_LRN_CFG.TARGET true)).dev.flag (R.TBL_LRN_CFG 3) R.TBL_LRN_CFG.TARGET = true
    ∧ ((st id).dev.tbl 3).learn = [] ∧ (stTasks learns).dev.flag (R.TBL_LRN_CFG 3) R.TBL_LRN_CFG.TARGET = false
    ∧ ((stTasks learns).dev.tbl 3).learn = [learnt] ∧ (st id).dev.queueDepth 3 0 = 0
    ∧ (stTasks learns).dev.fget (R.TBL_LRN_CFG 3) R.TBL_LRN_CFG.ENG_Q = 0
    ∧ (stTasks learns).dev.queueDepth 3 0 ≠ 0 ∧ ((stTasks learns).dev.rl 3).engFw = true ∧ (stTasks learns).dev.queueEngines 3 0 ≠ []
    ∧ (stTasks learns).dev.queueRoom 3 0 = true
    ∧ (stTasks fun d => (clockBegins (learns d)).enterNow 3 0 (Task.make 3 [] none none)).dev.queueRoom 3 0 = false := by
  repeat' apply And.intro
  all_goals first | decide +kernel | rfl

/-- A device whose slot 7 names the Gleaner of region 3, in a window. -/
def scheduled (d : Dev) : Dev :=
  (((d.setFlag (R.SCH_CFG 7) R.SCH_CFG.EN true).fset (R.SCH_CFG 7) R.SCH_CFG.KIND 1).fset (R.SCH_CFG 7) R.SCH_CFG.TARGET 8).setFlag
    (R.SCH_STAT 7) R.SCH_STAT.OPEN true

theorem witness_LearningAndGleaner_walks : (stUp id).dev.workAllowed 1 3 = true ∧ (stUp id).dev.flag (R.TBL_STAT 3) R.TBL_STAT.READY = true
    ∧ (stUp id).dev.regionRuns 3 = true ∧ (stUp id).dev.blockInRestart 3 6 = false ∧ ((stUp id).dev.tbl 3).verifying = false
    ∧ ((stUp id).dev.tbl 3).inPass = false ∧ ((stUp fun d => d.modTbl 3 fun t => { t with pass := 1 }).dev.tbl 3).pass ≠ 0
    ∧ ((stUp fun d => scheduled (d.modTbl 3 fun t => { t with pass := 1 })).dev.tbl 3).windowSince = false
    ∧ (stUp scheduled).dev.slotsNaming 1 3 ≠ [] ∧ (stUp scheduled).dev.workAllowed 1 3 = true
    ∧ (stUp fun d => (scheduled d).setFlag (R.SCH_STAT 7) R.SCH_STAT.OPEN false).dev.workAllowed 1 3 = false
    ∧ (stUp fun d => d.fset (R.TBL_GLN_CFG 3) R.TBL_GLN_CFG.MIN_GAP_MS 1).dev.now
      < ((stUp id).dev.tbl 3).passStart + (stUp fun d => d.fset (R.TBL_GLN_CFG 3) R.TBL_GLN_CFG.MIN_GAP_MS 1).dev.fget (R.TBL_GLN_CFG 3) R.TBL_GLN_CFG.MIN_GAP_MS * ms
    ∧ ((stUp fun d => planned [] (d.modTbl 3 fun t => { t with inPass := true })).dev.tbl 3).plan ≠ none ∧ ((stUp id).dev.tbl 3).plan = none
    ∧ ((stUp fun d => d.modTbl 3 fun t => { t with inPass := true }).dev.tbl 3).inPass = true
    ∧ ((stUp id).dev.bursts 3)[0]? = some (2, 0) ∧ ((stUp id).dev.bursts 3).length = 50
    ∧ (((stUp fun d => d.modTbl 3 fun t => { t with inPass := true, burst := 49 }).dev.bursts 3)[49]?).isSome = true
    ∧ (st id).dev.Accepts (.pf 0) (R.TBL_SHADOW_ADJ 3) ∧ 4416 ≤ (4416 : BitVec 13).toNat ∧ (4415 : BitVec 13).toNat < 4416
    ∧ (st id).dev.Accepts (.pf 0) (R.TBL_GLN_MISMATCH 3)
    ∧ ((st fun d => d.modTbl 3 fun t => { t with copying := some (63, 62), failing := [1] }).dev.tbl 3).copying = some (63, 62)
    ∧ ((st id).dev.tbl 3).copying = none
    ∧ ((st fun d => d.modTbl 3 fun t => { t with verifying := true }).dev.tbl 3).verifying = true
    ∧ (st id).dev.flag (R.WNW_STAT 3) R.WNW_STAT.REBUILD = false
    ∧ (st (·.setFlag (R.WNW_STAT 3) R.WNW_STAT.REBUILD true)).dev.flag (R.WNW_STAT 3) R.WNW_STAT.REBUILD = true
    ∧ (st id).dev.blockInRestart 3 8 = false := by
  repeat' apply And.intro
  all_goals first | decide +kernel | rfl

theorem witness_PolicerCommands : (stL id).dev.chip.state ≠ .off ∧ (stL id).dev.Accepts (.pf 0) (R.POL_CMD 3)
    ∧ (stL id).dev.groupLive (.rgn 4) (R.POL_CMD 3) = true
    ∧ (stL (·.setFlag (R.POL_CMD_STAT 3) R.POL_CMD_STAT.BUSY true)).dev.flag (R.POL_CMD_STAT 3) R.POL_CMD_STAT.BUSY = true
    ∧ (stL (·.setFlag (R.POL_CMD_STAT 3) R.POL_CMD_STAT.BUSY true)).dev.Accepts (.pf 0) (R.POL_CMD 3)
    ∧ (stL id).dev.flag (R.POL_CMD_STAT 3) R.POL_CMD_STAT.BUSY = false
    ∧ (stL down3).dev.tablesUp 3 = false ∧ (stL down3).dev.Accepts (.pf 0) (R.POL_CMD 3) ∧ (stL id).dev.tablesUp 3 = true
    ∧ bits ((stL (·.wr (R.POL_CMD_DATA 3 0) 0x01000000)).dev.rd (R.POL_CMD_DATA 3 0)).toNat 24 8 ≠ 0
    ∧ (∀ i < 4, ((stL id).dev.rd (R.POL_CMD_DATA 3 i)).toNat = 0) ∧ ((stL id).dev.tbl 3).inPass = false := by
  repeat' apply And.intro
  all_goals first | decide +kernel | rfl

/-- A state in which H5's MAC sees frames. -/
def stSees (ready : Bool) (l : List Landing) : State := stLink 6 fun d =>
  let d := (d.each (d.portLanes 133) fun l d => d.setFlag (R.LN_STAT l) R.LN_STAT.SYNC true).setFlag (R.MAC_STAT 133) R.MAC_STAT.READY ready
  { d with chip := { d.chip with laneStep := true }, frame := { d.frame with landing := l } }

/-- A frame that H5 receives, and one that it has received. -/
def coming : Landing := { Landing.begun 1 133 1518 0 none [] false with waiting := false }

/-- A state in which H5's lane loops what it sends, with frames on the loop. -/
def nearLoop (l : List (List Byte)) : State :=
  let s := stSees true []
  let d := s.dev.fset (R.LN_CFG 67) R.LN_CFG.LOOP 1
  { s with dev := { d with mgmt := { d.mgmt with looped := [(133, l)] } } }

theorem witness_ReceivedFrames : portExists 133 = true ∧ (stSees true []).dev.chip.state ≠ .off ∧ (st id).dev.macSees 133 = false
    ∧ (stSees true [coming]).dev.receiving 133 = some coming ∧ (stSees true []).dev.macSees 133 = true
    ∧ (stSees true []).dev.receiving 133 = none ∧ (stSees false []).dev.portReady 133 = false ∧ (stSees true []).dev.portReady 133 = true
    ∧ (stSees true []).dev.fifoWaits 133 = false
    ∧ (stSees true [{ coming with ended := true, phase := .offered }]).dev.macSees 133 = true
    ∧ (stSees true [{ coming with ended := true, phase := .offered }]).dev.fifoWaits 133 = true
    ∧ (stSees true [{ coming with ended := true, phase := .offered }]).dev.receiving 133 = none
    ∧ (stSees true [coming]).dev.rxOutcome 133 (coming.head ++ (coming.looped.getD goodFrame).drop coming.head.length) (!coming.readyAtBegin)
        coming.fifoFull (false || coming.cutAt.any (fun t => decide (t < 0))) coming.maxLen coming.hash = 10
    ∧ (stSees true [coming]).dev.rxOutcome 133 [] false false false 1518 none ≠ 10 ∧ coming.phase = .landing
    ∧ (stSees true [{ coming with phase := .gone }]).dev.receiving 133 = some { coming with phase := .gone }
    ∧ (stSees true []).dev.looped 133 1 = false ∧ (nearLoop []).dev.looped 133 1 = true ∧ (nearLoop []).dev.macSees 133 = true
    ∧ ((nearLoop []).dev.takeLooped 133).1 = none ∧ ((nearLoop [goodFrame]).dev.takeLooped 133).1 = some goodFrame
    ∧ (stSees true []).dev.frame.landing.find? (fun l => l.id == 1 && l.waiting && l.phase != .gone) = none
    ∧ (stSees true [{ coming with waiting := true }]).dev.frame.landing.find? (fun l => l.id == 1 && l.waiting && l.phase != .gone)
        = some { coming with waiting := true }
    ∧ (stSees true [{ coming with phase := .decided }]).dev.receiving 133 = some { coming with phase := .decided }
    ∧ (stSees true [{ coming with waiting := true }]).dev.receiving 133 = some { coming with waiting := true }
    ∧ sourceExists (.port 133) = true
    ∧ (stSees true []).dev.landingOf (sourceOrigin (.port 133)) (fun l => l.waiting && !l.fifoFull && l.phase != .gone) = none
    ∧ (stSees true [{ coming with waiting := true }]).dev.landingOf (sourceOrigin (.port 133)) (fun l => l.waiting && !l.fifoFull && l.phase != .gone)
        = some { coming with waiting := true }
    ∧ (stSees true [{ coming with ended := true, bytes := goodFrame }]).dev.landingOf (sourceOrigin (.port 133))
        (fun l => l.phase == .landing && !l.waiting && !l.fifoFull) = some { coming with ended := true, bytes := goodFrame }
    ∧ 64 ≤ goodFrame.length
    ∧ (stSees true [coming]).dev.landingOf (sourceOrigin (.port 133)) (fun l => l.phase == .landing && !l.waiting && !l.fifoFull) = some coming
    ∧ coming.ended = false ∧ (goodFrame.take 63).length < 64 := by
  repeat' apply And.intro
  all_goals decide +kernel

/-- A frame of P0 that is decided, and one that is charged. -/
def chosen (p : LandPhase) (dec : Decision) : Landing :=
  { landed with phase := p, waiting := false, need := 1, pre := some dec }

/-- A state of region 0 whose Granary works, with a pool of grains of which some are charged, and the frames given. -/
def stGranary (grains used : Nat) (l : List Landing) (g : Dev → Dev) : State := st fun d =>
  let d := (d.setFlag (R.GRN_STAT 0) R.GRN_STAT.READY true).fset (R.GRN_POOL_CFG 0 0) R.GRN_POOL_CFG.GRAINS grains
  let d := d.setPool 0 0 { charged := used, shared := used }
  g { d with frame := { d.frame with landing := l } }

/-- A device with one class guarded. -/
def guards (d : Dev) : Dev := { d with loader := { d.loader with layout := { d.loader.layout with guarded := 1 } } }

/-- The device after the landing charge of its decided frame is given back. -/
def freed (s : State) : Dev := s.dev.discharge 0 0 0 0 1 0

/-- A device that pushes out a frame of class 0, which came before this clock, at the end of queue 0 for one of class 1. -/
def pushes (d : Dev) : Dev :=
  let d : Dev := { d with now := 1 }
  let d := (d.setFlag (R.GRN_CFG 0) R.GRN_CFG.PUSH_EN true).fset (R.GRN_POOL_CFG 0 0) R.GRN_POOL_CFG.PUSH_MAX 1
  let d := (d.fset (R.GRN_POOL_CFG 0 0) R.GRN_POOL_CFG.PUSH_MASK 1).modQueue 0 0 fun q => { q with frames := [descr] }
  d.setFrec 0 0 { FrameRec.init with ref := 1, grains := 1 }

theorem witness_AcceptedFrames : (st id).dev.lowestSource 3 (fun l => l.phase == .decided && !l.waiting) = none
    ∧ (stGranary 1 1 [chosen .decided (decided [toP0])] id).dev.lowestSource 0 (fun l => l.phase == .decided && !l.waiting)
        = some (chosen .decided (decided [toP0]))
    ∧ (chosen .decided (decided [toP0])).src = 0
    ∧ (st id).dev.granaryUp 3 = false ∧ (stGranary 1 1 [] id).dev.granaryUp 0 = true
    ∧ (freed (stGranary 1 1 [] guards)).guardedClass 0 = true ∧ (freed (stGranary 1 1 [] guards)).freeEntries 0 1 = none
    ∧ (freed (stGranary 1 1 [] id)).freeEntries 0 0 = some [] ∧ (freed (stGranary 1 1 [] id)).placeFor 0 0 0 1 = some (0, 0)
    ∧ (freed (stGranary 0 1 [] id)).placeFor 0 0 0 1 = none ∧ ((freed (stGranary 0 1 [] id)).makeRoom 0 0 0 1).isNone = true
    ∧ (freed (stGranary 1 2 [] pushes)).placeFor 0 0 1 1 = none ∧ ((freed (stGranary 1 2 [] pushes)).makeRoom 0 0 1 1).isSome = true
    ∧ (st id).dev.lowestSource 3 (fun l => l.phase == .charged && l.ended) = none
    ∧ (stGranary 1 1 [chosen .charged (decided [toP0])] id).dev.lowestSource 0 (fun l => l.phase == .charged && l.ended)
        = some (chosen .charged (decided [toP0]))
    ∧ ((decided [toP0]).targets.filter (fun t => (st id).dev.mtuOk t false 9217)).all (·.mirror) = true
    ∧ ((decided [toP0]).targets.filter (fun t => (st id).dev.mtuOk t false 64)).all (·.mirror) = false ∧ (decided [toP0]).redirect = false
    ∧ Map.get (fun _ => []) (st id).dev.frame.releases 3 = []
    ∧ Map.get (fun _ => []) (st fun d => { d with frame := { d.frame with releases := [(3, [49151])] } }).dev.frame.releases 3 = [49151]
    ∧ ((st id).dev.grain 3 49151).held = false
    ∧ ((st fun d => d.setGrain 3 49151 { Grain.init with held := true, headBit := true }).dev.grain 3 49151).held = true
    ∧ ((st fun d => d.setGrain 3 49151 { Grain.init with held := true, headBit := true }).dev.grain 3 49151).headBit = true
    ∧ ((st fun d => d.setFrec 3 49151 { FrameRec.init with ref := 1 }).dev.frec 3 49151).ref = 1
    ∧ 1 < ((st fun d => d.setFrec 3 49151 { FrameRec.init with ref := 2 }).dev.frec 3 49151).ref
    ∧ ((st fun d => d.setFrec 3 49151 { FrameRec.init with ref := 2 }).dev.frec 3 49151).forwarded = 0
    ∧ ((st fun d => d.setFrec 3 49151 { FrameRec.init with ref := 2, forwarded := 1 }).dev.frec 3 49151).forwarded ≠ 0
    ∧ ((st id).dev.clk.released.filter (· == 3)).length < 4
    ∧ 4 ≤ ((st fun d => { d with clk := { d.clk with released := [3, 3, 3, 3] } }).dev.clk.released.filter (· == 3)).length := by
  repeat' apply And.intro
  all_goals decide +kernel

/-- A state whose four rings in region 3 hold no number, or whose ring 3 is as given. -/
def stRings (f : FreeRing) : State := st fun d =>
  d.each [0, 1, 2, 3] fun r d => d.setRing 3 r (if r = 3 then f else { FreeRing.init with next := ringSize })

/-- A held ENQ. -/
def heldEnq : HeldEnq := { ingress := 0, descr := descr, since := 0 }

/-- A walk over all regions. -/
def walk (started : Bool) : Walk := { Walk.new none with started := started }

theorem witness_AcceptedFrames_rings :
    [0, 1, 2, 3].find? (fun r => decide (((stRings { FreeRing.init with next := ringSize }).dev.ring 3 r).cache.length ≤ 16)
        && ((stRings { FreeRing.init with next := ringSize }).dev.ring 3 r).nonempty) = none
    ∧ [0, 1, 2, 3].find? (fun r => decide (((stRings FreeRing.init).dev.ring 3 r).cache.length ≤ 16)
        && ((stRings FreeRing.init).dev.ring 3 r).nonempty) = some 3
    ∧ [0, 1, 2, 3].find? (fun r => decide (48 ≤ ((st id).dev.ring 3 r).cache.length)) = none
    ∧ [0, 1, 2, 3].find? (fun r => decide (48 ≤ ((stRings { FreeRing.init with cache := List.replicate 48 0 }).dev.ring 3 r).cache.length)) = some 3
    ∧ (st id).dev.held 3 = [] ∧ (st fun d => d.setHeld 3 [heldEnq]).dev.held 3 = [heldEnq]
    ∧ ([heldEnq].filter (fun h => [heldEnq].all (fun y => !y.inLane h.descr.ingress h.descr.target.dest h.descr.cls
        || !seqAfter 32 h.descr.seq y.descr.seq))) = [heldEnq]
    ∧ (st id).dev.journalUsed 3 = []
    ∧ ((stT [⟨.retry, 3, 4095⟩] fun d => d.setJentry 3 4095 { JEntry.init with state := .resend }).dev.journalUsed 3).find? (fun i =>
        (stT [⟨.retry, 3, 4095⟩] fun d => d.setJentry 3 4095 { JEntry.init with state := .resend }).dev.due ⟨.retry, 3, i⟩
        && ((stT [⟨.retry, 3, 4095⟩] fun d => d.setJentry 3 4095 { JEntry.init with state := .resend }).dev.jentry 3 i).state == .resend) = some 4095
    ∧ ((st id).dev.walksOf 3).find? (fun w => !w.started) = none ∧ ((st id).dev.walksOf 3).find? (·.started) = none
    ∧ ((st fun d => d.setWalks 3 [walk false]).dev.walksOf 3).find? (fun w => !w.started) = some (walk false)
    ∧ ((st fun d => d.setWalks 3 [walk true]).dev.walksOf 3).find? (·.started) = some (walk true)
    ∧ (st fun d => d.setHeld 3 [heldEnq]).dev.chipStopped = false
    ∧ ((st fun d => d.setHeld 3 [heldEnq]).dev.held 3).find? (fun h => h.descr.uid == 1 && (st fun d => d.setHeld 3 [heldEnq]).dev.lowestHeld 3 h)
        = some heldEnq
    ∧ ((st id).dev.held 3).find? (fun h => h.descr.uid == 1 && (st id).dev.lowestHeld 3 h) = none := by
  repeat' apply And.intro
  all_goals decide +kernel

/-- A state in which queue 263 of region 3 holds a frame. -/
def stQueued (x : Descr) (g : Dev → Dev) : State := st fun d => g (d.modQueue 3 263 fun q => { q with frames := [x] })

/-- A frame whose bale writes are complete, one that stands in bales, and one whose only bale is in a channel that failed. -/
def spilt (guarded : Bool) : Descr := { descr with tier := .spilling, primary := true, partner := true, guarded := guarded }
def baled (l : List Nat) : Descr := { descr with tier := .bales, data := List.replicate 64 0, bales := l }

theorem witness_SpillsAndHolds : (st id).dev.chip.state ≠ .off ∧ (st id).dev.spillDone 3 = none
    ∧ (stQueued (spilt true) id).dev.spillDone 3 = some (263, spilt true) ∧ (stQueued (spilt false) id).dev.spillDone 3 = some (263, spilt false)
    ∧ 3 ≤ (stIn .shed3 id).dev.stageActs ∧ (st id).dev.channelServes 3 = false ∧ (st id).dev.channelFailed 3 = false
    ∧ (st id).dev.nextReturn 3 = none ∧ (stQueued (baled []) (channel 2)).dev.stageActs < 3
    ∧ (stQueued (baled []) (channel 2)).dev.channelServes 3 = true ∧ (stQueued (baled []) (channel 2)).dev.blockUp 3 7 = true
    ∧ (stQueued (baled []) (channel 2)).dev.nextReturn 3 = some (263, baled [])
    ∧ ((stQueued (baled [0]) (channel 3)).dev.baleCheck 3 263 (baled [0])).1 = false
    ∧ ((stQueued (baled []) (channel 2)).dev.baleCheck 3 263 (baled [])).1 = true
    ∧ ((stQueued (baled []) (channel 2)).dev.baleCheck 3 263 (baled [])).2.returnPlace 3 0 (grainsFor 64) = none
    ∧ (((stQueued (baled []) fun d => channel 2 (d.fset (R.GRN_RESERVE 3) R.GRN_RESERVE.GRAINS 1)).dev.baleCheck 3 263 (baled [])).2.returnPlace
        3 0 (grainsFor 64)).isSome = true
    ∧ (st id).dev.Accepts (.pf 0) (R.GRN_HOLD_CMD 3) ∧ ((st id).dev.holdOf 3).active = false
    ∧ ((stT [⟨.holdMax, 3, 0⟩] fun d => d.setHold 3 { Hold.init with active := true }).dev.holdOf 3).active = true
    ∧ (stT [⟨.holdMax, 3, 0⟩] id).dev.due ⟨.holdMax, 3, 0⟩ = true ∧ (st id).dev.due ⟨.holdMax, 3, 0⟩ = false := by
  repeat' apply And.intro
  all_goals first | decide +kernel | rfl

theorem witness_FlushArmReset : (st id).dev.chip.state ≠ .off ∧ State.reset.dev.masterServed (.pf 0) = false
    ∧ (st id).dev.masterServed (.pf 0) = true ∧ (st id).mayWrite (.pf 3) 0x45 3 (0x100 * 32 + 0xC) = false
    ∧ (st id).mayWrite (.pf 0) 0x45 3 (0x100 * 32 + 0xC) = true ∧ (st id).dev.groupLive (.rgn 5) (spWord 0x45 3) = false
    ∧ (stL id).mayWrite (.pf 0) 0x45 3 (0x100 * 32 + 0xC) = true ∧ (stL id).dev.groupLive (.rgn 5) (spWord 0x45 3) = true
    ∧ flushPort 3 32 = 133 ∧ (st (·.setFlag (R.MAC_STAT 133) R.MAC_STAT.READY true)).dev.portReady 133 = true
    ∧ (st id).dev.portReady 133 = false
    ∧ (stL id).mayWrite (.pf 0) 0x45 3 (0x100 * 31 + 0x18) = true ∧ (stL id).dev.groupLive (.rgn 6) (spWord 0x45 3) = true
    ∧ (st id).dev.groupLive (.rgn 6) (spWord 0x45 3) = false ∧ (st id).dev.bankBad 127 ((st id).dev.gate 127).pendingBank = true
    ∧ ((st id).dev.gate 127).pendingBank = 0
    ∧ (st fun d => (((d.fset (R.G_CTRL 3 31) R.G_CTRL.AXIS 5).wr (R.GT_CYCLE 3 31 0) 10).fset (R.GT_LEN 3 31 0) R.GT_LEN.ENTRIES 64).wr
        (R.GT_DUR 3 31 0 63) 10).dev.bankBad 127 0 = false
    ∧ (List.range 256).find? (fun j => (st id).dev.due ⟨.recoveryReset, 3, j⟩) = none
    ∧ (List.range 256).find? (fun j => (stT [⟨.recoveryReset, 3, 255⟩] id).dev.due ⟨.recoveryReset, 3, j⟩) = some 255 := by
  repeat' apply And.intro
  all_goals decide +kernel

/-- A frame's descriptor for a queue of H5 in region 3. -/
def out5 : Descr := { descr with target := { toP0 with dest := 133, queue := some 7 } }

/-- A state in which the MAC of H5 may start, with the frames of its queue 7 given, which came a clock before. -/
def stMac (l : List Descr) (g : Dev → Dev) : State := stLink 6 fun d =>
  let d : Dev := { d with now := 1 }
  let d := (d.setFlag (R.MAC_STAT 133) R.MAC_STAT.READY true).setFlag (R.MAC_CFG 133) R.MAC_CFG.EN true
  g (d.modQueue 3 263 fun q => { q with frames := l })

/-- A state in which H5 sends that frame. -/
def stSends (x : Descr) (left : Nat) (bad : Bool) : State := stMac [x] fun d =>
  d.setEport 133 { d.eport 133 with sending := some (7, 1), bytes := goodFrame, readsLeft := left, bad := bad }

theorem witness_SentFrames : portExists 133 = true ∧ (stMac [] id).dev.chip.state ≠ .off ∧ (st id).dev.macMayStart 133 = false
    ∧ (stMac [] id).dev.macMayStart 133 = true ∧ (Dev.beforeSelect (stMac [] id).dev 133).selectQueue 133 = none
    ∧ (stMac [out5] id).dev.macMayStart 133 = true ∧ (Dev.beforeSelect (stMac [out5] id).dev 133).selectQueue 133 = some 7
    ∧ ((Dev.beforeSelect (stMac [out5] id).dev 133).queue 3 (portQueue 133 7)).frames = [out5]
    ∧ (st id).dev.sendingFrame 133 = none ∧ (stSends out5 1 false).dev.sendingFrame 133 = some (7, out5)
    ∧ ((stSends out5 1 false).dev.eport 133).readsLeft ≠ 0 ∧ ((stSends out5 0 false).dev.eport 133).readsLeft = 0
    ∧ (buildFrame out5 goodFrame false false false false).2.2 = false ∧ (buildFrame out5 goodFrame false true false false).2.2 = true
    ∧ (stSends { out5 with guarded := true } 0 true).dev.sendingFrame 133 = some (7, { out5 with guarded := true }) ∧ out5.guarded = false
    ∧ (stSends out5 0 false).dev.portBlockUp 133 = true ∧ (stMac [] fun d => d.setFieldBit (R.RGN_STAT 3) R.RGN_STAT.BLOCK_RESTART 9 true).dev.portBlockUp 133 = false
    ∧ (stMac [] id).dev.portReady 133 = true ∧ (st id).dev.portReady 133 = false ∧ (st id).dev.regionRuns 3 = true
    ∧ (st down3).dev.regionRuns 3 = false := by
  repeat' apply And.intro
  all_goals decide +kernel

/-- A state whose channel 3 is READY, with its controller as given. -/
def stDram (f : DramPart → DramPart) (g : Dev → Dev) : State := st fun d =>
  let d := channel 2 d
  g (d.setDram 3 (f (d.dramOf 3)))

/-- Requests of burst 2^26 − 1. -/
def rdReq (v : Option Nat) : DramRead := ⟨2 ^ 26 - 1, 0, true, v⟩
def wrReq : DramWrite := ⟨2 ^ 26 - 1, 5, 0⟩

theorem witness_DramTraffic : (st id).dev.chip.state ≠ .off ∧ (st (channel 3)).dev.channelState 3 = 3 ∧ (st (channel 1)).dev.channelState 3 ≠ 3
    ∧ (st (channel 1)).dev.channelState 3 ≠ 0 ∧ (st (channel 1)).dev.dramAwake 3 = false ∧ (stDram id id).dev.channelState 3 ≠ 3
    ∧ (stDram id id).dev.channelState 3 ≠ 0 ∧ (stDram id id).dev.dramAwake 3 = true
    ∧ (((stDram (fun x => { x with writeQ := [wrReq] }) id).dev.wakeIdle 3).dramOf 3).writeQ.find? (fun w => w.burst == 2 ^ 26 - 1) = some wrReq
    ∧ (((stDram (fun x => { x with writeQ := [wrReq] }) id).dev.wakeIdle 3).dramOf 3).writeQ.any (fun w => w.burst == 2 ^ 26 - 1) = true
    ∧ (((stDram id id).dev.wakeIdle 3).dramOf 3).writeQ.find? (fun w => w.burst == 0) = none
    ∧ (((stDram id id).dev.wakeIdle 3).dramOf 3).readQ.length < 64
    ∧ 64 ≤ (((stDram (fun x => { x with readQ := List.replicate 64 (rdReq none) }) id).dev.wakeIdle 3).dramOf 3).readQ.length
    ∧ (((stDram id id).dev.wakeIdle 3).dramOf 3).writeQ.any (fun w => w.burst == 0) = false
    ∧ (((stDram id id).dev.wakeIdle 3).dramOf 3).writeQ.length < 64
    ∧ 64 ≤ (((stDram (fun x => { x with writeQ := List.replicate 64 wrReq }) id).dev.wakeIdle 3).dramOf 3).writeQ.length
    ∧ (st id).dev.channelServes 3 = false ∧ (stDram id id).dev.channelServes 3 = true
    ∧ (stDram id id).dev.flag (R.DRC_STAT 3) R.DRC_STAT.PASS = false
    ∧ (stDram id (·.setFlag (R.DRC_STAT 3) R.DRC_STAT.PASS true)).dev.flag (R.DRC_STAT 3) R.DRC_STAT.PASS = true
    ∧ 4 ≤ ((stDram (fun x => { x with owed := 4 }) id).dev.dramOf 3).owed ∧ ((stDram (fun x => { x with owed := 3 }) id).dev.dramOf 3).owed < 4
    ∧ 0 < ((stDram (fun x => { x with owed := 3 }) id).dev.dramOf 3).owed ∧ ((stDram id id).dev.dramOf 3).owed = 0
    ∧ (stDram id id).dev.flag (R.DRC_STAT 3) R.DRC_STAT.DRAIN = false
    ∧ (stDram id (·.setFlag (R.DRC_STAT 3) R.DRC_STAT.DRAIN true)).dev.flag (R.DRC_STAT 3) R.DRC_STAT.DRAIN = true
    ∧ pickOldest DramRead.since (fun r => (stDram id id).dev.dramOf 3 |>.hit r.burst) [rdReq none] = some (rdReq none)
    ∧ ((st (channel 2)).dev.dramOf 3).sleep ≠ .reset ∧ (stDram (fun x => { x with sleep := .reset }) id).dev.channelState 3 = 2
    ∧ ((stDram (fun x => { x with sleep := .reset }) id).dev.dramOf 3).sleep = .reset
    ∧ pickOldest DramRead.since (fun r => (stDram id id).dev.dramOf 3 |>.hit r.burst) [] = none
    ∧ pickOldest DramWrite.since (fun w => (stDram id id).dev.dramOf 3 |>.hit w.burst)
        ((stDram (fun x => { x with writeQ := [wrReq] }) id).dev.dramOf 3).ready = some wrReq := by
  repeat' apply And.intro
  all_goals decide +kernel

/-- A state whose channel has a read and a write of the ages given, in a clock past AGE_MAX_NS. -/
def stOld (r w : List Nat) : State := stDram (fun x => { x with
    readQ := r.map (fun c => (⟨1, c, false, none⟩ : DramRead)), writeQ := w.map (fun c => (⟨2, 0, c⟩ : DramWrite)) }) fun d => { d with now := 100000 }

/-- The oldest read and the oldest write that are too old. -/
def oldRead (s : State) : Option DramRead :=
  pickOldest DramRead.since (fun _ => false) ((s.dev.dramOf 3).readQ.filter (fun r => decide (s.dev.ageMax 3 ≤ s.dev.now - r.since)))
def oldWrite (s : State) : Option DramWrite :=
  pickOldest DramWrite.since (fun _ => false) ((s.dev.dramOf 3).ready.filter (fun w => decide (s.dev.ageMax 3 ≤ s.dev.now - w.since)))

theorem witness_DramTraffic_ages : (stOld [1] [0]).dev.channelServes 3 = true ∧ ((stOld [1] [0]).dev.dramOf 3).owed < 4
    ∧ oldRead (stOld [1] [0]) = some ⟨1, 1, false, none⟩ ∧ oldWrite (stOld [1] [0]) = some ⟨2, 0, 0⟩ ∧ (0 : Nat) < 1
    ∧ oldRead (stOld [0] [0]) = some ⟨1, 0, false, none⟩ ∧ oldWrite (stOld [0] [0]) = some ⟨2, 0, 0⟩
    ∧ oldRead (stOld [0] []) = some ⟨1, 0, false, none⟩ ∧ oldWrite (stOld [0] []) = none
    ∧ oldRead (stOld [] [0]) = none ∧ oldWrite (stOld [] [0]) = some ⟨2, 0, 0⟩ ∧ oldRead (stOld [100000] [100000]) = none
    ∧ oldWrite (stOld [100000] [100000]) = none := by
  repeat' apply And.intro
  all_goals decide +kernel

/-- A state whose channel has issued a read of a burst with the content given, with the write queue given. -/
def stIssued (v : Option Nat) (w : List DramWrite) : State := stT [⟨.dramRead, 3, 0⟩] fun d =>
  let d := channel 2 d
  d.setDram 3 { d.dramOf 3 with issued := [rdReq v], writeQ := w }

/-- A state whose channel trains. -/
def stTrains (k : Training) : State := st fun d =>
  let d := channel 1 d
  d.setDram 3 { d.dramOf 3 with training := k }

/-- A device whose schedule slot 0 names channel 3's tracking, with a window open or not. -/
def tracked (active : Bool) (d : Dev) : Dev :=
  let d := (((d.setFlag (R.SCH_CFG 0) R.SCH_CFG.EN true).fset (R.SCH_CFG 0) R.SCH_CFG.KIND 2).fset (R.SCH_CFG 0) R.SCH_CFG.TARGET 8)
  let d := (d.fset (R.SCH_CFG 0) R.SCH_CFG.AXIS 5).wr (R.SCH_CYCLE 0) 10
  d.setSlotUser 0 { atRest with active := active }

/-- A state in which a tracking pass runs, in a training or not. -/
def passes (k : Training) : State :=
  stDram (fun x => { x with training := k }) (·.setFlag (R.DRC_STAT 3) R.DRC_STAT.PASS true)

theorem witness_DramErrorsAndStates : (st id).dev.chip.state ≠ .off ∧ ((st id).dev.dramOf 3).issued = []
    ∧ ((stIssued none []).dev.dramOf 3).issued = [rdReq none] ∧ 2 ≤ (2 : Fin 4).val ∧ (1 : Fin 4).val = 1 ∧ (0 : Fin 4).val = 0
    ∧ ((stIssued (some 9) []).dev.dramOf 3).issued = [rdReq (some 9)] ∧ (rdReq none).data = none ∧ (rdReq (some 9)).data = some 9
    ∧ ((stIssued none []).dev.dramOf 3).issued ≠ [] ∧ (stIssued none []).dev.channelServes 3 = true ∧ (st id).dev.channelServes 3 = false
    ∧ (List.range 8).any (fun k => (stDram id (tracked true)).dev.slotKind k == 2 && ((stDram id (tracked true)).dev.slotTargets k).testBit 3
        && ((stDram id (tracked true)).dev.slotUser k).active) = true
    ∧ (List.range 8).any (fun k => (stDram id id).dev.slotKind k == 2 && ((stDram id id).dev.slotTargets k).testBit 3
        && ((stDram id id).dev.slotUser k).active) = false
    ∧ (stDram id id).dev.channelState 3 = 2 ∧ (stDram id id).dev.dramIdle 3 = true
    ∧ (stDram id (·.fset (R.DRC_PWR 3) R.DRC_PWR.PD_IDLE 1)).dev.was.fget (R.DRC_PWR 3) R.DRC_PWR.PD_IDLE ≠ 0
    ∧ (stDram id (·.fset (R.DRC_PWR 3) R.DRC_PWR.SR_IDLE_US 1)).dev.was.fget (R.DRC_PWR 3) R.DRC_PWR.SR_IDLE_US ≠ 0
    ∧ (st id).dev.dramIdle 3 = false
    ∧ (stDram id (·.fset (R.DRC_PWR 3) R.DRC_PWR.SR_IDLE_US 0)).dev.was.fget (R.DRC_PWR 3) R.DRC_PWR.SR_IDLE_US = 0
    ∧ (stDram id (·.fset (R.DRC_PWR 3) R.DRC_PWR.PD_IDLE 0)).dev.was.fget (R.DRC_PWR 3) R.DRC_PWR.PD_IDLE = 0
    ∧ (∀ k ∈ [Training.saved, .warmCheck, .full, .requalify],
        (stTrains k).dev.channelState 3 = 1 ∧ ((stTrains k).dev.dramOf 3).training = k ∧ k ≠ .none ∧ ((stTrains k).dev.dramOf 3).sleep = .none)
    ∧ (stDram id id).dev.channelState 3 ≠ 1 ∧ (stDram id id).dev.trackedBySlot 3 = false
    ∧ (stDram id (tracked false)).dev.trackedBySlot 3 = true
    ∧ (∀ k ∈ [Training.none, .warmCheck], (passes k).dev.flag (R.DRC_STAT 3) R.DRC_STAT.PASS = true ∧ ((passes k).dev.dramOf 3).issued = []
        ∧ ((passes k).dev.dramOf 3).sleep = .none ∧ ((passes k).dev.dramOf 3).training = k)
    ∧ (stDram id id).dev.flag (R.DRC_STAT 3) R.DRC_STAT.PASS = false
    ∧ max ((passes .none).dev.was.fget (R.DRC_RT_CFG 3) R.DRC_RT_CFG.TRACK_PS) ((passes .none).dev.was.fget (R.DRC_RT_CFG 3) R.DRC_RT_CFG.RETRAIN_PS)
        < (0xFFFF : BitVec 16).toNat
    ∧ (0 : BitVec 16).toNat ≤ max ((passes .none).dev.was.fget (R.DRC_RT_CFG 3) R.DRC_RT_CFG.TRACK_PS)
        ((passes .none).dev.was.fget (R.DRC_RT_CFG 3) R.DRC_RT_CFG.RETRAIN_PS)
    ∧ (st (channel 3)).dev.Accepts (.pf 0) (R.DRC_CMD 3) ∧ (st (channel 3)).dev.channelState 3 = 3
    ∧ ((st (channel 3)).dev.queuesOf 3).any (fun q => !((st (channel 3)).dev.queue 3 q).run.isEmpty) = false
    ∧ Map.get (fun _ => []) (st (channel 3)).dev.frame.mirrorList 3 = [] := by
  repeat' apply And.intro
  all_goals first | decide +kernel | rfl

/-- The word of an instruction: its code and the fields of format A, the last one 16 bits wide. -/
def instr (op d a imm : Nat) : Word := BitVec.ofNat 32 (op * 2 ^ 26 + d * 2 ^ 21 + a * 2 ^ 16 + imm)

/-- A state in which thread 7 of core e, as given, stands before a word; the engines of the last block run. -/
def stCore (e : Nat) (w : Word) (x : Thread → Thread) (g : Dev → Dev) : State := st fun d =>
  let d := ((carved [] d).setFlag (R.ENG_BLK_STAT 7) R.ENG_BLK_STAT.READY true).fset (R.ENG_BLK_CFG 7) R.ENG_BLK_CFG.EN 128
  g ((d.setThread e 7 (x { Thread.init with state := .ready })).wr (pcKey e 0) w)

/-- The instruction stands ready on that thread. -/
def atWord (e op d a imm : Nat) (x : Thread → Thread) : Bool :=
  let s := stCore e (instr op d a imm) x id
  let y := s.dev.thread e 7
  y == x { Thread.init with state := .ready } && s.dev.coreRuns e && s.dev.engine.issued.testBit e == false && s.dev.nextThread e == some 7
    && s.dev.fault (pcKey e y.pc) != 2 && instr op d a imm == s.dev.fetch e y.pc && legalWord e (instr op d a imm) && opOf (instr op d a imm) == op

/-- So it issues. -/
theorem atWord_issues {e op d a imm : Nat} {x : Thread → Thread} (h : atWord e op d a imm x = true) :
    (stCore e (instr op d a imm) x id).dev.Issues e 7 op (instr op d a imm) ((stCore e (instr op d a imm) x id).dev.thread e 7) := by
  simp only [atWord, Bool.and_eq_true, beq_iff_eq, bne_iff_ne] at h
  obtain ⟨⟨⟨⟨⟨⟨⟨-, h1⟩, h2⟩, h3⟩, h4⟩, h5⟩, h6⟩, h7⟩ := h
  exact ⟨rfl, h1, h2, h3, h4, h5, h6, h7⟩

/-- Registers 1 to 3. -/
def regs3 (a b c : Word) (x : Thread) : Thread := { x with regs := [(1, a), (2, b), (3, c)] }

theorem witness_EngineArithmetic : (st id).dev.chip.state ≠ .off ∧ coreNo (.pe 63) = 63 ∧ coreNo .supervisor = supCore
    ∧ (∀ e ∈ [63, supCore], ∀ fn < 18, atWord e 0 3 1 (2 * 2 ^ 11 + fn) (regs3 5 9 0) ∧ fieldFn (instr 0 3 1 (2 * 2 ^ 11 + fn)) = fn)
    ∧ (∀ e ∈ [63, supCore], ∀ op < 10, atWord e (op + 1) 31 1 0x8000 (regs3 5 9 0)) := by
  repeat' apply And.intro
  all_goals decide +kernel

theorem witness_EngineControl : (st id).dev.chip.state ≠ .off
    ∧ (∀ e ∈ [63, supCore], ∀ op ∈ [0x20, 0x21, 0x22, 0x23, 0x24, 0x25],
        atWord e op 1 2 0x8000 (regs3 5 5 0) ∧ atWord e op 1 2 0x7FFF (regs3 0xFFFFFFFF 0 0) ∧ atWord e op 1 2 1 (regs3 0 0xFFFFFFFF 0))
    ∧ (∀ e ∈ [63, supCore], atWord e 0x28 0 0 0x3FFF (fun x => { x with stack := List.replicate 7 9 })
        ∧ atWord e 0x28 0 0 0 (fun x => { x with stack := List.replicate 8 9 }) ∧ atWord e 0x29 0 0 0 (fun x => { x with stack := [9] })
        ∧ atWord e 0x29 0 0 0 id ∧ atWord e 0x2A 0 1 0 (regs3 0xFFFFFFFF 0 0) ∧ atWord e 0x1B 0 0 0 id)
    ∧ ((regs3 5 5 0 Thread.init).reg 1 == (regs3 5 5 0 Thread.init).reg 2) = true
    ∧ (regs3 0xFFFFFFFF 0 0 Thread.init).reg 1 ≠ (regs3 0xFFFFFFFF 0 0 Thread.init).reg 2
    ∧ ((regs3 0xFFFFFFFF 0 0 Thread.init).reg 1).slt ((regs3 0xFFFFFFFF 0 0 Thread.init).reg 2) = true
    ∧ ((regs3 0xFFFFFFFF 0 0 Thread.init).reg 1).ult ((regs3 0xFFFFFFFF 0 0 Thread.init).reg 2) = false
    ∧ ((regs3 0 0xFFFFFFFF 0 Thread.init).reg 1).slt ((regs3 0 0xFFFFFFFF 0 Thread.init).reg 2) = false
    ∧ ((regs3 0 0xFFFFFFFF 0 Thread.init).reg 1).ult ((regs3 0 0xFFFFFFFF 0 Thread.init).reg 2) = true := by
  repeat' apply And.intro
  all_goals decide +kernel

/-- The address of a load or store through register 1 with an offset of −1. -/
def at1 (v : Nat) : Nat := ((regs3 (.ofNat 32 v) 0 0 Thread.init).reg (fieldA (instr 0x10 2 1 0xFFFF)) + ((instr 0x10 2 1 0xFFFF).setWidth 16).signExtend 32).toNat

/-- A held line. -/
def held9 (own : Bool) : HeldLine := { line := 2047, owned := own, words := [] }

theorem witness_EngineMemory : (st id).dev.chip.state ≠ .off
    ∧ (∀ e ∈ [63, supCore], ∀ op ∈ [0x10, 0x11, 0x12, 0x13, 0x14, 0x15], ∀ v ∈ [1, 2, 0x3FD, 0x400, 0x401, 0x1FFFD, 0x20000, 0x20001, 0x7FFFD, 0x80001],
        atWord e op 2 1 0xFFFF (regs3 (.ofNat 32 v) 7 0))
    ∧ (∀ e ∈ [63, supCore], ∀ fn < 5, ∀ v ∈ [2, 0x1FFFC, 0x20000, 0x7FFFC, 0x80000],
        atWord e 0x1A 3 1 (2 * 2 ^ 11 + fn) (regs3 (.ofNat 32 v) 7 9) ∧ fieldFn (instr 0x1A 3 1 (2 * 2 ^ 11 + fn)) = fn)
    ∧ at1 2 % 4 ≠ 0 ∧ at1 1 % 4 = 0 ∧ at1 0x1FFFD % 4 = 0 ∧ at1 0x1FFFD < 0x20000 ∧ at1 0x20001 % 4 = 0 ∧ 0x20000 ≤ at1 0x20001
    ∧ at1 0x20000 < 0x20000 ∧ at1 0x80001 % 4 = 0 ∧ 0x80000 ≤ at1 0x80001 ∧ at1 0x7FFFD % 4 = 0 ∧ at1 0x7FFFD < 0x80000
    ∧ at1 0x401 % 4 = 0 ∧ 1024 ≤ at1 0x401 ∧ at1 0x3FD % 4 = 0 ∧ at1 0x3FD < 1024
    ∧ (st id).dev.fault (supKey 0x7FFFC) ≠ 2 ∧ (st (·.setFault (supKey 0x7FFFC) 2)).dev.fault (supKey 0x7FFFC) = 2
    ∧ (∀ own, (st (·.setBuffer 63 [held9 own])).dev.heldLine 63 (0x1FFFC / 64) = some (held9 own)) ∧ (held9 true).owned = true
    ∧ (held9 false).owned = false ∧ (st id).dev.heldLine 63 (0x1FFFC / 64) = none := by
  repeat' apply And.intro
  all_goals decide +kernel

/-- A device with its one-shot timers armed. -/
def arms (l : List TimerId) (d : Dev) : Dev := { d with timers := l.map fun t => (t, 5) }

/-- A task of task queue 0, and a device in which it waits there. -/
def task0 : Task := Task.make 3 [] none none
def queued0 : Dev := (stTasks fun d => (clockBegins d).enterNow 3 0 task0).dev

theorem witness_EngineTasks : (st id).dev.chip.state ≠ .off
    ∧ (∀ op ∈ [0x18, 0x31, 0x32, 0x33], atWord 63 op 3 1 15 (regs3 5 0 0))
    ∧ (∀ v ∈ [0x20000, 0x20001], atWord 63 0x30 3 1 (2 * 2 ^ 11) (regs3 (.ofNat 32 v) 0 0))
    ∧ (∀ e ∈ [63, supCore], atWord e 0x19 3 1 15 (regs3 5 0 0)
        ∧ (∀ b ∈ [9216, 9217], ∀ v ∈ [0x20000 - 9216, 0x20001 - 9216, 0x80000 - 9216, 0x80001 - 9216],
            atWord e 0x3B 3 1 (2 * 2 ^ 11) (regs3 (.ofNat 32 v) (.ofNat 32 b) 0)))
    ∧ 0x20000 + bits 0 0 14 ≤ 0x20000 ∧ 0x20000 < 0x20001 + bits 0 0 14 ∧ 9216 < 9217
    ∧ dataSize 63 < 0x20001 - 9216 + 9216 ∧ 0x20000 - 9216 + 9216 ≤ dataSize 63 ∧ dataSize supCore < 0x80001 - 9216 + 9216
    ∧ 0x80000 - 9216 + 9216 ≤ dataSize supCore
    ∧ (st id).dev.dispatchQueue [] 3 = none
    ∧ queued0.dispatchQueue [] 3 = some 0 ∧ (queued0.nextTask 3 0).isSome = true ∧ queued0.bestEngine [] 3 0 = some 48
    ∧ (queued0.idleThreads 48).head? = some 0
    ∧ ((queued0.taskDispatch [] 3).2.thread 48 0).task = (queued0.nextTask 3 0).map Task.id ∧ ((queued0.taskDispatch [] 3).2.thread 48 0).state = .ready
    ∧ (st id).dev.taskWatched 63 7 = false
    ∧ ((queued0.taskDispatch [] 3).2.fset (R.TSK_CFG 3) R.TSK_CFG.WDOG_US 5).taskWatched 48 0 = true
    ∧ (st id).dev.Accepts (.pf 0) (R.TSK_CMD 3) ∧ (st id).dev.Accepts (.pf 0) R.SUP_WDOG
    ∧ (st (·.fset R.SUP_WDOG R.SUP_WDOG.MS 0)).dev.fget R.SUP_WDOG R.SUP_WDOG.MS = 0
    ∧ (st (·.fset R.SUP_WDOG R.SUP_WDOG.MS 1)).dev.fget R.SUP_WDOG R.SUP_WDOG.MS ≠ 0
    ∧ (stT [⟨.supWatchdog, 0, 0⟩] id).dev.due ⟨.supWatchdog, 0, 0⟩ = true ∧ (st id).dev.due ⟨.supWatchdog, 0, 0⟩ = false
    ∧ (st id).dev.coreRuns supCore = true := by
  repeat' apply And.intro
  all_goals first | decide +kernel | rfl

theorem witness_IssueStops : (st id).dev.chip.state ≠ .off ∧ (0x3B, Instr.crc (.pe 63) 7) ∈ coreInstructions (.pe 63) 7
    ∧ (0x3B, Instr.crc .supervisor 7) ∈ coreInstructions .supervisor 7 ∧ (st id).dev.coreRuns 63 = false
    ∧ (stIn .held id).dev.coreRuns supCore = false ∧ (st id).dev.nextThread supCore = none
    ∧ ((stCore 63 0 id id).dev.noteIssue 63 7).engine.issued.testBit 63 = true
    ∧ (∀ e ∈ [63, supCore], ∀ op ∈ [0x3F, 0x3B, 0x39],
        (stCore e (instr op 0 0 0) id id).dev.coreRuns e = true ∧ (stCore e (instr op 0 0 0) id id).dev.nextThread e = some 7
        ∧ (stCore e (instr op 0 0 0) id id).dev.engine.issued.testBit e = false
        ∧ (stCore e (instr op 0 0 0) id id).dev.fault (pcKey e 0) ≠ 2 ∧ (stCore e (instr op 0 0 0) id (·.setFault (pcKey e 0) 2)).dev.fault (pcKey e 0) = 2
        ∧ (stCore e (instr op 0 0 0) id id).dev.fetch e 0 = instr op 0 0 0)
    ∧ legalWord 63 (instr 0x3F 0 0 0) = false ∧ legalWord 63 (instr 0x39 0 0 0) = true ∧ opOf (instr 0x39 0 0 0) ≠ 0x3B := by
  repeat' apply And.intro
  all_goals decide +kernel

theorem witness_RegisterWindows : (st id).dev.chip.state ≠ .off
    ∧ (∀ op ∈ [0x16, 0x17], (∀ v ∈ [1, 0x00FFFFFC, 0x01FFFFFC, 0x05FFFFFC, 0x06000000], atWord 63 op 2 1 0 (regs3 (.ofNat 32 v) 0 0))
        ∧ (∀ v ∈ [1, 0x04FFFFFC, 0x05000000], atWord supCore op 2 1 0 (regs3 (.ofNat 32 v) 0 0)))
    ∧ (1 : Word).toNat % 4 ≠ 0 ∧ window 63 0x06000000 = none ∧ window supCore 0x05000000 = none
    ∧ window 63 0x00FFFFFC = some (4, 0x00FFFFFC) ∧ window 63 0x05FFFFFC = some (3, 0x04FFFFFC) ∧ (4 : Nat) < 5
    ∧ window 63 0x01FFFFFC = some (5, 0x04FFFFFC) ∧ window supCore 0x04FFFFFC = some (5, 0x04FFFFFC) := by
  repeat' apply And.intro
  all_goals decide +kernel

/-- A state whose link is in service in native mode, with the mirror queue of region 3 given. -/
def stMirror (l : List LoftRec) : State := st fun d =>
  ((d.setFlag R.ABD_STAT R.ABD_STAT.IN_SERVICE true).fset R.TWN_CFG R.TWN_CFG.MODE 1).setMirrorQ 3 l

/-- A mirror record, and a request at the directory. -/
def mrec : LoftRec := { slot := 8191, seq := 0, length := 0, data := [] }
def req7 (own : Bool) : DirReq := { eng := 7, line := 2047, own := own, since := 0 }

/-- A state in which that request waits at block 7, with the buffer of engine 63 given. -/
def stReq7 (own : Bool) (b : List HeldLine) (g : Dev → Dev) : State := st fun d =>
  g { (d.setDirReqs 7 [req7 own]).setBuffer 63 b with now := 1 }

/-- The state of LFPUT and LFGET on the slot of register 1 with the bytes at register 2. -/
def stLoft (op a b : Nat) (g : Dev → Dev) : State := stCore 63 (instr op 3 1 (2 * 2 ^ 11)) (regs3 (.ofNat 32 a) (.ofNat 32 b) 0) g

/-- A device in which a thread of engine 63 waits for the Loft. -/
def loftWaits (g : Dev → Dev) : Dev := (stCore 63 0 (fun x => { x with state := .wait, waits := some .loft }) g).dev

theorem witness_LoftAndDirectory : (st id).dev.chip.state ≠ .off
    ∧ (∀ e ∈ [63, supCore], ∀ op ∈ [0x38, 0x39], ∀ a ∈ [256 * 65536, 257 * 65536, 8191], ∀ b ∈ [0x1FF00, 0x1FF01, 0x1FEF0, 0x1FEF1],
        atWord e op 3 1 (2 * 2 ^ 11) (regs3 (.ofNat 32 a) (.ofNat 32 b) 0) = true)
    ∧ (63 : Nat) ≠ supCore ∧ bits (256 * 65536) 16 9 ≤ 256 ∧ 0x20000 < 0x1FF01 + bits (256 * 65536) 16 9
    ∧ 0x1FF00 + bits (256 * 65536) 16 9 ≤ 0x20000 ∧ 256 < bits (257 * 65536) 16 9 ∧ 0x20000 < 0x1FEF1 + 272 ∧ 0x1FEF0 + 272 ≤ 0x20000
    ∧ ((loftWaits id).thread 63 7).waits = some .loft ∧ ((st id).dev.thread 63 7).waits ≠ some .loft
    ∧ (loftWaits down3).tablesUp 3 = false ∧ (loftWaits id).tablesUp 3 = true
    ∧ (st id).dev.loftLink = false ∧ (stMirror []).dev.loftLink = true ∧ (resyncJoins 3 (stMirror []).dev).mirrorQ 3 = []
    ∧ (resyncJoins 3 (stMirror [mrec]).dev).mirrorQ 3 = [mrec] ∧ (st id).dev.Accepts (.pf 0) (R.LOFT_CMD 3)
    ∧ (st id).dev.nextReq 7 2047 = none ∧ (∀ own, (stReq7 own [] id).dev.nextReq 7 2047 = some (req7 own)) ∧ (req7 true).own ≠ false
    ∧ (stReq7 true [] id).dev.lineRoom (8 * 7 + 7) 2047 = true
    ∧ (stReq7 true (List.replicate 16 { held9 true with line := 0 }) id).dev.lineRoom (8 * 7 + 7) 2047 = false
    ∧ ((List.range 16).map (fun w => dataKey 7 (64 * 2047 + 4 * w))).find? (fun a => (stReq7 true [] id).dev.fault a = 2) = none
    ∧ ((List.range 16).map (fun w => dataKey 7 (64 * 2047 + 4 * w))).find? (fun a =>
        (stReq7 true [] (·.setFault (dataKey 7 0x1FFFC) 2)).dev.fault a = 2) = some (dataKey 7 0x1FFFC)
    ∧ ((st (·.setDirLine 7 2047 { owner := some 7, sharers := 0 })).dev.dirLine (63 / 8) 2047).owner = some (63 % 8)
    ∧ ((st id).dev.dirLine (63 / 8) 2047).owner ≠ some (63 % 8) := by
  repeat' apply And.intro
  all_goals first | decide +kernel | rfl

/-- A vote record, and a frame of region 3 that waits for it. -/
def vrec : VoteRecord := { outcome := 1, cause := 0, vid := 1, targets := 1, engQ := 0, ichk := 0 }
def voting : Landing := { Landing.begun 7 96 64 0 none [] false with phase := .voting, region := 3, pre := some (decided [toP0]), vote := some vrec }

/-- A state in which that frame is first at the voter of region 3, whose channels in service are as given. -/
def stVote (serving : Nat) (l : List Nat) : State := stT [⟨.strikeClear, 3, 2⟩, ⟨.disagreeClear, 3, 0⟩] fun d =>
  let d := d.fset (R.VOTE_STAT 3) R.VOTE_STAT.IN_SERVICE serving
  { d with frame := { d.frame with landing := [voting], votes := [(3, l)] } }

/-- The channels that serve. -/
def servers (s : State) : List Nat := [0, 1, 2].filter fun c => (s.dev.was.fget (R.VOTE_STAT 3) R.VOTE_STAT.IN_SERVICE).testBit c

theorem witness_VoterJudgesAndCounts : (st id).dev.chip.state ≠ .off ∧ (st id).dev.voteQueue 3 = [] ∧ (stVote 7 [7]).dev.voteQueue 3 = [7]
    ∧ (stVote 7 [7]).dev.frame.landing.find? (fun l => l.id == 7) = some voting ∧ voting.pre = some (decided [toP0])
    ∧ voting.vote = some vrec ∧ voting.region = (3 : Fin 4).val ∧ servers (stVote 7 [7]) = [0, 1, 2] ∧ servers (stVote 6 [7]) = [1, 2]
    ∧ servers (stVote 5 [7]) = [0, 2] ∧ servers (stVote 3 [7]) = [0, 1] ∧ (servers (stVote 4 [7])).length < 2 ∧ (servers (stVote 0 [7])).length < 2
    ∧ vrec.pack ^^^ 0 = vrec.pack ∧ some (vrec.pack ^^^ 1) ≠ some vrec.pack ∧ (none : Option Nat) ≠ some vrec.pack
    ∧ sameRecord (some vrec.pack) none = false ∧ sameRecord (some vrec.pack) (some (vrec.pack ^^^ 2 ^ 175)) = false
    ∧ sameRecord none (some (vrec.pack ^^^ 2 ^ 175)) = false
    ∧ (stVote 7 []).dev.due ⟨.strikeClear, 3, 2⟩ = true ∧ (st id).dev.due ⟨.strikeClear, 3, 2⟩ = false
    ∧ (stVote 7 []).dev.due ⟨.disagreeClear, 3, 0⟩ = true ∧ (st id).dev.due ⟨.disagreeClear, 3, 0⟩ = false
    ∧ (st id).dev.flag (R.VOTE_STAT 3) R.VOTE_STAT.TESTING = false
    ∧ (st (·.setFlag (R.VOTE_STAT 3) R.VOTE_STAT.TESTING true)).dev.flag (R.VOTE_STAT 3) R.VOTE_STAT.TESTING = true
    ∧ ([0, 1, 2].filter (fun c => (4 : BitVec 3).toNat.testBit c)).length < 2 ∧ 2 ≤ ([0, 1, 2].filter (fun c => (6 : BitVec 3).toNat.testBit c)).length := by
  repeat' apply And.intro
  all_goals decide +kernel

/-- A state of the link: its mode, the lease's state, and the lanes up. -/
def stTwin (mode state lanes : Nat) (g : Dev → Dev) : State := st fun d =>
  g (((d.fset R.TWN_CFG R.TWN_CFG.MODE mode).fset R.TWN_STAT R.TWN_STAT.STATE state).fset R.ABD_STAT R.ABD_STAT.LANE_UP lanes)

/-- A device that transmits a frame, and one that has heard a HELLO. -/
def sends (d : Dev) : Dev := d.setLink { d.twin.link with sending := some { type := 8, region := 0, payload := [] } }
def greeted (d : Dev) : Dev := d.setLink { d.twin.link with hello := true }

/-- A state whose clock began with the device as it is at reset. -/
def sinceReset (s : State) : State := { s with dev := { s.dev with before := State.reset.dev.toDevCore } }

theorem witness_AbaideLink : (st id).dev.chip.state ≠ .off
    ∧ (st (·.setFlag R.ABD_CFG R.ABD_CFG.A1_EN true)).dev.laneEnabled 1 = true ∧ (st id).dev.chip.state ≠ .held
    ∧ (st (·.setFlag R.ABD_CFG R.ABD_CFG.A1_EN false)).dev.laneEnabled 1 = false ∧ (stIn .held id).dev.chip.state = .held
    ∧ ((stTwin 0 0 0 (·.setFlag R.ABD_CFG R.ABD_CFG.A1_EN true)).dev.setFieldBit R.ABD_STAT R.ABD_STAT.LANE_UP 1 true).twinMode = 0
    ∧ ((stTwin 3 0 0 (·.setFlag R.ABD_CFG R.ABD_CFG.A1_EN true)).dev.setFieldBit R.ABD_STAT R.ABD_STAT.LANE_UP 1 true).twinMode = 0
    ∧ ((stTwin 1 0 0 (·.setFlag R.ABD_CFG R.ABD_CFG.A1_EN true)).dev.setFieldBit R.ABD_STAT R.ABD_STAT.LANE_UP 1 true).twinMode ≠ 0
    ∧ ((stTwin 1 0 3 id).dev.setFieldBit R.ABD_STAT R.ABD_STAT.LANE_UP 1 false).abdLanes ≠ 0
    ∧ ((stTwin 1 0 2 id).dev.setFieldBit R.ABD_STAT R.ABD_STAT.LANE_UP 1 false).abdLanes = 0
    ∧ (stTwin 1 0 2 id).dev.abdLanes.testBit 1 = true ∧ (stTwin 1 0 1 id).dev.abdLanes.testBit 1 = false
    ∧ abdTypeUsed (stTwin 1 0 2 id).dev.twinMode 0x20 = true ∧ abdTypeUsed (stTwin 2 0 2 id).dev.twinMode 0x20 = false
    ∧ (stT [⟨.abdGap, 0xFFFFFFFF, 0⟩] id).dev.due ⟨.abdGap, 0xFFFFFFFF, 0⟩ = true ∧ (st id).dev.due ⟨.abdGap, 0xFFFFFFFF, 0⟩ = false
    ∧ (st id).dev.abdLanes = 0 ∧ (stTwin 1 0 2 id).dev.abdLanes ≠ 0
    ∧ (stT [⟨.abdSilence, 0, 0⟩] id).dev.stillDue ⟨.abdSilence, 0, 0⟩ = true ∧ (st id).dev.stillDue ⟨.abdSilence, 0, 0⟩ = false
    ∧ (sinceReset (stT [⟨.abdSilence, 0, 0⟩] id)).dev.stillDue ⟨.abdSilence, 0, 0⟩ = false
    ∧ (stT [⟨.keepalive, 0, 0⟩] id).dev.due ⟨.keepalive, 0, 0⟩ = true ∧ (st id).dev.due ⟨.keepalive, 0, 0⟩ = false
    ∧ (stT [⟨.helloResend, 0, 0⟩] greeted).dev.due ⟨.helloResend, 0, 0⟩ = true ∧ (stT [⟨.helloResend, 0, 0⟩] greeted).dev.twin.link.hello = true
    ∧ (stT [⟨.helloResend, 0, 0⟩] id).dev.twin.link.hello = false ∧ (st id).dev.due ⟨.helloResend, 0, 0⟩ = false
    ∧ (st sends).dev.twin.link.sending ≠ none ∧ (st id).dev.twin.link.sending = none := by
  repeat' apply And.intro
  all_goals decide +kernel

/-- A message of a TYPE with number 5 and the device's EPOCH is taken from lane 1. -/
def heard (s : State) (type : Nat) : Bool :=
  s.dev.abdLanes.testBit 1 && abdTypeUsed s.dev.twinMode type && (s.dev.abdAccept 5).1

/-- So it is delivered. -/
theorem heard_delivers {s : State} {type : Nat} (h : heard s type = true) : s.dev.Delivers 1 type 5 s.dev.epoch (s.dev.abdAccept 5).2 := by
  simp only [heard, Bool.and_eq_true] at h
  exact ⟨by simp [h.1.1], h.1.2, h.2, .inl ⟨.inr rfl, rfl⟩⟩

/-- The device after it took the message. -/
def after (s : State) : Dev := (s.dev.abdAccept 5).2

/-- A device whose peer has a higher serial number. -/
def junior (d : Dev) : Dev := d.wr R.TWN_PEER_HI 0xFFFFFFFF

theorem witness_TwinMessages : (st id).dev.chip.state ≠ .off
    ∧ (∀ t ∈ [1, 2, 3, 4, 5, 6, 8, 0x10, 0x11, 0x20], ∀ k < 4, heard (stTwin 1 k 2 id) t = true)
    ∧ (∀ k < 4, heard (stTwin 2 k 2 id) 7 = true ∧ (stTwin 2 k 2 id).dev.epoch = 0) ∧ (∀ k < 4, (after (stTwin 1 k 2 id)).leaseState = k ∧ (after (stTwin 2 k 2 id)).leaseState = k)
    ∧ (after (stTwin 1 2 2 (·.wr R.ID_SERIAL_LO 7))).ownSerial < (8 : BitVec 64).toNat
    ∧ (7 : BitVec 64).toNat ≤ (after (stTwin 1 2 2 (·.wr R.ID_SERIAL_LO 7))).ownSerial
    ∧ (7 : BitVec 64).toNat = (after (stTwin 1 2 2 (·.wr R.ID_SERIAL_LO 7))).ownSerial
    ∧ ((after (stTwin 1 3 2 (·.wr R.ID_SERIAL_LO 7))).twnEvt R.TWN_EVT.DUAL).peerSerial
        < ((after (stTwin 1 3 2 (·.wr R.ID_SERIAL_LO 7))).twnEvt R.TWN_EVT.DUAL).ownSerial
    ∧ ((after (stTwin 1 3 2 junior)).twnEvt R.TWN_EVT.DUAL).ownSerial ≤ ((after (stTwin 1 3 2 junior)).twnEvt R.TWN_EVT.DUAL).peerSerial
    ∧ (after (stTwin 1 3 2 fun d => d.setLease { d.twin.lease with renews := [(9, 4)] })).twin.lease.renews.find? (fun x => x.1 == 9) = some (9, 4)
    ∧ (after (stTwin 1 3 2 id)).twin.lease.renews.find? (fun x => x.1 == 9) = none
    ∧ (after (stTwin 2 0 2 id)).twinMode = 2 ∧ (after (stTwin 1 0 2 id)).twinMode ≠ 2
    ∧ (after (stTwin 1 0 2 (·.setFlag R.ABD_STAT R.ABD_STAT.IN_SERVICE true))).linkUp = true ∧ (after (stTwin 1 0 2 id)).linkUp = false
    ∧ ((after (stTwin 2 3 2 id)).arm ⟨.compatActive, 0, 0⟩ (150 * ms)).leaseState = 3
    ∧ ((after (stTwin 2 3 2 fun d => d.setLease { d.twin.lease with yielding := true })).arm ⟨.compatActive, 0, 0⟩ (150 * ms)).twin.lease.yielding = true
    ∧ ((after (stTwin 2 3 2 id)).arm ⟨.compatActive, 0, 0⟩ (150 * ms)).twin.lease.yielding = false
    ∧ (0 : BitVec 64).toNat < (((after (stTwin 2 3 2 (·.wr R.ID_SERIAL_LO 7))).twnEvt R.TWN_EVT.DUAL).setFlag R.TWN_STAT R.TWN_STAT.DUAL true).ownSerial
    ∧ (((after (stTwin 2 3 2 (·.wr R.ID_SERIAL_LO 7))).twnEvt R.TWN_EVT.DUAL).setFlag R.TWN_STAT R.TWN_STAT.DUAL true).ownSerial ≤ (7 : BitVec 64).toNat
    ∧ (after (stTwin 1 0 2 id)).regionEnabled 3 = true ∧ (after (stTwin 1 0 2 id)).regionRuns 3 = true
    ∧ (after (stTwin 1 0 2 (·.setFlag (R.LOFT_CFG 3) R.LOFT_CFG.TWIN_APPLY true))).flag (R.LOFT_CFG 3) R.LOFT_CFG.TWIN_APPLY = true
    ∧ (after (stTwin 1 0 2 down3)).regionRuns 3 = false
    ∧ ((after (stTwin 1 0 2 (carved []))).rl 3).engFw = true ∧ ((after (stTwin 1 0 2 id)).rl 3).engFw = false
    ∧ ((stTwin 1 0 1 id).dev.abdLanes.testBit 1 || (stTwin 1 0 1 id).dev.was.abdLanes.testBit 1) = false
    ∧ ((stTwin 1 0 2 id).dev.abdLanes.testBit 1 || (stTwin 1 0 2 id).dev.was.abdLanes.testBit 1) = true
    ∧ abdTypeUsed (stTwin 1 0 2 id).dev.twinMode 0x02 = true ∧ abdTypeUsed (stTwin 2 0 2 id).dev.twinMode 0x02 = false
    ∧ ((stTwin 1 0 2 fun d => d.setLink { d.twin.link with high := some 5 }).dev.abdAccept 5).1 = false
    ∧ 0xFFFF ≠ (stTwin 1 0 2 id).dev.epoch ∧ seqAfter 16 0xFFFF (stTwin 1 0 2 id).dev.epoch = false := by
  repeat' apply And.intro
  all_goals decide +kernel

theorem witness_LeaseTimers : (st id).dev.chip.state ≠ .off
    ∧ (∀ k ∈ [TimerKind.renew, .ownLease, .view, .claimResend, .compatStatus, .compatActive, .compatDual, .compatYield, .resetSafe],
        (stTwin 1 3 2 (arms [⟨k, 0, 0⟩])).dev.due ⟨k, 0, 0⟩ = true ∧ (st id).dev.due ⟨k, 0, 0⟩ = false)
    ∧ (stTwin 1 3 2 (arms [⟨.renew, 0, 0⟩])).dev.leaseState = 3 ∧ (stTwin 1 3 2 (arms [⟨.renew, 0, 0⟩])).dev.twinMode = 1
    ∧ ((stTwin 1 3 2 (arms [⟨.renew, 0, 0⟩])).dev.arm ⟨.renew, 0, 0⟩ (8 * ms)).healthy = true
    ∧ ((stTwin 1 3 2 fun d => { d with chip := { d.chip with state := .held } }).dev.arm ⟨.renew, 0, 0⟩ (8 * ms)).healthy = false
    ∧ (∀ k ∈ [TimerKind.ownLease, .view], (stTwin 1 3 2 (arms [⟨k, 0, 0⟩])).dev.stillDue ⟨k, 0, 0⟩ = true
      ∧ (sinceReset (stTwin 1 3 2 (arms [⟨k, 0, 0⟩]))).dev.stillDue ⟨k, 0, 0⟩ = false ∧ (st id).dev.stillDue ⟨k, 0, 0⟩ = false)
    ∧ (stTwin 1 1 2 id).dev.leaseState ≠ 3 ∧ (stTwin 1 2 2 id).dev.leaseState = 2 ∧ (stTwin 1 3 2 id).dev.leaseState ≠ 2
    ∧ (stTwin 2 3 2 id).dev.Accepts (.pf 0) R.TWN_CMD ∧ (stTwin 2 3 2 id).dev.leaseState = 3 ∧ (stTwin 2 3 2 id).dev.twinMode = 2
    ∧ (stTwin 1 3 2 id).dev.twinMode ≠ 2 ∧ (st id).dev.Accepts (.pf 0) R.ABD_TX_CMD
    ∧ (st (·.setFlag R.ABD_STAT R.ABD_STAT.TX_BUSY true)).dev.flag R.ABD_STAT R.ABD_STAT.TX_BUSY = true
    ∧ (st id).dev.flag R.ABD_STAT R.ABD_STAT.TX_BUSY = false ∧ (stTwin 1 0 2 id).dev.linkUp = false
    ∧ (stTwin 1 0 2 (·.setFlag R.ABD_STAT R.ABD_STAT.IN_SERVICE true)).dev.linkUp = true
    ∧ (stTwin 1 0 2 (·.setFlag R.ABD_STAT R.ABD_STAT.IN_SERVICE true)).dev.twinMode = 1 := by
  repeat' apply And.intro
  all_goals first | decide +kernel | rfl

/-- A state whose host port 3 has one physical function and up to 63 virtual ones with eight queue pairs each, its link up. -/
def stHost (g : Dev → Dev) : State := st fun d =>
  let d := { d with loader := { d.loader with layout := { d.loader.layout with
      rgn := List.replicate 4 { RegionLayout.none_ with qp := List.replicate 64 8, engFw := true } } } }
  let d := ((d.fset (R.HST_CFG 3) R.HST_CFG.MODE 2).fset (R.HST_CFG 3) R.HST_CFG.COUNT 64).setFlag (R.HST_STAT 3) R.HST_STAT.VF_ENABLE true
  let d := (d.fset (R.HST_STAT 3) R.HST_STAT.NUM_VFS 63).setFlag (R.HST_STAT 3) R.HST_STAT.LINK_UP true
  g (d.fset (R.INST_STAT 3 63) R.INST_STAT.STATE 2)

/-- A state held by a low RESET_N whose 50 ms run or have run, and one with a layout that leaves region 3 out. -/
def stReset (l : List TimerId) : State := stIn .held fun d => arms l { d with supply := { d.supply with resetLow := true } }
def unpowered (d : Dev) : Dev :=
  { d with loader := { d.loader with applied := true, layout := { d.loader.layout with regions := 7 } } }

theorem witness_HostPorts : (st id).dev.chip.state ≠ .off
    ∧ (stReset [⟨.resetSafe, 0, 0⟩]).dev.chip.state = .held ∧ (stReset [⟨.resetSafe, 0, 0⟩]).dev.armed ⟨.resetSafe, 0, 0⟩ = true
    ∧ (stReset [⟨.resetSafe, 0, 0⟩]).dev.hostPowered 3 = true
    ∧ (stReset []).dev.armed ⟨.resetSafe, 0, 0⟩ = false ∧ (stReset []).dev.chip.state = .held
    ∧ (st id).dev.chip.state ≠ .held ∧ (st unpowered).dev.hostPowered 3 = false ∧ (st unpowered).dev.hostPowered 0 = true
    ∧ (st (·.setFlag (R.HST_STAT 3) R.HST_STAT.READY false)).dev.flag (R.HST_STAT 3) R.HST_STAT.READY = false
    ∧ (st (·.setFlag (R.HST_STAT 3) R.HST_STAT.READY false)).dev.hostPowered 3 = true
    ∧ (st (·.setFlag (R.HST_STAT 3) R.HST_STAT.READY true)).dev.flag (R.HST_STAT 3) R.HST_STAT.READY = true
    ∧ (st (·.setFlag (R.HST_STAT 3) R.HST_STAT.READY true)).dev.hostPowered 3 = true
    ∧ (st (·.setFlag (R.HST_STAT 3) R.HST_STAT.SHED true)).dev.flag (R.HST_STAT 3) R.HST_STAT.SHED = true
    ∧ (st id).dev.flag (R.HST_STAT 3) R.HST_STAT.SHED = false ∧ (st id).dev.hostPowered 3 = true
    ∧ (st id).dev.flag (R.HST_STAT 3) R.HST_STAT.LINK_UP = false ∧ (stHost id).dev.flag (R.HST_STAT 3) R.HST_STAT.LINK_UP = true
    ∧ ((stHost (·.setFlag (R.HST_STAT 3) R.HST_STAT.SHED true)).dev.hostLinkGone 3).flag (R.HST_STAT 3) R.HST_STAT.SHED = true
    ∧ ((stHost id).dev.hostLinkGone 3).flag (R.HST_STAT 3) R.HST_STAT.SHED = false
    ∧ (stHost id).dev.hostMode 3 = 2 ∧ (63 : Fin 64).val ≠ 0 ∧ (0 : Fin 64).val = 0 ∧ (st id).dev.hostMode 3 ≠ 2
    ∧ (stHost id).dev.instState 3 63 ≠ 0 ∧ (stHost id).dev.instState 3 63 ≠ 1
    ∧ (∀ k < 2, (stHost fun d => d.fset (R.INST_STAT 3 63) R.INST_STAT.STATE k).dev.instState 3 63 = k) := by
  repeat' apply And.intro
  all_goals decide +kernel

/-- A device whose instance 63 of port 3 is in a state. -/
def inst (k : Nat) (d : Dev) : Dev := d.fset (R.INST_STAT 3 63) R.INST_STAT.STATE k

theorem witness_HostInstances : (st id).dev.chip.state ≠ .off ∧ (st id).dev.instServes 3 63 = false ∧ (stHost id).dev.instServes 3 63 = true
    ∧ (∀ k < 4, (stHost (inst k)).dev.instState 3 63 = k) ∧ (stHost id).dev.flag (R.INSTE_GRANT 3 63) R.INSTE_GRANT.MSG = false
    ∧ (stHost (·.setFlag (R.INSTE_GRANT 3 63) R.INSTE_GRANT.MSG true)).dev.flag (R.INSTE_GRANT 3 63) R.INSTE_GRANT.MSG = true
    ∧ ((stHost id).dev.rl 3).engFw = true ∧ ((st id).dev.rl 3).engFw = false
    ∧ (stHost id).dev.flag (R.INST_STAT 3 63) R.INST_STAT.MSG_BUSY = false
    ∧ (stHost (·.setFlag (R.INST_STAT 3 63) R.INST_STAT.MSG_BUSY true)).dev.flag (R.INST_STAT 3 63) R.INST_STAT.MSG_BUSY = true
    ∧ (∀ f : Fin 3, (stHost (arms [dmaTimer 3 63 7 f])).dev.due (dmaTimer 3 63 7 f) = true ∧ (st id).dev.due (dmaTimer 3 63 7 f) = false)
    ∧ (stHost (arms [⟨.msixModeration, 64 * 3 + 63, 7⟩])).dev.due ⟨.msixModeration, 64 * 3 + 63, 7⟩ = true
    ∧ (st id).dev.due ⟨.msixModeration, 64 * 3 + 63, 7⟩ = false := by
  repeat' apply And.intro
  all_goals decide +kernel

/-- A slot of a transmit ring. -/
def slotAt (p : TxPhase) : TxSlot := { slot := 5, addr := 0, length := 64, tsReq := false, tb := 0, direct := none, cookie := 0, phase := p }

/-- A state whose ring 7 of instance 63 is as given, with a frame of that instance, or of another, in hand. -/
def stRing (r : TxRing) (i : Nat) : State := stHost fun d =>
  let d := (d.setTxRing 3 63 7 r).setHand 3 (some { inst := i, qp := 7, slot := 5, landing := 0 })
  { d with frame := { d.frame with landing := [{ landed with id := 0 }] } }

/-- A device whose instance 63 of port 3 is asked to reset in this clock. -/
def resetAsked (d : Dev) : Dev := d.askHost (.reset 3 63)

theorem witness_HostTransmit : (st id).dev.chip.state ≠ .off ∧ (st id).dev.instServes 3 63 = false ∧ (st id).dev.qpCount 3 63 ≤ 7
    ∧ (stHost id).dev.instServes 3 63 = true ∧ 7 < (stHost id).dev.qpCount 3 63
    ∧ (stHost id).dev.txSize 3 63 7 ≤ (0xFFF : Word).toNat % 4096 ∧ (0x1000 : Word).toNat % 4096 < (stHost id).dev.txSize 3 63 7
    ∧ (255 : Byte).toNat ≠ (stHost id).dev.instGen 3 63 ∧ (0 : Byte).toNat = (stHost id).dev.instGen 3 63
    ∧ (stHost resetAsked).dev.clk.host.contains (.reset 3 63) = true ∧ (stHost id).dev.clk.host.contains (.reset 3 63) = false
    ∧ (0 : Byte).toNat = (stHost resetAsked).dev.instGen 3 63
    ∧ ((stHost id).dev.txRing 3 63 7).fetching = false
    ∧ (let d := (stRing { TxRing.init with fetching := true, next := 5 } 63).dev
       (if (d.txRing 3 63 7).fetching && d.instActive 3 63 then d.fetchSlot 3 63 7 else none) = some 5)
    ∧ (stHost id).dev.hand 3 = none
    ∧ (∀ i ∈ [62, 63], (stRing { TxRing.init with slots := [slotAt .reading] } i).dev.hand 3 = some { inst := i, qp := 7, slot := 5, landing := 0 }
      ∧ ((stRing { TxRing.init with slots := [slotAt .reading] } i).dev.txRing 3 63 7).slots.find? (fun s => s.slot == 5 && s.phase == .reading)
          = some (slotAt .reading)
      ∧ (stRing { TxRing.init with slots := [slotAt .reading] } i).dev.frame.landing.find? (fun l => l.id == 0) = some { landed with id := 0 })
    ∧ (List.replicate 64 (0 : Byte)).length = (slotAt .reading).length ∧ ([] : List Byte).length ≠ (slotAt .reading).length
    ∧ (stHost id).dev.dmaUp 3 = true ∧ (stHost id).dev.instActive 3 63 = true ∧ (stHost (inst 3)).dev.instState 3 63 = 3 ∧ (st id).dev.dmaUp 3 = false
    ∧ ((stHost id).dev.txRing 3 63 7).slots = [] ∧ (∀ a b, (slotAt .reading).phase ≠ .ready a b)
    ∧ ((stRing { TxRing.init with slots := [slotAt (.ready 2 none)] } 63).dev.txRing 3 63 7).slots = [slotAt (.ready 2 none)]
    ∧ (slotAt (.ready 2 none)).phase = .ready 2 none
    ∧ (stHost (arms [⟨.tsWait, 64 * 3 + 63, 4096 * 7 + 4095⟩])).dev.due ⟨.tsWait, 64 * 3 + 63, 4096 * 7 + 4095⟩ = true
    ∧ (st id).dev.due ⟨.tsWait, 64 * 3 + 63, 4096 * 7 + 4095⟩ = false
    ∧ (let d := (stHost (arms [⟨.tsWait, 64 * 3 + 63, 4096 * 7 + 4095⟩])).dev
       d.deadline ⟨.tsWait, 64 * 3 + 63, 4096 * 7 + 4095⟩ = d.was.deadline ⟨.tsWait, 64 * 3 + 63, 4096 * 7 + 4095⟩)
    ∧ (let d := (sinceReset (stHost (arms [⟨.tsWait, 64 * 3 + 63, 4096 * 7 + 4095⟩]))).dev
       d.deadline ⟨.tsWait, 64 * 3 + 63, 4096 * 7 + 4095⟩ ≠ d.was.deadline ⟨.tsWait, 64 * 3 + 63, 4096 * 7 + 4095⟩) := by
  repeat' apply And.intro
  all_goals first | decide +kernel | rfl | (intro a b h; cases h)

/-- A frame at the head of queue pair 7 of instance 63, and the state it is in; the ring has one descriptor where posted. -/
def atHost (left : Nat) (guarded : Bool) : HostFrame :=
  { descr := { descr with guarded := guarded }, recipients := [(63, 7)], since := 0, bytes := List.replicate 64 0, readsLeft := left, handed := false, reread := false }
def stHand (h : HostFrame) (posted : Nat) : State := stHost fun d =>
  let d := ((d.setFlag (R.RXQ_CFG 3 63 7) R.RXQ_CFG.EN true).wr (R.RXQ_TAIL 3 63 7) (.ofNat 32 posted)).setHostFrames 3 [h]
  arms [⟨.rxWait, 64 * 3 + 63, 7⟩] d

/-- The same state with that frame in hand. -/
def stTaken (h : HostFrame) (posted : Nat) : State := { stHand h posted with dev := (stHand h posted).dev.setRxHand 3 (some (63, 7, h.descr.uid)) }

theorem witness_HostReceive : (st id).dev.chip.state ≠ .off ∧ (st id).dev.instServes 3 63 = false ∧ (st id).dev.qpCount 3 63 ≤ 7
    ∧ (stHost id).dev.instServes 3 63 = true ∧ 7 < (stHost id).dev.qpCount 3 63
    ∧ (stHost id).dev.rxSize 3 63 7 ≤ (0xFFF : Word).toNat % 4096 ∧ (0x1000 : Word).toNat % 4096 < (stHost id).dev.rxSize 3 63 7
    ∧ (stHost id).dev.rxHead 3 63 7 = none ∧ (stHand (atHost 0 false) 1).dev.rxHead 3 63 7 = some (atHost 0 false)
    ∧ (stTaken (atHost 0 false) 1).dev.rxHead 3 63 7 = some (atHost 0 false) ∧ (stTaken (atHost 0 false) 1).dev.rxWaits 3 63 7 (atHost 0 false) = false
    ∧ (stTaken (atHost 0 false) 1).dev.laneHolds 3 (atHost 0 false) = false ∧ (stTaken (atHost 0 false) 1).dev.dmaUp 3 = true
    ∧ (stTaken (atHost 0 false) 1).dev.rxHand 3 = some ((63 : Fin 64).val, (7 : Fin 8).val, (atHost 0 false).descr.uid)
    ∧ (stHand (atHost 0 false) 1).dev.rxHand 3 = none
    ∧ (stHost id).dev.rxNext 3 = none ∧ (stHand (atHost 0 false) 1).dev.rxNext 3 = some (63, 7, atHost 0 false)
    ∧ (atHost 1 false).readsLeft ≠ 0 ∧ (atHost 0 false).readsLeft = 0 ∧ (stHand (atHost 0 false) 1).dev.rxWaits 3 63 7 (atHost 0 false) = false
    ∧ (stHand (atHost 0 false) 0).dev.rxWaits 3 63 7 (atHost 0 false) = true
    ∧ (stHand (atHost 0 false) 1).dev.laneHolds 3 (atHost 0 false) = false ∧ (stHand (atHost 0 false) 1).dev.dmaUp 3 = true
    ∧ placeBuffers ((stTaken (atHost 0 false) 1).dev.rxBuf 3 63 7) (([] : List (List Word)).take ((stTaken (atHost 0 false) 1).dev.rxPosted 3 63 7)) 0
        (atHost 0 false).body = none
    ∧ (placeBuffers ((stTaken (atHost 0 false) 1).dev.rxBuf 3 63 7) (([[0, 0]] : List (List Word)).take ((stTaken (atHost 0 false) 1).dev.rxPosted 3 63 7)) 0
        (atHost 0 false).body).isSome = true
    ∧ (stHand (atHost 0 false) 0).dev.due ⟨.rxWait, 64 * 3 + 63, 7⟩ = true ∧ (st id).dev.due ⟨.rxWait, 64 * 3 + 63, 7⟩ = false
    ∧ (stHand (atHost 0 true) 0).dev.rxHead 3 63 7 = some (atHost 0 true) ∧ (atHost 0 true).descr.guarded = true
    ∧ (atHost 0 false).descr.guarded = false := by
  repeat' apply And.intro
  all_goals decide +kernel

/-- A state in a START at a step. -/
def stStart (c : ChipState) (k : Nat) (g : Dev → Dev) : State := stIn c fun d => g { d with start := { d.start with step := k } }

/-- A device whose minimal set is ready. -/
def minimal (d : Dev) : Dev :=
  { d with
    loader := { d.loader with applied := true, layout := { d.loader.layout with rgn := [{ RegionLayout.none_ with pbMode := [1, 0, 0, 0] }] } }
    start := { d.start with calDone := 1 } }

theorem witness_StartsBegin : (stIn .off id).dev.chip.state = .off ∧ (st id).dev.chip.state ≠ .off ∧ (st id).dev.chip.state ≠ .held
    ∧ (st (·.setFlag R.STR_STAT R.STR_STAT.RETAIN_OK true)).dev.flag R.STR_STAT R.STR_STAT.RETAIN_OK = true
    ∧ (st (·.setFlag R.STR_STAT R.STR_STAT.RETAIN_OK false)).dev.flag R.STR_STAT R.STR_STAT.RETAIN_OK = false
    ∧ (stIn .held id).dev.chip.state = .held ∧ (st id).dev.Accepts (.pf 0) R.STR_CMD
    ∧ (st id).dev.chip.state = .service ∧ (stIn .recovery id).dev.chip.state ≠ .service ∧ (stIn .recovery id).dev.Accepts (.pf 0) R.STR_CMD
    ∧ (stStart .startWarm 6 minimal).dev.chip.state.starting = true ∧ (stStart .startWarm 6 minimal).dev.minimalSet = true
    ∧ (stStart .startWarm 6 id).dev.minimalSet = false ∧ (st id).dev.chip.state.starting = false
    ∧ (stStart .startCold 6 (arms [⟨.startLimit, 0, 0⟩])).dev.due ⟨.startLimit, 0, 0⟩ = true
    ∧ (stStart .startCold 6 (arms [⟨.startLimit, 0, 0⟩])).dev.chip.state.starting = true ∧ (st id).dev.due ⟨.startLimit, 0, 0⟩ = false
    ∧ (stT [⟨.failClear, 0, 0⟩] id).dev.due ⟨.failClear, 0, 0⟩ = true ∧ (stT [⟨.failClear, 0, 0⟩] id).dev.chip.state.serving = true
    ∧ (st id).dev.due ⟨.failClear, 0, 0⟩ = false ∧ (stIn .shed4 id).dev.chip.state ≠ .service ∧ (stIn .startCold id).dev.chip.state.serving = false := by
  repeat' apply And.intro
  all_goals first | decide +kernel | rfl

theorem witness_ColdStartBegins : (0 : Nat) ≤ 1 ∧ (1 : Nat) ≤ 1 ∧ 1 < (2 : Nat) := by decide

/-- Memories that failed: the chip's own, and region 0's Floor agent. -/
def failsChip : List BistFail := [{ unit := .chip, memory := 0 }]

/-- Memories that failed: region 0's Floor agent. -/
def failsBlock9 : List BistFail := [{ unit := .block 0 9, memory := 0 }]

theorem witness_StartStepsEnd : (stStart .startCold 1 id).dev.chip.state ≠ .off
    ∧ (∀ k ∈ [1, 2, 3, 4, 5], (stStart .startCold k id).dev.runState.starting = true ∧ (stStart .startCold k id).dev.start.step = k)
    ∧ (stStart .startCold 2 id).dev.runState = .startCold ∧ (stStart .startWarm 2 id).dev.runState ≠ .startCold
    ∧ (st id).dev.runState.starting = false ∧ (stStart .startCold 2 id).dev.start.step ≠ 1
    ∧ (stStart .startCold 3 minimal).dev.loader.applied = true ∧ (stStart .startCold 3 id).dev.loader.applied = false
    ∧ failsChip.any (fun x => x.unit == .chip) = true ∧ failsBlock9.any (fun x => x.unit == .chip) = false
    ∧ ((stStart .startCold 4 id).dev.bist []).start.downRegions.testBit 0 = false ∧ (stStart .startCold 5 id).dev.start.step ≠ 6
    ∧ (stStart .startCold 6 id).dev.start.step = 6 ∧ (3 : Fin 10).val < 4 ∧ (9 : Fin 10).val = 9
    ∧ ¬((6 : Fin 12).val = 6 ∧ ((4 : Fin 10).val < 4 ∨ (4 : Fin 10).val = 9)) ∧ 9 < (10 : Fin 12).val := by
  repeat' apply And.intro
  all_goals decide +kernel

/-- A state with counts of failed starts. -/
def stFails (w c : Nat) : State := stStart .startWarm 6 fun d =>
  arms [⟨.startLimit, 0, 0⟩] ((d.fset R.STR_STAT R.STR_STAT.WARM_FAILS w).fset R.STR_STAT R.STR_STAT.COLD_FAILS c)

theorem witness_FailedStarts : (stFails 1 1).dev.fget R.STR_STAT R.STR_STAT.WARM_FAILS + 1 < 3
    ∧ 3 ≤ (stFails 2 2).dev.fget R.STR_STAT R.STR_STAT.WARM_FAILS + 1 ∧ (stFails 1 1).dev.fget R.STR_STAT R.STR_STAT.COLD_FAILS + 1 < 3
    ∧ 3 ≤ (stFails 2 2).dev.fget R.STR_STAT R.STR_STAT.COLD_FAILS + 1 ∧ (stFails 0 0).dev.due ⟨.startLimit, 0, 0⟩ = true
    ∧ (stFails 0 0).dev.chip.state = .startWarm ∧ (stStart .startCold 6 (arms [⟨.startLimit, 0, 0⟩])).dev.chip.state = .startCold := by
  repeat' apply And.intro
  all_goals decide +kernel

/-- A device that saves a calibration copy, and one whose fatal dump is under way. -/
def saves (d : Dev) : Dev := { d with start := { d.start with saving := some (0x1000000, [1]) } }
def dumps (d : Dev) : Dev := { d with dump := { d.dump with active := true } }

theorem witness_CalibrationAndDump : (st id).dev.chip.state ≠ .off ∧ (st id).dev.Accepts (.pf 0) R.CAL_CMD ∧ (st id).dev.chip.state = .service
    ∧ (st id).dev.fget R.CAL_STAT R.CAL_STAT.RESULT ≠ 1
    ∧ (st (·.fset R.CAL_STAT R.CAL_STAT.RESULT 1)).dev.fget R.CAL_STAT R.CAL_STAT.RESULT = 1
    ∧ (st (·.fset R.CAL_STAT R.CAL_STAT.RESULT 1)).dev.Accepts (.pf 0) R.CAL_CMD
    ∧ (st id).dev.start.saving = none ∧ (st saves).dev.start.saving = some (0x1000000, [1]) ∧ (st saves).dev.Accepts (.pf 0) R.CAL_CMD
    ∧ (st dumps).dev.dump.active = true ∧ (st id).dev.dump.active = false ∧ (stT [⟨.dumpMax, 0, 0⟩] id).dev.due ⟨.dumpMax, 0, 0⟩ = true
    ∧ (st id).dev.due ⟨.dumpMax, 0, 0⟩ = false ∧ (st id).dev.Accepts (.pf 0) R.DUMP_CMD := by
  repeat' apply And.intro
  all_goals first | decide +kernel | rfl

/-- A device whose thermal monitor requests a stage, and one whose SAG_N is low. -/
def hot (k : Nat) (d : Dev) : Dev := { d with supply := { d.supply with thermal := k } }
def sagging (d : Dev) : Dev := { d with supply := { d.supply with sag := true } }

theorem witness_SupplyMonitors : (st id).dev.chip.state ≠ .off ∧ (st id).dev.supply.sag = false ∧ (st sagging).dev.supply.sag = true
    ∧ (stT [⟨.sagLadder, 5, 0⟩] id).dev.due ⟨.sagLadder, 5, 0⟩ = true ∧ (st id).dev.due ⟨.sagLadder, 5, 0⟩ = false := by
  repeat' apply And.intro
  all_goals decide +kernel

/-- A device in SERVICE that has entered HELD in this clock, one held for longer, one whose exit actions are of a stage still, and one with
causes noted and chip-fatal errors raised. -/
def justHeld (d : Dev) : Dev := { d with chip := { d.chip with prev := d.chip.state, state := .held, since := d.now } }
def longHeld (d : Dev) : Dev := { d with chip := { d.chip with state := .held }, now := 1 }
def exits (k : Nat) (d : Dev) : Dev := { d with supply := { d.supply with exiting := k } }
def noted (l : List Cause) (d : Dev) : Dev := { d with clk := { d.clk with causes := l } }

theorem witness_SheddingStages : (st id).dev.chip.state ≠ .off
    ∧ (st longHeld).dev.causeState = .held ∧ (st justHeld).dev.causeState = .service
    ∧ (st fun d => { d with chip := { d.chip with state := .test, testFrom := .shed2 } }).dev.causeState = .shed2
    ∧ (st id).dev.chip.state.serving = true ∧ (st id).dev.requested < (st id).dev.chip.state.stage + 1
    ∧ (stIn .service fun d => hot 5 (exits 1 d)).dev.chip.state.stage < (stIn .service fun d => hot 5 (exits 1 d)).dev.supply.exiting
    ∧ (∀ x ∈ [(ChipState.service, 0), (.shed1, 1), (.shed2, 2), (.shed3, 3), (.shed4, 4)],
        (stIn x.1 (hot 5)).dev.causeState = x.1 ∧ (stIn x.1 (hot 5)).dev.chip.state.serving = true ∧ (stIn x.1 (hot 5)).dev.chip.state.stage = x.2
          ∧ x.2 + 1 ≤ (stIn x.1 (hot 5)).dev.requested ∧ (stIn x.1 (hot 5)).dev.supply.exiting ≤ x.2)
    ∧ (stIn .recovery (hot 5)).dev.causeState.serving = false ∧ (stIn .recovery (hot 5)).dev.causeState ≠ .held
    ∧ (stIn .recovery (hot 5)).dev.causeState ≠ .off ∧ (stIn .recovery (hot 5)).dev.requested = 5
    ∧ (stIn .recovery (hot 4)).dev.requested ≠ 5 ∧ (st id).dev.due ⟨.shedDwell, 0, 0⟩ = false
    ∧ (stIn .shed4 fun d => hot 3 (arms [⟨.shedDwell, 0, 0⟩] d)).dev.due ⟨.shedDwell, 0, 0⟩ = true
    ∧ (stIn .shed4 fun d => hot 3 (arms [⟨.shedDwell, 0, 0⟩] d)).dev.requested < (stIn .shed4 (hot 3)).dev.causeState.stage
    ∧ (stIn .shed4 (hot 4)).dev.causeState.stage ≤ (stIn .shed4 (hot 4)).dev.requested
    ∧ Cause.deeper 5 ∈ (noted [.deeper 5] service).clk.causes ∧ Cause.deeper 5 ∉ service.clk.causes
    ∧ service.clk.causes.find? (fun c => c.rank == 0) = none
    ∧ (noted [.shallower 0, .deeper 5, .test true] service).clk.causes.find? (fun c => c.rank == 5) = some (.deeper 5)
    ∧ (noted [.test true, .shallower 0] service).clk.causes.find? (fun c => c.rank == 2) = some (.shallower 0)
    ∧ (noted [.test true] service).clk.causes.find? (fun c => c.rank == 1) = some (.test true)
    ∧ service.supply.exiting ≤ service.runState.stage ∧ (exits 4 service).runState.stage < (exits 4 service).supply.exiting := by
  repeat' apply And.intro
  all_goals decide +kernel

/-- A device held from SHED-5, with RESET_N low or high. -/
def fallen (low : Bool) (d : Dev) : Dev := arms [⟨.heldExit, 0, 0⟩] { d with supply := { d.supply with fromShed5 := true, resetLow := low } }

theorem witness_HeldOffAndTest : (st id).dev.chip.state ≠ .off ∧ (stIn .held (fallen true)).dev.supply.resetLow = true
    ∧ (st id).dev.supply.resetLow = false ∧ (999 : Word).toNat < us ∧ us ≤ (1000 : Word).toNat
    ∧ (stIn .held fun d => hot 5 (fallen true d)).dev.supply.fromShed5 = true ∧ (stIn .held fun d => hot 5 (fallen true d)).dev.requested = 5
    ∧ (stIn .held (fallen true)).dev.requested ≠ 5 ∧ (49999999 : Word).toNat < 50 * ms ∧ 50 * ms ≤ (50000000 : Word).toNat
    ∧ (stIn .held (fallen false)).dev.due ⟨.heldExit, 0, 0⟩ = true ∧ (stIn .held (fallen false)).dev.chip.state = .held
    ∧ (stIn .held (fallen false)).dev.supply.fromShed5 = true ∧ (stIn .held (fallen false)).dev.supply.resetLow = false
    ∧ (st id).dev.due ⟨.heldExit, 0, 0⟩ = false ∧ (stIn .test id).dev.chip.state = .test ∧ (st id).dev.chip.state ≠ .held
    ∧ (st id).dev.chip.state ≠ .test ∧ (st id).dev.causeState ≠ .off ∧ (st id).dev.causeState ≠ .held ∧ (st longHeld).dev.chip.state ≠ .test
    ∧ (st longHeld).dev.causeState = .held ∧ (stIn .held (fallen true)).dev.chip.state ≠ .off
    ∧ (stIn .test fun d => { d with start := { d.start with drove := true } }).dev.start.drove = true
    ∧ (stIn .test id).dev.start.drove = false := by
  repeat' apply And.intro
  all_goals decide +kernel

/-! ## Ill-formed commands, one for each check of well-formedness -/

theorem test_wf_port : (Instr.signalDetected 129).wf = false := by decide +kernel
theorem test_wf_source : (Instr.landingChargeRetry (.port 130)).wf = false := by decide +kernel
theorem test_wf_frame_length : (Instr.frameEnd 133 (List.replicate 65537 0) { error := false, corrected := 0, uncorrected := 0 }).wf = false := by decide +kernel
theorem test_wf_head_window : (Instr.headWindowOffer (.engine 0) (List.replicate 65 0)).wf = false := by decide +kernel
theorem test_wf_i2c_write : (Instr.i2cTransaction (.pf 0) 0 0 17 0 none).wf = false := by decide +kernel
theorem test_wf_i2c_read : (Instr.i2cTransaction (.pf 0) 0 0 0 17 none).wf = false := by decide +kernel
theorem test_wf_i2c_bytes : (Instr.i2cCommandEnd 0 true 0 false (List.replicate 17 0)).wf = false := by decide +kernel
theorem test_wf_wnw_op : (Instr.wnwBadop (.pf 0) 0 4).wf = false := by decide +kernel
theorem test_wf_tbl_op : (Instr.tblBadop (.pf 0) 0 0 6).wf = false := by decide +kernel
theorem test_wf_pol_op : (Instr.polBadop (.pf 0) 0 3).wf = false := by decide +kernel
theorem test_wf_flush_port : (Instr.schFlush (.pf 0) 0 32 0).wf = false := by decide +kernel
theorem test_wf_thread : (Instr.opr .supervisor 1).wf = false := by decide +kernel
theorem test_wf_loft_count : (Instr.loft 0 0 0 0 []).wf = false := by decide +kernel
theorem test_wf_loft_length : (Instr.loft 0 0 0 0 [{ slot := 0, seq := 0, length := 257, data := [] }]).wf = false := by decide +kernel
theorem test_wf_loft_data : (Instr.loft 0 0 0 0 [{ slot := 0, seq := 0, length := 0, data := List.replicate 257 0 }]).wf = false := by
  decide +kernel
theorem test_wf_step_chip : (Instr.startStepComplete 6 .chip []).wf = false := by decide +kernel
theorem test_wf_step_region : (Instr.startStepComplete 10 (.region 0) []).wf = false := by decide +kernel
theorem test_wf_step_block : (Instr.startStepComplete 6 (.block 0 9) []).wf = false := by decide +kernel
theorem test_wf_cold_cause : (Instr.coldStart 2).wf = false := by decide +kernel
theorem test_wf_warm_cause : (Instr.warmStart 0).wf = false := by decide +kernel
theorem test_wf_descriptor : (Instr.txDescriptorFetch 0 0 0 0 [0]).wf = false := by decide +kernel
theorem test_wf_receive : (Instr.rxHandover 0 0 0 [[0]]).wf = false := by decide +kernel

/-! ## Small steps -/

/-- The device after one command; the device before where there is no next state. -/
def ran (c : Instr) (s : State) : Dev :=
  match exec c s with
  | .next t => t.dev
  | _ => s.dev

/-- The queue is first in, first out: the second command waits while the first runs. -/
theorem test_queue : step { State.reset with pending := [.sagNFall, .sagNRise] } =
    exec .sagNFall { State.reset with pending := [.sagNRise] } := rfl

/-- No word of the opcode table spells a command. -/
theorem test_word_spells_none : decodeTableWord 32 0xFFFFFFFF = none := rfl
theorem test_fetch_word_unchanged : State.reset.withFetchWord 32 5 = State.reset := rfl

/-- Reset: canonical flash, canonical registers, and a clock that counts with an empty queue. -/
theorem test_reset_flash : flashCanonical State.reset.flash := by unfold flashCanonical; decide +kernel
theorem test_reset_registers : Map.wf coldWord State.reset.dev.regs = true := by decide +kernel

/-- R92: a full-word write reaches a live field; R640: a partial one is counted and changes nothing. -/
theorem test_register_write :
    (ran (.registerWrite (.pf 0) (.reg (.ofNat 32 (R.MAC_FRAME 133))) 15 9000) (stL id)).fget (R.MAC_FRAME 133) R.MAC_FRAME.MAX = 9000 := by
  decide +kernel
theorem test_partial_write :
    let d := ran (.registerWrite (.pf 0) (.reg (.ofNat 32 (R.MAC_FRAME 133))) 7 9000) (stL id)
    d.fget (R.MAC_FRAME 133) R.MAC_FRAME.MAX = (stL id).dev.fget (R.MAC_FRAME 133) R.MAC_FRAME.MAX ∧ d.rd R.REG_PARTIAL_WR = 1 := by
  decide +kernel

/-- R454, Table 11-5: the sum of ADDK wraps, SARK fills with the sign, MULHU is the high word of an unsigned product, BSWAP reverses
bytes. -/
theorem test_addk_wraps : ((ran (.addk (.pe 63) 7) (stCore 63 (instr 0x01 3 1 2) (regs3 0xFFFFFFFF 0 0) id)).thread 63 7).reg 3 = 1 := by
  decide +kernel
theorem test_sark_sign : ((ran (.sark (.pe 63) 7) (stCore 63 (instr 0x08 1 1 4) (regs3 0x80000000 0 0) id)).thread 63 7).reg 1 = 0xF8000000 := by
  decide +kernel
theorem test_opr_mulhu : ((ran (.opr .supervisor 7) (stCore supCore (instr 0 3 1 (2 * 2 ^ 11 + 9)) (regs3 0xFFFFFFFF 0xFFFFFFFF 0) id)).thread
    supCore 7).reg 3 = 0xFFFFFFFE := by decide +kernel
theorem test_opr_bswap : ((ran (.opr .supervisor 7) (stCore supCore (instr 0 3 1 15) (regs3 0x11223344 0 0) id)).thread supCore 7).reg 3
    = 0x44332211 := by decide +kernel

/-- R454: a branch that is taken goes IMM beyond the next instruction; R455: a ninth CALL faults with CAUSE 5. -/
theorem test_branch_back : ((ran (.iflt (.pe 63) 7) (stCore 63 (instr 0x22 1 2 0xFFFF) (regs3 0xFFFFFFFF 0 0) id)).thread 63 7).pc = 0 := by
  decide +kernel
theorem test_call_overflow : (ran (.call (.pe 63) 7) (stCore 63 (instr 0x28 0 0 5) (fun x => { x with stack := List.replicate 8 9 }) id)).fget
    (R.ENG_FAULT 63) R.ENG_FAULT.CAUSE = 5 := by decide +kernel

/-- R457: a word store at an odd address faults with CAUSE 2. -/
theorem test_store_unaligned : (ran (.wrw (.pe 63) 7) (stCore 63 (instr 0x12 2 1 0) (regs3 1 7 0) id)).fget
    (R.ENG_FAULT 63) R.ENG_FAULT.CAUSE = 2 := by decide +kernel

/-- MAC_TX_OK: a frame sent is counted; its port is free for the next. -/
theorem test_transmit : let d := ran (.transmitComplete 133) (stSends out5 0 false)
    d.rd (R.MAC_TX_OK 133) = 1 ∧ (d.eport 133).sending = none := by decide +kernel

/-- R396: a refresh interval owes one refresh more. -/
theorem test_refresh_owed : ((ran (.dramRefreshDue 3) (stDram (fun x => { x with owed := 2 }) id)).dramOf 3).owed = 3 := by decide +kernel

/-- Table 12-2, R489: two equal records of three release the frame, and the third channel takes a strike. -/
theorem test_vote_strike : let d := (ran (.vote 3 (some 0) (some 0) (some 1)) (stVote 7 [7])).votesEnd
    d.fget (R.VOTE_STAT 3) R.VOTE_STAT.STRIKE_C = 1 ∧ d.fget (R.VOTE_STAT 3) R.VOTE_STAT.STRIKE_A = 0 ∧ d.voteQueue 3 = [] := by decide +kernel

/-- R504: a device whose own lease expires stands by. -/
theorem test_own_lease : (ran .ownLeaseExpiry (stTwin 1 3 2 (arms [⟨.ownLease, 0, 0⟩]))).twinEnd.leaseState = 1 := by decide +kernel

/-- R495: a copy of an accepted number is counted. -/
theorem test_abaide_copy : (ran (.keepalive 1 5 0) (stTwin 1 0 2 fun d => d.setLink { d.twin.link with high := some 5 })).rd R.ABD_RX_DUP = 1 := by
  decide +kernel

/-- R531: a reset advances the generation and puts the instance in RESETTING. -/
theorem test_instance_reset : let d := (ran (.instReset 3 63) (stHost id)).hostEnd
    d.instState 3 63 = 1 ∧ d.instGen 3 63 = 1 := by decide +kernel

/-- R522: the offset and the stride of virtual functions are 1. -/
theorem test_vf_stride : OutEvent.cfgCompletion 3 false 0x00010001 ∈
    (ran (.pcieConfigRequest 3 .vfOffsetStride) (st (·.setFlag (R.HST_STAT 3) R.HST_STAT.READY true))).out := by decide +kernel

/-- R558: the power-on reset begins a cold start; R5: without supply the chip is OFF. -/
theorem test_power_on : (ran .powerOn (stIn .off id)).chip.state = .startCold := by decide +kernel
theorem test_vdd_aux : (ran .vddAuxLoss (st id)).chip.state = .off := by decide +kernel

/-- R676, Table 17-4a: VDD_CORE at 683 mV requests SHED-5 and at 720 mV SHED-1; R677: 151 °C requests SHED-1. -/
theorem test_rail_deep : (ran (.railMonitorCrossing 0 683) (st id)).requested = 5 := by decide +kernel
theorem test_rail_first : (ran (.railMonitorCrossing 0 720) (st id)).requested = 1 := by decide +kernel
theorem test_thermal : (ran (.thermalMonitorCrossing 604) (st id)).requested = 1 := by decide +kernel

/-- R68, Table 2-2: of a flash that declares 1-1-2 and not 1-1-4, at most 133 MHz, the loader takes 0x3C at 100 MHz; without a
valid signature 0x13 at 25 MHz. -/
theorem test_read_mode : ({ State.reset.sfdp with mode114 := false, maxMhz := 133 } : Sfdp).readMode = (0x3C, 100)
    ∧ ({ State.reset.sfdp with valid := false } : Sfdp).readMode = (0x13, 25) := by decide

/-- R582: a fall of SAG_N is counted and shown. -/
theorem test_sag : let d := ran .sagNFall (st id)
    d.rd R.PWR_SAG_CNT = 1 ∧ d.flag R.PWR_EVT R.PWR_EVT.SAG = true := by decide +kernel

end Sys2Proof.Tests
end

section
/-! Planned restarts (R66): RGN_RESTART.WARM of a region that does not run. -/

namespace Sys2Proof.Machine

theorem Dev.regionRuns_of_inRestart {d : Dev} {n : Nat} (h : d.inRestart n = true) : d.regionRuns n = false := by
  have state : d.fget (R.RGN_STAT n) R.RGN_STAT.STATE = 1 := by simpa [Dev.inRestart] using h
  simp [Dev.regionRuns, state]

theorem Dev.restartWarm_of_not_runs {d : Dev} {n : Nat} (h : d.regionRuns n = false) : d.restartWarm n = d := by
  simp [Dev.restartWarm, h]

/-- RGN_RESTART_WARM is bound to no live group: a write that reaches RGN_RESTART has the effect of `Dev.restartWarm` (R66). -/
theorem exec_rgnRestartWarm_of {s : State} {m : Master} {n : Fin 4} {g : Dev → Dev} (on : s.dev.chip.state ≠ .off)
    (acc : s.dev.Accepts m (R.RGN_RESTART n)) (e : s.dev.restartWarm n = g s.dev) :
    exec (.rgnRestartWarm m n) s = .next (s.done g) :=
  State.runCommand_done on acc rfl e

/-- Settles O15: in region restart STATE reads 1, so the region does not run, and the write changes nothing. -/
theorem restartingRegionIgnores : Obligations.RestartingRegionIgnores := by
  intro s on m n acc restarting
  exact exec_rgnRestartWarm_of on acc (Dev.restartWarm_of_not_runs (Dev.regionRuns_of_inRestart restarting))

end Sys2Proof.Machine
end

section
/-! A busy loader (R109): a write of LDR_CMD while RESULT is BUSY or a re-layout is active. -/

namespace Sys2Proof.Machine

theorem Dev.ldrBusy_iff {d : Dev} : d.ldrBusy = true ↔
    d.fget R.LDR_STAT R.LDR_STAT.RESULT = 1 ∨ d.fget R.LDR_RELAYOUT R.LDR_RELAYOUT.ACTIVE = 1 := by
  simp [Dev.ldrBusy, Dev.flag]

/-! ## What a busy loader does with each operation -/

theorem Dev.verifyCopy_of_busy {d : Dev} (c : FlashCopy) (busy : d.ldrBusy = true) : d.verifyCopy c = d := if_pos busy

theorem advanceSvn_of_busy {s : State} (busy : s.dev.ldrBusy = true) : advanceSvn s = s := if_pos busy

theorem revokeSlot_of_busy {s : State} (k : Nat) (busy : s.dev.ldrBusy = true) : revokeSlot s k = s := if_pos busy

/-- Of the operations of LDR_CMD a busy loader takes none, the undefined ones included. -/
theorem State.loaderCommand_of_busy {s : State} (v : Word) (busy : s.dev.ldrBusy = true) : s.loaderCommand v = s := by
  unfold State.loaderCommand
  split
  · simp [State.onDev, Dev.verifyCopy_of_busy .a busy]
  · simp [State.onDev, Dev.verifyCopy_of_busy .b busy]
  · exact advanceSvn_of_busy busy
  · exact revokeSlot_of_busy _ busy
  · rfl

/-! ## A register write of LDR_CMD -/

/-- The clock notes the write of a register and its master. -/
def Dev.noteWrite (d : Dev) (m : Master) (a : Nat) (v : Word) : Dev :=
  { d with clk := { d.clk with writers := (a, m, v) :: d.clk.writers } }

@[simp] theorem Dev.noteWrite_ldrBusy (d : Dev) (m : Master) (a : Nat) (v : Word) : (d.noteWrite m a v).ldrBusy = d.ldrBusy := rfl

/-- Writes of one clock contend for the fields they store (R642): a write of a register that stores none is noted and acts, with no
earlier write of its clock to prevail over it. -/
theorem State.writeReg_of_stores_nothing {s : State} {a : Nat} (m : Master) (v : Word)
    (page : ¬(a / 0x10000 = 3 ∨ a / 0x10000 = 6)) (stores : storedPart a 0xFFFFFFFF = 0) :
    s.writeReg m a v = (s.onDev (·.noteWrite m a v)).writeNow m a v := by
  simp only [State.writeReg, if_neg page, stores, if_true]
  split <;> rfl

theorem State.writeNow_ldrCmd (s : State) (m : Master) (v : Word) : s.writeNow m R.LDR_CMD v = s.loaderCommand v := rfl

theorem State.writeReg_ldrCmd (s : State) (m : Master) (v : Word) :
    s.writeReg m R.LDR_CMD v = (s.onDev (·.noteWrite m R.LDR_CMD v)).loaderCommand v := by
  rw [State.writeReg_of_stores_nothing m v (by decide) (by decide +kernel), State.writeNow_ldrCmd]

theorem exec_registerWrite_done {s : State} {m : Master} {a : Nat} {g : Dev → Dev} (v : Word) (on : s.dev.chip.state ≠ .off)
    (fits : a < 2 ^ 32) (acc : s.dev.Accepts m a) (e : s.writeReg m a v = s.onDev g) :
    exec (.registerWrite m (.reg (BitVec.ofNat 32 a)) 15 v) s = .next (s.done g) := by
  have offset : (BitVec.ofNat 32 a).toNat = a := Nat.mod_eq_of_lt fits
  have effect : s.registerWrite m (.reg (BitVec.ofNat 32 a)) 15 v = s.onDev g := by
    simp only [State.registerWrite, offset, State.writeAccess_of v acc, e]
  show s.run (·.registerWrite m (.reg (BitVec.ofNat 32 a)) 15 v) = _
  exact State.run_did on effect

/-- Settles O19: every operation of LDR_CMD begins with the loader's check for BUSY and ACTIVE, which the note of a register
write leaves as it is. -/
theorem busyLoaderIgnores : Obligations.BusyLoaderIgnores := by
  intro s on m acc h
  have busy : s.dev.ldrBusy = true := Dev.ldrBusy_iff.mpr h
  refine ⟨?verifyA, ?verifyB, ?advanceSvn, fun k => ?revokeSlot, fun v => ?registerWrite⟩
  case verifyA => exact State.runCommand_done on acc rfl (Dev.verifyCopy_of_busy .a busy)
  case verifyB => exact State.runCommand_done on acc rfl (Dev.verifyCopy_of_busy .b busy)
  case advanceSvn => exact State.runCommand_did on acc rfl (advanceSvn_of_busy busy)
  case revokeSlot => exact State.runCommand_did on acc rfl (revokeSlot_of_busy k busy)
  case registerWrite =>
    refine exec_registerWrite_done v on (by decide) acc ?_
    rw [State.writeReg_ldrCmd, State.loaderCommand_of_busy v (by simpa using busy)]
    rfl

end Sys2Proof.Machine
end

section
/-! Failed starts (R573, R574): a failure is told, counted for its kind of start, and escalated at the third of that kind. -/

namespace Sys2Proof.Machine

/-! ## What the telling of a failure leaves unchanged -/

/-- A log entry counts at most a dropped one: every register beside LOG_DROPPED, and the cell it may carry into, keeps its word. -/
theorem Dev.rd_logEntry_ne (d : Dev) {a : Nat} (code region block data : Nat) (h : a ≠ R.LOG_DROPPED) (h' : a ≠ R.LOG_DROPPED + 4) :
    (d.logEntry code region block data).rd a = d.rd a := by
  unfold Dev.logEntry
  split
  case isTrue => rfl
  case isFalse => exact Dev.rd_bump_ne d 1 h h'

/-- The device once STR_CAUSE and the log tell of a failed start (R573). -/
def Dev.failTold (d : Dev) (warm : Bool) (step cause : Nat) : Dev :=
  (((d.fset R.STR_CAUSE R.STR_CAUSE.FAIL_CAUSE cause).fset R.STR_CAUSE R.STR_CAUSE.FAIL_KIND (b2n warm)).fset R.STR_CAUSE
    R.STR_CAUSE.FAIL_STEP step).logChip 0x0014 (cause + 256 * step)

/-- Telling of a failure leaves STR_STAT, and so the counts of failed starts, as it was. -/
theorem Dev.failTold_strStat (d : Dev) (warm : Bool) (step cause : Nat) (f : Fld) :
    (d.failTold warm step cause).fget R.STR_STAT f = d.fget R.STR_STAT f := by
  have apart : R.STR_STAT ≠ R.STR_CAUSE := by decide
  have logged : ∀ e : Dev, (e.logChip 0x0014 (cause + 256 * step)).fget R.STR_STAT f = e.fget R.STR_STAT f := fun e =>
    congrArg f.get (Dev.rd_logEntry_ne e _ _ _ _ (by decide) (by decide))
  rw [Dev.failTold, logged, Dev.fget_fset_ne _ _ _ _ apart, Dev.fget_fset_ne _ _ _ _ apart, Dev.fget_fset_ne _ _ _ _ apart]

/-! ## What follows a failed start of each kind -/

/-- A failed warm start: another follows while the count, with this failure, is below 3, else a cold one with the count cleared. -/
theorem failStart_warm (s : State) (step cause : Nat) : failStart s true step cause =
    let count := s.dev.fget R.STR_STAT R.STR_STAT.WARM_FAILS + 1
    let d := (s.dev.failTold true step cause).fset R.STR_STAT R.STR_STAT.WARM_FAILS count
    if count < 3 then warmStart { s with dev := d } 10 d.start.clearCustody
    else coldStart { s with dev := d.fset R.STR_STAT R.STR_STAT.WARM_FAILS 0 } 6 1 := by
  simp only [← Dev.failTold_strStat s.dev true step cause, failStart, Dev.failTold, if_true]

/-- A failed cold start: another follows while the count, with this failure, is below 3, else the built-in recovery image. -/
theorem failStart_cold (s : State) (step cause : Nat) : failStart s false step cause =
    let count := s.dev.fget R.STR_STAT R.STR_STAT.COLD_FAILS + 1
    let d := (s.dev.failTold false step cause).fset R.STR_STAT R.STR_STAT.COLD_FAILS count
    if count < 3 then coldStart { s with dev := d } 10 1 else recoveryImage { s with dev := d } := by
  simp only [← Dev.failTold_strStat s.dev false step cause, failStart, Dev.failTold, Bool.false_eq_true, if_false]

/-! ## The start limit -/

/-- The limit that passes in a START state fails the start in progress with cause 3, of the kind the state says. -/
theorem startTimeout_of_starting {s : State} (due : s.dev.due ⟨.startLimit, 0, 0⟩ = true) (starting : s.dev.chip.state.starting = true) :
    startTimeout s = failStart s (s.dev.chip.state == .startWarm) s.dev.failStep 3 := by
  simp only [startTimeout, startFail, due, starting, if_true]

theorem exec_startTimeout_of_starting {s : State} {warm : Bool} (due : s.dev.due ⟨.startLimit, 0, 0⟩ = true)
    (starting : s.dev.chip.state.starting = true) (kind : (s.dev.chip.state == .startWarm) = warm) :
    exec .startTimeout s = .next (s.did fun s => failStart s warm s.dev.failStep 3) := by
  have on : s.dev.chip.state ≠ .off := fun off => by simp [off, ChipState.starting] at starting
  show s.run startTimeout = _
  exact State.run_did on (by rw [startTimeout_of_starting due starting, kind])

/-- Settles O56: the count that decides is the one before the failure and 1, as telling of the failure leaves STR_STAT as it was. -/
theorem failedStarts : Obligations.FailedStarts := by
  intro s step cause
  refine ⟨fun few => ?warmAgain, fun many => ?warmToCold, fun few => ?coldAgain, fun many => ?coldToRecovery, fun due st => ?warmTimeout,
    fun due st => ?coldTimeout⟩
  case warmAgain => exact (failStart_warm s step cause).trans (if_pos few)
  case warmToCold => exact (failStart_warm s step cause).trans (if_neg (Nat.not_lt.mpr many))
  case coldAgain => exact (failStart_cold s step cause).trans (if_pos few)
  case coldToRecovery => exact (failStart_cold s step cause).trans (if_neg (Nat.not_lt.mpr many))
  case warmTimeout => exact exec_startTimeout_of_starting due (by rw [st]; rfl) (by rw [st]; rfl)
  case coldTimeout => exact exec_startTimeout_of_starting due (by rw [st]; rfl) (by rw [st]; rfl)

end Sys2Proof.Machine
end

section
/-! The second window and the reserved halves (R636): what the position of an offset alone says of the register it reaches. -/

namespace Sys2Proof.Machine

/-- The offset at which the map is read: one of the second window stands for its place in region 3's range, any other for itself. -/
def windowed (off : Nat) : Nat := if 0x800000 ≤ off ∧ off < 0x1000000 then off - 0x800000 + 0x4000000 else off

theorem windowed_window {y : Nat} (low : y < 0x800000) : windowed (0x800000 + y) = 0x4000000 + y := by
  have inWindow : 0x800000 ≤ 0x800000 + y ∧ 0x800000 + y < 0x1000000 := by omega
  rw [windowed, if_pos inWindow, Nat.add_sub_cancel_left, Nat.add_comm]

theorem windowed_region {off : Nat} (above : 0x1000000 ≤ off) : windowed off = off :=
  if_neg fun inWindow => Nat.not_lt.mpr above inWindow.2

/-- An offset reaches its register through its windowed place alone. -/
theorem decodeOffset_congr {a b : Nat} (same : windowed a = windowed b) : decodeOffset a = decodeOffset b := by
  simp only [windowed] at same
  simp only [decodeOffset, same]

/-- The map of a region ends with its page 10 (Table 16-3). -/
theorem decodeOffset_pastPages {off : Nat} (above : 0x1000000 ≤ off) (past : 10 < off / 0x10000 % 0x100) : decodeOffset off = none := by
  have own := windowed_region above
  simp only [windowed] at own
  have notChip : ¬ off < 0x100000 := by omega
  have noPage : ¬ (0x1000000 ≤ off ∧ off < 0x5000000 ∧ off / 0x10000 % 0x100 ≤ 10) := fun h => Nat.not_le.mpr past h.2.2
  simp only [decodeOffset, own, if_neg notChip, if_neg noPage]

/-- Settles O8: both windows have one windowed place, and the upper half of a region's range holds its pages 0x80 to 0xFF,
which lie past the last page of the map. -/
theorem offsetsReach : Obligations.OffsetsReach := by
  refine ⟨fun y low => ?window, fun r y upper inRange => ?reserved⟩
  case window => exact decodeOffset_congr ((windowed_window low).trans (windowed_region (by omega)).symm)
  case reserved => exact decodeOffset_pastPages (by omega) (by omega)

end Sys2Proof.Machine
end

section
/-! What the flash holds (R72, R579, R580, R663): the operations that change it are few, and the others, the indirect pair's and
the fuses' among them, leave it as it was. -/

open Sys2Proof Sys2Proof.Machine

namespace Sys2Proof.Machine

theorem State.flash_of_nv {s t : State} (h : t.nv = s.nv) : t.flash = s.flash := congrArg (·.2.1) h

@[simp] theorem advanceSvn_flash (s : State) : (advanceSvn s).flash = s.flash := by
  unfold advanceSvn; dsimp only; split
  · rfl
  · split <;> rfl

@[simp] theorem revokeSlot_flash (s : State) (k : Nat) : (revokeSlot s k).flash = s.flash := by
  unfold revokeSlot; dsimp only; split
  · rfl
  · split <;> rfl

@[simp] theorem State.blow_flash (s : State) (k : Nat) : (s.blow k).flash = s.flash := rfl

@[simp] theorem State.prefetch_flash (s : State) (m : Nat) : (s.prefetch m).flash = s.flash := flash_of_nv (prefetch_nv s m)

@[simp] theorem State.indAdvance_flash (s : State) (m : Nat) : (s.indAdvance m).flash = s.flash := rfl

/-- A write of IND_DATA that is taken waits for its space to perform it; BLOW alone acts at once, on the fuses. -/
@[simp] theorem State.indWrite_flash (s : State) (m : Nat) (v : Word) (aux : Bool) : (s.indWrite m v aux).flash = s.flash := by
  unfold State.indWrite; dsimp only; split
  · simp
  · split
    · simp
    · split
      · rfl
      · split <;> rfl

@[simp] theorem State.indPerform_flash (s : State) (m : Nat) (a : IndAccess) : (s.indPerform m a).flash = s.flash := by
  cases a with
  | ctl v => rfl
  | addr v => exact State.prefetch_flash _ m
  | write v => exact State.indWrite_flash _ m v _
  | read reply => exact State.flash_of_nv (s.indRead_nv m)

@[simp] theorem State.indServe_flash (s : State) (m k : Nat) : (s.indServe m k).flash = s.flash := by
  induction k generalizing s with
  | zero => rfl
  | succ k ih =>
    unfold State.indServe; dsimp only; split
    · rfl
    · split
      · rfl
      · rw [ih, State.indPerform_flash]

@[simp] theorem State.indAccess_flash (s : State) (m : Nat) (a : IndAccess) : (s.indAccess m a).flash = s.flash := by
  unfold State.indAccess; dsimp only; split
  · exact s.indPerform_flash m a
  · rfl

@[simp] theorem State.indFree_flash (s : State) (m : Nat) : (s.indFree m).flash = s.flash := s.indServe_flash m _

@[simp] theorem State.fetched_flash (s : State) (m : Nat) (v : Word) : (s.fetched m v).flash = s.flash := State.indFree_flash _ m

@[simp] theorem State.indWritten_flash (s : State) (m : Nat) : (s.indWritten m).flash = s.flash := by simp [State.indWritten]

@[simp] theorem State.spaceWrite_flash (s : State) (c n a : Nat) (v : Word) : (s.spaceWrite c n a v).flash = s.flash :=
  flash_of_nv (spaceWrite_nv s c n a v)

@[simp] theorem State.fetchWord_flash (s : State) (c n a : Nat) : (s.fetchWord c n a).2.flash = s.flash :=
  flash_of_nv (fetchWord_nv s c n a)

@[simp] theorem State.prefetchComplete_flash (s : State) (m : Nat) : (s.prefetchComplete m).flash = s.flash := by
  unfold State.prefetchComplete; dsimp only; split
  · split
    · rfl
    · simp
  · split
    · rfl
    · split
      · split <;> simp
      · simp

@[simp] theorem State.flashEnded_flash (s : State) (o : FlashOp) : (s.flashEnded o).flash = s.flash := by
  unfold State.flashEnded; dsimp only; split <;> simp

/-- The start of a flash operation notes it as started, or drops one that falls in the running copy (R72). -/
@[simp] theorem State.flashStarts_flash (s : State) : s.flashStarts.flash = s.flash := by
  have started : (flashStart s).1.flash = s.flash := by
    unfold flashStart; dsimp only; repeat' first | rfl | split
  unfold State.flashStarts; dsimp only; split
  · rw [State.flashEnded_flash, started]
  · exact started

@[simp] theorem State.siloDelivered_flash (s : State) (n b : Nat) (v : Option Nat) : (s.siloDelivered n b v).flash = s.flash := by
  unfold State.siloDelivered
  generalize s.dev.ind.map (·.1) = l
  induction l generalizing s with
  | nil => rfl
  | cons m l ih => rw [List.foldl_cons, ih]; dsimp only; split <;> simp

@[simp] theorem State.siloNews_flash (s : State) : s.siloNews.flash = s.flash := by
  have each (l : List OutEvent) (s : State) :
      (l.foldl (fun s e => match e with | .silo n b v => s.siloDelivered n b v | _ => s) s).flash = s.flash := by
    induction l generalizing s with
    | nil => rfl
    | cons e l ih => rw [List.foldl_cons, ih]; split <;> simp
  exact each _ _

@[simp] theorem State.settle_flash (s : State) (b : Bool) : (s.settle b).flash = s.flash := by simp [State.settle]

/-! ## Writes and reads of registers -/

@[simp] theorem State.indPageWrite_flash (s : State) (m w : Nat) (v : Word) : (s.indPageWrite m w v).flash = s.flash := by
  unfold State.indPageWrite; repeat' first | rfl | exact State.indAccess_flash _ _ _ | split

theorem State.loaderCommand_flash (s : State) (v : Word) : (s.loaderCommand v).flash = s.flash := by
  unfold State.loaderCommand; split <;> simp

theorem strCommand_flash (s : State) (v : Word) : (strCommand s v).flash = s.flash :=
  State.flash_of_nv (by simp [strCommand])

/-- A choice between two commands of a register, or between one and none, leaves the flash when both do. -/
theorem ite_getD_flash {s e : State} {p : Prop} [Decidable p] {x y : Option State} (hx : p → (x.getD e).flash = s.flash)
    (hy : ¬p → (y.getD e).flash = s.flash) : ((if p then x else y).getD e).flash = s.flash := by
  split
  · exact hx ‹_›
  · exact hy ‹_›

/-- Of the command registers of the chip, CAL_CMD alone reaches the flash. -/
theorem State.chipCommand_flash (s : State) {a : Nat} (v : Word) {e : State} (other : a ≠ R.CAL_CMD) (he : e.flash = s.flash) :
    ((s.chipCommand a v).getD e).flash = s.flash := by
  unfold State.chipCommand
  refine ite_getD_flash (fun _ => s.loaderCommand_flash v) fun _ => ?_
  refine ite_getD_flash (fun _ => ite_getD_flash (fun _ => rfl) fun _ => he) fun _ => ?_
  refine ite_getD_flash (fun _ => rfl) fun _ => ite_getD_flash (fun _ => rfl) fun _ => ?_
  refine ite_getD_flash (fun _ => strCommand_flash s v) fun _ => ite_getD_flash (fun cal => absurd cal other) fun _ => ?_
  iterate 6 refine ite_getD_flash (fun _ => rfl) fun _ => ?_
  exact he

theorem State.regionCommand_flash (s : State) (n a : Nat) (v : Word) {e : State} (he : e.flash = s.flash) :
    ((s.regionCommand n a v).getD e).flash = s.flash := by
  have none_ : ((none : Option State).getD e).flash = s.flash := he
  unfold State.regionCommand
  refine ite_getD_flash (fun _ => rfl) fun _ => ite_getD_flash (fun _ => ?ports) fun _ => ite_getD_flash (fun _ => ?tables) fun _ => ?others
  case ports => exact ite_getD_flash (fun _ => rfl) fun _ => ite_getD_flash (fun _ => rfl) fun _ => none_
  case tables =>
    iterate 4 refine ite_getD_flash (fun _ => rfl) fun _ => ?_
    cases placeOf a (R.TBL_CMD n 0) 64 4 with
    | none => exact he
    | some c => rfl
  case others =>
    iterate 5 refine ite_getD_flash (fun _ => rfl) fun _ => ?_
    exact none_

theorem State.writeNow_flash (s : State) (m : Master) {a : Nat} (v : Word) (other : a ≠ R.CAL_CMD) :
    (s.writeNow m a v).flash = s.flash := by
  unfold State.writeNow
  split
  · exact State.indPageWrite_flash _ _ _ _
  · split
    · rfl
    · split
      · exact s.chipCommand_flash v other rfl
      · exact s.regionCommand_flash _ a v rfl

theorem State.writeReg_flash (s : State) (m : Master) {a : Nat} (v : Word) (other : a ≠ R.CAL_CMD) :
    (s.writeReg m a v).flash = s.flash := by
  unfold State.writeReg; dsimp only; split
  · exact s.writeNow_flash m v other
  · split
    · split <;> simp [State.writeNow_flash _ _ _ other]
    · simp [State.writeNow_flash _ _ _ other]

theorem Dev.judgeWrite_reaches {d : Dev} {m : Master} {off be a : Nat} (h : (d.judgeWrite m off be).2 = some a) :
    decodeOffset off = some a := by
  unfold Dev.judgeWrite at h
  repeat' first | cases h | split at h
  all_goals assumption

theorem State.writeAccess_flash (s : State) (m : Master) {off : Nat} (be : Nat) (v : Word) (other : decodeOffset off ≠ some R.CAL_CMD) :
    (s.writeAccess m off be v).flash = s.flash := by
  unfold State.writeAccess; dsimp only; split
  · rfl
  · next a h => exact State.writeReg_flash _ m v fun e => other (e ▸ Dev.judgeWrite_reaches h)

@[simp] theorem State.readReg_flash (s : State) (m : Master) (a : Nat) (reply : Option (Nat × Nat × Nat)) :
    (s.readReg m a reply).2.flash = s.flash := by
  unfold State.readReg; dsimp only; split
  · split
    · split
      · exact s.indAccess_flash _ _
      · exact State.flash_of_nv (s.indRead_nv _)
    · rfl
  · repeat' first | rfl | split

@[simp] theorem State.readAccess_flash (s : State) (m : Master) (off : Nat) (reply : Option (Nat × Nat × Nat)) :
    (s.readAccess m off reply).2.flash = s.flash := by
  unfold State.readAccess; repeat' first | rfl | exact State.readReg_flash _ _ _ _ | split

@[simp] theorem State.hostRead_flash (s : State) (m : Master) (off : Nat) : (s.hostRead m off).flash = s.flash := by
  unfold State.hostRead; dsimp only; split <;> simp

@[simp] theorem State.targetRead_flash (s : State) (m : Master) (t : RegTarget) : (s.targetRead m t).flash = s.flash := by
  cases t with
  | reg off => exact s.hostRead_flash m off.toNat
  | inst h i off => rfl

theorem State.command_flash (s : State) (m : Master) (a : Nat) (g : LiveGroup) {act : State → State} (h : ∀ s, (act s).flash = s.flash) :
    (s.command m a g act).flash = s.flash := by
  unfold State.command; dsimp only; split
  · rfl
  · split
    · exact h _
    · rfl

theorem State.fuseBlow_flash (s : State) (m : Master) (k : Nat) (aux : Bool) : (s.fuseBlow m k aux).flash = s.flash := by
  unfold State.fuseBlow; dsimp only; repeat' first | rfl | exact State.indAccess_flash _ _ _ | exact State.indWrite_flash _ _ _ _ | split

theorem State.atWindow_flash (s : State) (e t a : Nat) {k : Nat → Nat → State} (h : ∀ p off, (k p off).flash = s.flash) :
    (s.atWindow e t a k).flash = s.flash := by
  unfold State.atWindow; split
  · rfl
  · split
    · rfl
    · exact h _ _

theorem State.rdx_flash (s : State) (e t : Nat) : (s.rdx e t).flash = s.flash := by
  unfold State.rdx; split
  · rfl
  · dsimp only
    rw [State.atWindow_flash]
    intro p off; split
    · rfl
    · split <;> simp

theorem State.registerArrives_flash (s : State) (src dst : Nat) (k : FloorBody → Option Word) {serve : FloorMsg → State → State}
    (h : ∀ m s, (serve m s).flash = s.flash) : (s.registerArrives src dst k serve).flash = s.flash := by
  unfold State.registerArrives; dsimp only; repeat' first | rfl | exact h _ _ | split

theorem State.regrArrival_flash (s : State) (src dst : Nat) : (s.regrArrival src dst).flash = s.flash := by
  refine s.registerArrives_flash src dst _ fun m s => ?_
  dsimp only; split
  · split <;> simp
  · rfl

end Sys2Proof.Machine
end

section
/-! What a command may do: its own effect, which the end of the command settles, and what that does to fuses and flash. -/

open Sys2Proof Sys2Proof.Machine

namespace Sys2Proof.Machine

/-- `act` is what command c does before it settles; it keeps what no loss of supply clears, and the flash unless c is one of the
commands that change it. -/
structure EffectOf (c : Instr) (act : State → State) : Prop where
  runs : ∀ s : State, exec c s = s.run act
  keeps : ∀ s : State, s.Keeps (act s)
  flash : c.changesFlash = false → ∀ s, (act s).flash = s.flash

theorem EffectOf.onDev {c : Instr} {act : Dev → Dev} (runs : ∀ s : State, exec c s = s.runDev act) : EffectOf c fun s => s.onDev act :=
  ⟨runs, fun _ => .of_nv rfl, fun _ _ => rfl⟩

theorem EffectOf.ofNv {c : Instr} {act : State → State} (runs : ∀ s : State, exec c s = s.run act) (nv : ∀ s : State, (act s).nv = s.nv) :
    EffectOf c act := ⟨runs, fun s => .of_nv (nv s), fun _ s => State.flash_of_nv (nv s)⟩

theorem EffectOf.ofCommand {c : Instr} {m : Master} {a : Nat} {g : LiveGroup} {act : State → State}
    (runs : ∀ s : State, exec c s = s.run fun s => s.command m a g act) (keeps : ∀ s : State, s.Keeps (act s))
    (flash : c.changesFlash = false → ∀ s, (act s).flash = s.flash) : EffectOf c fun s => s.command m a g act :=
  ⟨runs, fun s => s.command_keeps m a g act keeps, fun h s => s.command_flash m a g (flash h)⟩

theorem EffectOf.onDevCommand {c : Instr} {m : Master} {a : Nat} {g : LiveGroup} {act : Dev → Dev}
    (runs : ∀ s : State, exec c s = s.run fun s => s.command m a g fun s => s.onDev act) :
    EffectOf c fun s => s.command m a g fun s => s.onDev act :=
  .ofCommand runs (fun s => .of_nv (s.nv_onDev act)) fun _ s => s.onDev_flash act

theorem EffectOf.ofWrite {c : Instr} {m : Master} {off : Nat} {v : Word} (runs : ∀ s : State, exec c s = s.run fun s => s.writeAccess m off 15 v)
    (other : decodeOffset off ≠ some R.CAL_CMD) : EffectOf c fun s => s.writeAccess m off 15 v :=
  ⟨runs, fun s => s.writeAccess_keeps m off 15 v, fun _ s => s.writeAccess_flash m 15 v other⟩

theorem EffectOf.ofRead {c : Instr} {m : Master} {off : Nat} (runs : ∀ s : State, exec c s = s.run fun s => s.hostRead m off) :
    EffectOf c fun s => s.hostRead m off := ⟨runs, fun s => s.hostRead_keeps m off, fun _ s => s.hostRead_flash m off⟩

theorem EffectOf.ofTarget {c : Instr} {m : Master} {t : RegTarget} (runs : ∀ s : State, exec c s = s.run fun s => s.targetRead m t) :
    EffectOf c fun s => s.targetRead m t := ⟨runs, fun s => s.targetRead_keeps m t, fun _ s => s.targetRead_flash m t⟩

/-- Every command but POWER_ON has an effect of its own: most change the device alone, by themselves or by way of the register whose
write they are. -/
theorem exec_effect (c : Instr) (notOn : c ≠ .powerOn) : ∃ act, EffectOf c act := by
  cases c with
  | powerOn => exact absurd rfl notOn
  | registerWrite m t be v => exact ⟨_, fun _ => rfl, fun s => s.registerWrite_keeps m t be.toNat v, nofun⟩
  | wrx c t => exact ⟨_, fun _ => rfl, fun s => s.wrx_keeps (coreNo c) t, nofun⟩
  | regwArrival src dst => exact ⟨_, fun _ => rfl, fun s => s.regwArrival_keeps src dst, nofun⟩
  | flashOperationComplete => exact ⟨_, fun _ => rfl, fun s => s.flashCompletes_keeps, nofun⟩
  | calSaveComplete good => exact ⟨_, fun _ => rfl, fun s => calSaveComplete_keeps s good, nofun⟩
  | calRestoreFactory m => exact ⟨_, .ofCommand (fun _ => rfl) calRestoreFactory_keeps nofun⟩
  | rdx c t => exact ⟨_, fun _ => rfl, fun s => s.rdx_keeps (coreNo c) t, fun _ s => s.rdx_flash (coreNo c) t⟩
  | regrArrival src dst => exact ⟨_, fun _ => rfl, fun s => s.regrArrival_keeps src dst, fun _ s => s.regrArrival_flash src dst⟩
  | flashOperationStart => exact ⟨_, fun _ => rfl, fun s => s.flashStarts_keeps, fun _ s => s.flashStarts_flash⟩
  | fuseBlow m k aux => exact ⟨_, fun _ => rfl, fun s => s.fuseBlow_keeps m k aux, fun _ s => s.fuseBlow_flash m k aux⟩
  | indPrefetchComplete m =>
    exact ⟨_, fun _ => rfl, fun s => s.prefetchComplete_keeps (masterId m), fun _ s => s.prefetchComplete_flash (masterId m)⟩
  | indWaitTimeout m => exact ⟨_, .ofNv (fun _ => rfl) fun s => s.waitTimeout_nv (masterId m)⟩
  | advanceSvn m => exact ⟨_, .ofCommand (fun _ => rfl) advanceSvn_keeps fun _ => advanceSvn_flash⟩
  | revokeSlot m k => exact ⟨_, .ofCommand (fun _ => rfl) (fun s => revokeSlot_keeps s k) fun _ s => revokeSlot_flash s k⟩
  | strCmdCold m => exact ⟨_, .ofCommand (fun _ => rfl) (fun s => .of_nv (strCmdCold_nv s)) fun _ s => State.flash_of_nv (strCmdCold_nv s)⟩
  | strCmdWarm m => exact ⟨_, .ofCommand (fun _ => rfl) (fun s => .of_nv (strCmdWarm_nv s)) fun _ s => State.flash_of_nv (strCmdWarm_nv s)⟩
  | calSave m => exact ⟨_, .ofCommand (fun _ => rfl) (fun s => .of_nv (calSave_nv s)) fun _ s => State.flash_of_nv (calSave_nv s)⟩
  | mainsEnable | supMboxInWrite | indCtlWrite | indAddrWrite | indDataWrite => exact ⟨_, .ofWrite (fun _ => rfl) (by decide)⟩
  | rcFieldRead | chainedCounterRead => exact ⟨_, .ofTarget fun _ => rfl⟩
  | tbNsRead | loftUsLoRead | indDataRead | supMboxInRead | supMboxOutRead => exact ⟨_, .ofRead fun _ => rfl⟩
  | imageCopyChecked c failed => exact ⟨_, .ofNv (fun _ => rfl) fun s => imageCopyChecked_nv s c failed⟩
  | verifyComplete failed => exact ⟨_, .ofNv (fun _ => rfl) fun s => State.nv_mk s _⟩
  | coldStart cause => exact ⟨_, .ofNv (fun _ => rfl) fun s => by simp⟩
  | warmStart cause => exact ⟨_, .ofNv (fun _ => rfl) fun s => by simp⟩
  | resetNRise low => exact ⟨_, .ofNv (fun _ => rfl) fun s => resetRise_nv s low.toNat⟩
  | startStepComplete k u l => exact ⟨_, .ofNv (fun _ => rfl) fun s => startStepComplete_nv s k u l⟩
  | startTimeout => exact ⟨_, .ofNv (fun _ => rfl) startTimeout_nv⟩
  | heldExit => exact ⟨_, .ofNv (fun _ => rfl) heldExit_nv⟩
  | dumpComplete => exact ⟨_, .ofNv (fun _ => rfl) dumpComplete_nv⟩
  | dumpTimeout => exact ⟨_, .ofNv (fun _ => rfl) dumpTimeout_nv⟩
  | testExit => exact ⟨_, .ofNv (fun _ => rfl) testExit_nv⟩
  | schFlush m n p q => exact ⟨_, .ofNv (fun _ => rfl) fun s => s.spaceCommand_nv m 0x45 n _ (.rgn 5) _⟩
  | gateArm m p => exact ⟨_, .ofNv (fun _ => rfl) fun s => s.spaceCommand_nv m 0x45 _ _ (.rgn 6) _⟩
  | rgnRestartWarm | verifyA | verifyB | relayoutArm | mdioC22Write | mdioC22Read | mdioC45Address | mdioC45Write | mdioC45Read | mdioC45PostReadInc |
    i2cTransaction | i2cBusClearCmd | tbRateWrite | tbSet | tbStep | odoSet | capturePop | wnwWrite | wnwInsert | wnwDelete | wnwRemove | wnwBadop |
    tblInsert | tblUpdate | tblDelete | tblLookup | tblVlanWrite | tblGroupWrite | tblBadop | tblLrnPop | tblShadowAdj | tblGlnMismatchPop |
    grnHoldStart | grnHoldEnd | polWrite | polRead | polClear | polBadop | drcRequalify | tskFlush | supWdogKick | loftResyncAll | twnCmdYield |
    abdTxSend | dumpRelease | logPop | intEoi | snapTake | snapHold | snapRelease | uartRxPop | uartTxWrite =>
    exact ⟨_, .onDevCommand fun _ => rfl⟩
  | _ => exact ⟨_, .onDev fun _ => rfl⟩

theorem State.Keeps.queue {s t : State} (h : s.Keeps t) (l : List Instr) : s.Keeps { t with pending := l } := h.nv_right rfl

theorem State.Keeps.ofQueue {s t : State} {l : List Instr} (h : State.Keeps { s with pending := l } t) : s.Keeps t := h.nv_left rfl

theorem State.flash_queue {s t : State} (h : t.flash = s.flash) (l : List Instr) : State.flash { t with pending := l } = s.flash := h

theorem State.run_keeps {act : State → State} (h : ∀ s : State, s.Keeps (act s)) {s t : State} (e : s.run act = .next t) : s.Keeps t := by
  simp only [State.run, Host.Outcome.next.injEq] at e
  subst e
  split
  · exact .of_nv rfl
  · exact ((h s).trans (State.settle_keeps _ _)).queue _

theorem State.run_flash {act : State → State} (h : ∀ s, (act s).flash = s.flash) {s t : State} (e : s.run act = .next t) :
    t.flash = s.flash := by
  simp only [State.run, Host.Outcome.next.injEq] at e
  subst e
  split
  · rfl
  · exact State.flash_queue ((State.settle_flash _ _).trans (h s)) _

/-- POWER_ON starts the device, and settles as any command does. -/
theorem runPowerOn_next (s : State) : s.runPowerOn =
    .next (if s.dev.chip.state = .off then { (powerOn s).settle false with pending := s.pending } else s) := rfl

theorem State.powerOn_keeps {s t : State} (e : s.runPowerOn = .next t) : s.Keeps t := by
  simp only [runPowerOn_next, Host.Outcome.next.injEq] at e
  subst e
  split
  · exact (State.Keeps.nv_left (State.settle_keeps _ _) (powerOn_nv s)).queue _
  · exact .of_nv rfl

theorem State.powerOn_flash {s t : State} (e : s.runPowerOn = .next t) : t.flash = s.flash := by
  simp only [runPowerOn_next, Host.Outcome.next.injEq] at e
  subst e
  split
  · exact State.flash_queue ((State.settle_flash _ _).trans (State.flash_of_nv (powerOn_nv s))) _
  · rfl

theorem exec_keeps {c : Instr} {s t : State} (e : exec c s = .next t) : s.Keeps t := by
  by_cases on : c = .powerOn
  · subst on; exact State.powerOn_keeps e
  · obtain ⟨act, effect⟩ := exec_effect c on
    exact State.run_keeps effect.keeps (effect.runs s ▸ e)

/-- One core clock keeps what no loss of supply clears. -/
theorem State.tick_keeps (s : State) : s.Keeps s.tick := by
  unfold State.tick; split
  · exact .of_nv rfl
  · dsimp only
    have ended : ∀ b, s.Keeps ((((s.onDev fun d => { d with out := [] }).clockEnd.onDev (·.tick)).settle b).onDev (·.newClock)) := fun b =>
      ((State.settle_keeps _ b).nv_left (by simp)).nv_right (State.nv_onDev _ _)
    exact (ended _).queue _

/-- Settles O5: a step runs a command, which keeps fuses and flash, or one core clock, which leaves them alone. -/
theorem stepKeepsFusesAndFlash : Obligations.StepKeepsFusesAndFlash := by
  intro s t canonical e
  have keeps : s.Keeps t := by
    unfold step at e
    split at e
    · simp only [Host.Outcome.next.injEq] at e
      exact e ▸ s.tick_keeps
    · exact (exec_keeps e).ofQueue
  obtain ⟨fuses, flash, sfdp⟩ := keeps
  exact ⟨fuses, flash canonical, sfdp⟩

/-- Settles O6: beside the six commands, the effect of a command leaves the flash as it was, and so does its end. -/
theorem flashChangesOnlyBy : Obligations.FlashChangesOnlyBy := by
  intro c s t other e
  by_cases on : c = .powerOn
  · subst on; exact State.powerOn_flash e
  · obtain ⟨act, effect⟩ := exec_effect c on
    exact State.run_flash (effect.flash other) (effect.runs s ▸ e)

/-- Settles O2: the end of a command puts the queue back, and a device that is OFF runs no effect. -/
theorem everyCommandRuns : Obligations.EveryCommandRuns := by
  intro c s
  by_cases on : c = .powerOn
  · subst on
    refine ⟨⟨_, runPowerOn_next s, ?queue⟩, fun _ notOn => absurd rfl notOn⟩
    case queue => split <;> rfl
  · obtain ⟨act, effect⟩ := exec_effect c on
    rw [effect.runs s]
    refine ⟨⟨_, rfl, ?queue⟩, fun off _ => ?off⟩
    case queue => split <;> rfl
    case off => exact congrArg _ (if_pos off)

end Sys2Proof.Machine
end

section
/-! Commands turned away (R93, R639, R646, R649, Table 6-2), steps and clocks (R6, R9), and fields under a software write (R19, R22). -/

open Sys2Proof Sys2Proof.Machine

namespace Sys2Proof.Machine

/-- A command that is the write of a register is judged as that write, and then acts. -/
theorem exec_commandRegister {c : Instr} {m : Master} {a : Nat} {g : LiveGroup} (h : c.commandRegister = some (m, a, g)) :
    ∃ act : State → State, ∀ s : State, exec c s = s.run fun s => s.command m a g act := by
  cases c with
  | rgnRestartWarm | verifyA | verifyB | advanceSvn | revokeSlot | relayoutArm | mdioC22Write | mdioC22Read | mdioC45Address | mdioC45Write |
    mdioC45Read | mdioC45PostReadInc | i2cTransaction | i2cBusClearCmd | tbRateWrite | tbSet | tbStep | odoSet | capturePop | wnwWrite | wnwInsert |
    wnwDelete | wnwRemove | wnwBadop | tblInsert | tblUpdate | tblDelete | tblLookup | tblVlanWrite | tblGroupWrite | tblBadop | tblLrnPop |
    tblShadowAdj | tblGlnMismatchPop | grnHoldStart | grnHoldEnd | polWrite | polRead | polClear | polBadop | drcRequalify | tskFlush | supWdogKick |
    loftResyncAll | twnCmdYield | abdTxSend | strCmdCold | strCmdWarm | calSave | calRestoreFactory | dumpRelease | logPop | intEoi | snapTake |
    snapHold | snapRelease | uartRxPop | uartTxWrite =>
    cases h; exact ⟨_, fun _ => rfl⟩
  | _ => cases h

theorem exec_namesAbsent {c : Instr} {s : State} (on : s.dev.chip.state ≠ .off) (h : c.namesAbsent = true) :
    exec c s = .next (s.done id) := by
  unfold Instr.namesAbsent at h
  split at h
  case h_18 | h_19 => exact State.source_absent (act := fun _ _ => _) on h
  case h_20 => cases h
  all_goals exact State.port_absent on h

/-- Settles O3: a register command first judges the write of its register and the register's live group. -/
theorem commandsTurnedAway : Obligations.CommandsTurnedAway := by
  intro c s on
  refine ⟨fun m a g reg refused => ?refused, fun m a g reg acc idle => ?guarded, exec_namesAbsent on⟩
  case refused =>
    obtain ⟨act, runs⟩ := exec_commandRegister reg
    exact (runs s).trans (State.command_refused on refused)
  case guarded =>
    obtain ⟨act, runs⟩ := exec_commandRegister reg
    exact (runs s).trans (State.command_guarded on acc idle)

/-- Settles O1: each part is the definition of a step, of the end of a clock, or of its beginning. -/
theorem stepRunsFront : Obligations.StepRunsFront := by
  refine ⟨fun s => ⟨fun c rest queue => ?front, fun empty off => ?off, fun empty on => ?clock⟩, fun s => rfl, fun d => rfl⟩
  case front => simp only [step, queue]
  case off => simp only [step, empty, State.tick, if_pos off]
  case clock =>
    have clock : step s = .next s.tick := by simp only [step, empty]
    exact clock.trans (congrArg Host.Outcome.next (if_neg on))

theorem Dev.getLsbD_hwWr (d : Dev) (a : Nat) (v : Word) {i : Nat} (low : i < 32) : ((d.hwWr a v).rd a).getLsbD i =
    if (maskAt d.clk.swSet a).testBit i then (d.rd a).getLsbD i else v.getLsbD i := by
  unfold Dev.hwWr
  rw [Dev.rd_wr_same]
  cases written : (maskAt d.clk.swSet a).testBit i <;>
    simp only [BitVec.getLsbD_or, BitVec.getLsbD_and, BitVec.getLsbD_not, BitVec.getLsbD_ofNat, low, written] <;> simp

/-- Settles O7: a plain write gives each field what its access says, and a change by hardware is masked by what software has written. -/
theorem fieldWrites : Obligations.FieldWrites := by
  refine ⟨fun d a r v row f mem => Dev.fget_plain d a r v row f mem, fun d a i v low => ?hardware⟩
  case hardware => exact Dev.getLsbD_hwWr d a v low

end Sys2Proof.Machine
end

section
/-! What reset leaves (R20, R180, R558, Table 14-1). -/

open Sys2Proof Sys2Proof.Machine

namespace Sys2Proof.Machine

/-- The word in which every field of a row holds its Cold value. -/
def RegDesc.coldBits (r : RegDesc) : Word :=
  BitVec.ofNat 32 (r.fields.foldl (fun acc f => acc + coldNum f.cold % 2 ^ f.fld.width * 2 ^ f.fld.lo) 0)

theorem coldWord_of {a : Nat} {r : RegDesc} (h : regAt a = some r) : coldWord a = r.coldBits := by
  simp only [coldWord, h, RegDesc.coldBits]

/-- Every row of the register maps, read field by field, gives its Cold entries back. -/
theorem allRegs_coldBits :
    allRegs.all (fun r => r.fields.all fun f => f.fld.get r.coldBits == coldNum f.cold % 2 ^ f.fld.width) = true := by
  decide +kernel

theorem get_coldWord {a : Nat} {r : RegDesc} {f : FieldDesc} (row : regAt a = some r) (mem : f ∈ r.fields) :
    f.fld.get (coldWord a) = coldNum f.cold % 2 ^ f.fld.width := by
  have fields := List.all_eq_true.mp allRegs_coldBits r (regAt_mem row)
  simpa [coldWord_of row] using List.all_eq_true.mp fields f mem

theorem Map.get_of_unlisted {α : Type} (dflt : Nat → α) {m : NMap α} {k : Nat} (h : ∀ x ∈ m, k ≠ x.1) : Map.get dflt m k = dflt k := by
  induction m with
  | nil => rfl
  | cons x m ih =>
    rw [Map.get, if_neg (h x List.mem_cons_self)]
    exact ih fun y hy => h y (List.mem_cons_of_mem x hy)

/-- The registers whose word at reset differs from their Cold value. -/
theorem reset_listed {x : Nat × Word} (h : x ∈ State.reset.dev.regs) :
    x.1 = R.CAL_STAT ∨ x.1 = R.STR_COLD_CNT ∨ (∃ k < 4, x.1 = R.RGN_STAT k) ∨ ∃ b < 16, x.1 = R.PB_STAT b := by
  have listed : x ∈ (R.CAL_STAT, 0x200#32) :: (R.STR_COLD_CNT, 1#32) :: initialRegs := h
  simp only [initialRegs, List.mem_cons, List.mem_flatMap, List.mem_map] at listed
  rcases listed with rfl | rfl | ⟨n, region, rfl | ⟨j, block, rfl⟩⟩
  · exact .inl rfl
  · exact .inr (.inl rfl)
  · exact .inr (.inr (.inl ⟨n, by simp at region; omega, rfl⟩))
  · exact .inr (.inr (.inr ⟨4 * n + j, by simp at region block; omega, rfl⟩))

/-- Settles O4: a register that reset does not list reads its Cold value, and the rest is the definition of the reset state. -/
theorem resetLeaves : Obligations.ResetLeaves := by
  refine ⟨rfl, rfl, rfl, rfl, rfl, rfl, rfl, rfl, rfl, rfl, rfl, rfl, rfl, ?flash, fun a r f n row mem cold cal count region block => ?field⟩
  case flash => exact ⟨List.Pairwise.nil, nofun⟩
  case field =>
    have unlisted : State.reset.dev.rd a = coldWord a := by
      refine Map.get_of_unlisted coldWord fun x listed same => ?_
      rcases reset_listed listed with e | e | ⟨k, low, e⟩ | ⟨b, low, e⟩
      · exact cal (same.trans e)
      · exact count (same.trans e)
      · exact region k low (same.trans e)
      · exact block b low (same.trans e)
    rw [Dev.fget, unlisted, get_coldWord row mem, cold]
    rfl

end Sys2Proof.Machine
end

section
/-! Errors (R9, R50, R52 to R54, R593 to R602): what handling one error of a clock comes to, and which of several comes first. -/

open Sys2Proof Sys2Proof.Machine

namespace Sys2Proof.Machine

/-! ## The errors of a clock, ranked -/

theorem Raised.rank_le (r : Raised) : r.rank ≤ 3 := by cases r <;> simp [Raised.rank]

/-- An error taken as the first of rank k outranks the others, where none ranks above k. -/
theorem find_rank_first {l : List Raised} {k : Nat} {r : Raised} (found : l.find? (fun r => r.rank == k) = some r)
    (top : ∀ x ∈ l, x.rank ≤ k) : r ∈ l ∧ ∀ x ∈ l, x.rank ≤ r.rank := by
  have rank : r.rank = k := by simpa using List.find?_some found
  exact ⟨List.mem_of_find?_eq_some found, rank ▸ top⟩

/-- With none of rank k, and none above it, every error ranks below it. -/
theorem rank_below {l : List Raised} {k : Nat} (missing : l.find? (fun r => r.rank == k + 1) = none) (top : ∀ x ∈ l, x.rank ≤ k + 1) :
    ∀ x ∈ l, x.rank ≤ k := by
  intro x mem
  have ne : x.rank ≠ k + 1 := by simpa using List.find?_eq_none.mp missing x mem
  have := top x mem
  omega

theorem nextRaised_first {l : List Raised} {r : Raised} (h : nextRaised l = some r) : r ∈ l ∧ ∀ x ∈ l, x.rank ≤ r.rank := by
  have top3 : ∀ x ∈ l, x.rank ≤ 3 := fun x _ => x.rank_le
  unfold nextRaised at h
  split at h
  next found => cases h; exact find_rank_first found top3
  next missing3 found => cases h; exact find_rank_first found (rank_below missing3 top3)
  next missing3 missing2 found => cases h; exact find_rank_first found (rank_below missing2 (rank_below missing3 top3))
  next missing3 missing2 missing1 =>
    have low : ∀ x ∈ l, x.rank ≤ 0 := rank_below missing1 (rank_below missing2 (rank_below missing3 top3))
    exact ⟨List.mem_of_head? h, fun x mem => Nat.le_trans (low x mem) (Nat.zero_le _)⟩

theorem nextRaised_none {l : List Raised} (h : nextRaised l = none) : l = [] := by
  unfold nextRaised at h
  split at h
  · cases h
  · cases h
  · cases h
  · exact List.head?_eq_none_iff.mp h

theorem yields_iff (l : List Raised) (r : Raised) :
    yields l r = true ↔ ∃ n k w cell addr, r = .corrected n k w ∧ .contained n k cell addr ∈ l := by
  cases r with
  | corrected n k w =>
    simp only [yields, List.any_eq_true, Raised.corrected.injEq]
    constructor
    · rintro ⟨x, mem, same⟩
      cases x with
      | contained m j cell addr =>
        simp only [Bool.and_eq_true, beq_iff_eq] at same
        obtain ⟨rfl, rfl⟩ := same
        exact ⟨m, j, w, cell, addr, ⟨rfl, rfl, rfl⟩, mem⟩
      | corrected | regionFatal | chipFatal => cases same
    · rintro ⟨n', k', w', cell, addr, ⟨rfl, rfl, rfl⟩, mem⟩
      exact ⟨_, mem, by simp⟩
  | contained | regionFatal | chipFatal => exact ⟨nofun, fun ⟨_, _, _, _, _, h, _⟩ => nomatch h⟩

/-! ## One error handled -/

section
variable {s : State} {n : Fin 4} {k : Fin 10} {cell addr : BitVec 16} {e : Dev → Dev}
  (on : s.dev.chip.state ≠ .off) (quiet : s.dev.raised = [])
include on quiet

theorem containedRestartStart_does (h : s.dev.containedError n k cell.toNat addr.toNat = e s.dev) :
    exec (.containedRestartStart n k cell addr) s = .next (s.done fun d => d.raise (.contained n k cell.toNat addr.toNat))
      ∧ (s.onDev fun d => d.raise (.contained n k cell.toNat addr.toNat)).handleErrors = s.handled fun s => s.onDev e :=
  ⟨State.runDev_done on rfl, State.raise_handled quiet (congrArg (fun d => { s with dev := d }) h)⟩

theorem regionRestartStart_does (h : s.dev.regionFatal n cell.toNat addr.toNat = e s.dev) :
    exec (.regionRestartStart n cell addr) s = .next (s.done fun d => d.raise (.regionFatal n cell.toNat addr.toNat))
      ∧ (s.onDev fun d => d.raise (.regionFatal n cell.toNat addr.toNat)).handleErrors = s.handled fun s => s.onDev e :=
  ⟨State.runDev_done on rfl, State.raise_handled quiet (congrArg (fun d => { s with dev := d }) h)⟩

theorem chipFatalError_does {cause : Fin 9} {unit addr : Word} {act : State → State}
    (h : chipFatal s cause unit.toNat addr.toNat = act s) :
    exec (.chipFatalError cause unit addr) s = .next (s.done fun d => d.raise (.chipFatal cause unit.toNat addr.toNat))
      ∧ (s.onDev fun d => d.raise (.chipFatal cause unit.toNat addr.toNat)).handleErrors = s.handled act :=
  ⟨State.runDev_done on rfl, State.raise_handled quiet h⟩

end

/-- Counting and logging a contained error leaves what restarts as it was. -/
theorem Dev.blockInRestart_logged (d : Dev) (n : Fin 4) (k code data : Nat) :
    ((d.bump R.ERR_CONTAINED).logEntry code n k data).blockInRestart n k = d.blockInRestart n k := by
  have word : ((d.bump R.ERR_CONTAINED).logEntry code n k data).rd (R.RGN_STAT n) = d.rd (R.RGN_STAT n) := by
    have apart : ∀ n : Fin 4, R.RGN_STAT n ≠ R.LOG_DROPPED ∧ R.RGN_STAT n ≠ R.LOG_DROPPED + 4 ∧ R.RGN_STAT n ≠ R.ERR_CONTAINED
      ∧ R.RGN_STAT n ≠ R.ERR_CONTAINED + 4 := by decide
    obtain ⟨a, b, c, e⟩ := apart n
    rw [Dev.rd_logEntry_ne _ _ _ _ _ a b, Dev.rd_bump_ne _ _ c e]
  simp only [Dev.blockInRestart, Dev.fget, word]

/-- Settles O13: each case is a branch of the handling of one error, of which the highest in rank comes first. -/
theorem errorsHandled : Obligations.ErrorsHandled := by
  refine ⟨fun s on quiet => ⟨fun n k cell addr => ?contained, fun n cell addr => ?region, fun cause unit addr => ?chip⟩,
    fun l => ⟨nextRaised_none, fun r => nextRaised_first⟩, yields_iff, fun s => rfl, fun s k r next => ?step⟩
  case contained =>
    refine ⟨fun higher => ?absorbed, fun awake runs => ⟨fun again => ?again, fun own third => ?escalated, fun own few => ?taken⟩⟩
    case absorbed => exact containedRestartStart_does on quiet (if_pos (by simpa using higher))
    case again =>
      refine containedRestartStart_does on quiet ?_
      simp only [Dev.containedError, awake, runs, again, Dev.containedBegin, Dev.blockInRestart_logged]
      rfl
    case escalated =>
      refine containedRestartStart_does on quiet ?_
      simp only [Dev.containedError, awake, runs, own, if_pos third]
      rfl
    case taken =>
      refine containedRestartStart_does on quiet ?_
      simp only [Dev.containedError, awake, runs, own, if_neg (Nat.not_le.mpr few)]
      rfl
  case region =>
    refine ⟨fun higher => ?absorbed, fun awake recurs => ?escalated, fun awake runs few => ?taken⟩
    case absorbed => exact regionRestartStart_does on quiet (if_pos higher)
    case escalated =>
      refine regionRestartStart_does on quiet ?_
      have recurs : (s.dev.restarting n || decide (2 ≤ s.dev.recent s.dev.err.regionFatal n (60000 * ms))) = true := by simpa using recurs
      simp only [Dev.regionFatal, awake, recurs]
      rfl
    case taken =>
      refine regionRestartStart_does on quiet ?_
      simp only [Dev.regionFatal, awake, runs, Nat.not_le.mpr few]
      rfl
  case chip =>
    refine ⟨fun held => ?held, fun free image => ?recovery, fun free image dump => ?cut, fun free image dump => ?taken⟩
    case held => exact chipFatalError_does on quiet (by simp only [chipFatal, held]; rfl)
    case recovery => exact chipFatalError_does on quiet (by simp only [chipFatal, on, free, image]; rfl)
    case cut => exact chipFatalError_does on quiet (by simp only [chipFatal, on, free, image, dump]; rfl)
    case taken => exact chipFatalError_does on quiet (by simp only [chipFatal, on, free, image, dump]; rfl)
  case step => simp only [State.handleRaised, next]

end Sys2Proof.Machine
end

section
/-! The commands of WNW_CMD and their steps (R233 to R242, R246, Tables 5-6 and 6-8). -/

open Sys2Proof Sys2Proof.Machine

namespace Sys2Proof.Machine

/-! ## A command begins -/

theorem Dev.startRule_busy {d : Dev} {n : Nat} (op addr : Nat) (busy : d.flag (R.WNW_CMD_STAT n) R.WNW_CMD_STAT.BUSY = true) :
    d.startRule n op addr = d.setFlag (R.WNW_CMD_STAT n) R.WNW_CMD_STAT.OVERRUN true := if_pos busy

theorem Dev.startRule_aborted {d : Dev} {n : Nat} (op addr : Nat) (idle : d.flag (R.WNW_CMD_STAT n) R.WNW_CMD_STAT.BUSY = false)
    (down : d.tablesUp n = false) : d.startRule n op addr = ((d.fset (R.WNW_CMD_STAT n) R.WNW_CMD_STAT.RESULT 6).fset (R.WNW_CMD_STAT n)
      R.WNW_CMD_STAT.MOVED 0).setFlag (R.WNW_CMD_STAT n) R.WNW_CMD_STAT.DONE true := by
  rw [Dev.startRule, idle, down]; rfl

/-- A command that starts has the result and the steps its plan gives. -/
theorem Dev.startRule_planned {d : Dev} {n op addr result : Nat} {steps : List WnwStep}
    (idle : d.flag (R.WNW_CMD_STAT n) R.WNW_CMD_STAT.BUSY = false) (up : d.tablesUp n = true)
    (plan : d.planRule n op addr (stagedPattern d n) = (result, steps)) : d.startRule n op addr = ruleBegun n op addr result steps d := by
  have plan' : d.planRule n op addr (bits (((List.range 4).map fun i => d.rd (R.WNW_CMD_DATA n i)).getD 0 0).toNat 16 14) = (result, steps) := plan
  simp only [Dev.startRule, idle, up, plan']
  rfl

section
variable {d : Dev} {n addr p : Nat}

theorem Dev.planRule_beyond (op : Nat) (h : d.ruleCapacity n ≤ addr) : d.planRule n op addr p = (1, []) := if_pos h

theorem Dev.planRule_badop {op : Nat} (inside : addr < d.ruleCapacity n) (h : op = 0 ∨ 4 < op) : d.planRule n op addr p = (5, []) := by
  rw [Dev.planRule, if_neg (Nat.not_le.mpr inside), if_pos h]

theorem Dev.planRule_write_elsewhere (inside : addr < d.ruleCapacity n) {a : Nat} (bound : d.boundAt n p = some a) (ne : a ≠ addr) :
    d.planRule n 1 addr p = (2, []) := by
  simp [Dev.planRule, Nat.not_le.mpr inside, bound, ne]

theorem Dev.planRule_write (inside : addr < d.ruleCapacity n) (own : ∀ a, d.boundAt n p = some a → a = addr) :
    d.planRule n 1 addr p = (0, updateSteps addr) := by
  cases bound : d.boundAt n p with
  | none => simp [Dev.planRule, Nat.not_le.mpr inside, bound]
  | some a => simp [Dev.planRule, Nat.not_le.mpr inside, bound, own a bound]

theorem Dev.planRule_insert_bound (inside : addr < d.ruleCapacity n) {a : Nat} (bound : d.boundAt n p = some a) :
    d.planRule n 2 addr p = (2, []) := by
  simp [Dev.planRule, Nat.not_le.mpr inside, bound]

theorem Dev.planRule_insert_free (inside : addr < d.ruleCapacity n) (bound : d.boundAt n p = none) (free : d.ruleFree n addr = true) :
    d.planRule n 2 addr p = (0, updateSteps addr) := by
  simp [Dev.planRule, Nat.not_le.mpr inside, bound, free]

theorem Dev.planRule_insert_full (inside : addr < d.ruleCapacity n) (bound : d.boundAt n p = none) (taken : d.ruleFree n addr = false)
    (full : d.firstFree n addr = none) : d.planRule n 2 addr p = (4, []) := by
  simp [Dev.planRule, Nat.not_le.mpr inside, bound, taken, full]

/-- An INSERT at an entry that is taken first moves the entries from it to the next free one up by one, the last first. -/
theorem Dev.planRule_insert_moves (inside : addr < d.ruleCapacity n) (bound : d.boundAt n p = none) (taken : d.ruleFree n addr = false)
    {f : Nat} (next : d.firstFree n addr = some f) : d.planRule n 2 addr p = (0, ((List.range (f - addr)).flatMap fun i =>
      [.copy (f - 1 - i) (f - i), .point (f - 1 - i) (f - i), .release (f - 1 - i), .settle (f - i)]) ++ updateSteps addr) := by
  simp [Dev.planRule, Nat.not_le.mpr inside, bound, taken, next, moveSteps, List.flatMap_map]

theorem Dev.planRule_free (inside : addr < d.ruleCapacity n) (free : d.ruleFree n addr = true) :
    d.planRule n 3 addr p = (3, []) ∧ d.planRule n 4 addr p = (3, []) := by
  simp [Dev.planRule, Nat.not_le.mpr inside, free]

theorem Dev.planRule_delete (inside : addr < d.ruleCapacity n) (taken : d.ruleFree n addr = false) :
    d.planRule n 3 addr p = (0, [.free addr]) := by
  simp [Dev.planRule, Nat.not_le.mpr inside, taken]

/-- A REMOVE moves the entries from the next one to the next free one down by one, the first first. -/
theorem Dev.planRule_remove (inside : addr < d.ruleCapacity n) (taken : d.ruleFree n addr = false) : d.planRule n 4 addr p = (0, .free addr ::
    (List.range ((d.firstFree n (addr + 1)).getD (d.ruleCapacity n) - (addr + 1))).flatMap fun i =>
      [.copy (addr + 1 + i) (addr + i), .point (addr + 1 + i) (addr + i), .release (addr + 1 + i), .settle (addr + i)]) := by
  simp [Dev.planRule, Nat.not_le.mpr inside, taken, moveSteps, List.flatMap_map]

end

/-- The commands of WNW_CMD are writes of it under region live group 3: where the write takes effect, all do the same of `startRule`. -/
theorem exec_wnw_of {s : State} {n : Fin 4} {m : Master} {addr : BitVec 14} {op : BitVec 4} {g : Dev → Dev} (on : s.dev.chip.state ≠ .off)
    (takes : s.dev.Takes m (R.WNW_CMD n) (.rgn 3)) (h : ∀ op addr, s.dev.startRule n op addr = g s.dev) :
    ∀ c ∈ [Instr.wnwWrite m n addr, .wnwInsert m n addr, .wnwDelete m n addr, .wnwRemove m n addr, .wnwBadop m n op],
      exec c s = .next (s.done g) := by
  have noMore : ∀ c ∈ ([] : List Instr), exec c s = .next (s.done g) := fun _ mem => absurd mem List.not_mem_nil
  simp only [List.forall_mem_cons]
  have write : ∀ op addr, s.run (fun s => s.command m (R.WNW_CMD n) (.rgn 3) fun s => s.onDev fun d => d.startRule n op addr)
      = .next (s.done g) := fun op addr => State.runTakes_done on takes (h op addr)
  exact ⟨write 1 addr.toNat, write 2 addr.toNat, write 3 addr.toNat, write 4 addr.toNat, write op.toNat 0, noMore⟩

/-! ## A step, and the end -/

/-- The pattern that a command leaves without an entry once a step of it has run (R237). -/
def WnwCmd.absentAfter (c : WnwCmd) (n : Nat) (st : WnwStep) (d : Dev) : Option Nat :=
  match st with
  | .invalidate a => if d.ruleValid n a && d.boundAt n (d.rulePattern n a) == some a then some (d.rulePattern n a) else none
  | .validate _ => none
  | _ => c.absent

/-- The entries that a command has moved once a step of it has run (R240). -/
def WnwCmd.movedAfter (c : WnwCmd) (st : WnwStep) : Nat :=
  match st with
  | .settle _ => c.moved + 1
  | _ => c.moved

theorem ite_and_beq {α β : Type} [BEq β] [LawfulBEq β] (b : Bool) (x y : β) (p q : α) [Decidable (b = true ∧ x = y)] :
    (if b && x == y then p else q) = if b = true ∧ x = y then p else q := by
  by_cases h : b = true ∧ x = y
  · rw [if_pos h, if_pos (by simpa using h)]
  · rw [if_neg h, if_neg (by simpa using h)]

theorem ruleStepped_after (n : Nat) (c : WnwCmd) (rest : List WnwStep) (st : WnwStep) (e d : Dev) :
    ruleStepped n c rest st.wait (c.movedAfter st) (c.absentAfter n st e) d = ruleStepped n c rest
      (match st with | .invalidate _ | .point _ _ => 9 | _ => 1)
      (match st with | .settle _ => c.moved + 1 | _ => c.moved)
      (match st with
        | .invalidate a => if e.ruleValid n a = true ∧ e.boundAt n (e.rulePattern n a) = some a then some (e.rulePattern n a) else none
        | .validate _ => none
        | _ => c.absent) d := by
  cases st with
  | invalidate a => exact congrArg (ruleStepped n c rest 9 c.moved · d) (ite_and_beq _ _ _ _ _)
  | write | validate | free | copy | point | release | settle => rfl

section
variable {d : Dev} {n : Nat} {c : WnwCmd} (cmd : (d.wnw n).cmd = some c) (due : c.notBefore ≤ d.now)
include cmd due

theorem Dev.wnwStep_unread (up : d.tablesUp n = true) {st : WnwStep} {rest : List WnwStep} (steps : c.steps = st :: rest)
    (bad : (d.touchAll n (st.reads n)).1 = false) : d.wnwStep n = (d.touchAll n (st.reads n)).2 := by
  simp [Dev.wnwStep, cmd, steps, Nat.not_lt.mpr due, up, bad]

theorem Dev.wnwStep_taken (up : d.tablesUp n = true) {st : WnwStep} {rest : List WnwStep} (steps : c.steps = st :: rest)
    (read : (d.touchAll n (st.reads n)).1 = true) : d.wnwStep n =
      let e := ruleTurn n st d
      ruleStepped n c rest st.wait (c.movedAfter st) (c.absentAfter n st e) ((e.ruleStep n c st).touchRule n st.entry) := by
  unfold Dev.wnwStep
  rw [cmd]
  dsimp only
  rw [steps]
  dsimp only
  rw [if_neg (by simp [Nat.not_lt.mpr due, up]), if_neg (by simp [read])]
  cases st <;> dsimp only [ruleStepped, ruleTurn, WnwStep.wait, WnwCmd.movedAfter, WnwCmd.absentAfter]

theorem Dev.wnwComplete_of (steps : c.steps = []) : d.wnwComplete n =
    let a := R.WNW_CMD_STAT n
    let e := (((d.setFlag a R.WNW_CMD_STAT.BUSY false).setFlag a R.WNW_CMD_STAT.DONE true).fset a R.WNW_CMD_STAT.RESULT
      c.result).fset a R.WNW_CMD_STAT.MOVED (min 65535 c.moved)
    e.setWnw n { e.wnw n with cmd := none } := by
  simp [Dev.wnwComplete, cmd, steps, Nat.not_lt.mpr due]

end

/-- Settles O27: a command starts with its plan, and each step is one effect on the rule array and the pattern map. -/
theorem winnowCommands : Obligations.WinnowCommands := by
  refine ⟨fun n m addr op s on takes => ⟨fun busy => ?busy, fun idle down => ?aborted, fun idle up => ?starts⟩,
    fun n s c on cmd due => ⟨fun up st rest steps => ⟨fun bad => ?unread, fun read => ?step⟩, fun steps => ?complete⟩, fun n d c a b => ?effects⟩
  case busy => exact exec_wnw_of on takes fun op addr => Dev.startRule_busy op addr busy
  case aborted => exact exec_wnw_of on takes fun op addr => Dev.startRule_aborted op addr idle down
  case starts =>
    have starts : ∀ {op addr result steps}, s.dev.planRule n op addr (stagedPattern s.dev n) = (result, steps) →
        s.run (fun s => s.command m (R.WNW_CMD n) (.rgn 3) fun s => s.onDev fun d => d.startRule n op addr)
          = .next (s.done (ruleBegun n op addr result steps)) :=
      fun plan => State.runTakes_done on takes (Dev.startRule_planned idle up plan)
    refine ⟨fun undefined => ?badop, fun beyond => ?beyond, fun inside => ⟨fun a bound ne => ?_, fun own => ?_, fun a bound => ?_,
      fun bound free => ?_, fun bound taken full => ?_, fun f bound taken next => ?_, fun free => ?_, fun taken => ?_⟩⟩
    case badop =>
      have undefined' : op.toNat = 0 ∨ 4 < op.toNat := undefined.imp (fun h => by rw [h]; rfl) id
      refine starts ?_
      by_cases none_ : s.dev.ruleCapacity n = 0
      · simp [none_, Dev.planRule_beyond]
      · simp [none_, Dev.planRule_badop (Nat.pos_of_ne_zero none_) undefined']
    case beyond =>
      exact ⟨starts (Dev.planRule_beyond 1 beyond), starts (Dev.planRule_beyond 2 beyond), starts (Dev.planRule_beyond 3 beyond),
        starts (Dev.planRule_beyond 4 beyond)⟩
    · exact starts (Dev.planRule_write_elsewhere inside bound ne)
    · exact starts (Dev.planRule_write inside own)
    · exact starts (Dev.planRule_insert_bound inside bound)
    · exact starts (Dev.planRule_insert_free inside bound free)
    · exact starts (Dev.planRule_insert_full inside bound taken full)
    · exact starts (Dev.planRule_insert_moves inside bound taken next)
    · exact ⟨starts (Dev.planRule_free inside free).1, starts (Dev.planRule_free inside free).2⟩
    · exact ⟨starts (Dev.planRule_delete inside taken), starts (Dev.planRule_remove inside taken)⟩
  case unread => exact State.runDev_done on (Dev.wnwStep_unread cmd due up steps bad)
  case step => exact State.runDev_done on ((Dev.wnwStep_taken cmd due up steps read).trans (ruleStepped_after n c rest st _ _))
  case complete => exact State.runDev_done on (Dev.wnwComplete_of cmd due steps)
  case effects =>
    refine ⟨?invalidate, rfl, ?validate, ?free, rfl, rfl, rfl, rfl⟩
    case invalidate => simp only [Dev.ruleStep, Dev.when]
    case validate => simp only [Dev.ruleStep, Dev.when, decide_eq_true_eq]
    case free => simp only [Dev.ruleStep, Dev.when, decide_eq_true_eq]

end Sys2Proof.Machine
end

section
/-! The commands of TBL_CMD (R265, R269 to R273, R280, R281, R286, Tables 6-5 and 6-6). -/

open Sys2Proof Sys2Proof.Machine

namespace Sys2Proof.Machine

/-! ## A command comes, and is taken -/

/-- The commands of TBL_CMD are writes of it, and act by `startTbl`. -/
theorem exec_tblCommand_of {s : State} {n c : Fin 4} {m : Master} {op : BitVec 4} {x : Instr × Nat} {g : Dev → Dev}
    (on : s.dev.chip.state ≠ .off) (acc : s.dev.Accepts m (R.TBL_CMD n c)) (mem : x ∈ tblCommands m n c op)
    (h : s.dev.startTbl n c x.2 = g s.dev) : exec x.1 s = .next (s.done g) := by
  have writes : ∀ x ∈ tblCommands m n c op,
      exec x.1 s = s.run fun s => s.command m (R.TBL_CMD n c) .none fun s => s.onDev fun d => d.startTbl n c x.2 := by
    simp only [tblCommands, List.forall_mem_cons]
    exact ⟨rfl, rfl, rfl, rfl, rfl, rfl, rfl, fun _ mem => absurd mem List.not_mem_nil⟩
  rw [writes x mem]
  exact State.runCommand_done on acc rfl h

section
variable {d : Dev} {n c : Nat}

theorem Dev.startTbl_busy (op : Nat) (busy : d.flag (R.TBL_CMD_STAT n c) R.TBL_CMD_STAT.BUSY = true) :
    d.startTbl n c op = d.setFlag (R.TBL_CMD_STAT n c) R.TBL_CMD_STAT.OVERRUN true := if_pos busy

theorem Dev.startTbl_aborted (op : Nat) (idle : d.flag (R.TBL_CMD_STAT n c) R.TBL_CMD_STAT.BUSY = false)
    (down : d.regionRuns n = false ∨ d.blockInRestart n 6 = true) : d.startTbl n c op =
      ((d.fset (R.TBL_CMD_STAT n c) R.TBL_CMD_STAT.RESULT 8).fset (R.TBL_CMD_STAT n c) R.TBL_CMD_STAT.MOVES 0).setFlag
        (R.TBL_CMD_STAT n c) R.TBL_CMD_STAT.DONE true := by
  have down' : (!d.regionRuns n || d.blockInRestart n 6) = true := by simpa using down
  rw [Dev.startTbl, idle, down']
  rfl

theorem Dev.startTbl_waits (op : Nat) (idle : d.flag (R.TBL_CMD_STAT n c) R.TBL_CMD_STAT.BUSY = false) (runs : d.regionRuns n = true)
    (up : d.blockInRestart n 6 = false) : d.startTbl n c op =
      (d.setFlag (R.TBL_CMD_STAT n c) R.TBL_CMD_STAT.BUSY true).modTbl n fun t => { t with pending := t.pending ++
        [{ chan := c, op := op, keyLo := (d.rd (R.TBL_CMD_KEY_LO n c)).toNat, keyHi := (d.rd (R.TBL_CMD_KEY_HI n c)).toNat,
           data := (List.range 5).map (fun j => (d.rd (R.TBL_CMD_DATA n c j)).toNat), delta := (d.rd (R.TBL_CMD_DELTA n c)).toNat }] } := by
  rw [Dev.startTbl, idle, runs, up]; rfl

theorem Dev.nextTbl_takes (free : (d.tbl n).running = none) (runs : d.regionRuns n = true) (up : d.blockInRestart n 6 = false) {c : Nat}
    (next : ((List.range 4).map (fun i => ((d.tbl n).served + 1 + i) % 4)).find?
      (fun c => (d.tbl n).pending.any (fun x => x.chan == c)) = some c) : d.nextTbl n =
    (d.setTbl n { d.tbl n with running := (d.tbl n).pending.find? (fun x => x.chan == c),
                               pending := (d.tbl n).pending.filter (fun x => x.chan != c), served := c }).planTbl n := by
  rw [Dev.nextTbl, free, runs, up, next]
  rfl

theorem Dev.nextTbl_idle (empty : (d.tbl n).pending = []) : d.nextTbl n = d := by
  have noChannel : ((List.range 4).map (fun i => ((d.tbl n).served + 1 + i) % 4)).find?
      (fun c => (d.tbl n).pending.any (fun x => x.chan == c)) = none := by simp [empty]
  rw [Dev.nextTbl, noChannel, ite_self]

end

/-! ## A command's result -/

section
variable {d : Dev} {n : Nat} {c : TblCmd}

theorem Dev.runTbl_undefined (h : c.op = 0 ∨ 6 < c.op) : d.runTbl n c = (2, 0, 0, 0, d) := if_pos h

theorem Dev.runTbl_reserved (op : c.op = 1 ∨ c.op = 2) (h : destReserved c.entry.dest = true) : d.runTbl n c = (3, 0, 0, 0, d) := by
  rw [Dev.runTbl]
  dsimp only
  rw [if_neg (by omega), if_pos ⟨by omega, h⟩]

theorem Dev.runTbl_insert_present (op : c.op = 1) (dest : destReserved c.entry.dest = false) {l : Slot}
    (hit : (d.hits n c.key).head? = some l) : d.runTbl n c =
      (if (d.readSlot n l).dest = c.entry.dest ∧ (d.readSlot n l).isStatic = c.entry.isStatic then 4 else 5, 0, 0, 0, d) := by
  simp [Dev.runTbl, op, dest, hit]

theorem Dev.runTbl_absent (op : c.op = 2 ∧ destReserved c.entry.dest = false ∨ c.op = 3 ∨ c.op = 4) (miss : d.hits n c.key = []) :
    d.runTbl n c = (6, 0, 0, 0, d) := by
  obtain ⟨op, dest⟩ | op | op := op <;> simp [Dev.runTbl, *]

section
variable {l : Slot} {ls : List Slot} (hits : d.hits n c.key = l :: ls)
include hits

theorem Dev.runTbl_update (op : c.op = 2) (dest : destReserved c.entry.dest = false) : d.runTbl n c = (0, l.loc, 0, 0,
    d.each (l :: ls) fun l d => d.writeSlot n l { d.readSlot n l with dest := c.entry.dest, isStatic := c.entry.isStatic }) := by
  simp [Dev.runTbl, op, dest, hits]

theorem Dev.runTbl_delete (op : c.op = 3) : d.runTbl n c =
    let e := (d.each (l :: ls) fun l d => d.clearSlot n l).refreshStash n
    (0, l.loc, 0, 0, e.fset (R.TBL_FDB_COUNT n) R.TBL_FDB_COUNT.VALID (e.fget (R.TBL_FDB_COUNT n) R.TBL_FDB_COUNT.VALID - 1)) := by
  simp [Dev.runTbl, op, hits]

theorem Dev.runTbl_lookup (op : c.op = 4) : d.runTbl n c =
    let o := d.readSlot n l
    (0, l.loc, o.dest + 4096 * b2n o.isStatic + 8192 * b2n o.hit + 16384 * b2n o.age, 0, d) := by
  simp [Dev.runTbl, op, hits]

end

theorem Dev.runTbl_vlan_reserved (op : c.op = 5) (v : bits c.keyLo 0 12 = 4095) : d.runTbl n c = (3, 0, 0, 0, d) := by
  simp [Dev.runTbl, op, v]

theorem Dev.runTbl_vlan (op : c.op = 5) (v : bits c.keyLo 0 12 ≠ 4095) : d.runTbl n c = (0, 0, 0, 0,
    let v := bits c.keyLo 0 12
    d.accounted n 3 (v / 4) c.segment (fun d => d.vlanContribution n v) fun d =>
      (d.wrMem (vlanKey n v 0) (BitVec.ofNat 32 (c.data.getD 0 0) &&& 0x3FFFFFFF#32)).wrMem
        (vlanKey n v 1) (BitVec.ofNat 32 (c.data.getD 1 0) &&& 0x3FFF3FFF#32)) := by
  simp [Dev.runTbl, op, v]

theorem Dev.runTbl_group (op : c.op = 6) : d.runTbl n c = (0, 0, 0, 0,
    let g := bits c.keyLo 0 14
    d.accounted n 4 g c.segment (fun d => d.groupContribution n g) fun d => d.each (List.range 8) fun w d =>
      d.wrMem (groupKey n g w) (if w = 4 then BitVec.ofNat 32 (c.data.getD w 0) &&& 0x3F#32 else BitVec.ofNat 32 (c.data.getD w 0))) := by
  simp [Dev.runTbl, op]

/-- One entry more is counted as valid. -/
def entryCounted (n : Nat) (d : Dev) : Dev :=
  d.fset (R.TBL_FDB_COUNT n) R.TBL_FDB_COUNT.VALID (d.fget (R.TBL_FDB_COUNT n) R.TBL_FDB_COUNT.VALID + 1)

section
variable (op : c.op = 1) (dest : destReserved c.entry.dest = false) (miss : d.hits n c.key = [])
include op dest miss

theorem Dev.runTbl_insert_planned {p : TblPlan} (plan : (d.tbl n).plan = some p) : d.runTbl n c = (0, p.slot.loc, 0, p.made,
    entryCounted n ((d.writeSlot n p.slot c.entry).modTbl n fun t => { t with plan := none })) := by
  simp [Dev.runTbl, entryCounted, op, dest, miss, plan]

theorem Dev.runTbl_insert_placed (plan : (d.tbl n).plan = none) {r moves : Nat} {l : Slot} {e : Dev}
    (placed : d.insertEntry n c.entry true = (r, some l, moves, e)) (good : r ≤ 1) :
    d.runTbl n c = (r, l.loc, 0, moves, entryCounted n e) := by
  simp [Dev.runTbl, entryCounted, op, dest, miss, plan, placed, good]

theorem Dev.runTbl_insert_full (plan : (d.tbl n).plan = none) {e : Dev} (full : d.insertEntry n c.entry true = (7, none, 0, e)) :
    d.runTbl n c = (7, 0, 0, 0, e) := by
  simp [Dev.runTbl, op, dest, miss, plan, full]

end

end

section
variable {d : Dev} {n ptr : Nat} {e : Entry}

theorem Dev.insertEntry_path {l : Slot} {p : List Slot} (stash : Bool) (place : d.placeInBuckets n e.key = (some (l :: p), ptr)) :
    d.insertEntry n e stash =
      let d := (d.modTbl n fun t => { t with victim := ptr }).runPath n (l :: p) e
      (0, some l, p.length, if p.length = 0 then d else d.bump (R.TBL_RELOCATED n) p.length) := by
  rw [Dev.insertEntry]
  dsimp only
  rw [place]
  rfl

theorem Dev.insertEntry_stash {k : Nat} (place : d.placeInBuckets n e.key = (none, ptr))
    (free : (List.range 32).find? (fun k => !(d.readSlot n (.stash k)).valid) = some k) : d.insertEntry n e true =
      (1, some (.stash k), 0, ((d.modTbl n fun t => { t with victim := ptr }).writeSlot n (.stash k) e).refreshStash n) := by
  have free' : (List.range 32).find? (fun k => !((d.modTbl n fun t => { t with victim := ptr }).readSlot n (.stash k)).valid) = some k := free
  rw [Dev.insertEntry]
  dsimp only
  rw [place]
  dsimp only
  rw [if_pos rfl, free']

theorem Dev.insertEntry_full (place : d.placeInBuckets n e.key = (none, ptr)) (full : ∀ k < 32, (d.readSlot n (.stash k)).valid = true) :
    d.insertEntry n e true = (7, none, 0, d.modTbl n fun t => { t with victim := ptr }) := by
  have full' : (List.range 32).find? (fun k => !((d.modTbl n fun t => { t with victim := ptr }).readSlot n (.stash k)).valid) = none :=
    List.find?_eq_none.mpr fun k mem => by
      have valid : ((d.modTbl n fun t => { t with victim := ptr }).readSlot n (.stash k)).valid = true := full k (List.mem_range.mp mem)
      rw [valid]; decide
  rw [Dev.insertEntry]
  dsimp only
  rw [place]
  dsimp only
  rw [if_pos rfl, full']

end

/-! ## A command's end -/

/-- What a command's end makes of its result (R270, R273, R280). -/
def tblFinish (n : Nat) (c : TblCmd) (r : Nat × Nat × Nat × Nat × Dev) : Dev :=
  let d := r.2.2.2.2
  let d := if r.1 ≤ 1 ∧ c.op ≠ 4 then tblDelta n c d else d
  let d := tblEnds n c.chan r.1 r.2.2.2.1 d
  let d := if r.1 ≤ 1 ∧ c.op ≤ 4 then d.fset (R.TBL_CMD_LOC n c.chan) R.TBL_CMD_LOC.LOC r.2.1 else d
  let d := if r.1 = 0 ∧ c.op = 4 then d.wr (R.TBL_CMD_RDATA n c.chan) (BitVec.ofNat 32 r.2.2.1) else d
  let d := if c.op ≤ 4 then d.unfilter n c.key else d
  tblIdle n d

section
variable {n : Nat} {c : TblCmd} {r loc rdata moves : Nat} {d : Dev}

theorem tblFinish_refused (bad : 2 ≤ r) (op : c.op ≤ 4) :
    tblFinish n c (r, loc, rdata, moves, d) = tblIdle n ((tblEnds n c.chan r moves d).unfilter n c.key) := by
  simp [tblFinish, op, show ¬ r ≤ 1 by omega, show r ≠ 0 by omega]

theorem tblFinish_refused_page (bad : 2 ≤ r) (op : 4 < c.op) :
    tblFinish n c (r, loc, rdata, moves, d) = tblIdle n (tblEnds n c.chan r moves d) := by
  simp [tblFinish, show ¬ c.op ≤ 4 by omega, show ¬ r ≤ 1 by omega, show r ≠ 0 by omega]

theorem tblFinish_address (good : r ≤ 1) (op : c.op < 4) : tblFinish n c (r, loc, rdata, moves, d) =
    tblIdle n (((tblEnds n c.chan r moves (tblDelta n c d)).fset (R.TBL_CMD_LOC n c.chan) R.TBL_CMD_LOC.LOC loc).unfilter n c.key) := by
  simp [tblFinish, good, show c.op ≤ 4 by omega, show c.op ≠ 4 by omega]

theorem tblFinish_lookup (op : c.op = 4) : tblFinish n c (0, loc, rdata, moves, d) =
    tblIdle n ((((tblEnds n c.chan 0 moves d).fset (R.TBL_CMD_LOC n c.chan) R.TBL_CMD_LOC.LOC loc).wr (R.TBL_CMD_RDATA n c.chan)
      (BitVec.ofNat 32 rdata)).unfilter n c.key) := by
  simp [tblFinish, op]

theorem tblFinish_page (op : 4 < c.op) : tblFinish n c (0, loc, rdata, moves, d) =
    tblIdle n (tblEnds n c.chan 0 moves (tblDelta n c d)) := by
  simp [tblFinish, show ¬ c.op ≤ 4 by omega, show c.op ≠ 4 by omega]

end

theorem Dev.completeTbl_goesOn {d : Dev} {n : Nat} {c : TblCmd} (running : ((d.planTbl n).tbl n).running = some c)
    (copies : ((d.planTbl n).tbl n).plan.any (fun p => !p.moves.isEmpty) = true) : d.completeTbl n = d.planTbl n := by
  rw [Dev.completeTbl]
  dsimp only
  rw [running]
  exact if_pos copies

theorem Dev.completeTbl_of {d : Dev} {n : Nat} {c : TblCmd} (running : ((d.planTbl n).tbl n).running = some c)
    (copied : ((d.planTbl n).tbl n).plan.any (fun p => !p.moves.isEmpty) = false) :
    d.completeTbl n = tblFinish n c ((tblTurn n c d).runTbl n c) := by
  rw [Dev.completeTbl]
  dsimp only
  rw [running]
  dsimp only
  rw [copied]
  rfl

/-- Settles O28: a command waits its turn, and its result is one of the cases of Tables 6-5 and 6-6. -/
theorem tableCommands : Obligations.TableCommands := by
  refine ⟨fun n s on => ⟨fun m c op acc => ?commands, fun free runs up => ⟨fun c next => ?takes, fun empty => ?idle⟩⟩,
    fun n s c on running => ⟨fun copies => ?goesOn, fun copied => ?ends⟩⟩
  case commands =>
    refine fun x mem => ⟨fun busy => ?_, fun idle down => ?_, fun idle runs up => ?_⟩
    · exact exec_tblCommand_of on acc mem (Dev.startTbl_busy _ busy)
    · exact exec_tblCommand_of on acc mem (Dev.startTbl_aborted _ idle down)
    · exact exec_tblCommand_of on acc mem (Dev.startTbl_waits _ idle runs up)
  case takes => exact State.runDev_done on (Dev.nextTbl_takes free runs up next)
  case idle => exact State.runDev_done on (Dev.nextTbl_idle empty)
  case goesOn => exact State.runDev_done on (Dev.completeTbl_goesOn running copies)
  case ends =>
    intro does refused t
    have ends : ∀ {g : Dev → Dev} {r}, t.runTbl n c = r → tblFinish n c r = g s.dev →
        exec (.tblCmdComplete n) s = .next (s.done g) := fun result finish =>
      State.runDev_done on ((Dev.completeTbl_of running copied).trans ((congrArg (tblFinish n c) result).trans finish))
    have refuses : ∀ {r}, t.runTbl n c = (r, 0, 0, 0, t) → 2 ≤ r → c.op ≤ 4 → refused r :=
      fun result bad op => ends result (tblFinish_refused bad op)
    refine ⟨fun op => ?_, fun op => ?_, fun op dest => ?_, fun op dest l hit e1 e2 => ?_, fun op dest l hit ne => ?_, fun op miss => ?_,
      fun op dest l ls hits => ?_, fun op l ls hits => ?_, fun op l ls hits => ?_, fun op v => ?_, fun op v => ?_, fun op => ?_,
      fun op dest miss => ?_⟩
    · exact refuses (Dev.runTbl_undefined (.inl op)) (by decide) (by omega)
    · exact ends (Dev.runTbl_undefined (.inr op)) (tblFinish_refused_page (by decide) (by omega))
    · exact refuses (Dev.runTbl_reserved op dest) (by decide) (by omega)
    · exact refuses ((Dev.runTbl_insert_present op dest hit).trans (by rw [if_pos ⟨e1, e2⟩])) (by decide) (by omega)
    · exact refuses ((Dev.runTbl_insert_present op dest hit).trans (by rw [if_neg ne])) (by decide) (by omega)
    · exact refuses (Dev.runTbl_absent op miss) (by decide) (by omega)
    · exact ends (Dev.runTbl_update hits op dest) (tblFinish_address (by decide) (by omega))
    · exact ends (Dev.runTbl_delete hits op) (tblFinish_address (by decide) (by omega))
    · exact ends (Dev.runTbl_lookup hits op) (tblFinish_lookup op)
    · exact ends (Dev.runTbl_vlan_reserved op v) (tblFinish_refused_page (by decide) (by omega))
    · exact ends (Dev.runTbl_vlan op v) (tblFinish_page (by omega))
    · exact ends (Dev.runTbl_group op) (tblFinish_page (by omega))
    intro counted
    refine ⟨fun p plan => ?_, fun plan => ⟨fun l p ptr place => ?_, fun k ptr place free => ?_, fun ptr place full => ?_⟩⟩
    · exact ends (Dev.runTbl_insert_planned op dest miss plan) (tblFinish_address (by decide) (by omega))
    · exact ends (Dev.runTbl_insert_placed op dest miss plan (Dev.insertEntry_path true place) (by decide))
        (tblFinish_address (by decide) (by omega))
    · exact ends (Dev.runTbl_insert_placed op dest miss plan (Dev.insertEntry_stash place free) (by decide))
        (tblFinish_address (by decide) (by omega))
    · exact ends (Dev.runTbl_insert_full op dest miss plan (Dev.insertEntry_full place full)) (tblFinish_refused (by decide) (by omega))

end Sys2Proof.Machine
end

section
/-! Instructions of a core (R444 to R463, Tables 11-5 and 11-6): where one issues and where not, what each does once it has, and what the
task unit does as a clock ends. -/

open Sys2Proof Sys2Proof.Machine

namespace Sys2Proof.Machine

/-! ## Issue -/

section
variable {d : Dev} {e t : Nat}

theorem Dev.issued_elsewhere (op : Nat)
    (h : ¬(d.coreRuns e = true ∧ d.engine.issued.testBit e = false ∧ d.nextThread e = some t)) : d.issued e t op = (none, d) := by
  refine if_pos ?_
  simpa [Classical.or_iff_not_imp_left] using h

section
variable (runs : d.coreRuns e = true ∧ d.engine.issued.testBit e = false ∧ d.nextThread e = some t)
include runs

theorem Dev.issued_unread (op : Nat) (bad : d.fault (pcKey e (d.thread e t).pc) = 2) : d.issued e t op =
    (none, if e = supCore then d.raise (.chipFatal 0x06 0x40 (d.thread e t).pc)
      else (d.bump (R.ENG_UNCORR (e / 8))).contained (e / 16) (4 + e / 8 % 2) (e % 8) (4 * (d.thread e t).pc)) := by
  obtain ⟨on, free, turn⟩ := runs
  simp only [Dev.issued, on, free, turn, bad, Bool.not_true, Bool.or_self, bne_self_eq_false, Bool.false_eq_true, ↓reduceIte]
  split <;> rfl

theorem Dev.issued_illegal (op : Nat) (read : d.fault (pcKey e (d.thread e t).pc) ≠ 2)
    (bad : legalWord e (d.fetch e (d.thread e t).pc) = false) : d.issued e t op = (none, (d.startIssue e t).threadFault e t 1) := by
  obtain ⟨on, free, turn⟩ := runs
  simp [Dev.issued, on, free, turn, read, bad]

theorem Dev.issued_other {op : Nat} (read : d.fault (pcKey e (d.thread e t).pc) ≠ 2)
    (legal : legalWord e (d.fetch e (d.thread e t).pc) = true) (other : opOf (d.fetch e (d.thread e t).pc) ≠ op) :
    d.issued e t op = (none, d) := by
  obtain ⟨on, free, turn⟩ := runs
  simp [Dev.issued, on, free, turn, read, legal, other]

end

end

section
variable {s : State} {e t op : Nat} {g : Dev → Dev} (on : s.dev.chip.state ≠ .off)
include on

/-- An instruction that issues does what it is to do with its word and its thread. -/
theorem State.runDev_issue {w : Word} {x : Thread} {run : Word → Thread → Dev → Dev} (i : s.dev.Issues e t op w x)
    (h : run w x (s.dev.startIssue e t) = g s.dev) : s.runDev (fun d => d.issue e t op run) = .next (s.done g) :=
  State.runDev_done on ((Dev.issue_of i).trans h)

theorem State.runDev_notIssued {run : Word → Thread → Dev → Dev} (h : s.dev.issued e t op = (none, g s.dev)) :
    s.runDev (fun d => d.issue e t op run) = .next (s.done g) :=
  State.runDev_done on (by rw [Dev.issue, h])

end

/-- An instruction that does not issue leaves what the judgement of its issue leaves. -/
theorem exec_notIssued {c : Core} {t : Fin 8} {s : State} {k : Nat × Instr} {g : Dev → Dev} (on : s.dev.chip.state ≠ .off)
    (mem : k ∈ coreInstructions c t) (h : s.dev.issued (coreNo c) t k.1 = (none, g s.dev)) : exec k.2 s = .next (s.done g) := by
  have dev : ∀ {op run}, s.dev.issued (coreNo c) t op = (none, g s.dev) →
      s.runDev (fun d => d.issue (coreNo c) t op run) = .next (s.done g) := fun h => State.runDev_notIssued on h
  have rdx : s.dev.issued (coreNo c) t 0x16 = (none, g s.dev) → exec (.rdx c t) s = .next (s.done g) := fun h =>
    State.run_did (act := fun s => s.rdx (coreNo c) t) (g := fun s => s.onDev g) on (by rw [State.rdx, h]; rfl)
  have wrx : s.dev.issued (coreNo c) t 0x17 = (none, g s.dev) → exec (.wrx c t) s = .next (s.done g) := fun h =>
    State.run_did (act := fun s => s.wrx (coreNo c) t) (g := fun s => s.onDev g) on (by rw [State.wrx, h]; rfl)
  have all : ∀ k ∈ coreInstructions c t, s.dev.issued (coreNo c) t k.1 = (none, g s.dev) → exec k.2 s = .next (s.done g) := by
    simp only [coreInstructions, List.forall_mem_cons]
    exact ⟨dev, dev, dev, dev, dev, dev, dev, dev, dev, dev, dev, dev, dev, dev, dev, dev, dev, rdx, wrx, dev, dev, dev, dev, dev, dev, dev,
      dev, dev, dev, dev, dev, dev, dev, dev, dev, dev, dev, dev, dev, fun _ mem => absurd mem List.not_mem_nil⟩
  exact all k mem h

theorem coreNo_eq_supCore (c : Core) : coreNo c = supCore ↔ c = .supervisor := by
  cases c with
  | supervisor => simp [coreNo]
  | pe e => simp [coreNo, supCore, Nat.ne_of_lt e.isLt]

/-- Settles O42: an instruction that does not issue is judged so in one of four ways. -/
theorem issueStops : Obligations.IssueStops := by
  refine fun c t s on k mem => ⟨fun idle => ?idle, fun runs bad => ⟨fun sup => ?supervisor, fun eng => ?engine⟩,
    fun runs read bad => ?illegal, fun runs read legal other => ?other⟩
  case idle => exact exec_notIssued on mem (Dev.issued_elsewhere k.1 idle)
  case supervisor =>
    exact exec_notIssued on mem ((Dev.issued_unread runs k.1 bad).trans (by rw [if_pos ((coreNo_eq_supCore c).mpr sup)]))
  case engine =>
    exact exec_notIssued on mem ((Dev.issued_unread runs k.1 bad).trans (by rw [if_neg fun h => eng ((coreNo_eq_supCore c).mp h)]))
  case illegal => exact exec_notIssued on mem (Dev.issued_illegal runs k.1 read bad)
  case other => exact exec_notIssued on mem (Dev.issued_other runs read legal other)

/-! ## Arithmetic and control -/

/-- The operations of OPR on two operands, by FN (Table 11-5). -/
def oprTable (a b : Word) : List (Nat × Word) :=
  let k := b.toNat % 32
  [(0, a + b), (1, a - b), (2, a &&& b), (3, a ||| b), (4, a ^^^ b), (5, a <<< k), (6, a >>> k), (7, a.sshiftRight k), (8, a * b),
    (9, BitVec.ofNat 32 (a.toNat * b.toNat / 2 ^ 32)), (10, if a.slt b then 1#32 else 0#32), (11, if a.ult b then 1#32 else 0#32),
    (12, if a.slt b then a else b), (13, if a.slt b then b else a),
    (14, BitVec.ofNat 32 (((List.range 32).find? (fun i => a.getMsbD i)).getD 32)),
    (15, BitVec.ofNat 32 (leAt (leBytes 4 a.toNat).reverse 0 4)), (16, a.rotateLeft k), (17, BitVec.ofNat 32 (popCount 32 a.toNat))]

theorem aluOp_oprTable (a b : Word) : ∀ p ∈ oprTable a b, aluOp p.1 a b = p.2 := by
  simp only [oprTable, List.forall_mem_cons]
  exact ⟨rfl, rfl, rfl, rfl, rfl, rfl, rfl, rfl, rfl, rfl, rfl, rfl, rfl, rfl, rfl, rfl, rfl, rfl, fun _ mem => absurd mem List.not_mem_nil⟩

/-- Settles O38: each operation, once issued, writes its result. -/
theorem engineArithmetic : Obligations.EngineArithmetic := by
  intro c t s w x on e a b imm k writes
  have alu : ∀ {op f v}, s.dev.Issues e t op w x → f w x = v → s.runDev (fun d => d.alu e t op f) = writes v :=
    fun i value => State.runDev_issue on i (by rw [value])
  refine ⟨fun p mem i fn => alu i ?_, fun i => alu i rfl, fun i => alu i rfl, fun i => alu i rfl, fun i => alu i rfl, fun i => alu i rfl,
    fun i => alu i rfl, fun i => alu i rfl, fun i => alu i rfl, fun i => alu i rfl, fun i => alu i rfl⟩
  rw [fn]
  exact aluOp_oprTable a b p mem

/-- Settles O39: a branch goes by its condition, CALL and RET by the stack. -/
theorem engineControl : Obligations.EngineControl := by
  intro c t s w x on e p q goes faults
  have branch : ∀ {op f b}, s.dev.Issues e t op w x → f p q = b →
      (b = true → s.runDev (fun d => d.branch e t op f) = goes x (((x.pc : Int) + 1 + (w.setWidth 16).toInt) % 65536).toNat)
      ∧ (b = false → s.runDev (fun d => d.branch e t op f) = goes x (x.pc + 1)) := fun i value =>
    ⟨fun yes => State.runDev_issue on i (if_pos (value.trans yes)),
      fun no => State.runDev_issue on i (if_neg (by rw [value, no]; exact Bool.false_ne_true))⟩
  refine ⟨?branches, fun i room => State.runDev_issue on i (if_neg (Nat.not_le.mpr room)), fun i full => State.runDev_issue on i (if_pos full),
    fun pc rest i stack => State.runDev_issue on i (by rw [stack]), fun i stack => State.runDev_issue on i (by rw [stack]),
    fun i => State.runDev_issue on i rfl, fun i => State.runDev_issue on i rfl⟩
  simp only [List.forall_mem_cons]
  exact ⟨fun i => branch i rfl, fun i => branch i rfl, fun i => branch i rfl, fun i => branch i rfl, fun i => branch i rfl,
    fun i => branch i rfl, fun _ mem => absurd mem List.not_mem_nil⟩

/-! ## Data space and scratch -/

section
variable {d : Dev} {e t a size : Nat} {k : Dev → Dev}

theorem Dev.checkWord_misaligned (h : a % 4 ≠ 0) : d.checkWord e t a size k = d.threadFault e t 2 := if_pos h

theorem Dev.checkWord_beyond (aligned : a % 4 = 0) (h : size ≤ a) : d.checkWord e t a size k = d.threadFault e t 3 := by
  rw [Dev.checkWord, if_neg (not_not_intro aligned), if_pos h]

theorem Dev.checkWord_within (aligned : a % 4 = 0) (h : a < size) : d.checkWord e t a size k = k d := by
  rw [Dev.checkWord, if_neg (not_not_intro aligned), if_neg (Nat.not_le.mpr h)]

end

/-- A word access that issues faults where it is misaligned or beyond its space, and else goes on. -/
theorem State.runDev_checked {s : State} {e t op a size : Nat} {w : Word} {x : Thread} {run : Word → Thread → Dev → Dev} {k : Dev → Dev}
    (on : s.dev.chip.state ≠ .off) (i : s.dev.Issues e t op w x) (h : ∀ d : Dev, run w x d = d.checkWord e t a size k) :
    (a % 4 ≠ 0 → s.runDev (fun d => d.issue e t op run) = .next (s.done fun d => (d.startIssue e t).threadFault e t 2))
    ∧ (a % 4 = 0 → size ≤ a → s.runDev (fun d => d.issue e t op run) = .next (s.done fun d => (d.startIssue e t).threadFault e t 3))
    ∧ (a % 4 = 0 → a < size → s.runDev (fun d => d.issue e t op run) = .next (s.done fun d => k (d.startIssue e t))) :=
  ⟨fun bad => State.runDev_issue on i ((h _).trans (Dev.checkWord_misaligned bad)),
    fun aligned beyond => State.runDev_issue on i ((h _).trans (Dev.checkWord_beyond aligned beyond)),
    fun aligned within => State.runDev_issue on i ((h _).trans (Dev.checkWord_within aligned within))⟩

section
variable (d : Dev) (e t : Nat) {w : Word} (x : Thread)

theorem Dev.memRun_rdw (op : opOf w = 0x10) : d.memRun e t w x = d.checkWord e t (accessAddr w x) (dataSize e)
    fun d => d.loadWord e t (accessAddr w x) fun v d => d.result e t x (fieldD w) v := by
  rw [Dev.memRun, op]
  rfl

theorem Dev.memRun_rdb (op : opOf w = 0x11) : d.memRun e t w x =
    if dataSize e ≤ accessAddr w x then d.threadFault e t 3
    else d.loadWord e t (accessAddr w x) fun v d =>
      d.result e t x (fieldD w) (BitVec.ofNat 32 (bits v.toNat (8 * (accessAddr w x % 4)) 8)) := by
  rw [Dev.memRun, op]
  rfl

theorem Dev.memRun_wrw (op : opOf w = 0x12) : d.memRun e t w x = d.checkWord e t (accessAddr w x) (dataSize e)
    fun d => d.storeWordAt e t (accessAddr w x) (fun _ => x.reg (fieldD w)) fun _ d => d.complete e t x := by
  rw [Dev.memRun, op]
  rfl

theorem Dev.memRun_wrb (op : opOf w = 0x13) : d.memRun e t w x =
    if dataSize e ≤ accessAddr w x then d.threadFault e t 3
    else d.storeWordAt e t (accessAddr w x) (fun old => putByte old (accessAddr w x % 4) ((x.reg (fieldD w)).setWidth 8))
      fun _ d => d.complete e t x := by
  rw [Dev.memRun, op]
  rfl

/-- What an ATOM stores, from the word there before. -/
def atomStores (w : Word) (x : Thread) (old : Word) : Word :=
  match fieldFn w with
  | 0 => old + x.reg (fieldB w)
  | 1 => x.reg (fieldB w)
  | 2 => if old = x.reg (fieldD w) then x.reg (fieldB w) else old
  | 3 => old ||| x.reg (fieldB w)
  | _ => old &&& x.reg (fieldB w)

theorem Dev.memRun_atom (op : opOf w = 0x1A) : d.memRun e t w x = d.checkWord e t (x.reg (fieldA w)).toNat (dataSize e)
    fun d => d.storeWordAt e t (x.reg (fieldA w)).toNat (atomStores w x) fun old d => d.result e t x (fieldD w) old := by
  rw [Dev.memRun, op]
  rfl

/-- The operations of ATOM, by FN (Table 11-5). -/
def atomTable (b v : Word) : List (Nat × (Word → Word)) :=
  [(0, fun old => old + b), (1, fun _ => b), (2, fun old => if old = v then b else old), (3, fun old => old ||| b), (4, fun old => old &&& b)]

theorem atomStores_table (w : Word) : ∀ k ∈ atomTable (x.reg (fieldB w)) (x.reg (fieldD w)), fieldFn w = k.1 → atomStores w x = k.2 := by
  simp only [atomTable, List.forall_mem_cons]
  refine ⟨fun fn => ?_, fun fn => ?_, fun fn => ?_, fun fn => ?_, fun fn => ?_, fun _ mem => absurd mem List.not_mem_nil⟩ <;>
    funext old <;> rw [atomStores, fn] <;> rfl

end

section
variable {d : Dev} {e t a : Nat} (k : Word → Dev → Dev) (f : Word → Word)

theorem Dev.loadWord_supervisor (read : d.fault (supKey a) ≠ 2) : d.loadWord supCore t a k = k (d.rd (supKey a)) d := by
  rw [Dev.loadWord, if_pos rfl, if_neg read]

theorem Dev.loadWord_supervisor_unread (bad : d.fault (supKey a) = 2) : d.loadWord supCore t a k = d.raise (.chipFatal 0x06 0x40 a) := by
  rw [Dev.loadWord, if_pos rfl, if_pos bad]

theorem Dev.storeWordAt_supervisor :
    d.storeWordAt supCore t a f k = k (d.rd (supKey a)) (d.wrMem (supKey a) (f (d.rd (supKey a)))) := if_pos rfl

section
variable (engine : e < 64)
include engine

theorem Dev.loadWord_held {h : HeldLine} (held : d.heldLine e (a / 64) = some h) :
    d.loadWord e t a k = k (h.words.getD (a / 4 % 16) 0) d := by
  simp [Dev.loadWord, Dev.holdsLine, Dev.loadHeld, held, supCore, Nat.ne_of_lt engine]

theorem Dev.storeWordAt_owned {h : HeldLine} (held : d.heldLine e (a / 64) = some h) (own : h.owned = true) : d.storeWordAt e t a f k =
    k (h.words.getD (a / 4 % 16) 0) (d.storeHeld e a (f (h.words.getD (a / 4 % 16) 0))) := by
  simp [Dev.storeWordAt, Dev.holdsLine, Dev.loadHeld, held, own, supCore, Nat.ne_of_lt engine]

theorem Dev.storeWordAt_shared {h : HeldLine} (held : d.heldLine e (a / 64) = some h) (shared : h.owned = false) :
    d.storeWordAt e t a f k = d.waitLine e t (a / 64) true := by
  simp [Dev.storeWordAt, Dev.holdsLine, held, shared, supCore, Nat.ne_of_lt engine]

theorem Dev.loadWord_absent (absent : d.heldLine e (a / 64) = none) : d.loadWord e t a k = d.waitLine e t (a / 64) false := by
  simp [Dev.loadWord, Dev.holdsLine, absent, supCore, Nat.ne_of_lt engine]

theorem Dev.storeWordAt_absent (absent : d.heldLine e (a / 64) = none) : d.storeWordAt e t a f k = d.waitLine e t (a / 64) true := by
  simp [Dev.storeWordAt, Dev.holdsLine, absent, supCore, Nat.ne_of_lt engine]

end

end

/-- Settles O40: an access that issues is judged by its address, and an engine's goes to the line it holds. -/
theorem engineMemory : Obligations.EngineMemory := by
  refine ⟨?instructions, fun d t a k read => Dev.loadWord_supervisor k read, fun d t a k bad => Dev.loadWord_supervisor_unread k bad,
    fun d t a f k => Dev.storeWordAt_supervisor k f,
    fun d e t a h k f engine held => ⟨Dev.loadWord_held k engine held, Dev.storeWordAt_owned k f engine held, Dev.storeWordAt_shared k f engine held⟩,
    fun d e t a k f engine absent => ⟨Dev.loadWord_absent k engine absent, Dev.storeWordAt_absent k f engine absent⟩⟩
  intro c t s w x on e a g b v size does faults loads stores swaps
  have opOf_of : ∀ {op}, s.dev.Issues e t op w x → opOf w = op := fun ⟨_, _, _, _, _, _, _, op⟩ => op
  refine ⟨fun i => ?rdw, fun i => ?rdb, fun i => ?wrw, fun i => ?wrb, fun i => ?rds, fun i => ?wrs, fun i => ?atom⟩
  case rdw =>
    have checked := State.runDev_checked (run := fun w x d => d.memRun e t w x) on i fun d => Dev.memRun_rdw d e t x (opOf_of i)
    exact checked
  case wrw =>
    have checked := State.runDev_checked (run := fun w x d => d.memRun e t w x) on i fun d => Dev.memRun_wrw d e t x (opOf_of i)
    exact checked
  case rdb =>
    exact ⟨fun beyond => State.runDev_issue on i ((Dev.memRun_rdb _ e t x (opOf_of i)).trans (if_pos beyond)),
      fun within => State.runDev_issue on i ((Dev.memRun_rdb _ e t x (opOf_of i)).trans (if_neg (Nat.not_le.mpr within)))⟩
  case wrb =>
    exact ⟨fun beyond => State.runDev_issue on i ((Dev.memRun_wrb _ e t x (opOf_of i)).trans (if_pos beyond)),
      fun within => State.runDev_issue on i ((Dev.memRun_wrb _ e t x (opOf_of i)).trans (if_neg (Nat.not_le.mpr within)))⟩
  case rds =>
    have checked := State.runDev_checked (run := fun w x d => d.checkWord e t (accessAddr w x) 1024 fun d =>
      d.result e t x (fieldD w) (x.scratchWord (accessAddr w x / 4))) on i fun d => rfl
    exact checked
  case wrs =>
    have checked := State.runDev_checked (run := fun w x d => d.checkWord e t (accessAddr w x) 1024 fun d =>
      d.complete e t { x with scratch := Map.ins x.scratch (accessAddr w x / 4) (x.reg (fieldD w)) }) on i fun d => rfl
    exact checked
  case atom =>
    obtain ⟨misaligned, beyond, within⟩ := State.runDev_checked (run := fun w x d => d.memRun e t w x) on i fun d => Dev.memRun_atom d e t x (opOf_of i)
    refine ⟨misaligned, beyond, fun k mem fn aligned inside => ?_⟩
    have stores := within aligned inside
    rw [atomStores_table x w k mem fn] at stores
    exact stores

end Sys2Proof.Machine
end

section
/-! Instructions on a thread's task and on the register windows (R446 to R459, Table 11-6), the task unit's turns and the supervisor's
watchdog (R448, R452, R453, R476). -/

open Sys2Proof Sys2Proof.Machine

namespace Sys2Proof.Machine

/-! ## Tasks -/

theorem filter_sends (l : List Output) :
    l.filter (fun o => (match o with | .send .. => true | _ => false) == true) = l.filter outputSends :=
  congrArg (l.filter ·) (funext fun o => by cases o <;> rfl)

theorem filter_dispositions (l : List Output) :
    l.filter (fun o => (match o with | .send .. => true | _ => false) == false) = l.filter fun o => !outputSends o :=
  congrArg (l.filter ·) (funext fun o => by cases o <;> rfl)

section
variable (d : Dev) (e t : Nat) (x : Thread) {o : Output}

/-- A task stages four SENDs at most (R451). -/
theorem Dev.stage_send (send : outputSends o = true) : d.stage e t x o = stagesOutput e t x o 4 outputSends d := by
  cases o with
  | fwd | drop => exact absurd send Bool.false_ne_true
  | send a b fn =>
    unfold Dev.stage stagesOutput
    cases d.taskOf e t with
    | none => rfl
    | some k => exact congrArg (fun l : List Output => if 4 ≤ l.length then d.threadFault e t 4
        else (d.setTask (e / 16) { k with outputs := k.outputs ++ [.send a b fn] }).complete e t x) (filter_sends k.outputs)

/-- A task stages one disposition of its frame (R451). -/
theorem Dev.stage_disposition (disposes : outputSends o = false) : d.stage e t x o = stagesOutput e t x o 1 (fun o => !outputSends o) d := by
  have most : ∀ k : Task, (if 1 ≤ (k.outputs.filter fun o => !outputSends o).length then d.threadFault e t 4
      else (d.setTask (e / 16) { k with outputs := k.outputs ++ [o] }).complete e t x) =
      if 1 ≤ (k.outputs.filter (fun o => (match o with | .send .. => true | _ => false) == false)).length then d.threadFault e t 4
      else (d.setTask (e / 16) { k with outputs := k.outputs ++ [o] }).complete e t x := fun k => by rw [filter_dispositions]
  unfold Dev.stage stagesOutput
  cases d.taskOf e t with
  | none => rfl
  | some k =>
    cases o with
    | send => exact absurd disposes.symm Bool.false_ne_true
    | fwd | drop => exact (most k).symm

end

section
variable {d : Dev}

theorem TaskTurn.ends_done (d : Dev) (e t : Nat) (id : Option Nat) : (TaskTurn.done e t id).ends d =
    if (d.thread e t).task = id ∧ (d.thread e t).state = .ready then d.taskDone e t else d := by
  simp [TaskTurn.ends]

theorem TaskTurn.expires_expiry (d : Dev) (e t : Nat) : (TaskTurn.expiry e t).expires d = if d.taskWatched e t = false then d else
    ((((d.wasteWaiting e t).abortTask e t).bump (R.TSK_ABORTED (e / 16))).idleThread e t).setFlag
      (R.ENG_BLK_EVT (e / 8)) R.ENG_BLK_EVT.WDOG true := by
  simp [TaskTurn.expires, Dev.taskWatchdog]

theorem Dev.taskDispatch_none {used : List Nat} {n : Nat} (h : d.dispatchQueue used n = none) : d.taskDispatch used n = (used, d) := by
  rw [Dev.taskDispatch, h]

theorem Dev.taskDispatch_some {used : List Nat} {n q e th : Nat} {k : Task} (queue : d.dispatchQueue used n = some q)
    (task : d.nextTask n q = some k) (engine : d.bestEngine used n q = some e) (idle : (d.idleThreads e).head? = some th) :
    d.taskDispatch used n = (e / 8 :: used,
      let p := d.taskPart n
      let d := d.setTaskPart n { p with served := Map.put (fun _ => 255) p.served (d.queuePrio n q) q }
      ((d.setTask n { k with phase := .running e th }).startThread e th k.id).bump (R.TSK_DISPATCHED n)) := by
  simp only [Dev.taskDispatch, queue, task, engine, idle]

theorem Dev.supWatchdogExpiry_of (expires : d.due ⟨.supWatchdog, 0, 0⟩ = true ∧ d.fget R.SUP_WDOG R.SUP_WDOG.MS ≠ 0 ∧ d.coreRuns supCore = true) :
    d.supWatchdogExpiry =
      ((d.disarm ⟨.supWatchdog, 0, 0⟩).setFlag R.SUP_STAT R.SUP_STAT.WDOG_EXPIRED true).raise (.chipFatal 0x05 0x40 0) :=
  if_pos (by simpa [and_assoc] using expires)

theorem Dev.supWatchdogExpiry_of_not
    (rests : ¬(d.due ⟨.supWatchdog, 0, 0⟩ = true ∧ d.fget R.SUP_WDOG R.SUP_WDOG.MS ≠ 0 ∧ d.coreRuns supCore = true)) :
    d.supWatchdogExpiry = d :=
  if_neg (by simpa [and_assoc] using rests)

end

/-- Settles O41: an instruction on a task acts once issued, and what came to a task unit takes its turn as the clock ends. -/
theorem engineTasks : Obligations.EngineTasks := by
  refine ⟨fun c t s w x on => ?instructions, fun s on => ?turns⟩
  case instructions =>
    refine ⟨fun i => State.runDev_issue on i rfl, fun i => State.runDev_issue on i rfl, fun i => ⟨fun within => ?_, fun beyond => ?_⟩,
      fun i => State.runDev_issue on i (Dev.stage_disposition _ _ _ _ rfl), fun i => State.runDev_issue on i (Dev.stage_disposition _ _ _ _ rfl),
      fun i => ⟨State.runDev_issue on i rfl, fun d => TaskTurn.ends_done d _ _ _⟩,
      fun i => ⟨fun long => ?_, fun short beyond => ?_, fun short within => ?_⟩⟩
    · exact State.runDev_issue on i ((if_neg (Nat.not_lt.mpr within)).trans (Dev.stage_send _ _ _ _ rfl))
    · exact State.runDev_issue on i (if_pos beyond)
    · exact State.runDev_issue on i (if_pos long)
    · exact State.runDev_issue on i ((if_neg (Nat.not_lt.mpr short)).trans (if_pos beyond))
    · exact State.runDev_issue on i ((if_neg (Nat.not_lt.mpr short)).trans (if_neg (Nat.not_lt.mpr within)))
  case turns =>
    refine ⟨fun n => State.runDev_done on rfl, fun e t => State.runDev_done on rfl, fun m n queue acc => State.runCommand_done on acc rfl rfl,
      fun d => rfl, fun d used n => ⟨Dev.taskDispatch_none, fun q k e th => Dev.taskDispatch_some⟩, TaskTurn.expires_expiry,
      fun d n q => rfl, fun m acc => State.runCommand_done on acc rfl rfl,
      fun rests => State.runDev_done on (Dev.supWatchdogExpiry_of_not rests), fun expires => State.runDev_done on (Dev.supWatchdogExpiry_of expires)⟩

/-! ## Register windows -/

section
variable {s : State} {e t : Nat} {w : Word} {x : Thread} (on : s.dev.chip.state ≠ .off)
include on

theorem State.run_rdx (i : s.dev.Issues e t 0x16 w x) {g : State → State}
    (h : (s.onDev (·.startIssue e t)).atWindow e t (accessAddr w x) (fun p off =>
      if p < 5 then (s.onDev (·.startIssue e t)).onDev (·.windowRequest e t p (windowTag x (fieldD w)) x (.regr (coreMaster e) (BitVec.ofNat 32 off)))
      else
        let r := (s.onDev (·.startIssue e t)).readAccess (coreMaster e) off (some (5, fieldD w, 0))
        match r.1 with
        | some v => r.2.onDev (·.result e t x (fieldD w) v)
        | none => r.2.onDev (·.waitWindow e t x)) = g s) : s.run (fun s => s.rdx e t) = .next (s.did g) :=
  State.run_did on (by rw [State.rdx, Dev.issued_of i]; exact h)

theorem State.run_wrx (i : s.dev.Issues e t 0x17 w x) {g : State → State}
    (h : (s.onDev (·.startIssue e t)).atWindow e t (accessAddr w x) (fun p off =>
      if p < 5 then (s.onDev (·.startIssue e t)).onDev
        (·.windowRequest e t p (windowTag x 32) x (.regw (coreMaster e) (BitVec.ofNat 32 off) (x.reg (fieldD w))))
      else ((s.onDev (·.startIssue e t)).onDev (·.complete e t x)).writeAccess (coreMaster e) off 15 (x.reg (fieldD w))) = g s) :
    s.run (fun s => s.wrx e t) = .next (s.did g) :=
  State.run_did on (by rw [State.wrx, Dev.issued_of i]; exact h)

end

section
variable {s : State} {e t a : Nat} {k : Nat → Nat → State}

theorem State.onDev_onDev (s : State) (f g : Dev → Dev) : (s.onDev f).onDev g = s.onDev fun d => g (f d) := rfl

theorem State.atWindow_misaligned (h : a % 4 ≠ 0) : s.atWindow e t a k = s.onDev (·.threadFault e t 2) := if_pos h

theorem State.atWindow_outside (aligned : a % 4 = 0) (h : window e a = none) : s.atWindow e t a k = s.onDev (·.threadFault e t 3) := by
  rw [State.atWindow, if_neg (not_not_intro aligned), h]

theorem State.atWindow_at (aligned : a % 4 = 0) {p off : Nat} (h : window e a = some (p, off)) : s.atWindow e t a k = k p off := by
  rw [State.atWindow, if_neg (not_not_intro aligned), h]

end

/-- Settles O43: a window address is judged, and then leads to a Floor port or to the register itself. -/
theorem registerWindows : Obligations.RegisterWindows := by
  refine fun c t s w x on => ⟨fun i => ⟨fun bad => ?_, fun aligned out => ?_, fun aligned p off at_ port => ?_, fun aligned p off at_ direct => ?_⟩,
    fun i => ⟨fun bad => ?_, fun aligned out => ?_, fun aligned p off at_ port => ?_, fun aligned p off at_ direct => ?_⟩⟩
  · exact State.run_rdx on i ((State.atWindow_misaligned bad).trans (State.onDev_onDev ..))
  · exact State.run_rdx on i ((State.atWindow_outside aligned out).trans (State.onDev_onDev ..))
  · exact State.run_rdx on i ((State.atWindow_at aligned at_).trans (if_pos port))
  · refine ⟨fun y value => State.run_rdx on i ((State.atWindow_at aligned at_).trans ((if_neg (Nat.not_lt.mpr direct)).trans ?_)),
      fun waits => State.run_rdx on i ((State.atWindow_at aligned at_).trans ((if_neg (Nat.not_lt.mpr direct)).trans ?_))⟩
    · dsimp only; rw [value]
    · dsimp only; rw [waits]
  · exact State.run_wrx on i ((State.atWindow_misaligned bad).trans (State.onDev_onDev ..))
  · exact State.run_wrx on i ((State.atWindow_outside aligned out).trans (State.onDev_onDev ..))
  · exact State.run_wrx on i ((State.atWindow_at aligned at_).trans (if_pos port))
  · exact State.run_wrx on i ((State.atWindow_at aligned at_).trans (if_neg (Nat.not_lt.mpr direct)))

end Sys2Proof.Machine
end

section
/-! A cold start begins (R558, R560, R561, R578, R623, R624). -/

open Sys2Proof Sys2Proof.Machine

namespace Sys2Proof.Machine

/-! ## The supplies as the state becomes START-COLD -/

theorem Dev.stateEntered_exiting {d : Dev} (start : d.chip.state = .startCold) (old : ChipState) :
    (d.stateEntered old).supply.exiting = 0 := by
  simp [Dev.stateEntered, start, show ChipState.startCold.serving = false from rfl, Dev.when, Dev.disarm]

/-- The exit actions of stages end as a start takes their place. -/
theorem Dev.toState_startCold_exiting (d : Dev) :
    (d.toState .startCold).supply.exiting = if d.chip.state = .startCold then d.supply.exiting else 0 := by
  rw [Dev.toState]
  split
  case isTrue => rfl
  case isFalse =>
    refine Dev.each_induct (P := fun e => e.supply.exiting = 0) allPorts (Dev.stateEntered_exiting rfl _) fun p _ e none_ => ?_
    rw [(Dev.Same.refreshReady e p).supply, none_]

/-! ## What emptying the device keeps -/

/-- The device without its registers and its channels as a cold start empties it. -/
def Dev.emptyBase (d : Dev) : Dev :=
  { Dev.initial with
    now := d.now, free := d.free, chip := { d.chip with recoveryImage := false, laneStep := false }, log := d.log,
    dump := { d.dump with active := false },
    loader := { LoaderPart.init with slot0 := d.loader.slot0, slot1 := d.loader.slot1, runningOne := d.loader.runningOne,
                                     chipTag := d.loader.chipTag, rgnTag := d.loader.rgnTag },
    mgmt := { MgmtPart.init with refLost := d.mgmt.refLost }, supply := d.supply,
    engine := { EnginePart.init with loftZero := d.now }, out := d.out, raised := d.raised, clk := d.clk, before := d.before }

/-- A channel as a cold start leaves it: the data of its DRAM alone stay. -/
def DramPart.emptied (x : DramPart) : DramPart := { DramPart.init with array := x.array }

/-- The channels as a cold start leaves them. -/
def Dev.emptyDram (d : Dev) : NMap DramPart :=
  [0, 1, 2, 3].foldl (fun m n => Map.put (fun _ => DramPart.init) m n (d.dramOf n).emptied) d.emptyBase.dram

theorem Dev.emptyDram_get (d : Dev) {n : Nat} (low : n < 4) : Map.get (fun _ => DramPart.init) d.emptyDram n = (d.dramOf n).emptied := by
  simp only [Dev.emptyDram, List.foldl_cons, List.foldl_nil, Map.get_put]
  have : n = 0 ∨ n = 1 ∨ n = 2 ∨ n = 3 := by omega
  obtain rfl | rfl | rfl | rfl := this <;> rfl

theorem Dev.emptied_eq (d : Dev) : d.emptied = ((d.emptyBase.each (d.regs.filter fun x => [1, 10, 14].contains (x.1 / 0x10000))
    fun x e => e.wr x.1 (coldKept x.1 x.2)).each [0, 1, 2, 3] fun n e => e.setDram n (d.dramOf n).emptied).each (List.range 16)
      fun b e => e.setFlag (R.PB_STAT b) R.PB_STAT.REFCLK_OK (!d.mgmt.refLost.testBit b) := rfl

/-- A channel set changes no other part of the device. -/
theorem Dev.Same.setDram {d e : Dev} (same : Dev.Same d e) (n : Nat) (x : DramPart) :
    Dev.Same { d with dram := Map.put (fun _ => DramPart.init) d.dram n x } (e.setDram n x) :=
  { now := id same.now, chip := id same.chip, timers := id same.timers, frame := id same.frame, tables := id same.tables,
    host := id same.host, twin := id same.twin, floor := id same.floor, faults := id same.faults, time := id same.time,
    engine := id same.engine, dram := congrArg (fun m => Map.put (fun _ => DramPart.init) m n x) same.dram,
    supply := id same.supply, dump := id same.dump, start := id same.start }

theorem Dev.emptied_same (d : Dev) : Dev.Same { d.emptyBase with dram := d.emptyDram } d.emptied := by
  rw [Dev.emptied_eq]
  have regs : Dev.Same d.emptyBase (d.emptyBase.each (d.regs.filter fun x => [1, 10, 14].contains (x.1 / 0x10000))
      fun x e => e.wr x.1 (coldKept x.1 x.2)) := Dev.Same.each _ _ fun x e => Dev.Same.wr e x.1 (coldKept x.1 x.2)
  have channels := (((regs.setDram 0 (d.dramOf 0).emptied).setDram 1 (d.dramOf 1).emptied).setDram 2 (d.dramOf 2).emptied).setDram 3
    (d.dramOf 3).emptied
  exact channels.trans (Dev.Same.each _ _ fun b e => Dev.Same.setFlag e (R.PB_STAT b) R.PB_STAT.REFCLK_OK (!d.mgmt.refLost.testBit b))

/-! ## The start -/

/-- What the words of the start's own registers show, and the device emptied, before the start's part is set. -/
def coldBegun (s : State) (cause : Nat) : Dev :=
  let d := (s.dev.toState .startCold).emptied
  let a := R.STR_STAT
  let d := (d.setFlag a R.STR_STAT.RETAIN_OK false).fset a R.STR_STAT.LAST_KIND 0
  let d := ((d.fset a R.STR_STAT.CAUSE cause).bump R.STR_COLD_CNT).dumpLost
  let d := d.setFlag R.CAL_STAT R.CAL_STAT.COPY (((calChoice s).map (·.1)).getD false)
  let d := (d.setFlag R.CAL_STAT R.CAL_STAT.NO_COPY (calChoice s).isNone).setFlag R.CAL_STAT R.CAL_STAT.LANES_USER false
  d.fset R.CAL_STAT R.CAL_STAT.DRAM_USER 0

/-- The start at a step, with the copy of the user calibration that it uses. -/
def coldStepped (s : State) (cause step : Nat) : Dev :=
  { coldBegun s cause with start := { StartPart.at (coldBegun s cause).now step with userCal := (calChoice s).map (·.2) } }

theorem coldStart_early (s : State) (cause : Nat) {step : Nat} (early : step ≤ 1) :
    coldStart s cause step = { s with dev := (coldStepped s cause step).arm ⟨.startLimit, 0, 0⟩ (4000 * ms) } := by
  simp only [coldStart, early, ↓reduceIte]
  rfl

theorem coldStart_late (s : State) (cause : Nat) {step : Nat} (late : 1 < step) :
    coldStart s cause step = { s with dev := (coldStepped s cause step).timeCold.arm ⟨.startLimit, 0, 0⟩ (4000 * ms) } := by
  simp only [coldStart, Nat.not_le.mpr late, ↓reduceIte]
  rfl

theorem Dev.dumpLost_eq (d : Dev) : d.dumpLost =
    let lost := d.supply.sramLost && d.flag R.DUMP_STAT R.DUMP_STAT.ON_CHIP
    let d : Dev := { d with supply := { d.supply with sramLost := false } }
    if lost then d.setFlag R.DUMP_STAT R.DUMP_STAT.VALID false else d := rfl

theorem Dev.dumpLost_same (d : Dev) : Dev.Same { d with supply := { d.supply with sramLost := false } } d.dumpLost := by
  rw [Dev.dumpLost_eq]
  dsimp only
  split
  · exact Dev.Same.setFlag _ _ _ _
  · exact Dev.Same.refl _

theorem Dev.dumpLost_rd (d : Dev) {a : Nat} (other : a ≠ R.DUMP_STAT) : d.dumpLost.rd a = d.rd a := by
  rw [Dev.dumpLost_eq]
  dsimp only
  split
  · exact Dev.rd_wr_ne _ _ other
  · rfl

/-- Supplies whose retention is no longer in doubt (R624). -/
def SupplyPart.settled (x : SupplyPart) : SupplyPart := { x with sramLost := false }

theorem Dev.Same.settled {d e : Dev} (same : Dev.Same d e) :
    Dev.Same { d with supply := d.supply.settled } { e with supply := e.supply.settled } := by
  obtain ⟨now, chip, timers, frame, tables, host, twin, floor, faults, time, engine, dram, supply, dump, start⟩ := same
  exact ⟨now, chip, timers, frame, tables, host, twin, floor, faults, time, engine, dram, congrArg SupplyPart.settled supply, dump, start⟩

/-- But for registers, a device that begins a cold start is the emptied one, its supplies' retention no longer in doubt. -/
theorem coldBegun_same (s : State) (cause : Nat) :
    let e := s.dev.toState .startCold
    Dev.Same { e.emptyBase with dram := e.emptyDram, supply := e.supply.settled } (coldBegun s cause) := by
  intro e
  have words := ((e.emptied_same.trans (Dev.Same.setFlag _ R.STR_STAT R.STR_STAT.RETAIN_OK false)).trans
    (Dev.Same.fset _ R.STR_STAT R.STR_STAT.LAST_KIND 0)).trans
    ((Dev.Same.fset _ R.STR_STAT R.STR_STAT.CAUSE cause).trans (Dev.Same.bump _ R.STR_COLD_CNT 1))
  have lost := words.settled.trans (Dev.dumpLost_same _)
  exact (lost.trans (Dev.Same.setFlag _ _ _ _)).trans (((Dev.Same.setFlag _ _ _ _).trans (Dev.Same.setFlag _ _ _ _)).trans
    (Dev.Same.fset _ _ _ _))

theorem Dev.rd_fset_ne (d : Dev) {a b : Nat} (f : Fld) (v : Nat) (other : b ≠ a) : (d.fset a f v).rd b = d.rd b :=
  Dev.rd_wr_ne d _ other

theorem Dev.rd_setFlag_ne (d : Dev) {a b : Nat} (f : Fld) (v : Bool) (other : b ≠ a) : (d.setFlag a f v).rd b = d.rd b :=
  Dev.rd_wr_ne (d.notedSet a f.lo v) _ other

theorem Dev.rd_fset_same (d : Dev) (a : Nat) (f : Fld) (v : Nat) : (d.fset a f v).rd a = f.put (d.rd a) v := Dev.rd_wr_same d a _

theorem Dev.rd_setFlag_same (d : Dev) (a : Nat) (f : Fld) (v : Bool) : (d.setFlag a f v).rd a = f.put (d.rd a) (b2n v) :=
  Dev.rd_wr_same (d.notedSet a f.lo v) a _

/-- STR_STAT tells of the start (R560). -/
theorem coldBegun_strStat (s : State) (cause : Fin 12) : (coldBegun s cause).fget R.STR_STAT R.STR_STAT.CAUSE = cause
    ∧ (coldBegun s cause).fget R.STR_STAT R.STR_STAT.LAST_KIND = 0 ∧ (coldBegun s cause).fget R.STR_STAT R.STR_STAT.RETAIN_OK = 0 := by
  let w := (s.dev.toState .startCold).emptied.rd R.STR_STAT
  have word : (coldBegun s cause).rd R.STR_STAT = R.STR_STAT.CAUSE.put
      (R.STR_STAT.LAST_KIND.put (R.STR_STAT.RETAIN_OK.put w 0) 0) cause := by
    have cal : R.STR_STAT ≠ R.CAL_STAT := by decide
    have dump : R.STR_STAT ≠ R.DUMP_STAT := by decide
    rw [coldBegun, Dev.rd_fset_ne _ _ _ cal, Dev.rd_setFlag_ne _ _ _ cal, Dev.rd_setFlag_ne _ _ _ cal, Dev.rd_setFlag_ne _ _ _ cal,
      Dev.dumpLost_rd _ dump, Dev.rd_bump_ne _ _ (by decide) (by decide), Dev.rd_fset_same, Dev.rd_fset_same, Dev.rd_setFlag_same]
    rfl
  have kind := Fld.get_put_other R.STR_STAT.CAUSE R.STR_STAT.LAST_KIND
    (R.STR_STAT.LAST_KIND.put (R.STR_STAT.RETAIN_OK.put w 0) 0) cause (by decide) (by decide)
  have retain := Fld.get_put_other R.STR_STAT.CAUSE R.STR_STAT.RETAIN_OK
    (R.STR_STAT.LAST_KIND.put (R.STR_STAT.RETAIN_OK.put w 0) 0) cause (by decide) (by decide)
  refine ⟨?why, ?kind, ?retain⟩
  case why =>
    rw [Dev.fget, word, Fld.get_put _ _ _ (by decide)]
    exact Nat.mod_eq_of_lt (Nat.lt_trans cause.isLt (by decide))
  case kind =>
    rw [Dev.fget, word, kind, Fld.get_put _ _ _ (by decide)]; rfl
  case retain =>
    rw [Dev.fget, word, retain, Fld.get_put_other _ _ _ _ (by decide) (by decide), Fld.get_put _ _ _ (by decide)]; rfl

/-- Settles O54: the device is emptied but for what a cold start keeps, and the start's own part is set. -/
theorem coldStartBegins : Obligations.ColdStartBegins := by
  intro s cause
  obtain ⟨state, now, dram, supply, dump⟩ := Dev.toState_eq s.dev .startCold
  have same := coldBegun_same s cause
  refine ⟨fun k early => ?early, fun k late => ?late, Dev.dumpLost_eq⟩
  case early =>
    rw [coldStart_early s cause early]
    have now' : (coldBegun s cause).now = s.dev.now := same.now.trans now
    obtain ⟨causeIs, kind, retain⟩ := coldBegun_strStat s cause
    refine ⟨(congrArg (·.state) same.chip).trans state, rfl, now', now', causeIs, kind, retain, ?timers, same.frame, same.tables, same.host,
      same.twin, same.floor, same.faults, same.time, ?engine, fun n low => ?dram, ?supply, ?dump, rfl, rfl, rfl, rfl, rfl⟩
    case timers =>
      have none_ : (coldBegun s cause).timers = [] := same.timers
      simp only [Dev.arm, coldStepped, none_, List.filter_nil, List.nil_append, now']
    case engine => exact same.engine.trans (congrArg (fun t => ({ EnginePart.init with loftZero := t } : EnginePart)) now)
    case dram =>
      have channels : (coldBegun s cause).dram = (s.dev.toState .startCold).emptyDram := same.dram
      show (Map.get _ (coldBegun s cause).dram n).array = _
      rw [channels, Dev.emptyDram_get _ low, Dev.dramOf, dram]
      rfl
    case supply =>
      show (coldBegun s cause).supply = _
      rw [same.supply]
      dsimp only
      rw [supply, Dev.toState_startCold_exiting]
      rfl
    case dump =>
      show (coldBegun s cause).dump.area = _
      rw [same.dump]
      exact congrArg (·.area) dump
  case late =>
    rw [coldStart_late s cause late, coldStart_early s cause (Nat.le_refl 1)]
    have again : ({ (coldStepped s cause 1).arm ⟨.startLimit, 0, 0⟩ (4000 * ms) with
        start := { ((coldStepped s cause 1).arm ⟨.startLimit, 0, 0⟩ (4000 * ms)).start with step := k }, timers := [] } : Dev) =
        coldStepped s cause k := by
      have none_ : (coldBegun s cause).timers = [] := same.timers
      simp only [Dev.arm, coldStepped, StartPart.at, ← none_]
    exact congrArg (fun d : Dev => { s with dev := d.timeCold.arm ⟨.startLimit, 0, 0⟩ (4000 * ms) }) again.symm

end Sys2Proof.Machine
end

section
/-! SAG_N and the monitors (R582, R583, R676, R677), and the stages of shedding (R6, R7, R584 to R589, Table 14-10). -/

open Sys2Proof Sys2Proof.Machine

namespace Sys2Proof.Machine

/-! ## SAG_N and the monitors -/

/-- A rail's thresholds, each a stage with its entry and its exit, name the stages 1, 3 and 5. -/
theorem railThresholds_stages (rail : Nat) : ∃ a b c e f g, railThresholds rail = [(1, a, b), (3, c, e), (5, f, g)] :=
  ⟨_, _, _, _, _, _, rfl⟩

/-- A rail's monitor asks for stage k (R676). -/
def railAsks (rail old mv k : Nat) : Bool :=
  (railThresholds rail).any fun t => t.1 == k && (decide (mv ≤ t.2.1) || (decide (k ≤ old) && decide (mv ≤ t.2.2)))

/-- The deepest stage asked for is the largest of them. -/
theorem railRequest_eq (rail old mv : Nat) :
    ((railThresholds rail).filter fun t => decide (mv ≤ t.2.1) || (decide (t.1 ≤ old) && decide (mv ≤ t.2.2))).foldl (fun m t => max m t.1) 0 =
      if railAsks rail old mv 5 then 5 else if railAsks rail old mv 3 then 3 else if railAsks rail old mv 1 then 1 else 0 := by
  obtain ⟨a, b, c, e, f, g, stages⟩ := railThresholds_stages rail
  rw [railAsks, railAsks, railAsks, stages]
  generalize h1 : (decide (mv ≤ a) || (decide (1 ≤ old) && decide (mv ≤ b))) = p1
  generalize h3 : (decide (mv ≤ c) || (decide (3 ≤ old) && decide (mv ≤ e))) = p3
  generalize h5 : (decide (mv ≤ f) || (decide (5 ≤ old) && decide (mv ≤ g))) = p5
  simp only [List.filter_cons, List.filter_nil, List.any_cons, List.any_nil, h1, h3, h5]
  cases p1 <;> cases p3 <;> cases p5 <;> rfl

theorem signed_toNat (t : BitVec 11) : signed 11 t.toNat = t.toInt := by
  have := t.isLt
  rw [signed, BitVec.toInt_eq_toNat_cond]
  split <;> split <;> omega

theorem Dev.railCrossing_eq (d : Dev) (rail mv : Nat) : d.railCrossing rail mv =
    let old := Map.get (fun _ => 0) d.supply.rails rail
    let new := if railAsks rail old mv 5 then 5 else if railAsks rail old mv 3 then 3 else if railAsks rail old mv 1 then 1 else 0
    ({ d with supply := { d.supply with rails := Map.put (fun _ => 0) d.supply.rails rail new } } : Dev).monitorChanged old new := by
  rw [Dev.railCrossing, railRequest_eq]

/-- The stage that the thermal monitor asks for at temperature t (R677). -/
def thermalStage (old : Nat) (t : Int) : Nat :=
  if 4 * 155 ≤ t ∨ (5 ≤ old ∧ 4 * 140 ≤ t) then 5
  else if 4 * 153 ≤ t ∨ (4 ≤ old ∧ 4 * 149 ≤ t) then 4
  else if 4 * 151 ≤ t ∨ (1 ≤ old ∧ 4 * 147 ≤ t) then 1 else 0

theorem Dev.monitorChanged_eq (d : Dev) (old new : Nat) : d.monitorChanged old new =
    if old < new then (d.setFlag R.PWR_EVT R.PWR_EVT.MON true).refreshDwell else d.refreshDwell := by
  rw [Dev.monitorChanged, Dev.when]
  by_cases h : old < new <;> simp [h]

theorem Dev.thermalCrossing_eq (d : Dev) (temp : BitVec 11) : d.thermalCrossing temp.toNat =
    let new := thermalStage d.supply.thermal temp.toInt
    let e := d.fset R.CHIP_TEMP R.CHIP_TEMP.TEMP temp.toNat
    let e := if signed 11 (e.fget R.CHIP_TEMP_PEAK R.CHIP_TEMP_PEAK.PEAK) < temp.toInt
      then e.fset R.CHIP_TEMP_PEAK R.CHIP_TEMP_PEAK.PEAK temp.toNat else e
    ({ e with supply := { e.supply with thermal := new } } : Dev).monitorChanged d.supply.thermal new := by
  simp only [Dev.thermalCrossing, signed_toNat, thermalStage, Dev.when, Bool.or_eq_true, Bool.and_eq_true, decide_eq_true_eq]
  rfl

/-- Settles O58: each trigger's request follows its own thresholds, and the dwell timers follow the request. -/
theorem supplyMonitors : Obligations.SupplyMonitors := by
  intro s on mon
  refine ⟨fun high => ?_, fun low => ?_, State.runDev_done on rfl, fun k => ⟨fun due => ?_, fun early => ?_⟩, fun rail mv => ?_, rfl,
    fun temp => ?_⟩
  · exact State.runDev_done on (if_neg (by rw [high]; exact Bool.false_ne_true))
  · exact State.runDev_done on (if_pos low)
  · exact State.runDev_done on (if_pos due)
  · exact State.runDev_done on (if_neg (by rw [early]; exact Bool.false_ne_true))
  · exact State.runDev_done on ((Dev.railCrossing_eq s.dev rail mv.toNat).trans (Dev.monitorChanged_eq _ _ _))
  · exact State.runDev_done on ((Dev.thermalCrossing_eq s.dev temp).trans (Dev.monitorChanged_eq _ _ _))

/-! ## Stages of shedding -/

section
variable {d : Dev}

theorem Dev.shedEntry_none (h : d.stageNext = none) : d.shedEntry = d := by rw [Dev.shedEntry, h]

theorem Dev.shedEntry_some {k : Nat} (h : d.stageNext = some k) : d.shedEntry = d.noteCause (.deeper k) := by rw [Dev.shedEntry, h]

theorem Dev.stageNext_down (h : d.causeState = .held ∨ d.causeState = .off) : d.stageNext = none := if_pos h

theorem ChipState.serving_up {c : ChipState} (h : c.serving = true) : ¬(c = .held ∨ c = .off) := by
  rintro (rfl | rfl) <;> exact absurd h (by decide)

theorem Dev.stageNext_serving (serving : d.causeState.serving = true) : d.stageNext =
    if d.causeState.stage + 1 ≤ d.requested ∧ d.supply.exiting ≤ d.causeState.stage then some (d.causeState.stage + 1) else none := by
  rw [Dev.stageNext]
  simp [ChipState.serving_up serving, serving]

theorem Dev.stageNext_start (other : d.causeState.serving = false) (held : d.causeState ≠ .held) (off : d.causeState ≠ .off)
    (deepest : d.requested = 5) : d.stageNext = some 5 := by
  simp [Dev.stageNext, other, held, off, deepest]

theorem Dev.stageNext_other (other : d.causeState.serving = false) (less : d.requested ≠ 5) : d.stageNext = none := by
  simp [Dev.stageNext, other, less]

theorem Dev.noteCause_noted {c : Cause} (h : c ∈ d.clk.causes) : d.noteCause c = d := if_pos (List.contains_iff_mem.mpr h)

theorem Dev.noteCause_new {c : Cause} (h : c ∉ d.clk.causes) :
    d.noteCause c = { d with clk := { d.clk with causes := d.clk.causes ++ [c] } } := if_neg fun noted => h (List.contains_iff_mem.mp noted)

theorem Cause.rank_deeper (k : Nat) : (Cause.deeper k).rank = if k = 5 then 5 else 3 := by
  by_cases h : k = 5
  · rw [h]; rfl
  · rw [if_neg h, Cause.rank]
    exact fun five => h five

/-- The device once the causes overtaken in a clock are logged, a chip-fatal error among them counted too, and none is left (R6, R7). -/
def Dev.causesOvertaken (d : Dev) : Dev :=
  let after := d.each (d.clk.causes.filter (fun c => decide (c.rank < d.topCause))) (fun c d => d.logChip 0x0007 c.state.code)
  let after := if d.topCause ≤ 4 then after else
    let d := after.each (after.raised.filter (fun r => r.rank == 3)) (fun _ d => (d.bump R.ERR_CHIP_FATAL).logChip 0x0007 ChipState.recovery.code)
    { d with raised := d.raised.filter (fun r => r.rank != 3) }
  { after with clk := { after.clk with causes := [] } }

theorem Dev.resolveCauses_act (d : Dev) : d.resolveCauses =
    match d.clk.causes.find? (fun c => c.rank == d.topCause) with
    | some c => c.act d.causesOvertaken
    | none => d.causesOvertaken := by
  by_cases low : d.topCause ≤ 4
  · simp only [Dev.resolveCauses, Dev.causesOvertaken, low, Nat.not_lt.mpr low, ↓reduceIte] <;> rfl
  · simp only [Dev.resolveCauses, Dev.causesOvertaken, low, Nat.lt_of_not_le low, ↓reduceIte] <;> rfl

/-- The highest cause of a clock acts. -/
theorem Dev.resolveCauses_eq (d : Dev) : d.resolveCauses =
    match d.clk.causes.find? (fun c => c.rank == d.topCause) with
    | none => d.causesOvertaken
    | some (.deeper k) => d.causesOvertaken.enterDeeper k
    | some (.shallower r) => d.causesOvertaken.leaveTo r
    | some (.test drives) => d.causesOvertaken.enterTest drives := by
  rw [Dev.resolveCauses_act]
  generalize d.clk.causes.find? (fun c => c.rank == d.topCause) = found
  cases found with
  | none => rfl
  | some c => cases c <;> rfl

theorem Dev.enterDeeper_stage (d : Dev) {k : Nat} (h : k ≠ 5) : d.enterDeeper k = (d.enterStage k).refreshDwell := if_neg h

theorem Dev.stageCounted_one (d : Dev) : d.stageCounted 1 = (d.bump R.PWR_ENTER1).setFlag R.PWR_EVT R.PWR_EVT.STAGE_UP true := rfl

theorem Dev.stageCounted_two (d : Dev) : d.stageCounted 2 = (d.bump R.PWR_ENTER2).setFlag R.PWR_EVT R.PWR_EVT.STAGE_UP true := rfl

theorem Dev.stageCounted_three (d : Dev) : d.stageCounted 3 = (d.bump R.PWR_ENTER3).setFlag R.PWR_EVT R.PWR_EVT.STAGE_UP true := rfl

theorem Dev.stageCounted_four (d : Dev) : d.stageCounted 4 = (d.bump R.PWR_ENTER4).setFlag R.PWR_EVT R.PWR_EVT.STAGE_UP true := rfl

theorem Dev.stageCounted_five (d : Dev) : d.stageCounted 5 = (d.bump R.PWR_ENTER5).setFlag R.PWR_EVT R.PWR_EVT.STAGE_UP true := rfl

theorem Dev.enterDeeper_one (d : Dev) : d.enterDeeper 1 = (((d.drainAbandon.toState .shed1).bump R.PWR_ENTER1).setFlag R.PWR_EVT
    R.PWR_EVT.STAGE_UP true).portsFollowStage.refreshDwell := by
  rw [Dev.enterDeeper_stage d (by decide), Dev.enterStage]
  rw [Dev.stageCounted_one]

theorem Dev.enterDeeper_two (d : Dev) : d.enterDeeper 2 =
    (let d := ((d.drainAbandon.toState .shed2).bump R.PWR_ENTER2).setFlag R.PWR_EVT R.PWR_EVT.STAGE_UP true
    (d.enginesStop fun e => d.shedHalted e).engineShed.refreshDwell) := by
  rw [Dev.enterDeeper_stage d (by decide), Dev.enterStage]
  dsimp only
  rw [Dev.stageCounted_two]

theorem Dev.enterDeeper_three (d : Dev) : d.enterDeeper 3 = (((((d.drainAbandon.toState .shed3).bump R.PWR_ENTER3).setFlag R.PWR_EVT
    R.PWR_EVT.STAGE_UP true).each [0, 1, 2, 3] fun n d => d.dramSleep n .shed).hostShed 2 |>.hostShed 3).portsFollowStage.refreshDwell := by
  rw [Dev.enterDeeper_stage d (by decide), Dev.enterStage]
  rw [Dev.stageCounted_three]

theorem Dev.enterDeeper_four (d : Dev) : d.enterDeeper 4 = ((((d.drainAbandon.toState .shed4).bump R.PWR_ENTER4).setFlag R.PWR_EVT
    R.PWR_EVT.STAGE_UP true).portsFollowStage.hostShed 0 |>.hostShed 1).refreshDwell := by
  rw [Dev.enterDeeper_stage d (by decide)]
  simp only [Dev.enterStage, Dev.stageCounted_four]

theorem Dev.enterDeeper_five (d : Dev) : d.enterDeeper 5 = (
    let who := b2n (d.sagRequest == 5) + 2 * b2n (d.monitorRequest == 5)
    let d := ((d.drainAbandon.yieldLease.toState .shed5).bump R.PWR_ENTER5).setFlag R.PWR_EVT R.PWR_EVT.STAGE_UP true
    let d := d.each allPorts (fun p d => if (d.eport p).sending.isSome && (d.eport p).readsLeft == 0 then d.transmitComplete p else d)
    let d := ((d.logChip 0x0015 who).setFlag R.OUT_STAT R.OUT_STAT.SAFE true).enterHeld.heldHosts
    ({ d with supply := { d.supply with fromShed5 := true } } : Dev).refreshDwell) := by
  rw [Dev.enterDeeper, if_pos rfl, Dev.enterShed5]
  dsimp only
  rw [Dev.stageCounted_five, Dev.setSafe]

theorem Dev.exitNext_none (h : d.supply.exiting ≤ d.runState.stage) : d.exitNext = d := if_neg (Nat.not_lt.mpr h)

theorem Dev.exitNext_some (h : d.runState.stage < d.supply.exiting) : d.exitNext = d.exitStage d.supply.exiting := if_pos h

end

/-- Settles O59: the causes of a clock arise from what is requested, the highest acts, and stages go in and out one at a time. -/
theorem sheddingStages : Obligations.SheddingStages := by
  refine ⟨fun s on => ?arise, fun d => ?act⟩
  case arise =>
    intro st r notes
    refine ⟨fun down => ?_, fun serving rest => ?_, fun serving more free => ?_, fun other held off deepest => ?_, fun other less => ?_,
      fun rest => ?_, fun due less => ?_⟩
    · exact State.runDev_done on (Dev.shedEntry_none (Dev.stageNext_down down))
    · exact State.runDev_done on (Dev.shedEntry_none ((Dev.stageNext_serving serving).trans (if_neg fun ⟨more, free⟩ =>
        rest.elim (Nat.not_lt.mpr more) (Nat.not_lt.mpr free))))
    · exact State.runDev_done on (Dev.shedEntry_some ((Dev.stageNext_serving serving).trans (if_pos ⟨more, free⟩)))
    · exact State.runDev_done on (Dev.shedEntry_some (Dev.stageNext_start other held off deepest))
    · exact State.runDev_done on (Dev.shedEntry_none (Dev.stageNext_other other less))
    · refine State.runDev_done on (if_neg ?_)
      rw [Bool.and_eq_true, decide_eq_true_eq]
      rintro ⟨due, less⟩
      exact rest.elim (fun early => absurd due (by rw [early]; exact Bool.false_ne_true)) (Nat.not_le.mpr less)
    · refine State.runDev_done on (if_pos ?_)
      rw [Bool.and_eq_true, decide_eq_true_eq]
      exact ⟨due, less⟩
  case act =>
    refine ⟨fun c => ⟨Dev.noteCause_noted, Dev.noteCause_new⟩, fun k => ⟨Cause.rank_deeper k, rfl⟩, fun b => rfl, Dev.resolveCauses_eq d, Dev.enterDeeper_one d,
      Dev.enterDeeper_two d, Dev.enterDeeper_three d, Dev.enterDeeper_four d, Dev.enterDeeper_five d, fun r => rfl, Dev.exitNext_none, fun more => ?_⟩
    exact Dev.exitNext_some more

end Sys2Proof.Machine
end

section
/-! Writes and reads of registers (R635 to R649, R526, R550, R571, R603, R610, R644). -/

open Sys2Proof Sys2Proof.Machine

namespace Sys2Proof.Machine

/-! ## How a write is judged -/

section
variable {d : Dev} {m : Master} {off a : Nat}

theorem Dev.judgeWrite_unserved (be : Nat) (h : d.masterServed m = false) : d.judgeWrite m off be = (d, none) := by
  rw [Dev.judgeWrite, h]; rfl

section
variable (served : d.masterServed m = true)
include served

theorem Dev.judgeWrite_partial {be : Nat} (h : be ≠ 15) : d.judgeWrite m off be = (d.bump R.REG_PARTIAL_WR, none) := by
  rw [Dev.judgeWrite, served, Bool.not_true, if_neg Bool.false_ne_true, if_pos h]

theorem Dev.judgeWrite_reserved (h : decodeOffset off = none) : d.judgeWrite m off 15 = (d, none) := by
  simp [Dev.judgeWrite, served, h]

variable (place : decodeOffset off = some a)
include place

theorem Dev.judgeWrite_down (h : d.recoveryServes a = false ∨ d.regionServes a = false) : d.judgeWrite m off 15 = (d, none) := by
  have down : (!d.recoveryServes a || !d.regionServes a) = true := by simpa using h
  simp only [Dev.judgeWrite, served, place, down]
  rfl

variable (chip : d.recoveryServes a = true) (region : d.regionServes a = true)
include chip region

theorem Dev.judgeWrite_unprivileged (page : a / 0x10000 ≠ 3) (h : d.privileged m a = false) :
    d.judgeWrite m off 15 = (d.bump R.REG_UNPRIV, none) := by
  simp [Dev.judgeWrite, served, place, chip, region, page, h]

theorem Dev.judgeWrite_accepted (h : a / 0x10000 = 3 ∨ d.privileged m a = true) : d.judgeWrite m off 15 = (d, some a) := by
  by_cases page : a / 0x10000 = 3
  · simp [Dev.judgeWrite, served, place, chip, region, page]
  · simp [Dev.judgeWrite, served, place, chip, region, page, h.resolve_left page]

end

end

theorem Dev.instWrite_down {d : Dev} {n i off : Nat} (v : Word) (h : d.pageServes n i (pageOffset off) = false) :
    d.instWrite n i off 15 v = d := by
  simp [Dev.instWrite, h]

/-- A write that does not reach its register does what its judgement does. -/
theorem exec_registerWrite_refused {s : State} {m : Master} {off v : Word} {be : BitVec 4} {g : Dev → Dev} (on : s.dev.chip.state ≠ .off)
    (h : s.dev.judgeWrite m off.toNat be.toNat = (g s.dev, none)) : exec (.registerWrite m (.reg off) be v) s = .next (s.done g) := by
  have effect : s.registerWrite m (.reg off) be.toNat v = s.onDev g := by simp only [State.registerWrite, State.writeAccess, h]; rfl
  show s.run (·.registerWrite m (.reg off) be.toNat v) = _
  exact State.run_did on effect

theorem exec_registerWrite_accepted {s : State} {m : Master} {off v : Word} {a : Nat} (on : s.dev.chip.state ≠ .off)
    (h : s.dev.judgeWrite m off.toNat 15 = (s.dev, some a)) :
    exec (.registerWrite m (.reg off) 15 v) s = .next (s.did fun s => s.writeReg m a v) := by
  have effect : s.registerWrite m (.reg off) 15 v = s.writeReg m a v := by simp only [State.registerWrite, State.writeAccess, h]
  show s.run (·.registerWrite m (.reg off) 15 v) = _
  exact State.run_did on effect

/-- Settles O9: a write is judged by its master, its byte enables, its place and its privilege, in that order. -/
theorem registerWrites : Obligations.RegisterWrites := by
  intro m off v s on
  refine ⟨fun be down => ?unserved, fun be served partial_ => ?partialWrite, fun served => ⟨fun reserved => ?reserved, fun a place =>
    ⟨fun down => ?down, fun chip region => ⟨fun page unpriv => ?unprivileged, fun reaches => ?accepted⟩⟩⟩,
    fun h i at_ be partial_ => ?instPartial, fun h i at_ down => ?instDown⟩
  case unserved => exact exec_registerWrite_refused on (Dev.judgeWrite_unserved _ down)
  case partialWrite => exact exec_registerWrite_refused on (Dev.judgeWrite_partial served fun same => partial_ (BitVec.eq_of_toNat_eq same))
  case reserved => exact exec_registerWrite_refused on (Dev.judgeWrite_reserved served reserved)
  case down => exact exec_registerWrite_refused on (Dev.judgeWrite_down served place down)
  case unprivileged => exact exec_registerWrite_refused on (Dev.judgeWrite_unprivileged served place chip region page unpriv)
  case accepted => exact exec_registerWrite_accepted on (Dev.judgeWrite_accepted served place chip region reaches)
  case instPartial => exact State.runDev_done on (if_pos fun same => partial_ (BitVec.eq_of_toNat_eq same))
  case instDown =>
    exact State.runDev_done on (Dev.instWrite_down v down)

/-! ## Reads -/

/-- A register word that a read finds as it is stored: it lies outside the indirect page, and is no counter cell. -/
def readsWord (a : Nat) : Bool := a / 0x10000 != 3 && !isCell a

/-- A read of the word leaves nothing behind but a peak restarted. -/
def readsPeak (a : Nat) : Bool :=
  isPeak a && a != R.SUP_MBOX_OUT && a != R.SUP_MBOX_IN && (placeOf a (R.TB_NS 0) 64 4).isNone
    && (regionOf a).all fun n => a != R.LOFT_US_LO n

/-- The word is no peak. -/
def peakless (a : Nat) : Bool :=
  !isPeak a && a != R.CHIP_TEMP_PEAK && (regionOf a).all fun n => a != R.ACC_JRNL_PEAK n && (placeOf a (R.GRN_POOL_PEAK n 0) 16 8).isNone

theorem Dev.peakRead_peakless (d : Dev) {a : Nat} (h : peakless a = true) : d.peakRead a = d := by
  simp only [peakless, Bool.and_eq_true, bne_iff_ne] at h
  obtain ⟨⟨peak, temp⟩, regional⟩ := h
  rw [Dev.peakRead, if_neg temp]
  cases region : regionOf a with
  | none => rfl
  | some n =>
    rw [region] at regional
    simp only [Option.all_some, Bool.and_eq_true, bne_iff_ne, Option.isNone_iff_eq_none] at regional
    obtain ⟨journal, pool⟩ := regional
    dsimp only
    rw [if_neg journal, pool]

theorem Dev.when_peakRead (d : Dev) {a : Nat} (h : peakless a = true) (b : Bool) : d.when b (·.peakRead a) = d := by
  rw [Dev.when, Dev.peakRead_peakless d h, ite_self]

theorem Dev.readEffect_mailboxOut (d : Dev) (m : Master) : d.readEffect m R.SUP_MBOX_OUT = { d with mboxOut := false } := by
  rw [Dev.readEffect, Dev.when_peakRead d (by decide +kernel)]
  rfl

theorem Dev.readEffect_mailboxIn (d : Dev) :
    d.readEffect .supervisor R.SUP_MBOX_IN = d.setFlag R.SUP_STAT R.SUP_STAT.MBOX_FULL false := by
  rw [Dev.readEffect, Dev.when_peakRead d (by decide +kernel), if_neg (by decide), if_pos ⟨rfl, rfl⟩]

theorem Dev.readEffect_timeBase (d : Dev) (m : Master) (t : Fin 4) :
    d.readEffect m (R.TB_NS t) = d.setLatch (masterId m) (R.TB_FRAC t) (BitVec.ofNat 32 (d.tbase t).frac) := by
  have peak : ∀ t : Fin 4, peakless (R.TB_NS t) = true := by decide +kernel
  have out : ∀ t : Fin 4, R.TB_NS t ≠ R.SUP_MBOX_OUT := by decide
  have in_ : ∀ t : Fin 4, R.TB_NS t ≠ R.SUP_MBOX_IN := by decide
  have place : ∀ t : Fin 4, placeOf (R.TB_NS t) (R.TB_NS 0) 64 4 = some t.val := by decide
  rw [Dev.readEffect, Dev.when_peakRead d (peak t), if_neg (out t), if_neg fun both => in_ t both.1, place t]

theorem Dev.readEffect_loftUs (d : Dev) (m : Master) (n : Fin 4) : d.readEffect m (R.LOFT_US_LO n) =
    d.setLatch (masterId m) (R.LOFT_US_HI n) (BitVec.ofNat 32 (d.loftUs / 2 ^ 32)) := by
  have peak : ∀ n : Fin 4, peakless (R.LOFT_US_LO n) = true := by decide +kernel
  have out : ∀ n : Fin 4, R.LOFT_US_LO n ≠ R.SUP_MBOX_OUT := by decide
  have in_ : ∀ n : Fin 4, R.LOFT_US_LO n ≠ R.SUP_MBOX_IN := by decide
  have place : ∀ n : Fin 4, placeOf (R.LOFT_US_LO n) (R.TB_NS 0) 64 4 = none := by decide
  have region : ∀ n : Fin 4, regionOf (R.LOFT_US_LO n) = some n.val := by decide
  rw [Dev.readEffect, Dev.when_peakRead d (peak n), if_neg (out n), if_neg fun both => in_ n both.1, place n, region n]
  exact if_pos (beq_self_eq_true _)

theorem Dev.readEffect_peak (d : Dev) (m : Master) {a : Nat} (h : readsPeak a = true) :
    d.readEffect m a = d.when (d.privileged m a) (·.peakRead a) := by
  simp only [readsPeak, Bool.and_eq_true, bne_iff_ne, Option.isNone_iff_eq_none] at h
  obtain ⟨⟨⟨⟨_, out⟩, in_⟩, base⟩, loft⟩ := h
  rw [Dev.readEffect, if_neg out, if_neg fun both => in_ both.1, base]
  cases region : regionOf a with
  | none => rfl
  | some n =>
    rw [region] at loft
    have other : (a == R.LOFT_US_LO n) = false := beq_eq_false_iff_ne.mpr (by simpa using loft)
    dsimp only
    rw [other]
    rfl

section
variable {s : State} {m : Master} {off a : Nat}

/-- A read is answered at its place. -/
theorem State.readAccess_at (served : s.dev.masterServed m = true) (place : decodeOffset off = some a) (chip : s.dev.recoveryServes a = true)
    (region : s.dev.regionServes a = true) (reply : Option (Nat × Nat × Nat)) : s.readAccess m off reply = s.readReg m a reply := by
  simp [State.readAccess, served, place, chip, region]

theorem State.readAccess_answers (h : s.dev.Answers m a) (reply : Option (Nat × Nat × Nat)) : s.readAccess m a reply = s.readReg m a reply := by
  obtain ⟨served, place, chip, region, _⟩ := h
  exact State.readAccess_at served place chip region reply

theorem not_privileged_of {d : Dev} (h : regPrivileged a = true → d.privileged m a = true) : (regPrivileged a && !d.privileged m a) = false := by
  cases priv : regPrivileged a with
  | false => rfl
  | true => rw [h priv]; rfl

theorem State.readReg_word (plain : readsWord a = true) (priv : regPrivileged a = true → s.dev.privileged m a = true)
    (reply : Option (Nat × Nat × Nat)) : s.readReg m a reply =
      (some (if isPeak a then s.dev.was.readReg m a else s.dev.readReg m a), s.onDev (·.readEffect m a)) := by
  simp only [readsWord, Bool.and_eq_true, bne_iff_ne, Bool.not_eq_true'] at plain
  obtain ⟨page, cell⟩ := plain
  simp only [State.readReg, page, cell, not_privileged_of priv, Bool.false_eq_true, ↓reduceIte]

theorem State.readReg_cell (page : a / 0x10000 ≠ 3) (cell : isCell a = true) (priv : regPrivileged a = true → s.dev.privileged m a = true)
    (shown : s.dev.cellsHidden (s.dev.privileged m a) = false) (reply : Option (Nat × Nat × Nat)) : s.readReg m a reply =
      (some (s.dev.readCell (masterId m) a).1, { s with dev := (s.dev.readCell (masterId m) a).2 }) := by
  simp only [State.readReg, page, cell, not_privileged_of priv, shown, Bool.false_eq_true, ↓reduceIte]

theorem State.readReg_unprivileged (page : a / 0x10000 ≠ 3) (priv : regPrivileged a = true) (unpriv : s.dev.privileged m a = false)
    (reply : Option (Nat × Nat × Nat)) : s.readReg m a reply = (some 0, s.onDev (·.bump R.REG_UNPRIV)) := by
  simp [State.readReg, page, priv, unpriv]

/-- A read that has a value gives it to its master. -/
theorem State.hostRead_value {v : Word} {g : Dev → Dev} (h : s.readAccess m off none = (some v, s.onDev g)) :
    s.hostRead m off = s.onDev fun d => (g d).emit (.readData (masterId m) v) := by
  rw [State.hostRead, h]; rfl

theorem State.hostRead_word (answers : s.dev.Answers m a) (plain : readsWord a = true) (peak : isPeak a = false) :
    s.hostRead m a = s.onDev fun d => (d.readEffect m a).emit (.readData (masterId m) (s.dev.readReg m a)) := by
  have value := (State.readAccess_answers answers none).trans (State.readReg_word plain answers.2.2.2.2 none)
  rw [peak] at value
  exact State.hostRead_value value

theorem State.hostRead_peak (answers : s.dev.Answers m a) (plain : readsWord a = true) (peak : isPeak a = true) :
    s.hostRead m a = s.onDev fun d => (d.readEffect m a).emit (.readData (masterId m) (s.dev.was.readReg m a)) := by
  have value := (State.readAccess_answers answers none).trans (State.readReg_word plain answers.2.2.2.2 none)
  rw [peak] at value
  exact State.hostRead_value value

end

theorem Dev.readCell_upper {d : Dev} {a : Nat} (id : Nat) (upper : d.chainedUp a = true) : d.readCell id a = (d.latch id a, d) := if_pos upper

theorem Dev.readCell_lower {d : Dev} {a : Nat} (id : Nat) (lower : d.chainedUp a = false) :
    d.readCell id a = (d.rd a, d.when (d.chained a) fun d => d.setLatch id (a + 4) (d.rd (a + 4))) :=
  if_neg (by rw [lower]; exact Bool.false_ne_true)

section
variable {s : State} {h : Fin 4} {i : Fin 64} {at_ : BitVec 16} (on : s.dev.chip.state ≠ .off)
include on

/-- A read of a host page gives its function what the page holds, by either of the commands that stand for it. -/
theorem exec_pageRead {v : Word} {g : Dev → Dev} (value : s.dev.pageRead h i at_.toNat = (v, g s.dev)) (m : Master) :
    exec (.rcFieldRead m (.inst h i at_)) s = .next (s.done fun d => (g d).emit (.readData (s.dev.pageReader h i) v))
    ∧ exec (.chainedCounterRead m (.inst h i at_)) s = .next (s.done fun d => (g d).emit (.readData (s.dev.pageReader h i) v)) := by
  have effect : s.targetRead m (.inst h i at_) = s.onDev fun d => (g d).emit (.readData (s.dev.pageReader h i) v) := by
    rw [State.targetRead, value]; rfl
  exact ⟨State.run_did (act := fun s => s.targetRead m (.inst h i at_)) on effect,
    State.run_did (act := fun s => s.targetRead m (.inst h i at_)) on effect⟩

end

section
variable {d : Dev} {n i off : Nat}

theorem Dev.pageRead_down (h : d.pageServes n i (pageOffset off) = false) : d.pageRead n i off = (0, d) := by
  simp [Dev.pageRead, h]

variable (serves : d.pageServes n i (pageOffset off) = true)
include serves

theorem Dev.pageRead_word (cell : isCell (instPage n i + pageOffset off) = false) :
    d.pageRead n i off = (d.rd (instPage n i + pageOffset off), d) := by
  simp [Dev.pageRead, serves, cell]

theorem Dev.pageRead_cell (cell : isCell (instPage n i + pageOffset off) = true) : d.pageRead n i off =
    if d.chip.state.serving = true ∧ d.flag (R.INSTE_GRANT n i) R.INSTE_GRANT.CNT = true
      then d.readCell (d.pageReader n i) (instPage n i + pageOffset off) else (0, d) := by
  simp [Dev.pageRead, serves, cell]

end

section
variable {s : State} {m : Master} (on : s.dev.chip.state ≠ .off)
include on

/-- A read of a peak, by a master that may clear it or not. -/
theorem exec_peakRead {off : Word} {a : Nat} {g : Dev → Dev} (at_ : off.toNat = a) (answers : s.dev.Answers m off.toNat)
    (plain : readsWord a = true) (peak : readsPeak a = true) (effect : s.dev.when (s.dev.privileged m a) (·.peakRead a) = g s.dev) :
    exec (.rcFieldRead m (.reg off)) s = .next (s.done fun d => (g d).emit (.readData (masterId m) (s.dev.was.readReg m a))) := by
  subst at_
  have isPeak : isPeak off.toNat = true := by
    simp only [readsPeak, Bool.and_eq_true] at peak
    exact peak.1.1.1.1
  have value : s.targetRead m (.reg off) =
      s.onDev fun d => (g d).emit (.readData (masterId m) (s.dev.was.readReg m off.toNat)) := by
    have read := State.hostRead_peak answers plain isPeak
    rw [State.targetRead, read, State.onDev, Dev.readEffect_peak _ _ peak, effect]
    rfl
  exact State.run_did (act := fun s => s.targetRead m (.reg off)) on value

/-- A read of a word that is no peak, by one of the commands that stand for a read of their own register. -/
theorem run_hostRead {a : Nat} {g : Dev → Dev} (answers : s.dev.Answers m a) (plain : readsWord a = true) (peak : isPeak a = false)
    (effect : s.dev.readEffect m a = g s.dev) :
    s.run (fun s => s.hostRead m a) = .next (s.done fun d => (g d).emit (.readData (masterId m) (s.dev.readReg m a))) := by
  have value : s.hostRead m a = s.onDev fun d => (g d).emit (.readData (masterId m) (s.dev.readReg m a)) := by
    rw [State.hostRead_word answers plain peak, State.onDev, effect]
    rfl
  exact State.run_did (act := fun s => s.hostRead m a) on value

/-- A read that has a value at once gives it, by either of the commands that stand for reads at any place. -/
theorem exec_targetRead {off v : Word} {g : Dev → Dev} (h : s.readAccess m off.toNat none = (some v, s.onDev g)) :
    exec (.rcFieldRead m (.reg off)) s = .next (s.done fun d => (g d).emit (.readData (masterId m) v))
    ∧ exec (.chainedCounterRead m (.reg off)) s = .next (s.done fun d => (g d).emit (.readData (masterId m) v)) := by
  have value : s.targetRead m (.reg off) = s.onDev fun d => (g d).emit (.readData (masterId m) v) := State.hostRead_value h
  exact ⟨State.run_did (act := fun s => s.targetRead m (.reg off)) on value,
    State.run_did (act := fun s => s.targetRead m (.reg off)) on value⟩

end

/-- Settles O10: a read gives the word its place shows, and leaves behind what the word's kind says. -/
theorem registerReads : Obligations.RegisterReads := by
  intro m s on out peak
  refine ⟨fun off at_ answers => ⟨fun priv => ?tempClears, fun unpriv => ?tempStays⟩, fun n off at_ answers priv => ?journal,
    fun n p off at_ answers priv => ?pool, fun t answers => ?timeBase, fun n answers => ?loft, fun off a place page cell served chip region priv shown lower => ?lower,
    fun off a place page cell served chip region priv shown upper => ?upper, fun answers => ?mailboxOut, fun answers => ?mailboxIn,
    fun off a place page served chip region priv unpriv => ?unprivileged, fun h i at_ => ?page⟩
  case tempClears =>
    refine exec_peakRead (g := fun d => d.fset _ _ _) on at_ answers (by decide +kernel) (by decide +kernel) ?_
    rw [← at_, priv, at_]
    rfl
  case tempStays =>
    refine exec_peakRead (g := id) on at_ answers (by decide +kernel) (by decide +kernel) ?_
    rw [← at_, unpriv]
    rfl
  case journal =>
    have word : ∀ n : Fin 4, readsWord (R.ACC_JRNL_PEAK n) = true ∧ readsPeak (R.ACC_JRNL_PEAK n) = true := by decide +kernel
    have place : ∀ n : Fin 4, R.ACC_JRNL_PEAK n ≠ R.CHIP_TEMP_PEAK ∧ regionOf (R.ACC_JRNL_PEAK n) = some n.val := by decide
    refine exec_peakRead (g := fun d => d.fset _ _ _) on at_ answers (word n).1 (word n).2 ?_
    rw [← at_, priv, at_, Dev.when_true, Dev.peakRead, if_neg (place n).1, (place n).2]
    exact if_pos rfl
  case pool =>
    have word : ∀ (n : Fin 4) (p : Fin 8), readsWord (R.GRN_POOL_PEAK n p) = true ∧ readsPeak (R.GRN_POOL_PEAK n p) = true := by decide +kernel
    have place : ∀ (n : Fin 4) (p : Fin 8), R.GRN_POOL_PEAK n p ≠ R.CHIP_TEMP_PEAK ∧ regionOf (R.GRN_POOL_PEAK n p) = some n.val
        ∧ R.GRN_POOL_PEAK n p ≠ R.ACC_JRNL_PEAK n ∧ placeOf (R.GRN_POOL_PEAK n p) (R.GRN_POOL_PEAK n 0) 16 8 = some p.val := by decide
    obtain ⟨temp, region, journal, at'⟩ := place n p
    refine exec_peakRead (g := fun d => d.fset _ _ _) on at_ answers (word n p).1 (word n p).2 ?_
    rw [← at_, priv, at_, Dev.when_true, Dev.peakRead, if_neg temp, region]
    dsimp only
    rw [if_neg journal, at']
  case timeBase =>
    have word : ∀ t : Fin 4, readsWord (R.TB_NS t) = true ∧ isPeak (R.TB_NS t) = false := by decide +kernel
    exact run_hostRead on answers (word t).1 (word t).2 (Dev.readEffect_timeBase s.dev m t)
  case loft =>
    have word : ∀ n : Fin 4, readsWord (R.LOFT_US_LO n) = true ∧ isPeak (R.LOFT_US_LO n) = false := by decide +kernel
    exact run_hostRead on answers (word n).1 (word n).2 (Dev.readEffect_loftUs s.dev m n)
  case lower =>
    refine (exec_targetRead (g := fun d => d.when (d.chained a) fun d => d.setLatch (masterId m) (a + 4) (d.rd (a + 4))) on ?_).2
    rw [State.readAccess_at served place chip region, State.readReg_cell page cell priv shown, Dev.readCell_lower _ lower]
    rfl
  case upper =>
    refine (exec_targetRead (g := id) on ?_).2
    rw [State.readAccess_at served place chip region, State.readReg_cell page cell priv shown, Dev.readCell_upper _ upper]
    rfl
  case mailboxOut => exact run_hostRead on answers (by decide +kernel) (by decide +kernel) (Dev.readEffect_mailboxOut s.dev m)
  case mailboxIn => exact run_hostRead on answers (by decide +kernel) (by decide +kernel) (Dev.readEffect_mailboxIn s.dev)
  case unprivileged =>
    refine (exec_targetRead (g := fun d => d.bump R.REG_UNPRIV) on ?_).1
    rw [State.readAccess_at served place chip region, State.readReg_unprivileged page priv unpriv]
  case page =>
    intro o a gives counts
    refine ⟨fun down => ?_, fun serves word => ?_, fun serves cell hidden => ?_, fun serves cell shown lower => ?_, fun serves cell shown upper => ?_⟩
    · exact (exec_pageRead (g := id) on (Dev.pageRead_down down) m).1
    · exact (exec_pageRead (g := id) on (Dev.pageRead_word serves word) m).1
    · exact (exec_pageRead (g := id) on ((Dev.pageRead_cell serves cell).trans (if_neg hidden)) m).1
    · exact (exec_pageRead on ((Dev.pageRead_cell serves cell).trans ((if_pos shown).trans (Dev.readCell_lower _ lower))) m).2
    · exact (exec_pageRead (g := id) on ((Dev.pageRead_cell serves cell).trans ((if_pos shown).trans (Dev.readCell_upper _ upper))) m).2

end Sys2Proof.Machine
end

section
/-! The indirect pair (R655 to R660, R664). -/

open Sys2Proof Sys2Proof.Machine

namespace Sys2Proof.Machine

theorem Dev.ctx_setCtx (d : Dev) (m : Nat) (c : IndContext) : (d.setCtx m c).ctx m = c := Map.get_put_same _ _ _ _

section
variable {s : State} {m : Nat}

/-! ## An access at BUSY 0, and one that waits -/

theorem State.indAccess_idle (a : IndAccess) (idle : (s.dev.ctx m).busy = false) : s.indAccess m a = s.indPerform m a := by
  simp [State.indAccess, idle]

theorem State.indAccess_waits (a : IndAccess) (busy : (s.dev.ctx m).busy = true) : s.indAccess m a = s.onDev fun d =>
    let e := d.setCtx m { s.dev.ctx m with waiting := (s.dev.ctx m).waiting ++ [a] }
    if (s.dev.ctx m).waiting.isEmpty then e.arm ⟨.indWait, m, 0⟩ (2 * us) else e := by
  simp only [State.indAccess, busy]
  rfl

theorem State.indWrite_refused (v : Word) (aux : Bool)
    (refused : s.mayWrite (masterOf m) (s.dev.ctx m).space (s.dev.ctx m).region (s.dev.ctx m).at_ = false) :
    s.indWrite m v aux = (State.indAdvance { s with dev := s.dev.bump R.IND_REFUSED } m).prefetch m := by
  simp [State.indWrite, refused]

/-- But for the spaces named, no space has a rule of its own against a write. -/
theorem State.ruleRefuses_none {code : Nat} (h : code ∉ [1, 2, 3, 4, 0x40, 0x51]) (who : Master) (n addr : Nat) (v : Word) (aux : Bool) :
    s.ruleRefuses who code n addr v aux = false := by
  unfold State.ruleRefuses
  dsimp only
  split
  case h_7 => rfl
  all_goals exact absurd (by decide) h

theorem isBlow_other {code : Nat} (h : code ≠ 3) (addr : Nat) (v : Word) : isBlow code addr v = false := by
  simp [isBlow, h]

theorem State.indWrite_taken (v : Word) (aux : Bool)
    (taken : s.mayWrite (masterOf m) (s.dev.ctx m).space (s.dev.ctx m).region (s.dev.ctx m).at_ = true)
    (plain : (s.dev.ctx m).space ∉ [1, 2, 3, 4, 0x40, 0x51]) : s.indWrite m v aux =
      { s with dev := s.dev.setCtx m { s.dev.ctx m with busy := true, fetching := false, writing := some v } } := by
  have flash : ¬((s.dev.ctx m).space = 1 ∨ (s.dev.ctx m).space = 2) := by rintro (e | e) <;> simp [e] at plain
  have blow : (s.dev.ctx m).space ≠ 3 := fun e => by simp [e] at plain
  simp only [State.indWrite, taken, State.ruleRefuses_none plain, flash, isBlow_other blow, Bool.not_true, Bool.false_eq_true, ↓reduceIte]

end

/-! ## The registers of the pair -/

section
variable (s : State) (m : Master) (v : Word)

theorem State.writeReg_indCtl : s.writeReg m R.IND_CTL v = s.indAccess (masterId m) (.ctl v) := rfl

theorem State.writeReg_indAddr : s.writeReg m R.IND_ADDR v = s.indAccess (masterId m) (.addr v) := rfl

theorem State.writeReg_indData : s.writeReg m R.IND_DATA v = s.indAccess (masterId m) (.write v) := rfl

end

section
variable {s : State} {m : Master}

theorem State.readReg_indData_idle (idle : (s.dev.ctx (masterId m)).busy = false) (reply : Option (Nat × Nat × Nat)) :
    s.readReg m R.IND_DATA reply = (some (s.indRead (masterId m)).1, (s.indRead (masterId m)).2) := by
  have page : R.IND_DATA / 0x10000 = 3 := by decide
  have word : R.IND_DATA / 4 % 4 = 2 := by decide
  simp only [State.readReg, page, word, idle, Bool.false_eq_true, ↓reduceIte]

theorem State.readReg_indData_waits (busy : (s.dev.ctx (masterId m)).busy = true) (reply : Option (Nat × Nat × Nat)) :
    s.readReg m R.IND_DATA reply = (none, s.indAccess (masterId m) (.read reply)) := by
  have page : R.IND_DATA / 0x10000 = 3 := by decide
  have word : R.IND_DATA / 4 % 4 = 2 := by decide
  simp only [State.readReg, page, word, busy, ↓reduceIte]

theorem State.hostRead_indData_idle (answers : s.dev.Answers m R.IND_DATA) (idle : (s.dev.ctx (masterId m)).busy = false) :
    s.hostRead m R.IND_DATA =
      (s.indRead (masterId m)).2.onDev (·.emit (.readData (masterId m) (s.indRead (masterId m)).1)) := by
  rw [State.hostRead, State.readAccess_answers answers, State.readReg_indData_idle idle]

theorem State.hostRead_indData_waits (answers : s.dev.Answers m R.IND_DATA) (busy : (s.dev.ctx (masterId m)).busy = true) :
    s.hostRead m R.IND_DATA = s.indAccess (masterId m) (.read none) := by
  rw [State.hostRead, State.readAccess_answers answers, State.readReg_indData_waits busy]

end

/-! ## Completions and the limit of a wait -/

section
variable {s : State} {m : Nat}

theorem State.prefetchComplete_written {v : Word} (writing : (s.dev.ctx m).writing = some v) (boot : (s.dev.ctx m).space ≠ 1)
    (erase : (s.dev.ctx m).space ≠ 2) : s.prefetchComplete m =
      State.indWritten ((s.spaceWrite (s.dev.ctx m).space (s.dev.ctx m).region (s.dev.ctx m).at_ v).onDev fun d =>
        d.setCtx m { d.ctx m with busy := false, writing := none }) m := by
  rw [State.prefetchComplete]
  dsimp only
  rw [writing]
  exact if_neg (not_or.mpr ⟨boot, erase⟩)

section
variable (idle : (s.dev.ctx m).writing = none)
include idle

theorem State.prefetchComplete_idle (none_ : (s.dev.ctx m).fetching = false) : s.prefetchComplete m = s := by
  rw [State.prefetchComplete]
  dsimp only
  rw [idle, none_]
  rfl

theorem State.prefetchComplete_fetched (fetching : (s.dev.ctx m).fetching = true) (silo : (s.dev.ctx m).space ≠ 0x51)
    (boot : (s.dev.ctx m).space ≠ 1) (cell : isCell (spWord (s.dev.ctx m).space (s.dev.ctx m).region + (s.dev.ctx m).at_) = false) :
    s.prefetchComplete m =
      let r := s.fetchWord (s.dev.ctx m).space (s.dev.ctx m).region (s.dev.ctx m).at_
      State.indFree (r.2.onDev fun d => d.setCtx m { d.ctx m with buffer := r.1, busy := false, fetching := false }) m := by
  have goes : (!(s.dev.ctx m).fetching || (s.dev.ctx m).space == 0x51 || ((s.dev.ctx m).space == 1 && s.dev.loader.reading)) = false := by
    simp [fetching, silo, boot]
  rw [State.prefetchComplete]
  dsimp only
  rw [idle]
  dsimp only
  rw [goes, cell]
  rfl

end

section
variable {a : IndAccess} {rest : List IndAccess}

theorem State.waitTimeout_idle (idle : s.dev.armed ⟨.indWait, m, 0⟩ = false) : s.waitTimeout m = s := by
  have due : s.dev.due (waitTimer m) = false := idle
  simp [State.waitTimeout, due]

variable (armed : s.dev.armed ⟨.indWait, m, 0⟩ = true)
include armed

theorem State.waitTimeout_read (waiting : (s.dev.ctx m).waiting = .read none :: rest) : s.waitTimeout m = s.onDev fun d =>
    ((if rest.isEmpty then d.disarm ⟨.indWait, m, 0⟩ else d.arm ⟨.indWait, m, 0⟩ (2 * us)).setCtx m
      { s.dev.ctx m with waiting := rest, early := true }).emit (.readData m 0) := by
  have due : s.dev.due (waitTimer m) = true := armed
  rw [State.waitTimeout]
  dsimp only
  rw [due, waiting]
  rfl

theorem State.waitTimeout_write {v : Word} (waiting : (s.dev.ctx m).waiting = .write v :: rest) : s.waitTimeout m = s.onDev fun d =>
    ((if rest.isEmpty then d.disarm ⟨.indWait, m, 0⟩ else d.arm ⟨.indWait, m, 0⟩ (2 * us)).setCtx m
      { s.dev.ctx m with waiting := rest, overrun := true }).bump R.IND_OVERRUN := by
  have due : s.dev.due (waitTimer m) = true := armed
  rw [State.waitTimeout]
  dsimp only
  rw [due, waiting]
  rfl

end

end

/-! ## BLOW -/

/-- A master's context as it stands at BLOW of key slot k (Table 16-8). -/
def IndContext.atBlow (c : IndContext) (k : Nat) : IndContext := { c with ctl := 3#32, addr := BitVec.ofNat 32 (0x40 * k + 0x30), buffer := 0 }

theorem IndContext.atBlow_at (c : IndContext) (k : Fin 4) : (c.atBlow k).at_ = 0x40 * k + 0x30 := by
  have low := k.isLt
  show (BitVec.ofNat 32 (0x40 * k + 0x30)).toNat = _
  rw [BitVec.toNat_ofNat]
  omega

/-- BLOW of a slot that is not programmed, with something staged, is not refused by the fuses' own rule. -/
theorem State.ruleRefuses_blow {s : State} {k : Fin 4} (blank : (s.fuses.slot k).programmed = false)
    (staged : ∃ w < 12, s.dev.rd (spWord 0x03 0 + 0x40 * k + 4 * w) ≠ 0) (who : Master) (n : Nat) :
    s.ruleRefuses who 3 n (0x40 * k + 0x30) 0x80000000#32 true = false := by
  have low := k.isLt
  obtain ⟨w, small, word⟩ := staged
  have some_ : (s.dev.stagedHash k).all (· == 0) = false := by
    rw [List.all_eq_false]
    exact ⟨_, List.mem_map.mpr ⟨w, List.mem_range.mpr small, rfl⟩, by simpa using word⟩
  have slot : (0x40 * (k : Nat) + 0x30) / 0x40 = k := by omega
  have blow : isBlow 3 (0x40 * k + 0x30) 0x80000000#32 = true := by
    have : (0x40 * (k : Nat) + 0x30) % 0x40 = 0x30 := by omega
    simp [isBlow, this, show (0x40 * (k : Nat) + 0x30) < 0x100 by omega]
  have past : ¬(0x40 * (k : Nat) + 0x30 < 0x100 ∧ (0x40 * (k : Nat) + 0x30) % 0x40 < 0x30) := by omega
  show (if 0x40 * (k : Nat) + 0x30 < 0x100 ∧ (0x40 * (k : Nat) + 0x30) % 0x40 < 0x30 then (s.fuses.slot ((0x40 * k + 0x30) / 0x40)).programmed
    else if isBlow 3 (0x40 * k + 0x30) 0x80000000#32 then
      !true || (s.fuses.slot ((0x40 * k + 0x30) / 0x40)).programmed || (s.dev.stagedHash ((0x40 * k + 0x30) / 0x40)).all (· == 0)
    else false) = false
  rw [if_neg past, if_pos blow, slot, blank, some_]
  rfl

/-- A write of 1 to BLOW that nothing refuses blows its slot, with BUSY at 1. -/
theorem State.indWrite_blow {s : State} {m k : Nat} {v : Word} {aux : Bool} (space : (s.dev.ctx m).space = 3)
    (at_ : (s.dev.ctx m).at_ = 0x40 * k + 0x30) (low : k < 4) (one : v.getLsbD 31 = true)
    (may : s.mayWrite (masterOf m) 3 (s.dev.ctx m).region (0x40 * k + 0x30) = true)
    (rule : s.ruleRefuses (masterOf m) 3 (s.dev.ctx m).region (0x40 * k + 0x30) v aux = false) : s.indWrite m v aux =
      State.blow { s with dev := s.dev.setCtx m { s.dev.ctx m with busy := true, fetching := false, writing := some v } } k := by
  have slot : (0x40 * k + 0x30) / 0x40 = k := by omega
  have rest : (0x40 * k + 0x30) % 0x40 = 0x30 := by omega
  have blow : isBlow 3 (0x40 * k + 0x30) v = true := by simp [isBlow, rest, one, show 0x40 * k + 0x30 < 0x100 by omega]
  have flash : ¬((3 : Nat) = 1 ∨ (3 : Nat) = 2) := by decide
  simp only [State.indWrite, space, at_, may, rule, flash, blow, slot, Bool.not_true, Bool.false_eq_true, ↓reduceIte]

section
variable {s : State} {m : Master} {k : Fin 4}

theorem State.fuseBlow_unserved (aux : Bool) (h : s.dev.masterServed m = false) : s.fuseBlow m k aux = s := by
  simp [State.fuseBlow, h]

theorem State.fuseBlow_idle (aux : Bool) (served : s.dev.masterServed m = true) (idle : (s.dev.ctx (masterId m)).busy = false) :
    s.fuseBlow m k aux =
      State.indWrite { s with dev := s.dev.setCtx (masterId m) ((s.dev.ctx (masterId m)).atBlow k) } (masterId m) 0x80000000#32 aux := by
  simp [State.fuseBlow, served, idle, IndContext.atBlow]

theorem State.fuseBlow_blows (served : s.dev.masterServed m = true) (idle : (s.dev.ctx (masterId m)).busy = false)
    (may : s.mayWrite (masterOf (masterId m)) 3 0 (0x40 * k + 0x30) = true) (blank : (s.fuses.slot k).programmed = false)
    (staged : ∃ w < 12, s.dev.rd (spWord 0x03 0 + 0x40 * k + 4 * w) ≠ 0) :
    let blown := (s.dev.ctx (masterId m)).atBlow k
    s.fuseBlow m k true = State.blow (s.onDev fun d => (d.setCtx (masterId m) blown).setCtx (masterId m)
      { blown with busy := true, fetching := false, writing := some 0x80000000#32 }) k := by
  intro blown
  have ctx : (s.dev.setCtx (masterId m) blown).ctx (masterId m) = blown := Dev.ctx_setCtx _ _ _
  have space : blown.space = 3 := show R.IND_CTL.SPACE.get 3#32 = 3 by decide
  have region : blown.region = 0 := show R.IND_CTL.REGION.get 3#32 = 0 by decide
  let t : State := { s with dev := s.dev.setCtx (masterId m) blown }
  have taken := State.indWrite_blow (s := t) (m := masterId m) (k := k) (v := 0x80000000#32) (aux := true)
    ((congrArg IndContext.space ctx).trans space) ((congrArg IndContext.at_ ctx).trans (IndContext.atBlow_at _ k)) k.isLt (by decide)
    (by rw [show t.dev.ctx (masterId m) = blown from ctx, region]; exact may)
    (State.ruleRefuses_blow (s := t) blank staged _ _)
  rw [show t.dev.ctx (masterId m) = blown from ctx] at taken
  exact (State.fuseBlow_idle true served idle).trans taken

end

/-- Settles O12: an access to the pair acts at BUSY 0 and else waits, and what is in progress ends by its space. -/
theorem indirectPair : Obligations.IndirectPair := by
  intro m s on id_ c open_
  have write : ∀ {a v} {g : State → State}, s.dev.Accepts m a → s.writeReg m a v = g s →
      s.run (fun s => s.writeAccess m a 15 v) = .next (s.did g) := fun {a v g} acc effect =>
    State.run_did (act := fun s => s.writeAccess m a 15 v) on ((State.writeAccess_of v acc).trans effect)
  refine ⟨fun idle => ⟨fun v acc => ?ctl, fun v acc => ?addr, fun answers => ?read, fun v acc => ⟨fun refused => ?refused, fun may plain => ?taken⟩⟩,
    fun busy => ?waits, fun v writing boot erase => ?written, fun writing fetching => ?idle, fun writing fetching silo boot cell => ?fetched,
    fun armed a rest waiting => ?timeout, fun early => ?early, fun unserved k aux => ?unserved, fun k served idle may blank staged => ?blow⟩
  case ctl => exact write acc ((State.writeReg_indCtl s m v).trans (State.indAccess_idle _ idle))
  case addr => exact write acc ((State.writeReg_indAddr s m v).trans (State.indAccess_idle _ idle))
  case read => exact State.run_did (act := fun s => s.hostRead m R.IND_DATA) on (State.hostRead_indData_idle answers idle)
  case refused =>
    have effect := State.indWrite_refused (s := { s with dev := s.dev.freshBool.2 }) (m := id_) v s.dev.freshBool.1 refused
    exact write acc (((State.writeReg_indData s m v).trans (State.indAccess_idle _ idle)).trans effect)
  case taken =>
    have effect := State.indWrite_taken (s := { s with dev := s.dev.freshBool.2 }) (m := id_) v s.dev.freshBool.1 may plain
    exact write acc (((State.writeReg_indData s m v).trans (State.indAccess_idle _ idle)).trans effect)
  case waits =>
    intro waits
    refine ⟨fun v acc => ?_, fun v acc => ?_, fun v acc => ?_, fun answers => ?_⟩
    · exact write acc ((State.writeReg_indCtl s m v).trans (State.indAccess_waits _ busy))
    · exact write acc ((State.writeReg_indAddr s m v).trans (State.indAccess_waits _ busy))
    · exact write acc ((State.writeReg_indData s m v).trans (State.indAccess_waits _ busy))
    · exact State.run_did (act := fun s => s.hostRead m R.IND_DATA) on
        ((State.hostRead_indData_waits answers busy).trans (State.indAccess_waits _ busy))
  case written => exact State.run_did (act := fun s => s.prefetchComplete (masterId m)) on (State.prefetchComplete_written writing boot erase)
  case idle => exact State.run_did (act := fun s => s.prefetchComplete (masterId m)) on (State.prefetchComplete_idle writing fetching)
  case fetched =>
    exact State.run_did (act := fun s => s.prefetchComplete (masterId m)) on (State.prefetchComplete_fetched writing fetching silo boot cell)
  case timeout =>
    intro next
    refine ⟨fun read => ?_, fun v read => ?_⟩
    · subst read
      exact State.run_did (act := fun s => s.waitTimeout (masterId m)) on (State.waitTimeout_read armed waiting)
    · subst read
      exact State.run_did (act := fun s => s.waitTimeout (masterId m)) on (State.waitTimeout_write armed waiting)
  case early => exact State.run_did (act := fun s => s.waitTimeout (masterId m)) on (State.waitTimeout_idle early)
  case unserved => exact State.run_did (act := fun s => s.fuseBlow m k aux) on (State.fuseBlow_unserved aux unserved)
  case blow =>
    exact State.run_did (act := fun s => s.fuseBlow m k true) on (State.fuseBlow_blows served idle may blank staged)

end Sys2Proof.Machine
end

section
/-! The registers that act on the log, snapshots, interrupts, the UART and the mailbox (R483, R604, R605, R612, R613, R620, R630, R633,
R642). -/

open Sys2Proof Sys2Proof.Machine

namespace Sys2Proof.Machine

section
variable {d : Dev}

/-! ## The message of an EOI, and the snapshot of a clock -/

theorem Dev.intEoi_raised (h : d.intSummary = true) : d.intEoi = { d with clk := { d.clk with eoi := true } } := by
  rw [Dev.intEoi, h]; rfl

theorem Dev.intEoi_quiet (h : d.intSummary = false) : d.intEoi = d := by rw [Dev.intEoi, h]; rfl

theorem Dev.eoiMessage_sent {n : Nat} (eoi : d.clk.eoi = true) (free : d.clk.messaged = false) (deliverable : d.intDeliverable = true)
    (port : d.intPort = some n) : d.eoiMessage = d.msixSend n 0 1023 := by
  simp [Dev.eoiMessage, eoi, free, deliverable, port]

theorem Dev.eoiMessage_none (h : d.clk.eoi = false ∨ d.clk.messaged = true ∨ d.intDeliverable = false) : d.eoiMessage = d :=
  if_neg (by rcases h with h | h | h <;> simp [h])

theorem Dev.snapEnd_none (h : d.clk.snap = false) : d.snapEnd = d := if_pos (by rw [h]; rfl)

theorem Dev.snapEnd_taken (h : d.clk.snap = true) : d.snapEnd =
    let d : Dev := { d with clk := { d.clk with snap := false } }
    let held := d.flag R.SNAP_STAT R.SNAP_STAT.HELD_VALID
    let buf := if held then 1 - d.fget R.SNAP_STAT R.SNAP_STAT.HELD else 1 - d.fget R.SNAP_STAT R.SNAP_STAT.LATEST
    let d := (d.bump R.SNAP_TAKEN).fset R.SNAP_STAT R.SNAP_STAT.LATEST buf
    let cells := (List.range d.snapLen).map fun i => d.snapCell (d.rd (spWord 0x06 0 + 4 * i)).toNat
    let now : Snapshot := ⟨d.was.tbAll, d.was.time.mains.value, d.was.time.odo.value, (d.rd R.SNAP_TAKEN).toNat, cells⟩
    { d with snap := setAt d.snap buf now, time := { d.time with lastSnap := some d.now } } :=
  if_neg (by rw [h]; exact Bool.false_ne_true)

/-! ## The UART -/

theorem Dev.uartFrame_noStart (b : Byte) (stop : Bool) : d.uartFrame true b stop = d := if_pos rfl

theorem Dev.uartFrame_disabled (start : Bool) (b : Byte) (stop : Bool) (off : d.flag R.UART_CFG R.UART_CFG.EN = false) :
    d.uartFrame start b stop = d := if_pos (by simp [off])

section
variable (enabled : d.flag R.UART_CFG R.UART_CFG.EN = true) (free : d.chip.state ≠ .held)
include enabled free

theorem Dev.uart_on : (false || !d.flag R.UART_CFG R.UART_CFG.EN || d.chip.state == .held) = false := by simp [enabled, free]

theorem Dev.uartFrame_received (b : Byte) (room : d.uart.rx.length < 64) :
    d.uartFrame false b true = { d with uart := { d.uart with rx := d.uart.rx ++ [b] } } := by
  simp only [Dev.uartFrame, Dev.uart_on enabled free, room, Bool.false_eq_true, ↓reduceIte]

theorem Dev.uartFrame_overrun (b : Byte) (full : 64 ≤ d.uart.rx.length) :
    d.uartFrame false b true = (d.setFlag R.UART_STAT R.UART_STAT.OVERRUN true).bump R.UART_OVERRUN := by
  simp only [Dev.uartFrame, Dev.uart_on enabled free, Nat.not_lt.mpr full, Bool.false_eq_true, ↓reduceIte]

theorem Dev.uartFrame_break {b : Byte} (zero : b = 0) :
    d.uartFrame false b false = (d.setFlag R.UART_STAT R.UART_STAT.BREAK true).bump R.UART_BREAK := by
  simp only [Dev.uartFrame, Dev.uart_on enabled free, zero, Bool.false_eq_true, ↓reduceIte]

theorem Dev.uartFrame_framing {b : Byte} (some_ : b ≠ 0) :
    d.uartFrame false b false = (d.setFlag R.UART_STAT R.UART_STAT.FRAMING true).bump R.UART_FRAMING_ERR := by
  simp only [Dev.uartFrame, Dev.uart_on enabled free, some_, Bool.false_eq_true, ↓reduceIte]

theorem Dev.uartNext_takes (idle : d.uart.sending = none) :
    d.uartNext = { d with uart := { d.uart with sending := d.uart.tx.head?, tx := d.uart.tx.drop 1 } } :=
  if_neg (by simp [idle, enabled, free])

theorem Dev.uartSent_next {b : Byte} (sending : d.uart.sending = some b) : d.uartSent =
    let d := d.emit (.uart b)
    { d with uart := { d.uart with sending := d.uart.tx.head?, tx := d.uart.tx.drop 1 } } := by
  rw [Dev.uartSent, sending]
  exact Dev.uartNext_takes (d := ({ d with uart := { d.uart with sending := none } } : Dev).emit (.uart b)) enabled free rfl

theorem Dev.uartWrite_sends (b : Byte) (empty : d.uart.tx = []) (idle : d.uart.sending = none) :
    d.uartWrite b = { d with uart := { d.uart with sending := some b, tx := [] } } := by
  rw [Dev.uartWrite, empty, if_pos (by decide)]
  exact Dev.uartNext_takes (d := ({ d with uart := { d.uart with tx := [] ++ [b] } } : Dev)) enabled free idle

end

theorem Dev.uartNext_waits (h : d.uart.sending.isSome = true ∨ d.flag R.UART_CFG R.UART_CFG.EN = false) : d.uartNext = d :=
  if_pos (by rcases h with h | h <;> simp [h])

theorem Dev.uartWrite_full (b : Byte) (full : 64 ≤ d.uart.tx.length) : d.uartWrite b = d := if_neg (Nat.not_lt.mpr full)

theorem Dev.uartWrite_waits (b : Byte) (room : d.uart.tx.length < 64)
    (waits : d.uart.sending.isSome = true ∨ d.flag R.UART_CFG R.UART_CFG.EN = false) :
    d.uartWrite b = { d with uart := { d.uart with tx := d.uart.tx ++ [b] } } :=
  (if_pos room).trans (Dev.uartNext_waits (d := ({ d with uart := { d.uart with tx := d.uart.tx ++ [b] } } : Dev)) waits)

theorem Dev.uartSent_idle (idle : d.uart.sending = none) : d.uartSent = d := by rw [Dev.uartSent, idle]

end

/-! ## The mailbox -/

/-- A write of SUP_MBOX_IN stores its word and sets MBOX_FULL. -/
def mailboxSet (v : Word) (s : State) : State := s.onDev fun d => (d.plain R.SUP_MBOX_IN v).setFlag R.SUP_STAT R.SUP_STAT.MBOX_FULL true

/-- The mailbox holds fields, so a later master's write in the same clock prevails (R642). -/
theorem State.writeReg_supMboxIn (s : State) (m : Master) (v : Word) : s.writeReg m R.SUP_MBOX_IN v =
    let s' := mailboxSet v (s.onDev (·.noteWrite m R.SUP_MBOX_IN v))
    match lastWrite R.SUP_MBOX_IN m s.dev.clk.writers with
    | some w => mailboxSet (storedPart R.SUP_MBOX_IN w.2.2) s'
    | none => s' := by
  have page : ¬(R.SUP_MBOX_IN / 0x10000 = 3 ∨ R.SUP_MBOX_IN / 0x10000 = 6) := by decide
  have stores : storedPart R.SUP_MBOX_IN 0xFFFFFFFF ≠ 0 := by decide +kernel
  rw [State.writeReg, if_neg page]
  dsimp only
  generalize lastWrite R.SUP_MBOX_IN m s.dev.clk.writers = last
  cases last with
  | none => rfl
  | some w => exact if_neg stores

/-- Settles O11: each register acts on its own part, and what it asks for is done as the clock ends. -/
theorem serviceRegisters : Obligations.ServiceRegisters := by
  intro s on
  refine ⟨fun m acc => State.runCommand_done on acc rfl rfl, fun m acc => ⟨fun raised => ?_, fun quiet => ?_⟩,
    fun d => ⟨fun n => Dev.eoiMessage_sent, Dev.eoiMessage_none⟩,
    fun m acc => ⟨State.runCommand_done on acc rfl rfl, fun d => Dev.snapEnd_none, fun d => Dev.snapEnd_taken, State.runCommand_done on acc rfl rfl,
      State.runCommand_done on acc rfl rfl⟩,
    fun bits => ⟨fun stop => State.runDev_done on (Dev.uartFrame_noStart bits stop),
      fun off start stop => State.runDev_done on (Dev.uartFrame_disabled start bits stop off), fun enabled free => ?frame⟩,
    fun m acc => State.runCommand_done on acc rfl rfl,
    fun m byte acc => ⟨fun full => State.runCommand_done on acc rfl (Dev.uartWrite_full byte full),
      fun room waits => State.runCommand_done on acc rfl (Dev.uartWrite_waits byte room waits),
      fun empty idle enabled free => State.runCommand_done on acc rfl (Dev.uartWrite_sends enabled free byte empty idle)⟩,
    fun b sending enabled free => State.runDev_done on (Dev.uartSent_next enabled free sending),
    fun idle => State.runDev_done on (Dev.uartSent_idle idle), fun m v acc => ?mailbox⟩
  · exact State.runCommand_done on acc rfl (Dev.intEoi_raised raised)
  · exact State.runCommand_done on acc rfl (Dev.intEoi_quiet quiet)
  case frame =>
    exact ⟨fun room => State.runDev_done on (Dev.uartFrame_received enabled free bits room),
      fun full => State.runDev_done on (Dev.uartFrame_overrun enabled free bits full),
      fun zero => State.runDev_done on (Dev.uartFrame_break enabled free zero),
      fun some_ => State.runDev_done on (Dev.uartFrame_framing enabled free some_)⟩
  case mailbox =>
    exact State.run_did (act := fun s => s.writeAccess m R.SUP_MBOX_IN 15 v) on
      ((State.writeAccess_of v acc).trans (State.writeReg_supMboxIn s m v))

end Sys2Proof.Machine
end

section
/-! The rest of restarts (R10, R46 to R50, R66, R113, R114, R433), and the pipeline's slot, mirror copies, the Floor's retries and
the background slot (R30, R51, R58, R60, R354). -/

open Sys2Proof Sys2Proof.Machine

namespace Sys2Proof.Machine

section
variable {d : Dev}

/-! ## Restarts -/

theorem Dev.containedEnd_resumes {n k : Nat} (restarts : d.blockInRestart n k = true) : d.containedEnd n k =
    (((d.setFieldBit (R.RGN_STAT n) R.RGN_STAT.BLOCK_RESTART k false).disarm ⟨.containedBound, n, k⟩).setFieldBit
      (R.RGN_ERR n) R.RGN_ERR.CONTAINED k true).blockResumes n k := by rw [Dev.containedEnd, restarts]; rfl

theorem Dev.containedEnd_idle {n k : Nat} (idle : d.blockInRestart n k = false) : d.containedEnd n k = d := by
  rw [Dev.containedEnd, idle]; rfl

theorem Dev.regionEnd_waits {n : Nat}
    (h : d.armed ⟨.regionBound, n, 0⟩ = false ∨ d.flag (R.TBL_STAT n) R.TBL_STAT.READY = false) : d.regionEnd n = d :=
  if_pos (by rcases h with h | h <;> simp [Dev.regionUnitsReady, h])

/-- What a region's restart does as it ends. -/
def Dev.regionServesAgain (d : Dev) (n : Nat) : Dev :=
  let d := (((d.disarm ⟨.regionBound, n, 0⟩).fset (R.RGN_STAT n) R.RGN_STAT.STATE 0).setFieldBit R.FLR_STAT
    R.FLR_STAT.IN_RESTART n false).setFlag (R.RGN_ERR n) R.RGN_ERR.REGION_FATAL true
  let d := (d.setFlag (R.ACC_STAT n) R.ACC_STAT.READY true).setFlag (R.GRN_STAT n) R.GRN_STAT.READY true
  let d := (((((d.requestReplay n none).replayToward n).enginesReady n).bootRegion n 2).hostRestarted n).instEnable n
  let d := d.each (regionPorts n) fun p d => d.refreshEnabled p
  if d.loader.relaying = some n then
    let d := (d.setFlag R.LDR_RELAYOUT R.LDR_RELAYOUT.ACTIVE false).setRegionTag n
    ({ d with loader := { d.loader with relaying := none } } : Dev).setFlag R.LDR_STAT R.LDR_STAT.RELAYOUT_DONE true
  else d

theorem Dev.regionEnd_serves {n : Nat} (armed : d.armed ⟨.regionBound, n, 0⟩ = true) (ready : d.regionUnitsReady n = true) :
    d.regionEnd n = d.regionServesAgain n := by rw [Dev.regionEnd, armed, ready]; rfl

theorem Dev.regionUnitsReady_of {n : Nat} (up : (d.fget R.FLR_STAT R.FLR_STAT.PORT_UP).testBit n = true)
    (wnw : d.flag (R.WNW_STAT n) R.WNW_STAT.READY = true) (tbl : d.flag (R.TBL_STAT n) R.TBL_STAT.READY = true) :
    d.regionUnitsReady n = true := by simp [Dev.regionUnitsReady, up, wnw, tbl]

theorem Dev.restartWarm_nothing {n : Nat} (h : d.regionRuns n = false ∨ d.loader.draining = some n) : d.restartWarm n = d :=
  if_pos (by rcases h with h | h <;> simp [h])

section
variable {n : Nat} (runs : d.regionRuns n = true) (free : d.loader.draining ≠ some n)
include runs free

theorem Dev.restartWarm_acts : d.restartWarm n = if d.relayoutArmed n then d.drainStart n else d.regionRestart n :=
  if_neg (by simp [runs, free])

theorem Dev.restartWarm_drains (armed : d.relayoutArmed n = true) : d.restartWarm n = d.drainStart n := by
  rw [Dev.restartWarm_acts runs free, if_pos armed]

theorem Dev.restartWarm_restarts (plain : d.relayoutArmed n = false) : d.restartWarm n = d.regionRestart n := by
  rw [Dev.restartWarm_acts runs free, plain, if_neg Bool.false_ne_true]

end

theorem Dev.regionRestart_undrained {n : Nat} (free : d.loader.draining ≠ some n) : d.regionRestart n =
    let d := if d.grainsBad n then d.regionFresh n else d
    let d := ((d.dropContained n).fset (R.RGN_STAT n) R.RGN_STAT.STATE 1).setFieldBit R.FLR_STAT R.FLR_STAT.IN_RESTART n true
    let d := (d.advanceGen n).saturatingAdd (R.RGN_STAT n) R.RGN_STAT.REGION_RESTARTS 1
    (((d.arm ⟨.regionBound, n, 0⟩ (20 * ms)).regionNotReady n).regionUnits n).refreshRegion n := by
  rw [Dev.regionRestart, if_neg free]; rfl

/-! ## The pipeline's slot -/

section
variable {n : Nat} (up : d.pipelineUp n = true) (free : d.frame.busy.testBit n = false)
include up free

theorem Dev.slotGrant_copy {x : Copy} {rest : List Copy} (copies : Map.get (fun _ => []) d.frame.copies n = x :: rest) :
    d.slotGrant n =
      let d : Dev := { d with frame := { d.frame with copies := Map.put (fun _ => []) d.frame.copies n rest } }
      let d := match x with
        | .port y => (d.takeSlot n).sendEnq y
        | .engine q y => (d.takeSlot n).enterTask n q (Task.make 2 (frameWords y) (some y) none)
      d.bumpPerf (R.PIPE_SLOT_RETIRED n) := by
  rw [Dev.slotGrant, up, free, copies]; rfl

theorem Dev.slotGrant_new {l : Landing} (copies : Map.get (fun _ => []) d.frame.copies n = []) (next : d.nextOffered n = some l) :
    d.slotGrant n =
      (({ d with frame := { d.frame with turn := Map.put (fun _ => 6) d.frame.turn n l.origin.group } } : Dev).takeSlot n).grantNew l := by
  rw [Dev.slotGrant, up, free, copies]; dsimp only; rw [next]; rfl

theorem Dev.slotGrant_mirror {x : Nat × Descr} {rest : List (Nat × Descr)} (copies : Map.get (fun _ => []) d.frame.copies n = [])
    (none_ : d.nextOffered n = none) (waits : Map.get (fun _ => []) d.frame.mirrorWait n = x :: rest) : d.slotGrant n =
      let d : Dev := { d with frame := { d.frame with mirrorWait := Map.put (fun _ => []) d.frame.mirrorWait n rest } }
      ((d.takeSlot n).sendEnq x.2).bumpPerf (R.PIPE_SLOT_RETIRED n) := by
  rw [Dev.slotGrant, up, free, copies]; dsimp only; rw [none_, waits]; rfl

end

theorem Dev.slotGrant_none {n : Nat} (h : d.pipelineUp n = false ∨ d.frame.busy.testBit n = true) : d.slotGrant n = d :=
  if_pos (by rcases h with h | h <;> simp [h])

theorem Dev.mirrorTimeout_drops {n : Nat} {x : Nat × Descr} {rest : List (Nat × Descr)}
    (waits : Map.get (fun _ => []) d.frame.mirrorWait n = x :: rest) : d.mirrorTimeout n =
      let d : Dev := { d with frame := { d.frame with mirrorWait := Map.put (fun _ => []) d.frame.mirrorWait n rest } }
      (d.bump (R.MIR_WAIT_DROP n)).queueRelease n x.2.head := by rw [Dev.mirrorTimeout, waits]

theorem Dev.mirrorTimeout_none {n : Nat} (none_ : Map.get (fun _ => []) d.frame.mirrorWait n = []) : d.mirrorTimeout n = d := by
  rw [Dev.mirrorTimeout, none_]

/-! ## The Floor's retries -/

/-- The count of failures in succession of a path of the Floor (R51). -/
def Dev.countFailures (k x : Nat) (d : Dev) : Dev :=
  { d with floor := { d.floor with failures := Map.put (fun _ => 0) d.floor.failures k x } }

/-- A transfer whose retries are exhausted, before the loop-back test names a port. -/
def Dev.retryExhausted (src dst : Nat) (d : Dev) : Dev :=
  ((Dev.countFailures (pathKey src dst) 0 ((d.bump R.FLR_RETRY_CNT).corrected 0 0xF none)).setFlag R.FLR_ERR
    R.FLR_ERR.RETRY_EXHAUSTED true).floorPath src dst

/-- The failures in succession with this one. -/
def Dev.failuresNow (d : Dev) (src dst : Nat) : Nat := Map.get (fun _ => 0) d.floor.failures (pathKey src dst) + 1

theorem Dev.transferRetry_again {src dst : Nat} (a b : Bool)
    (few : d.failuresNow src dst < max 1 (d.fget R.FLR_CFG R.FLR_CFG.RETRY_LIMIT)) : d.transferRetry src dst a b =
      Dev.countFailures (pathKey src dst) (d.failuresNow src dst) ((d.bump R.FLR_RETRY_CNT).corrected 0 0xF none) := if_pos few

theorem Dev.transferRetry_exhausted {src dst : Nat} (a b : Bool)
    (many : max 1 (d.fget R.FLR_CFG R.FLR_CFG.RETRY_LIMIT) ≤ d.failuresNow src dst) : d.transferRetry src dst a b =
      let fatal := fun (d : Dev) (p : Nat) =>
        if p < 4 then ((d.setFlag R.FLR_ERR R.FLR_ERR.PATH_FATAL true).escalation p 0xF 0 2 2).raise (.regionFatal p 0 0)
        else (d.escalation 0 0xF 0 3 2).floorFatal 0x08
      if !a then fatal (d.retryExhausted src dst) src else if !b then fatal (d.retryExhausted src dst) dst
      else ((d.retryExhausted src dst).escalation 0 0xF 0 3 2).floorFatal 0x01 := if_neg (Nat.not_lt.mpr many)

/-! ## The background slot -/

theorem Dev.backgroundGrant_none {n bank : Nat}
    (h : d.backgroundPending n bank = false ∨ ¬Map.get (fun _ => 0) d.frame.background (112 * n + bank) + 64 ≤ d.now) :
    d.backgroundGrant n bank = d := if_pos (by rcases h with h | h <;> simp [Dev.backgroundDue, h])

section
variable {n bank : Nat} (pending : d.backgroundPending n bank = true)
  (due : Map.get (fun _ => 0) d.frame.background (112 * n + bank) + 64 ≤ d.now)
include pending due

theorem Dev.backgroundGrant_serves : d.backgroundGrant n bank =
    let e := d.backgroundServed n [bank]
    if 64 ≤ bank then (if (e.ring n (bank % 4)).wantsRefill then e.ringRefilled n (bank % 4) else e.ringBacked n (bank % 4))
    else if bank < 64 ∧ d.offered n ∧ !d.frame.busy.testBit n then (e.takeSlot n).bumpPerf (R.PIPE_SLOT_BACK n) else e :=
  if_neg (by simp [pending, Dev.backgroundDue, due])

theorem Dev.backgroundGrant_ring (ringBank : 64 ≤ bank) : d.backgroundGrant n bank =
    let e := d.backgroundServed n [bank]
    if (e.ring n (bank % 4)).wantsRefill then e.ringRefilled n (bank % 4) else e.ringBacked n (bank % 4) :=
  (Dev.backgroundGrant_serves pending due).trans (if_pos ringBank)

theorem Dev.backgroundGrant_takes (tableBank : bank < 64) (offered : d.offered n = true) (free : d.frame.busy.testBit n = false) :
    d.backgroundGrant n bank = ((d.backgroundServed n [bank]).takeSlot n).bumpPerf (R.PIPE_SLOT_BACK n) :=
  (Dev.backgroundGrant_serves pending due).trans ((if_neg (Nat.not_le.mpr tableBank)).trans (if_pos ⟨tableBank, offered, by simp [free]⟩))

theorem Dev.backgroundGrant_idle (tableBank : bank < 64) (quiet : d.offered n = false) :
    d.backgroundGrant n bank = d.backgroundServed n [bank] :=
  (Dev.backgroundGrant_serves pending due).trans ((if_neg (Nat.not_le.mpr tableBank)).trans (if_neg (by simp [quiet])))

end
end

/-- Settles O14: each event of a restart is judged by the region's or block's own state, and does what its rule gives. -/
theorem restartsRun : Obligations.RestartsRun := by
  intro n s on
  refine ⟨fun k armed => State.runDev_done on (if_pos armed), fun armed => State.runDev_done on (if_pos armed),
    fun k idle => State.runDev_done on (if_neg (Bool.not_eq_true _ ▸ idle)),
    fun k restarts => State.runDev_done on (Dev.containedEnd_resumes restarts),
    fun k idle => State.runDev_done on (Dev.containedEnd_idle idle),
    fun armed up wnw tbl => State.runDev_done on (Dev.regionEnd_serves armed (Dev.regionUnitsReady_of up wnw tbl)),
    fun h => State.runDev_done on (Dev.regionEnd_waits h),
    fun m acc => ⟨fun h => State.runCommand_done on acc rfl (Dev.restartWarm_nothing h), fun runs free armed => ?_,
      fun runs free plain => ?_⟩⟩
  · exact State.runCommand_done on acc rfl (Dev.restartWarm_drains runs free armed)
  · exact State.runCommand_done on acc rfl ((Dev.restartWarm_restarts runs free plain).trans (Dev.regionRestart_undrained free))

/-- Settles O16: the slot, the mirror copies and the Floor's retries follow the arbiter's cases, and a background request takes its
clock. -/
theorem slotsAndRetries : Obligations.SlotsAndRetries := by
  intro s on
  refine ⟨fun n => ⟨fun h => State.runDev_done on (Dev.slotGrant_none h), fun free x rest copies => ?copy, fun free copies l next => ?new,
    fun free copies none_ x rest waits => ?mirror, fun x rest waits => State.runDev_done on (Dev.mirrorTimeout_drops waits),
    fun none_ => State.runDev_done on (Dev.mirrorTimeout_none none_)⟩,
    fun src dst a b => ⟨fun few => State.runDev_done on (Dev.transferRetry_again a b few), fun many => ?exhausted⟩,
    fun n bank => ⟨fun pending due table offered free => ?takes, fun pending due table quiet => ?idle, fun pending due ring => ?ring,
      fun h => State.runDev_done on (Dev.backgroundGrant_none h)⟩⟩
  case copy => exact State.runDev_done on (Dev.slotGrant_copy free.1 free.2 copies)
  case new => exact State.runDev_done on (Dev.slotGrant_new free.1 free.2 copies next)
  case mirror => exact State.runDev_done on (Dev.slotGrant_mirror free.1 free.2 copies none_ waits)
  case exhausted =>
    have chipPort : src.val = 4 → ¬src.val < 4 := by omega
    exact ⟨fun region => State.runDev_done on ((Dev.transferRetry_exhausted false b many).trans (if_pos region)),
      fun region => State.runDev_done on ((Dev.transferRetry_exhausted true false many).trans (if_pos region)),
      fun chip => State.runDev_done on ((Dev.transferRetry_exhausted false b many).trans (if_neg (chipPort chip))),
      State.runDev_done on (Dev.transferRetry_exhausted true true many)⟩
  case takes => exact State.runDev_done on (Dev.backgroundGrant_takes pending due table offered free)
  case idle => exact State.runDev_done on (Dev.backgroundGrant_idle pending due table quiet)
  case ring => exact State.runDev_done on (Dev.backgroundGrant_ring pending due ring)

end Sys2Proof.Machine
end

section
/-! Requests and responses that reach a Floor port (R28, R41 to R48, R342, R426, R428, R435, R643). -/

open Sys2Proof Sys2Proof.Machine

namespace Sys2Proof.Machine

section
variable {d : Dev} {m : FloorMsg} {src dst : Nat}

/-- The port of a region that is in restart or not enabled answers nothing that comes from another (R47, R49). -/
def Dev.floorDown (d : Dev) (src dst : Nat) : Prop :=
  src ≠ dst ∧ dst < 4 ∧ (!d.regionRuns dst || !d.regionEnabled dst) = true

theorem Dev.floorDown_iff (d : Dev) (src dst : Fin 4) :
    d.floorDown src dst ↔ src ≠ dst ∧ (d.regionRuns dst = false ∨ d.regionEnabled dst = false) := by
  simp [Dev.floorDown, Fin.ext_iff]

/-! ## Requests -/

section
variable {isKind : FloorBody → Bool} {serve : FloorMsg → Dev → Dev} (head : d.headMsg true src dst = some m) (kind : isKind m.body = true)
include head kind

theorem Dev.requestArrives_stale (stale : (d.takeMsg true src dst).isStale m = true) :
    d.requestArrives src dst isKind serve = (d.takeMsg true src dst).staleDiscard m := by
  rw [Dev.requestArrives, head]; dsimp only; rw [kind, stale]; rfl

theorem Dev.requestArrives_down (current : (d.takeMsg true src dst).isStale m = false) (down : (d.takeMsg true src dst).floorDown src dst) :
    d.requestArrives src dst isKind serve = ((d.takeMsg true src dst).bump R.FLR_NACK_CNT).answer none m
      (.nack m.body.code (match m.body with | .enq x => some x | _ => none)) := by
  rw [Dev.requestArrives, head]; dsimp only; rw [kind, current]; exact if_pos down

theorem Dev.requestArrives_served (current : (d.takeMsg true src dst).isStale m = false)
    (up : ¬(d.takeMsg true src dst).floorDown src dst) :
    d.requestArrives src dst isKind serve = serve m (d.takeMsg true src dst) := by
  rw [Dev.requestArrives, head]; dsimp only; rw [kind, current]; exact if_neg up

end

theorem Dev.requestArrives_none {isKind : FloorBody → Bool} {serve : FloorMsg → Dev → Dev} (none_ : d.headMsg true src dst = none) :
    d.requestArrives src dst isKind serve = d := by rw [Dev.requestArrives, none_]

section
variable {g : Nat} (head : d.headMsg true src dst = some m) (body : m.body = .read g)
include head body

theorem Dev.readArrival_stale (stale : (d.takeMsg true src dst).isStale m = true) :
    d.readArrival src dst = (d.takeMsg true src dst).staleDiscard m := Dev.requestArrives_stale head (by rw [body]) stale

theorem Dev.readArrival_down (current : (d.takeMsg true src dst).isStale m = false) (down : (d.takeMsg true src dst).floorDown src dst) :
    d.readArrival src dst = ((d.takeMsg true src dst).bump R.FLR_NACK_CNT).answer none m (.nack 2 none) :=
  (Dev.requestArrives_down head (by rw [body]) current down).trans (by rw [body]; rfl)

theorem Dev.readArrival_served (current : (d.takeMsg true src dst).isStale m = false)
    (up : ¬(d.takeMsg true src dst).floorDown src dst) : d.readArrival src dst =
      let e := d.takeMsg true src dst
      (e.readServed m).answer (some (7, g % 48)) m (.data (e.grain dst g).data (e.grain dst g).bad) :=
  (Dev.requestArrives_served head (by rw [body]) current up).trans (by rw [body])

end

section
variable {x : Descr} (head : d.headMsg true src dst = some m) (body : m.body = .enq x)
include head body

theorem Dev.enqArrival_stale (stale : (d.takeMsg true src dst).isStale m = true) :
    d.enqArrival src dst = (d.takeMsg true src dst).staleDiscard m := Dev.requestArrives_stale head (by rw [body]) stale

theorem Dev.enqArrival_down (current : (d.takeMsg true src dst).isStale m = false) (down : (d.takeMsg true src dst).floorDown src dst) :
    d.enqArrival src dst = ((d.takeMsg true src dst).bump R.FLR_NACK_CNT).answer none m (.nack 1 (some x)) :=
  (Dev.requestArrives_down head (by rw [body]) current down).trans (by rw [body]; rfl)

theorem Dev.enqArrival_served (current : (d.takeMsg true src dst).isStale m = false)
    (up : ¬(d.takeMsg true src dst).floorDown src dst) : d.enqArrival src dst =
      if x.mirrorList then (d.takeMsg true src dst).mirrorEnq dst x else (d.takeMsg true src dst).keepArrival m :=
  (Dev.requestArrives_served head (by rw [body]) current up).trans (by rw [body])

end

theorem Dev.judgeArrival_enq {x : Descr} (body : m.body = .enq x) (d : Dev) : d.judgeArrival m =
    if d.regionRuns m.dst = false then (d.bump R.FLR_NACK_CNT).answer none m (.nack 1 (some x))
    else if x.guarded then d.judgeEnq m.dst x (Dev.place m.dst)
    else d.place m.dst x := by
  rw [Dev.judgeArrival, body]
  cases d.regionRuns m.dst <;> rfl

/-! ## Register requests -/

section
variable {s : State} {isKind : FloorBody → Option Word} {serve : FloorMsg → State → State} {off : Word}
  (head : s.dev.headMsg true src dst = some m) (kind : isKind m.body = some off)
include head kind

theorem State.registerArrives_stale (stale : (s.dev.takeMsg true src dst).isStale m = true) :
    s.registerArrives src dst isKind serve = s.onDev fun _ => (s.dev.takeMsg true src dst).staleDiscard m := by
  rw [State.registerArrives, head]; dsimp only; rw [kind]; dsimp only; rw [stale]; rfl

theorem State.registerArrives_refused (current : (s.dev.takeMsg true src dst).isStale m = false)
    (down : (s.dev.takeMsg true src dst).regionServes off.toNat = false) :
    s.registerArrives src dst isKind serve = s.onDev fun _ =>
      ((s.dev.takeMsg true src dst).bump R.FLR_NACK_CNT).answer none m (.nack m.body.code none) := by
  rw [State.registerArrives, head]; dsimp only; rw [kind]; dsimp only; rw [current, down]; rfl

theorem State.registerArrives_served (current : (s.dev.takeMsg true src dst).isStale m = false)
    (up : (s.dev.takeMsg true src dst).regionServes off.toNat = true) :
    s.registerArrives src dst isKind serve = serve m { s with dev := s.dev.takeMsg true src dst } := by
  rw [State.registerArrives, head]; dsimp only; rw [kind]; dsimp only; rw [current, up]; rfl

end

section
variable {s : State} {who : Master} {off : Word} (head : s.dev.headMsg true src dst = some m)
include head

theorem State.regrArrival_served (body : m.body = .regr who off) (current : (s.dev.takeMsg true src dst).isStale m = false)
    (up : (s.dev.takeMsg true src dst).regionServes off.toNat = true) : s.regrArrival src dst =
      let r := ({ s with dev := s.dev.takeMsg true src dst } : State).readAccess who off.toNat (some (m.src, m.tag, m.gen))
      match r.1 with
      | some v => r.2.onDev (·.answer (registerBlock off.toNat) m (.cplReg (some v)))
      | none => r.2 :=
  (State.registerArrives_served (off := off) head (by rw [body]) current up).trans (by rw [body] <;> rfl)

theorem State.regwArrival_served {v : Word} (body : m.body = .regw who off v)
    (current : (s.dev.takeMsg true src dst).isStale m = false)
    (up : (s.dev.takeMsg true src dst).regionServes off.toNat = true) : s.regwArrival src dst =
      (({ s with dev := s.dev.takeMsg true src dst } : State).writeAccess who off.toNat 15 v).onDev
        (·.answer (registerBlock off.toNat) m (.cplReg none)) :=
  (State.registerArrives_served (off := off) head (by rw [body]) current up).trans (by rw [body])

end

/-! ## Responses -/

section
variable {isKind : FloorBody → Bool} {sink : FloorMsg → Dev → Dev} (head : d.headMsg false src dst = some m) (kind : isKind m.body = true)
include head kind

theorem Dev.responseArrives_stale (stale : (d.takeMsg false src dst).isStale m = true) :
    d.responseArrives src dst isKind sink = (d.takeMsg false src dst).staleDiscard m := by
  rw [Dev.responseArrives, head]; dsimp only; rw [kind, stale]; rfl

theorem Dev.responseArrives_down (current : (d.takeMsg false src dst).isStale m = false)
    (down : (d.takeMsg false src dst).floorDown src dst) :
    d.responseArrives src dst isKind sink = d.takeMsg false src dst := by
  rw [Dev.responseArrives, head]; dsimp only; rw [kind, current]; exact if_pos down

theorem Dev.responseArrives_sunk (current : (d.takeMsg false src dst).isStale m = false)
    (up : ¬(d.takeMsg false src dst).floorDown src dst) :
    d.responseArrives src dst isKind sink = sink m (d.takeMsg false src dst) := by
  rw [Dev.responseArrives, head]; dsimp only; rw [kind, current]; exact if_neg up

end

/-- What a response that arrives does, by the command of its kind. -/
def Dev.response (b : FloorBody) (src dst : Nat) (d : Dev) : Dev :=
  match b with
  | .data .. => d.dataArrival src dst false
  | .nack .. => d.nackArrival src dst
  | _ => d.cplArrival src dst

/-- The message carries data. -/
def FloorBody.isData : FloorBody → Bool
  | .data .. => true
  | _ => false

/-- Data take the way of the use their space was reserved for. -/
def SinkUse.takesData (dst : Nat) (b : List Byte) (bad : Bool) (use : SinkUse) (d : Dev) : Dev :=
  match use with
  | .port p k => d.portData p k b bad
  | .spill q uid => d.spillData dst q uid b
  | .mirror q uid => d.mirrorData dst q uid b
  | .host uid => d.hostData dst uid b
  | .engineReg _ _ _ => d

/-- What a message of data does at its port. -/
def Dev.sinkData (dst : Nat) (m : FloorMsg) (d : Dev) : Dev :=
  match m.body with
  | .data b bad => d.sinkInto m (SinkUse.takesData dst b bad)
  | _ => d

/-- What a completion does at its port. -/
def Dev.sinkCpl (dst : Nat) (m : FloorMsg) (d : Dev) : Dev :=
  match m.body with
  | .cplGuarded .. | .cplOwner .. => d.keepArrival m
  | .cplMirror uid q => d.mirrorAnswered dst q uid
  | .cplBales uid dest bales => d.mirrorFreed dst uid dest bales
  | .cplReg v => d.sinkInto m (fun u d => u.windowEnds (v.getD 0) d)
  | _ => d

/-- What a refusal does at its port. -/
def Dev.sinkNack (m : FloorMsg) (d : Dev) : Dev :=
  match m.body with
  | .nack of x => d.nacked m of x (fun u d => u.windowEnds 0 d)
  | _ => d

theorem Dev.dataArrival_eq (d : Dev) (src dst : Nat) :
    d.dataArrival src dst false = d.responseArrives src dst FloorBody.isData (Dev.sinkData dst) := rfl

theorem Dev.cplArrival_eq (d : Dev) (src dst : Nat) :
    d.cplArrival src dst = d.responseArrives src dst (fun b => b.code == 6) (Dev.sinkCpl dst) := rfl

theorem Dev.nackArrival_eq (d : Dev) (src dst : Nat) :
    d.nackArrival src dst = d.responseArrives src dst (fun b => b.code == 7) Dev.sinkNack := rfl

/-- Whatever its kind, a response is judged first as every response is. -/
theorem Dev.response_arrives {b : FloorBody} (rsp : b.isReq = false) (src dst : Nat) : ∃ (isKind : FloorBody → Bool) (sink : FloorMsg → Dev → Dev),
    isKind b = true ∧ ∀ d : Dev, d.response b src dst = d.responseArrives src dst isKind sink := by
  cases b with
  | data => exact ⟨_, _, rfl, fun d => d.dataArrival_eq src dst⟩
  | nack => exact ⟨_, _, rfl, fun d => d.nackArrival_eq src dst⟩
  | enq => exact Bool.noConfusion rsp
  | read => exact Bool.noConfusion rsp
  | regr => exact Bool.noConfusion rsp
  | regw => exact Bool.noConfusion rsp
  | _ => exact ⟨_, _, rfl, fun d => d.cplArrival_eq src dst⟩

section
variable (rsp : m.body.isReq = false) (head : d.headMsg false src dst = some m)
include rsp head

theorem Dev.response_stale (stale : (d.takeMsg false src dst).isStale m = true) :
    d.response m.body src dst = (d.takeMsg false src dst).staleDiscard m := by
  obtain ⟨isKind, sink, kind, eq⟩ := Dev.response_arrives rsp src dst
  rw [eq, Dev.responseArrives_stale head kind stale]

theorem Dev.response_down (current : (d.takeMsg false src dst).isStale m = false) (down : (d.takeMsg false src dst).floorDown src dst) :
    d.response m.body src dst = d.takeMsg false src dst := by
  obtain ⟨isKind, sink, kind, eq⟩ := Dev.response_arrives rsp src dst
  rw [eq, Dev.responseArrives_down head kind current down]

end

theorem Dev.dataArrival_corrects {b : List Byte} {bad : Bool} (head : d.headMsg false src dst = some m) (body : m.body = .data b bad) :
    d.dataArrival src dst true = ((d.bump R.FLR_CORR_CNT).corrected 0 0xF none).dataArrival src dst false := by
  rw [Dev.dataArrival, head]; dsimp only; rw [Option.any_some, body]; rfl

theorem Dev.sinkInto_unreserved {use : SinkUse → Dev → Dev} (none_ : d.sink m.dst m.tag = none) :
    d.sinkInto m use = ((d.setFlag R.FLR_ERR R.FLR_ERR.SINK_VIOLATION true).floorPath m.src m.dst).floorFatal 0x02 := by
  rw [Dev.sinkInto, none_]

theorem Dev.sinkInto_void {use : SinkUse → Dev → Dev} {u : Sink} (some_ : d.sink m.dst m.tag = some u) (void : u.void = true) :
    d.sinkInto m use = (d.setSink m.dst m.tag none).staleDiscard m := by
  rw [Dev.sinkInto, some_]; exact if_pos void

theorem Dev.sinkInto_used {use : SinkUse → Dev → Dev} {u : Sink} (some_ : d.sink m.dst m.tag = some u) (valid : u.void = false) :
    d.sinkInto m use = use u.use (d.setSink m.dst m.tag none) := by
  rw [Dev.sinkInto, some_]; dsimp only; rw [valid]; rfl

section
variable (head : d.headMsg false src dst = some m) (current : (d.takeMsg false src dst).isStale m = false)
  (up : ¬(d.takeMsg false src dst).floorDown src dst)
include head current up

/-- Data go into the space their requester reserved. -/
theorem Dev.dataArrival_sunk {b : List Byte} {bad : Bool} (body : m.body = .data b bad) :
    d.dataArrival src dst false = (d.takeMsg false src dst).sinkInto m (SinkUse.takesData dst b bad) := by
  rw [Dev.dataArrival_eq, Dev.responseArrives_sunk head (by rw [body]; rfl) current up, Dev.sinkData, body]

theorem Dev.cplArrival_sunk (completion : m.body.code = 6) : d.cplArrival src dst = (d.takeMsg false src dst).sinkCpl dst m := by
  rw [Dev.cplArrival_eq, Dev.responseArrives_sunk head (by rw [completion]; rfl) current up]

theorem Dev.nackArrival_sunk {of : Nat} {x : Option Descr} (body : m.body = .nack of x) : d.nackArrival src dst =
    (d.takeMsg false src dst).nacked m of x (fun u d => u.windowEnds 0 d) := by
  rw [Dev.nackArrival_eq, Dev.responseArrives_sunk head (by rw [body]; rfl) current up, Dev.sinkNack, body]

theorem Dev.cplArrival_guarded {entry : Option Nat} {seq dest cls : Nat} {st : CplStatus} (body : m.body = .cplGuarded entry seq dest cls st) :
    d.cplArrival src dst = (d.takeMsg false src dst).keepArrival m :=
  (Dev.cplArrival_sunk head current up (by rw [body]; rfl)).trans (by rw [Dev.sinkCpl, body])

theorem Dev.cplArrival_owner {h : Nat} {st : CplStatus} (body : m.body = .cplOwner h st) :
    d.cplArrival src dst = (d.takeMsg false src dst).keepArrival m :=
  (Dev.cplArrival_sunk head current up (by rw [body]; rfl)).trans (by rw [Dev.sinkCpl, body])

theorem Dev.cplArrival_bales {uid dest : Nat} {bales : List Nat} (body : m.body = .cplBales uid dest bales) :
    d.cplArrival src dst = (d.takeMsg false src dst).mirrorFreed dst uid dest bales :=
  (Dev.cplArrival_sunk head current up (by rw [body]; rfl)).trans (by rw [Dev.sinkCpl, body])

theorem Dev.cplArrival_mirror {uid q : Nat} (body : m.body = .cplMirror uid q) :
    d.cplArrival src dst = (d.takeMsg false src dst).mirrorAnswered dst q uid :=
  (Dev.cplArrival_sunk head current up (by rw [body]; rfl)).trans (by rw [Dev.sinkCpl, body])

theorem Dev.cplArrival_register {v : Option Word} {e t tag bl : Nat} (body : m.body = .cplReg v)
    (sink : (d.takeMsg false src dst).sink m.dst m.tag = some { block := bl, use := .engineReg e t tag, void := false }) :
    d.cplArrival src dst = ((d.takeMsg false src dst).setSink m.dst m.tag none).windowEnds e t tag (v.getD 0) :=
  (Dev.cplArrival_sunk head current up (by rw [body]; rfl)).trans (by rw [Dev.sinkCpl, body]; exact Dev.sinkInto_used sink rfl)

theorem Dev.nackArrival_enq {x : Descr} (body : m.body = .nack 1 (some x)) (mirror : x.mirrorList = false) :
    d.nackArrival src dst = (d.takeMsg false src dst).enqNacked m.dst x :=
  (Dev.nackArrival_sunk head current up body).trans (by rw [Dev.nacked, if_pos rfl]; exact if_neg (by simp [mirror]))

theorem Dev.nackArrival_register {of e t tag bl : Nat} (body : m.body = .nack of none) (other : of ≠ 1)
    (sink : (d.takeMsg false src dst).sink m.dst m.tag = some { block := bl, use := .engineReg e t tag, void := false }) :
    d.nackArrival src dst = ((d.takeMsg false src dst).setSink m.dst m.tag none).windowEnds e t tag 0 :=
  (Dev.nackArrival_sunk head current up body).trans
    (by rw [Dev.nacked, if_neg other]; exact Dev.sinkInto_used sink rfl)

end

theorem Dev.judgeCpl_guarded {entry : Option Nat} {seq dest cls : Nat} {st : CplStatus} (body : m.body = .cplGuarded entry seq dest cls st)
    (d : Dev) : d.judgeCpl m = if d.regionRuns m.dst = false then d else d.applyCpl m.dst entry seq dest cls st := by
  rw [Dev.judgeCpl, body]; cases d.regionRuns m.dst <;> rfl

theorem Dev.judgeCpl_owner {h : Nat} {st : CplStatus} (body : m.body = .cplOwner h st) (d : Dev) :
    d.judgeCpl m = if d.regionRuns m.dst = false then d else d.queueRelease m.dst h := by
  rw [Dev.judgeCpl, body]; cases d.regionRuns m.dst <;> rfl

end

/-- The command that brings a response of a kind. -/
theorem exec_response (s : State) (src dst : Fin 4) (b : FloorBody) :
    exec (match b with
      | .data .. => .dataArrival ⟨src, false⟩ dst
      | .nack .. => .nackArrival src.castSucc dst.castSucc
      | _ => .cplArrival src.castSucc dst.castSucc) s = s.runDev (Dev.response b src dst) := by
  cases b <;> rfl

/-- Settles O17: each message that arrives is discarded when stale, refused or discarded where its region does not serve, and
otherwise does what its body asks for. -/
theorem floorMessages : Obligations.FloorMessages := by
  refine ⟨fun s m on => ⟨fun src dst head => ?_, fun src dst none_ => ⟨State.runDev_done on (Dev.requestArrives_none none_),
    State.runDev_done on (Dev.requestArrives_none none_)⟩, fun src dst who off head => ?_⟩, fun s m src dst on head => ?_⟩
  · intro take down stale
    have down_iff := (take s.dev).floorDown_iff src dst
    refine ⟨fun g body => ⟨fun old => State.runDev_done on (Dev.readArrival_stale head body old),
        fun current off => State.runDev_done on (Dev.readArrival_down head body current (down_iff.mpr off)),
        fun current up => State.runDev_done on (Dev.readArrival_served head body current (mt down_iff.mp up))⟩,
      fun x body => ⟨fun old => State.runDev_done on (Dev.enqArrival_stale head body old),
        fun current off => State.runDev_done on (Dev.enqArrival_down head body current (down_iff.mpr off)),
        fun current up => State.runDev_done on (Dev.enqArrival_served head body current (mt down_iff.mp up)),
        Dev.judgeArrival_enq body⟩⟩
  · intro d1
    refine ⟨fun body => ⟨fun old => ?_, fun current down => ?_, fun current up => ?_⟩,
      fun v body => ⟨fun old => ?_, fun current down => ?_, fun current up => ?_⟩⟩
    · exact State.run_did (act := fun s => s.regrArrival src dst) on (State.registerArrives_stale (off := off) head (by rw [body]) old)
    · exact State.run_did (act := fun s => s.regrArrival src dst) on
        ((State.registerArrives_refused (off := off) head (by rw [body]) current down).trans (by rw [body]; rfl))
    · exact State.run_did (act := fun s => s.regrArrival src dst) on (State.regrArrival_served head body current up)
    · exact State.run_did (act := fun s => s.regwArrival src dst) on (State.registerArrives_stale (off := off) head (by rw [body]) old)
    · exact State.run_did (act := fun s => s.regwArrival src dst) on
        ((State.registerArrives_refused (off := off) head (by rw [body]) current down).trans (by rw [body]; rfl))
    · exact State.run_did (act := fun s => s.regwArrival src dst) on (State.regwArrival_served head body current up)
  · intro take d1 down cmd free rsp
    have down_iff := d1.floorDown_iff src dst
    refine ⟨fun b bad body => State.runDev_done on (Dev.dataArrival_corrects head body),
      fun old => (exec_response s src dst m.body).trans (State.runDev_done on (Dev.response_stale rsp head old)),
      fun current off => (exec_response s src dst m.body).trans
        (State.runDev_done on (Dev.response_down rsp head current (down_iff.mpr off))),
      fun current running => ?_⟩
    have up := mt down_iff.mp running
    refine ⟨fun b bad body => ⟨fun none_ => ?_, fun u some_ void => ?_, fun u some_ valid => ?_⟩,
      fun entry seq dest cls st body => ⟨State.runDev_done on (Dev.cplArrival_guarded head current up body), Dev.judgeCpl_guarded body⟩,
      fun h st body => ⟨State.runDev_done on (Dev.cplArrival_owner head current up body), Dev.judgeCpl_owner body⟩,
      fun uid dest bales body => State.runDev_done on (Dev.cplArrival_bales head current up body),
      fun uid q body => State.runDev_done on (Dev.cplArrival_mirror head current up body),
      fun v e t tag bl body sink => State.runDev_done on (Dev.cplArrival_register head current up body sink),
      fun x body mirror here => ?_, fun of e t tag bl body other sink => ?_⟩
    · exact State.runDev_done on ((Dev.dataArrival_sunk head current up body).trans (Dev.sinkInto_unreserved none_))
    · exact State.runDev_done on ((Dev.dataArrival_sunk head current up body).trans (Dev.sinkInto_void some_ void))
    · exact State.runDev_done on ((Dev.dataArrival_sunk head current up body).trans (Dev.sinkInto_used some_ valid))
    · exact State.runDev_done on ((Dev.nackArrival_enq head current up body mirror).trans (by rw [here]; rfl))
    · exact State.runDev_done on (Dev.nackArrival_register head current up body other sink)

end Sys2Proof.Machine
end

section
/-! The loader's commands (R71 to R73, R98, R106 to R109, R112, R114, R115, R663). -/

open Sys2Proof Sys2Proof.Machine

namespace Sys2Proof.Machine

section
variable {s : State}

/-! ## VERIFY and the fuses -/

theorem Dev.verifyCopy_busy {d : Dev} (c : FlashCopy) (busy : d.ldrBusy = true) : d.verifyCopy c = d := if_pos busy

theorem Dev.verifyCopy_begins {d : Dev} (c : FlashCopy) (free : d.ldrBusy = false) : d.verifyCopy c =
    let d := d.fset R.LDR_STAT R.LDR_STAT.RESULT 1
    { d with loader := { d.loader with verifying := some c, reading := true } } := if_neg (Bool.not_eq_true _ ▸ free)

theorem verifyComplete_none (failed : Bool) (none_ : s.dev.loader.verifying = none) : verifyComplete s failed = s.dev := by
  rw [verifyComplete]; dsimp only; rw [none_]

section
variable {failed : Bool} {c : FlashCopy} (verifying : s.dev.loader.verifying = some c)
include verifying

theorem verifyComplete_accepts (good : refusalCode s.fuses (readCopy s.flash c) failed = 0) : verifyComplete s failed =
    let b := readCopy s.flash c
    let d : Dev := { s.dev with loader := { s.dev.loader with verifying := none, reading := false } }
    let now := imageSections d.runningSlot.bytes
    let new := imageSections b
    let diff := (List.range 4).foldl (fun m n => m + b2n (regionDiffers now new n) * 2 ^ n) 0
    let d := d.setStaged ⟨b, c⟩
    let d : Dev := { d with loader := { d.loader with candidate := true } }
    (d.setCandidate diff (chipDiffers now new) (imageSeq b)).fset R.LDR_STAT R.LDR_STAT.RESULT 2 := by
  rw [verifyComplete]; dsimp only; rw [verifying]; exact if_pos good

theorem verifyComplete_refuses (bad : refusalCode s.fuses (readCopy s.flash c) failed ≠ 0) : verifyComplete s failed =
    let d : Dev := { s.dev with loader := { s.dev.loader with verifying := none, reading := false } }
    (({ d with loader := { d.loader with candidate := false } } : Dev).imageRefused c
      (refusalCode s.fuses (readCopy s.flash c) failed)).setCandidate 0 false 0 := by
  rw [verifyComplete]; dsimp only; rw [verifying]; exact if_neg bad

end

theorem advanceSvn_busy (busy : s.dev.ldrBusy = true) : advanceSvn s = s := if_pos busy

theorem revokeSlot_busy (k : Nat) (busy : s.dev.ldrBusy = true) : revokeSlot s k = s := if_pos busy

section
variable (free : s.dev.ldrBusy = false)
include free

theorem advanceSvn_ignored (reached : s.dev.fget R.LDR_RUN_INFO R.LDR_RUN_INFO.SVN ≤ s.fuses.svnCount) :
    advanceSvn s = s.onDev (·.logChip 0x0021 3) := (if_neg (Bool.not_eq_true _ ▸ free)).trans (if_pos reached)

theorem advanceSvn_blows (behind : s.fuses.svnCount < s.dev.fget R.LDR_RUN_INFO R.LDR_RUN_INFO.SVN) : advanceSvn s =
    let fu := { s.fuses with svn := BitVec.ofNat 64 (blowUpTo s.fuses.svn.toNat (s.dev.fget R.LDR_RUN_INFO R.LDR_RUN_INFO.SVN)) }
    { s with fuses := fu, dev := s.dev.fuseRegs fu } :=
  (if_neg (Bool.not_eq_true _ ▸ free)).trans (if_neg (Nat.not_le.mpr behind))

/-- A slot that REVOKE_SLOT leaves: the running image's, one not programmed, or the last that is good (R98). -/
def State.keepsSlot (s : State) (k : Nat) : Bool :=
  let good := fun (j : Nat) => (s.fuses.slot j).programmed && !(s.fuses.slot j).revoked
  s.dev.fget R.LDR_RUN_INFO R.LDR_RUN_INFO.KEY_SLOT == k || !(s.fuses.slot k).programmed
    || (good k && !(List.range 4).any fun j => j != k && good j)

theorem revokeSlot_ignored {k : Nat} (kept : s.keepsSlot k = true) : revokeSlot s k = s.onDev (·.logChip 0x0021 (4 + 16 * k)) :=
  (if_neg (Bool.not_eq_true _ ▸ free)).trans (if_pos kept)

theorem revokeSlot_revokes {k : Nat} (open_ : s.keepsSlot k = false) : revokeSlot s k =
    let fu := { s.fuses with keys := modAt s.fuses.keys k (fun x => { x with revoked := true }) }
    { s with fuses := fu, dev := s.dev.fuseRegs fu } :=
  (if_neg (Bool.not_eq_true _ ▸ free)).trans (if_neg (Bool.not_eq_true _ ▸ open_))

end

/-! ## Flash operations -/

theorem State.flashStarts_none (h : s.dev.loader.reading = true ∨ s.dev.loader.flashOps = []) : s.flashStarts = s := by
  rcases h with h | h <;> simp [State.flashStarts, flashStart, h]

section
variable {o : FlashOp} {rest : List FlashOp} (ops : s.dev.loader.flashOps = o :: rest)
include ops

theorem flashStart_of (idle : s.dev.loader.reading = false) (waits : (o :: rest).any (·.started) = false) : flashStart s =
    if s.dev.inRunningCopy (o.range s.sfdp) then
      (s.onDev fun d => let d := d.logChip 0x0022 o.addr
        { d with loader := { d.loader with flashOps := rest } }, some o)
    else (s.onDev fun d => { d with loader := { d.loader with flashOps := { o with started := true } :: rest } }, none) := by
  have unread : ¬(s.dev.loader.reading || s.dev.loader.flashOps.any (·.started)) = true := by rw [idle, ops, waits]; decide
  rw [flashStart]; dsimp only; rw [if_neg unread, ops]; rfl

theorem State.flashStarts_starts (idle : s.dev.loader.reading = false) (waits : (o :: rest).any (·.started) = false)
    (elsewhere : s.dev.inRunningCopy (o.range s.sfdp) = false) : s.flashStarts = s.onDev fun d =>
      { d with loader := { d.loader with flashOps := { o with started := true } :: rest } } := by
  rw [State.flashStarts, flashStart_of ops idle waits, elsewhere]; rfl

theorem State.flashStarts_ignored (idle : s.dev.loader.reading = false) (waits : (o :: rest).any (·.started) = false)
    (running : s.dev.inRunningCopy (o.range s.sfdp) = true) : s.flashStarts =
      (s.onDev fun d => let d := d.logChip 0x0022 o.addr
        { d with loader := { d.loader with flashOps := rest } }).flashEnded o := by
  rw [State.flashStarts, flashStart_of ops idle waits, running]; rfl

theorem State.flashCompletes_done (started : o.started = true) : s.flashCompletes =
    State.flashEnded { s with
      flash := if o.kind = 2 then eraseRange s.flash (o.range s.sfdp).1 (o.range s.sfdp).2
               else programBytes s.flash o.addr (leBytes 4 o.word.toNat)
      dev := { s.dev with loader := { s.dev.loader with flashOps := rest } } } o := by
  rw [State.flashCompletes, flashComplete]; dsimp only; rw [ops]; dsimp only; rw [started]; rfl

end

theorem State.flashCompletes_none (none_ : s.dev.loader.flashOps = []) : s.flashCompletes = s := by
  rw [State.flashCompletes, flashComplete]; dsimp only; rw [none_]

/-! ## A copy tried at a start -/

theorem imageCopyChecked_notStarting (c : FlashCopy) (failed : Bool) (h : s.dev.runState.starting = false) :
    imageCopyChecked s c failed = s := if_pos (by simp [h])

section
variable {c : FlashCopy} {failed : Bool} {rest : List FlashCopy} (starting : s.dev.runState.starting = true)
  (step : s.dev.start.step = 3) (fresh : s.dev.loader.applied = false) (try_ : s.dev.loader.toTry = c :: rest)
include starting step fresh try_

/-- A copy is refused: the next is read, if there is one. -/
def Dev.copyRefused (d : Dev) (c : FlashCopy) (rest : List FlashCopy) (code : Nat) : Dev :=
  ({ d with loader := { d.loader with toTry := rest, reading := !rest.isEmpty } } : Dev).imageRefused c code

theorem imageCopyChecked_of : imageCopyChecked s c failed =
    let b := readCopy s.flash c
    if refusalCode s.fuses b failed = 0 then
      (imageAtStart (s.onDev fun d =>
        ({ d with loader := { d.loader with toTry := [], reading := false } } : Dev).setRunning ⟨b, c⟩)).onDev
          (·.setFlag R.LDR_STAT R.LDR_STAT.FROM_STORE false)
    else if rest.isEmpty then startFail (s.onDev fun d => d.copyRefused c rest (refusalCode s.fuses b failed)) 1
    else s.onDev fun d => d.copyRefused c rest (refusalCode s.fuses b failed) := by
  have tried : ¬(!s.dev.runState.starting || s.dev.start.step != 3 || s.dev.loader.applied || s.dev.loader.toTry.head? != some c) = true := by
    simp [starting, step, fresh, try_]
  rw [imageCopyChecked]; dsimp only
  rw [if_neg tried, try_, List.drop_one, List.tail_cons]; rfl

theorem imageCopyChecked_applies (good : refusalCode s.fuses (readCopy s.flash c) failed = 0) : imageCopyChecked s c failed =
    (imageAtStart (s.onDev fun d =>
      ({ d with loader := { d.loader with toTry := [], reading := false } } : Dev).setRunning ⟨readCopy s.flash c, c⟩)).onDev
        (·.setFlag R.LDR_STAT R.LDR_STAT.FROM_STORE false) :=
  (imageCopyChecked_of starting step fresh try_).trans (if_pos good)

section
variable (bad : refusalCode s.fuses (readCopy s.flash c) failed ≠ 0)
include bad

theorem imageCopyChecked_refuses (more : rest ≠ []) : imageCopyChecked s c failed =
    s.onDev fun d => d.copyRefused c rest (refusalCode s.fuses (readCopy s.flash c) failed) :=
  (imageCopyChecked_of starting step fresh try_).trans ((if_neg bad).trans (if_neg (by simp [more])))

theorem imageCopyChecked_fails (last : rest = []) : imageCopyChecked s c failed =
    startFail (s.onDev fun d => d.copyRefused c rest (refusalCode s.fuses (readCopy s.flash c) failed)) 1 :=
  (imageCopyChecked_of starting step fresh try_).trans ((if_neg bad).trans (if_pos (by simp [last])))

end
end
end

/-! ## Re-layout -/

section
variable {d : Dev} {n : Nat}

theorem Dev.drainComplete_exchanges (draining : d.loader.draining = some n) (drained : d.drained n = true) : d.drainComplete n =
    let d := (d.disarm ⟨.relayoutDrain, n, 0⟩).setFlag R.LDR_RELAYOUT R.LDR_RELAYOUT.ARMED false
    let d : Dev := { d with loader := { d.loader with draining := none, relaying := some n } }
    (d.exchangeSlots.relayout n).regionRestart n := if_pos ⟨draining, drained⟩

theorem Dev.drainComplete_waits (busy : d.drained n = false) : d.drainComplete n = d := if_neg (by simp [busy])

theorem Dev.drainTimeout_abandons (draining : d.loader.draining = some n) (armed : d.armed ⟨.relayoutDrain, n, 0⟩ = true) :
    d.drainTimeout n =
      let d := ((d.setFlag R.LDR_RELAYOUT R.LDR_RELAYOUT.ARMED false).setFlag R.LDR_RELAYOUT R.LDR_RELAYOUT.ACTIVE false).setFlag
        R.LDR_STAT R.LDR_STAT.ABANDONED true
      let d : Dev := { d with loader := { d.loader with draining := none } }
      (d.disarm ⟨.relayoutDrain, n, 0⟩).refreshRegion n := by
  refine (if_pos armed).trans ?_
  rw [Dev.drainAbandon, draining]

end

/-- Settles O18: each command of the loader finds it busy, or does what its checks allow. -/
theorem loaderCommands : Obligations.LoaderCommands := by
  intro s on
  refine ⟨fun m c acc => ?verify, fun failed none_ => ?_, fun failed c verifying => ⟨fun good => ?_, fun bad => ?_⟩, fun m acc => ?fuses,
    ⟨fun h => State.run_did (g := id) on (State.flashStarts_none h), fun o rest ops idle waits elsewhere => ?_,
      fun o rest ops idle waits running => ?_, fun o rest ops started => ?_, fun none_ => ?_⟩,
    fun c failed => ⟨fun idle => ?_, fun starting step fresh rest try_ => ⟨fun good => ?_, fun bad more => ?_, fun bad last => ?_⟩⟩,
    fun m n drain acc => ⟨fun eligible => State.runCommand_done on acc rfl (if_pos eligible),
      fun other => State.runCommand_done on acc rfl (if_neg (Bool.not_eq_true _ ▸ other))⟩,
    fun n draining => ⟨fun drained => State.runDev_done on (Dev.drainComplete_exchanges draining drained),
      fun busy => State.runDev_done on (Dev.drainComplete_waits busy),
      fun armed => State.runDev_done on (Dev.drainTimeout_abandons draining armed)⟩⟩
  case verify =>
    have run : exec (match c with | .a => Instr.verifyA m | .b => .verifyB m) s =
        s.run (fun s => s.command m R.LDR_CMD .none (fun s => s.onDev (fun d => d.verifyCopy c))) := by cases c <;> rfl
    exact ⟨fun busy => run.trans (State.runCommand_done on acc rfl (Dev.verifyCopy_busy c busy)),
      fun free => run.trans (State.runCommand_done on acc rfl (Dev.verifyCopy_begins c free))⟩
  case fuses =>
    exact ⟨fun busy => ⟨State.runCommand_did (k := id) on acc rfl (advanceSvn_busy busy),
        fun k => State.runCommand_did (k := id) on acc rfl (revokeSlot_busy k busy)⟩,
      fun free reached => State.runCommand_did on acc rfl (advanceSvn_ignored free reached),
      fun free behind => State.runCommand_did on acc rfl (advanceSvn_blows free behind),
      fun k => ⟨fun free kept => State.runCommand_did on acc rfl (revokeSlot_ignored free kept),
        fun free open_ => State.runCommand_did on acc rfl (revokeSlot_revokes free open_)⟩⟩
  · exact State.run_did (act := fun s => { s with dev := verifyComplete s failed }) on (congrArg (fun d => ({ s with dev := d } : State)) (verifyComplete_none failed none_))
  · exact State.run_did (act := fun s => { s with dev := verifyComplete s failed }) on (congrArg (fun d => ({ s with dev := d } : State)) (verifyComplete_accepts verifying good))
  · exact State.run_did (act := fun s => { s with dev := verifyComplete s failed }) on (congrArg (fun d => ({ s with dev := d } : State)) (verifyComplete_refuses verifying bad))
  · exact State.run_did (act := State.flashStarts) on (State.flashStarts_starts ops idle waits elsewhere)
  · exact State.run_did (act := State.flashStarts) on (State.flashStarts_ignored ops idle waits running)
  · exact State.run_did (act := State.flashCompletes) on (State.flashCompletes_done ops started)
  · exact State.run_did (act := State.flashCompletes) (g := id) on (State.flashCompletes_none none_)
  · exact State.run_did (act := fun s => imageCopyChecked s c failed) (g := id) on (imageCopyChecked_notStarting c failed idle)
  · exact State.run_did (act := fun s => imageCopyChecked s c failed) on (imageCopyChecked_applies starting step fresh try_ good)
  · exact State.run_did (act := fun s => imageCopyChecked s c failed) on (imageCopyChecked_refuses starting step fresh try_ bad more)
  · exact State.run_did (act := fun s => imageCopyChecked s c failed) on (imageCopyChecked_fails starting step fresh try_ bad last)

end Sys2Proof.Machine
end

section
/-! Bring-up of a port (R126, R129 to R131, R134, R562) and its faults (R123, R131 to R133, R136, R165, R207). -/

open Sys2Proof Sys2Proof.Machine

namespace Sys2Proof.Machine

section
variable {d : Dev} {p : Nat}

/-! ## What a write of MAC_STAT leaves -/

theorem Dev.faultTx_rd (d : Dev) (p : Nat) (on : Bool) (a : Nat) : (d.faultTx p on).rd a = d.rd a := by
  rw [Dev.faultTx]; split <;> rfl

theorem Dev.faultTx_fget (d : Dev) (p : Nat) (on : Bool) (a : Nat) (f : Fld) : (d.faultTx p on).fget a f = d.fget a f :=
  congrArg f.get (d.faultTx_rd p on a)

theorem macLink_ne_macStat (p : Nat) : R.MAC_LINK p ≠ R.MAC_STAT p := by unfold R.MAC_LINK R.MAC_STAT; omega

theorem hstEthCfg_ne_macStat {p : Nat} (host : ¬p < 128) : R.HST_ETH_CFG (portRegion p) ≠ R.MAC_STAT p := by
  unfold R.HST_ETH_CFG R.MAC_STAT macBase portRegion
  rw [if_neg host, if_neg host]
  split <;> omega

theorem Dev.portFec_congr {e : Dev} (loader : e.loader = d.loader)
    (cfg : ¬p < 128 → e.rd (R.HST_ETH_CFG (portRegion p)) = d.rd (R.HST_ETH_CFG (portRegion p))) : e.portFec p = d.portFec p := by
  rw [Dev.portFec, Dev.portFec]
  split
  case isTrue => rw [Dev.pbFec, Dev.pbFec, Dev.rl, Dev.rl, loader]
  case isFalse host => rw [Dev.flag, Dev.flag, Dev.fget, Dev.fget, cfg host]

/-! ## Bring-up -/

theorem Dev.calComplete_waits (state : d.lstate p = 1) (ref : d.refPresent (refIndex p) = true) : d.calComplete p =
    (d.each (d.portLanes p) fun l d => d.setFlag (R.LN_STAT l) R.LN_STAT.CAL_DONE true).peersIn p 1 fun q d => d.setLstate q 2 :=
  if_pos (by simp [state, ref])

theorem Dev.calibrated_waits (state : d.lstate p = 1) (ref : d.refPresent (refIndex p) = true) : d.calibrated p =
    let e := (d.each (d.portLanes p) fun l d => d.setFlag (R.LN_STAT l) R.LN_STAT.CAL_DONE true).peersIn p 1 fun q d => d.setLstate q 2
    { e with start := { e.start with calDone := setBit e.start.calDone (refIndex p) true } } := by
  rw [Dev.calibrated, Dev.calComplete_waits state ref]

section
variable (aligns : d.lstate p = 4) (clear : d.flag (R.MAC_STAT p) R.MAC_STAT.LOCAL_FAULT = false) (speed : Nat)
include aligns clear

theorem Dev.alignEvent_aligns (full : Bool) : d.alignEvent p speed full =
    if !full then d.when (d.portMode p == 1 && d.flag (R.MAC_CFG p) R.MAC_CFG.AN37) (·.setFlag (R.MAC_STAT p) R.MAC_STAT.AN_FAIL true)
    else
      let d := d.faultTx p false
      let d := (d.setFlag (R.MAC_STAT p) R.MAC_STAT.AN_FAIL false).fset (R.MAC_STAT p) R.MAC_STAT.SPEED (d.portSpeed p speed)
      let d := (d.setFlag (R.MAC_STAT p) R.MAC_STAT.ALIGNED (decide (6 ≤ d.portMode p ∧ d.portMode p ≤ 8))).setFlag (R.MAC_STAT p)
        R.MAC_STAT.FEC_LOCK (d.portFec p)
      (d.setLstate p 5).arm ⟨.holdUp, p, 0⟩ (d.fget (R.MAC_LINK p) R.MAC_LINK.UP_MS * ms) := by
  rw [Dev.alignEvent, if_neg (by simp [aligns])]
  exact if_neg (by simp [aligns, clear])

theorem Dev.alignEvent_half : d.alignEvent p speed false =
    if d.portMode p = 1 ∧ d.flag (R.MAC_CFG p) R.MAC_CFG.AN37 = true then d.setFlag (R.MAC_STAT p) R.MAC_STAT.AN_FAIL true else d := by
  rw [Dev.alignEvent_aligns aligns clear speed, if_pos (by decide), Dev.when]
  simp

/-- The speed, the FEC and the limit are those of the port before MAC_STAT is written. -/
theorem Dev.alignEvent_full : d.alignEvent p speed true =
    let d := d.faultTx p false
    (((((d.setFlag (R.MAC_STAT p) R.MAC_STAT.AN_FAIL false).fset (R.MAC_STAT p) R.MAC_STAT.SPEED
      (d.portSpeed p speed)).setFlag (R.MAC_STAT p) R.MAC_STAT.ALIGNED
      (decide (6 ≤ d.portMode p ∧ d.portMode p ≤ 8))).setFlag (R.MAC_STAT p) R.MAC_STAT.FEC_LOCK (d.portFec p)).fset
      (R.MAC_STAT p) R.MAC_STAT.LSTATE 5).arm ⟨.holdUp, p, 0⟩ (d.fget (R.MAC_LINK p) R.MAC_LINK.UP_MS * 1000000) := by
  rw [Dev.alignEvent_aligns aligns clear speed, if_neg (by decide)]
  dsimp only
  generalize d.faultTx p false = d
  have fec : ((d.setFlag (R.MAC_STAT p) R.MAC_STAT.AN_FAIL false).fset (R.MAC_STAT p) R.MAC_STAT.SPEED (d.portSpeed p speed)).portFec p =
      d.portFec p := Dev.portFec_congr rfl fun host =>
    (Dev.rd_fset_ne _ _ _ (hstEthCfg_ne_macStat host)).trans (Dev.rd_setFlag_ne _ _ _ (hstEthCfg_ne_macStat host))
  have mode : ((d.setFlag (R.MAC_STAT p) R.MAC_STAT.AN_FAIL false).fset (R.MAC_STAT p) R.MAC_STAT.SPEED (d.portSpeed p speed)).portMode p =
      d.portMode p := rfl
  rw [fec, mode, Dev.fget, Dev.rd_setFlag_ne _ _ _ (macLink_ne_macStat p), Dev.rd_setFlag_ne _ _ _ (macLink_ne_macStat p),
    Dev.rd_fset_ne _ _ _ (macLink_ne_macStat p), Dev.rd_setFlag_ne _ _ _ (macLink_ne_macStat p)]
  rfl

end

theorem Dev.alignEvent_inband (mode : 9 ≤ d.portMode p) (beyond : 5 ≤ d.lstate p) (speed : Nat) (full : Bool) :
    d.alignEvent p speed full =
      if full then d.fset (R.MAC_STAT p) R.MAC_STAT.SPEED (d.portSpeed p speed) else d.portFault p false := if_pos (by simp [mode, beyond])

theorem Dev.holdUpExpire_up (state : d.lstate p = 5) (armed : d.armed ⟨.holdUp, p, 0⟩ = true) : d.holdUpExpire p =
    let e := (d.disarm ⟨.holdUp, p, 0⟩).fset (R.MAC_STAT p) R.MAC_STAT.LSTATE 6
    (if p < 128 then e.setFieldBit (R.PB_EVT (p / 8)) R.PB_EVT.LINK_UP (p % 8) true
      else e.setFlag (R.HST_EVT (portRegion p)) R.HST_EVT.ETH_LINK_UP true).refreshReady p :=
  if_pos (by rw [state, Dev.due, armed]; rfl)

/-! ## Faults -/

section
variable (aligned : 4 ≤ d.lstate p) (lane : Nat)
include aligned

theorem Dev.linkFault_of (c : FaultCause) : d.linkFault p lane c =
    match c with
    | .localFault => d.portFault p true
    | .align => (d.setFlag (R.MAC_STAT p) R.MAC_STAT.ALIGNED false).portFault p false
    | .signal => (d.loseSignal (d.portLane p lane)).each (d.lanePorts (d.portLane p lane)) fun q d =>
        if 4 ≤ d.lstate q then d.portFault q false else d
    | .lock => (d.loseSync (d.portLane p lane)).each (d.lanePorts (d.portLane p lane)) fun q d =>
        if 4 ≤ d.lstate q then d.portFault q false else d := by
  have state : d.lstate p ≠ 0 ∧ ¬d.lstate p < 4 := by omega
  refine (if_neg state.1).trans ((if_neg state.2).trans ?_)
  cases c <;> rfl

end

/-- A fault begins: the port signals it where its mode has link fault signalling. -/
def Dev.signalsFault (d : Dev) (p : Nat) : Dev := if d.faultSignalling p then d.faultTx p true else d

theorem Dev.signalsFault_fget (d : Dev) (p a : Nat) (f : Fld) : (d.signalsFault p).fget a f = d.fget a f := by
  rw [Dev.signalsFault]; split
  case isTrue => exact d.faultTx_fget p true a f
  case isFalse => rfl

theorem Dev.portFault_up (up : d.lstate p = 6) : d.portFault p false = ((d.signalsFault p).cutReception p).portDownOrHold p := if_pos up

theorem Dev.portFault_holds (up : d.lstate p = 6) (time : d.fget (R.MAC_LINK p) R.MAC_LINK.DOWN_MS ≠ 0) : d.portFault p false =
    let d := d.signalsFault p
    ((d.cutReception p).fset (R.MAC_STAT p) R.MAC_STAT.LSTATE 7).arm ⟨.holdDown, p, 0⟩ (d.fget (R.MAC_LINK p) R.MAC_LINK.DOWN_MS * 1000000) := by
  rw [Dev.portFault_up up]
  exact if_neg (fun h => time ((d.signalsFault_fget p _ _).symm.trans h))

theorem Dev.portFault_passes (up : d.lstate p = 6) (noTime : d.fget (R.MAC_LINK p) R.MAC_LINK.DOWN_MS = 0) :
    d.portFault p false = ((d.signalsFault p).cutReception p).portDown p := by
  rw [Dev.portFault_up up]
  exact if_pos ((d.signalsFault_fget p _ _).trans noTime)

theorem Dev.portFault_holdUp (state : d.lstate p = 5) (isLocal : Bool) : d.portFault p isLocal = (d.signalsFault p).portWait p := by
  have notUp : d.lstate p ≠ 6 := by omega
  exact (if_neg notUp).trans (if_pos state)

theorem Dev.lstate_faultEnded (d : Dev) (p : Nat) :
    ((d.setFlag (R.MAC_STAT p) R.MAC_STAT.LOCAL_FAULT false).faultTx p false).lstate p = d.lstate p := by
  rw [Dev.lstate, Dev.faultTx_fget, Dev.fget, Dev.rd_setFlag_same]
  exact Fld.get_put_other _ _ _ _ (by decide) (by decide)

theorem Dev.faultEnd_returns (state : d.lstate p = 7) : d.faultEnd p =
    let d := (d.setFlag (R.MAC_STAT p) R.MAC_STAT.LOCAL_FAULT false).faultTx p false
    let d := d.each (d.portLanes p) fun l d => ((d.setFlag (R.LN_STAT l) R.LN_STAT.SIGNAL true).setFlag (R.LN_STAT l)
      R.LN_STAT.CDR_LOCK true).setFlag (R.LN_STAT l) R.LN_STAT.SYNC true
    let d := (d.setFlag (R.MAC_STAT p) R.MAC_STAT.ALIGNED (decide (6 ≤ d.portMode p ∧ d.portMode p ≤ 8))).setFlag (R.MAC_STAT p)
      R.MAC_STAT.FEC_LOCK (d.portFec p)
    (((d.disarm ⟨.holdDown, p, 0⟩).fset (R.MAC_STAT p) R.MAC_STAT.LSTATE 6).bump (R.MAC_HOLD_DOWN_RECOVERED p)).refreshReady p :=
  if_pos ((d.lstate_faultEnded p).trans state)

theorem Dev.faultEnd_clears (other : d.lstate p ≠ 7) :
    d.faultEnd p = (d.setFlag (R.MAC_STAT p) R.MAC_STAT.LOCAL_FAULT false).faultTx p false :=
  if_neg (fun h => other ((d.lstate_faultEnded p).symm.trans h))

theorem Dev.holdDownExpire_down (state : d.lstate p = 7) (armed : d.armed ⟨.holdDown, p, 0⟩ = true) :
    d.holdDownExpire p = d.portDown p := if_pos (by rw [state, Dev.due, armed]; rfl)

theorem Dev.lockLost_returns {lane : Nat} {sig : Bool} (low : 3 ≤ d.lstate p) (high : d.lstate p ≤ 5) (lost : sig = true ∨ 4 ≤ d.lstate p) :
    d.lockLost p lane sig =
      let l := d.portLane p lane
      let d := if sig then d.loseSignal l else d.loseSync l
      d.each ((d.lanePorts l).filter fun q => decide (3 ≤ d.lstate q ∧ d.lstate q ≤ 5)) fun q d => d.portWait q := by
  have enabled : ¬(d.lstate p = 0 ∧ d.portPresent p = true) := by omega
  exact (if_neg enabled).trans (if_pos ⟨low, high, lost⟩)

/-! ## A lane's checker and re-adaptation -/

theorem Dev.prbsLock_counts {l : Nat} (lane : l ∈ userLanes) (low : 1 ≤ d.fget (R.LN_PRBS l) R.LN_PRBS.CHK)
    (high : d.fget (R.LN_PRBS l) R.LN_PRBS.CHK ≤ 5) (lock : Bool) (errors : Nat) : d.prbsLock l lock errors =
      let d := d.setFlag (R.LN_STAT l) R.LN_STAT.PRBS_LOCK lock
      if lock then d.bump (R.LN_PRBS_ERR l) errors else d := if_pos ⟨List.contains_iff_mem.mpr lane, low, high⟩

theorem Dev.prbsLock_ignored {l : Nat}
    (h : ¬(l ∈ userLanes ∧ 1 ≤ d.fget (R.LN_PRBS l) R.LN_PRBS.CHK ∧ d.fget (R.LN_PRBS l) R.LN_PRBS.CHK ≤ 5)) (lock : Bool) (errors : Nat) :
    d.prbsLock l lock errors = d := if_neg fun ⟨lane, range⟩ => h ⟨List.contains_iff_mem.mp lane, range⟩

theorem Dev.readaptationPass_adapts {n : Nat} (allowed : d.workAllowed 3 n = true) : d.readaptationPass n =
    let adapted := (((regionPorts n).flatMap fun p => d.portLanes p).eraseDups).filter fun l => d.flag (R.LN_RXEQ l) R.LN_RXEQ.ADAPTED
    (d.each adapted fun l d => (({ d with free := d.free + 2 } : Dev).fset (R.LN_RXEQ l) R.LN_RXEQ.CTLE
      (Config.freeValue d.free).toNat).fset (R.LN_RXEQ l) R.LN_RXEQ.DFE1 (Config.freeValue (d.free + 1)).toNat).workDone 3 n :=
  if_neg (by simp [allowed])

theorem Dev.readaptationPass_waits {n : Nat} (closed : d.workAllowed 3 n = false) : d.readaptationPass n = d := if_pos (by simp [closed])

end

/-- Settles O20: each event of a port's bring-up acts in its own state. -/
theorem portBringUp : Obligations.PortBringUp := by
  intro p s ports on
  refine ⟨fun state ref => State.runPort_done on ports (Dev.calibrated_waits state ref),
    fun state => State.runPort_done on ports (if_pos state), fun other => State.runPort_done on ports (if_neg other),
    fun ctle dfe state => State.runPort_done on ports (if_pos state), fun speed full aligns clear => ?align,
    fun speed full mode beyond => State.runPort_done on ports (Dev.alignEvent_inband mode beyond _ full),
    fun state armed => State.runPort_done on ports (Dev.holdUpExpire_up state armed)⟩
  case align =>
    cases full with
    | true => exact State.runPort_done on ports (Dev.alignEvent_full aligns clear _)
    | false => exact State.runPort_done on ports (Dev.alignEvent_half aligns clear _)

/-- Settles O21: a fault acts by the state the port is in. -/
theorem portFaults : Obligations.PortFaults := by
  refine ⟨fun p s ports on => ⟨fun lane aligned => ?_, Dev.portFault_holds, Dev.portFault_passes, Dev.portFault_holdUp,
      fun state => State.runPort_done on ports (Dev.faultEnd_returns state),
      fun other => State.runPort_done on ports (Dev.faultEnd_clears other),
      fun state armed => State.runPort_done on ports (Dev.holdDownExpire_down state armed),
      fun lane sig low high lost => State.runPort_done on ports (Dev.lockLost_returns low high lost),
      fun lane sig disabled present => State.runPort_done on ports (if_pos ⟨disabled, present⟩),
      fun signalling aligned => State.runPort_done on ports (if_pos (by simp [signalling, aligned])),
      State.runPort_done on ports rfl⟩,
    fun s on => ⟨fun b => State.runDev_done on rfl, fun b => State.runDev_done on rfl,
      fun l errors lane low high => ⟨State.runDev_done on (Dev.prbsLock_counts lane low high true _),
        State.runDev_done on (Dev.prbsLock_counts lane low high false _)⟩,
      fun l b errors other => State.runDev_done on (Dev.prbsLock_ignored other b _),
      fun n allowed => State.runDev_done on (Dev.readaptationPass_adapts allowed),
      fun n closed => State.runDev_done on (Dev.readaptationPass_waits closed)⟩⟩
  exact ⟨State.runPort_done on ports (Dev.linkFault_of aligned lane .localFault),
    State.runPort_done on ports (Dev.linkFault_of aligned lane .align),
    State.runPort_done on ports (Dev.linkFault_of aligned lane .signal),
    State.runPort_done on ports (Dev.linkFault_of aligned lane .lock)⟩

end Sys2Proof.Machine
end

section
/-! Management buses of a port block (R153 to R162), time bases (R168 to R177), the MAINS axis (R175, R181 to R188), the ODO axis
(R175, R189 to R191) and the capture inputs (R202 to R204). -/

open Sys2Proof Sys2Proof.Machine

namespace Sys2Proof.Machine

section
variable {d : Dev} {b : Nat}

/-! ## MDIO and I2C -/

theorem Dev.mdioStart_busy (st op phy reg data : Nat) (read : Bool) (busy : d.flag (R.MDIO_STAT b) R.MDIO_STAT.BUSY = true) :
    d.mdioStart b st op phy reg data read = d.setFlag (R.MDIO_STAT b) R.MDIO_STAT.OVERRUN true := if_pos busy

section
variable (free : d.flag (R.MDIO_STAT b) R.MDIO_STAT.BUSY = false) (st op phy reg data : Nat)
include free

theorem Dev.mdioStart_write : d.mdioStart b st op phy reg data false = mdioStarted d b st op phy reg data 1 :=
  if_neg (Bool.not_eq_true _ ▸ free)

theorem Dev.mdioStart_read : d.mdioStart b st op phy reg data true = mdioStarted d b st op phy reg data 2 :=
  if_neg (Bool.not_eq_true _ ▸ free)

end

theorem Dev.mdioEnd_idle (turn : Bool) (data : Nat) (free : d.flag (R.MDIO_STAT b) R.MDIO_STAT.BUSY = false) :
    d.mdioEnd b turn data = d := if_pos (by simp [free])

theorem Dev.mdioEnd_ends (turn : Bool) (data : Nat) (busy : d.flag (R.MDIO_STAT b) R.MDIO_STAT.BUSY = true) : d.mdioEnd b turn data =
    let d' : Dev := { d with mgmt := { d.mgmt with mdio := Map.put (fun _ => 0) d.mgmt.mdio b 0 } }
    let d' := (d'.setFlag (R.MDIO_STAT b) R.MDIO_STAT.BUSY false).setFlag (R.MDIO_STAT b) R.MDIO_STAT.DONE true
    if Map.get (fun _ => 0) d.mgmt.mdio b = 2 then
      (d'.fset (R.MDIO_STAT b) R.MDIO_STAT.RDATA data).when turn (·.setFlag (R.MDIO_STAT b) R.MDIO_STAT.NO_RESP true)
    else d' := by
  refine (if_neg (by simp [busy])).trans ?_
  by_cases read : Map.get (fun _ => 0) d.mgmt.mdio b = 2
  · exact (if_pos (beq_iff_eq.mpr read)).trans (if_pos read).symm
  · exact (if_neg (mt beq_iff_eq.mp read)).trans (if_neg read).symm

theorem Dev.i2cStart_busy (addr wlen rlen : Nat) (sda : Option (Fin 10)) (busy : d.flag (R.I2C_STAT b) R.I2C_STAT.BUSY = true) :
    d.i2cStart b addr wlen rlen sda = d.setFlag (R.I2C_STAT b) R.I2C_STAT.OVERRUN true := if_pos busy

theorem Dev.i2cClearCmd_busy (sda : Option (Fin 10)) (busy : d.flag (R.I2C_STAT b) R.I2C_STAT.BUSY = true) :
    d.i2cClearCmd b sda = d.setFlag (R.I2C_STAT b) R.I2C_STAT.OVERRUN true := if_pos busy

section
variable (free : d.flag (R.I2C_STAT b) R.I2C_STAT.BUSY = false)
include free

theorem Dev.i2cStart_starts (addr wlen rlen : Nat) (k : Fin 10) : d.i2cStart b addr wlen rlen (some k) =
    let d := d.when (k.val != 0) (·.setFlag (R.I2C_STAT b) R.I2C_STAT.CLEARED true)
    let d := d.setFlag (R.I2C_STAT b) R.I2C_STAT.BUSY true
    let c : I2cCmd := { wlen := min wlen 16, rlen := min rlen 16 }
    let d : Dev := { d with mgmt := { d.mgmt with i2c := Map.put (fun _ => none) d.mgmt.i2c b (some c) } }
    d.emit (.i2c b (d.fget (R.I2C_CFG b) R.I2C_CFG.SPEED) addr (d.i2cBytes b (min wlen 16)) (min rlen 16)) := by
  have cleared : (if k.val = 0 then d else d.busClear b true) = d.when (k.val != 0) (·.setFlag (R.I2C_STAT b) R.I2C_STAT.CLEARED true) := by
    by_cases high : k.val = 0
    · exact (if_pos high).trans (if_neg (by simp [high])).symm
    · exact (if_neg high).trans (if_pos (by simp [high])).symm
  rw [Dev.i2cStart, free, if_neg Bool.false_ne_true]
  dsimp only [i2cLen]
  rw [cleared]

theorem Dev.i2cStart_stuck (addr wlen rlen : Nat) : d.i2cStart b addr wlen rlen none =
    i2cEnded ((d.setFlag (R.I2C_STAT b) R.I2C_STAT.BUS_STUCK true).fset (R.I2C_STAT b) R.I2C_STAT.COUNT 0) b :=
  if_neg (Bool.not_eq_true _ ▸ free)

theorem Dev.i2cClearCmd_clears (sda : Option (Fin 10)) : d.i2cClearCmd b sda =
    i2cEnded ((d.busClear b sda.isSome).fset (R.I2C_STAT b) R.I2C_STAT.COUNT 0) b := if_neg (Bool.not_eq_true _ ▸ free)

end

theorem Dev.i2cCommandEnd_ends {c : I2cCmd} (pending : Map.get (fun _ => none) d.mgmt.i2c b = some c) (ack nack : Bool) (count : Nat)
    (bytes : List Byte) : d.i2cCommandEnd b ack count nack bytes =
      let d := d.when (!ack) (·.setFlag (R.I2C_STAT b) R.I2C_STAT.NACK_ADDR true)
      let d := d.when nack (·.setFlag (R.I2C_STAT b) R.I2C_STAT.NACK_DATA true)
      let d := d.fset (R.I2C_STAT b) R.I2C_STAT.COUNT count
      i2cEnded (d.when (ack && !nack) (·.i2cStore b (bytes.take c.rlen))) b := by
  have address : (if ack then d else d.setFlag (R.I2C_STAT b) R.I2C_STAT.NACK_ADDR true) =
      d.when (!ack) (·.setFlag (R.I2C_STAT b) R.I2C_STAT.NACK_ADDR true) := by
    cases ack with
    | true => exact (if_pos rfl).trans (if_neg (by decide)).symm
    | false => exact (if_neg (by decide)).trans (if_pos rfl).symm
  rw [Dev.i2cCommandEnd, pending]; dsimp only
  rw [address]; rfl

section
variable (busy : d.flag (R.I2C_STAT b) R.I2C_STAT.BUSY = true) (count : Nat)
include busy

theorem Dev.i2cStretch_ends (sda : Option (Fin 10)) : d.i2cStretch b count sda =
    (i2cEnded ((d.setFlag (R.I2C_STAT b) R.I2C_STAT.STRETCH_TO true).fset (R.I2C_STAT b) R.I2C_STAT.COUNT count) b).busClear b sda.isSome :=
  if_neg (by simp [busy])

theorem Dev.i2cLost_ends : d.i2cLost b count =
    i2cEnded ((d.setFlag (R.I2C_STAT b) R.I2C_STAT.LOST true).fset (R.I2C_STAT b) R.I2C_STAT.COUNT count) b := if_neg (by simp [busy])

end
end

/-- Settles O22: a frame or transaction starts where none is in progress, and its end leaves the flags of what it met. -/
theorem managementBuses : Obligations.ManagementBuses := by
  refine ⟨fun b s on => ⟨fun m acc free phy reg data => ?start, fun m acc busy phy reg data => ?overrun,
      fun busy turn data => State.runDev_done on (Dev.mdioEnd_ends turn _ busy),
      fun free turn data => State.runDev_done on (Dev.mdioEnd_idle turn _ free)⟩,
    fun b s on => ⟨fun m addr wlen rlen acc free => ⟨fun k => State.runCommand_done on acc rfl (Dev.i2cStart_starts free _ _ _ k),
        State.runCommand_done on acc rfl (Dev.i2cStart_stuck free _ _ _),
        fun k => State.runCommand_done on acc rfl (Dev.i2cClearCmd_clears free (some k)),
        State.runCommand_done on acc rfl (Dev.i2cClearCmd_clears free none)⟩,
      fun m addr wlen rlen sda acc busy => ⟨State.runCommand_done on acc rfl (Dev.i2cStart_busy _ _ _ sda busy),
        State.runCommand_done on acc rfl (Dev.i2cClearCmd_busy sda busy)⟩,
      fun c ack nack count bytes pending => State.runDev_done on (Dev.i2cCommandEnd_ends pending ack nack _ bytes),
      fun busy => ⟨fun count sda => State.runDev_done on (Dev.i2cStretch_ends busy _ sda),
        fun count => State.runDev_done on (Dev.i2cLost_ends busy _)⟩⟩⟩
  case start =>
    exact ⟨State.runCommand_done on acc rfl (Dev.mdioStart_write free _ _ _ _ _), State.runCommand_done on acc rfl (Dev.mdioStart_read free _ _ _ _ _),
      State.runCommand_done on acc rfl (Dev.mdioStart_write free _ _ _ _ _), State.runCommand_done on acc rfl (Dev.mdioStart_write free _ _ _ _ _),
      State.runCommand_done on acc rfl (Dev.mdioStart_read free _ _ _ _ _), State.runCommand_done on acc rfl (Dev.mdioStart_read free _ _ _ _ _)⟩
  case overrun =>
    have overrun (st op phy reg data : Nat) (read : Bool) :
        s.run (fun s => s.command m (R.MDIO_CMD b) .none (fun s => s.onDev (fun d => d.mdioStart b st op phy reg data read))) =
          .next (s.done fun d => d.setFlag (R.MDIO_STAT b) R.MDIO_STAT.OVERRUN true) :=
      State.runCommand_done on acc rfl (Dev.mdioStart_busy st op phy reg data read busy)
    simp only [List.forall_mem_cons]
    exact ⟨overrun _ _ _ _ _ _, overrun _ _ _ _ _ _, overrun _ _ _ _ _ _, overrun _ _ _ _ _ _, overrun _ _ _ _ _ _,
      overrun _ _ _ _ _ _, fun _ mem => absurd mem List.not_mem_nil⟩

/-! ## The time page -/

theorem placeOf_tbRate : ∀ t : Fin 4, R.TB_RATE t ≠ R.PH_ODO_CMD ∧ placeOf (R.TB_RATE t) (R.TB_CMD 0) 0x40 4 = none ∧
    placeOf (R.TB_RATE t) (R.TB_RATE 0) 0x40 4 = some t.val := by decide

theorem placeOf_tbCmd : ∀ t : Fin 4, R.TB_CMD t ≠ R.PH_ODO_CMD ∧ placeOf (R.TB_CMD t) (R.TB_CMD 0) 0x40 4 = some t.val := by decide

theorem Dev.timeEffect_tbRate (d : Dev) (t : Fin 4) (v : Word) : d.timeEffect (R.TB_RATE t) v = d.tbRateWrite t v := by
  obtain ⟨other, cmd, rate⟩ := placeOf_tbRate t
  rw [Dev.timeEffect, if_neg other, cmd, rate]

theorem Dev.timeEffect_tbCmd (d : Dev) (t : Fin 4) (v : Word) : d.timeEffect (R.TB_CMD t) v = d.tbCommand t v := by
  obtain ⟨other, cmd⟩ := placeOf_tbCmd t
  rw [Dev.timeEffect, if_neg other, cmd]

theorem Dev.serveTime_first {d : Dev} {w : TimeWrite} {l : List TimeWrite} {a : Nat} (waits : d.time.writes = w :: l) (addr : w.addr = a) :
    d.serveTime = ({ d with time := { d.time with writes := l } } : Dev).timeEffect a w.value := by
  rw [Dev.serveTime, waits, ← addr]

theorem Dev.tbCommand_set (d : Dev) (t : Nat) : d.tbCommand t 1 = d.tbSet t := rfl

theorem Dev.tbCommand_step (d : Dev) (t : Nat) : d.tbCommand t 2 = d.tbStep t := rfl

theorem Dev.tbStep_eq (d : Dev) (t : Nat) : d.tbStep t =
    let st := signed 32 (d.rd (R.TB_STEP t)).toNat
    let e := d.setTbase t ⟨wrapTo 64 (((d.tbase t).value : Int) + st * 4294967296), (d.tbase t).acc + st⟩
    ((e.setFlag (R.TB_STAT t) R.TB_STAT.STEPPED true).bump (R.TB_ADJ_CNT t)).refreshAxis t := by
  have unit : (2 : Int) ^ 32 = 4294967296 := rfl
  rw [Dev.tbStep, unit]; rfl

section
variable {d : Dev} {t : Nat}

theorem Dev.tbWatchExpire_first (armed : d.armed ⟨.tbWatch, t, 0⟩ = true) (runs : d.flag (R.TB_STAT t) R.TB_STAT.HOLDOVER = false) :
    d.tbWatchExpire t = ((d.disarm ⟨.tbWatch, t, 0⟩).setFlag (R.TB_STAT t) R.TB_STAT.HOLDOVER true).bump (R.TB_HOLD_CNT t) :=
  (if_pos armed).trans (if_neg (Bool.not_eq_true _ ▸ runs))

theorem Dev.tbWatchExpire_again (armed : d.armed ⟨.tbWatch, t, 0⟩ = true) (held : d.flag (R.TB_STAT t) R.TB_STAT.HOLDOVER = true) :
    d.tbWatchExpire t = d.disarm ⟨.tbWatch, t, 0⟩ := (if_pos armed).trans (if_pos held)

end

/-- Settles O23: the time page takes its writes in turn, and each has the effect its register gives. -/
theorem timeBases : Obligations.TimeBases := by
  intro t s on
  refine ⟨fun m v acc => State.runCommand_done on acc rfl rfl,
    fun m acc => ⟨State.runCommand_done on acc rfl rfl, State.runCommand_done on acc rfl rfl⟩, fun d m a v => rfl, fun d w l waits => ?serve,
    fun armed runs => State.runDev_done on (Dev.tbWatchExpire_first armed runs),
    fun armed held => State.runDev_done on (Dev.tbWatchExpire_again armed held),
    fun idle => State.runDev_done on (if_neg (Bool.not_eq_true _ ▸ idle))⟩
  case serve =>
    refine ⟨fun addr => ?_, fun addr value => ?_, fun addr value => ?_⟩
    · exact (Dev.serveTime_first waits addr).trans (Dev.timeEffect_tbRate _ t _)
    · exact (Dev.serveTime_first waits addr).trans ((Dev.timeEffect_tbCmd _ t _).trans (by rw [value, Dev.tbCommand_set]; rfl))
    · exact (Dev.serveTime_first waits addr).trans ((Dev.timeEffect_tbCmd _ t _).trans (by rw [value, Dev.tbCommand_step, Dev.tbStep_eq]))

/-! ## MAINS -/

section
variable {d : Dev} {rising : Bool} {held : Nat}

theorem Dev.mainsEdge_ignored (h : d.mainsOn = false ∨ rising = d.flag R.PH_MAINS_CFG R.PH_MAINS_CFG.EDGE
    ∨ held < d.fget R.PH_MAINS_CFG R.PH_MAINS_CFG.FILT) : d.mainsEdge rising held = d :=
  if_pos (by rcases h with h | h | h <;> simp [h])

section
variable (enabled : d.mainsOn = true) (edge : rising = !d.flag R.PH_MAINS_CFG R.PH_MAINS_CFG.EDGE)
  (long : d.fget R.PH_MAINS_CFG R.PH_MAINS_CFG.FILT ≤ held)
include enabled edge long

theorem Dev.mainsEdge_counts : d.mainsEdge rising held = if d.mainsState = 1 then d.mainsLockedEdge else d.mainsMeasure :=
  if_neg (by simp [enabled, edge, Nat.not_lt.mpr long])

theorem Dev.mainsEdge_locked (locked : d.mainsState = 1) : d.mainsEdge rising held = d.mainsLockedEdge :=
  (Dev.mainsEdge_counts enabled edge long).trans (if_pos locked)

theorem Dev.mainsEdge_measures (unlocked : d.mainsState ≠ 1) : d.mainsEdge rising held = d.mainsMeasure :=
  (Dev.mainsEdge_counts enabled edge long).trans (if_neg unlocked)

end

theorem Dev.mainsLockedEdge_stray (running : d.time.mains.holding = false) (outside : d.time.mains.phase < 65536 - d.mainsWin) :
    d.mainsLockedEdge = d.bump R.PH_MAINS_STRAY := if_neg (by simp only [running, Bool.false_or, decide_eq_true_eq]; omega)

theorem Dev.mainsLockedEdge_ends (h : d.time.mains.holding = true ∨ 65536 - d.mainsWin ≤ d.time.mains.phase) : d.mainsLockedEdge =
    let m := d.time.mains
    let iv := match m.lastCycleEdge with
      | some e => if usableInterval (d.now - e) then ((d.now - e) :: m.intervals).take 4 else m.intervals
      | none => m.intervals
    (d.setMains { m with
      intervals := iv, lastCycleEdge := some d.now, lastEdge := some d.now, misses := 0,
      nextPeriod := if iv.length = 4 then (iv.foldl (· + ·) 0) / 4 else 0 }).mainsCompressCycle :=
  if_pos (by simpa only [Bool.or_eq_true, decide_eq_true_eq] using h)

theorem Dev.mainsMeasure_first (first : d.time.mains.lastEdge = none) :
    d.mainsMeasure = d.setMains { d.time.mains with lastEdge := some d.now, intervals := [] } := by
  rw [Dev.mainsMeasure]; dsimp only; rw [first]

theorem Dev.mainsMeasure_locks {e first : Nat} {l : List Nat} (acquires : d.mainsState = 0) (last : d.time.mains.lastEdge = some e)
    (intervals : d.time.mains.intervals = first :: l) (usable : usableInterval (d.now - e) = true)
    (close : locks first (d.now - e) = true) : d.mainsMeasure =
      let d' := ((((d.fset R.PH_MAINS_PERIOD R.PH_MAINS_PERIOD.NS ((first + (d.now - e)) / 2)).fset R.PH_MAINS_STAT
        R.PH_MAINS_STAT.STATE 1).setFlag R.PH_MAINS_STAT R.PH_MAINS_STAT.LOCK_EVT true).bump R.PH_MAINS_RESYNC)
      d'.setMains { d.time.mains with
        lastEdge := some d.now, intervals := [], misses := 0, nextPeriod := 0, lastCycleEdge := none } := by
  have fresh : (d.mainsState == 2) = false := by rw [acquires]; rfl
  rw [Dev.mainsMeasure]; dsimp only
  rw [last]; dsimp only
  rw [usable, intervals]; dsimp only
  have now : ((((d.setPeriod ((first + (d.now - e)) / 2)).fset R.PH_MAINS_STAT R.PH_MAINS_STAT.STATE 1).setFlag R.PH_MAINS_STAT
      R.PH_MAINS_STAT.LOCK_EVT true).bump R.PH_MAINS_RESYNC).now = d.now := by simp [Dev.setPeriod]
  rw [close, fresh, now]; rfl

theorem Dev.mainsMiss_counts (enabled : d.mainsOn = true) (locked : d.mainsState = 1) (holds : d.time.mains.holding = true)
    (same : d.time.mains.nextPeriod = 0) (due : d.mainsWin * d.mainsPeriod ≤ d.time.mains.progress) : d.mainsMiss =
      let e := ((d.bump R.PH_MAINS_MISSED).setMains { d.time.mains with
        misses := d.time.mains.misses + 1, holding := false,
        progress := d.time.mains.progress - d.mainsWin * d.mainsPeriod, nextPeriod := 0 }).mainsAdvance (d.mainsWin + 1)
      if e.mainsLoss ≤ d.time.mains.misses + 1 then
        let e := (e.fset R.PH_MAINS_STAT R.PH_MAINS_STAT.STATE 2).setFlag R.PH_MAINS_STAT R.PH_MAINS_STAT.LOST_EVT true
        e.setMains { e.time.mains with intervals := [] }
      else e := by
  refine (if_neg (by simp [enabled, locked, holds, Nat.not_lt.mpr due])).trans ?_
  dsimp only
  rw [if_pos same]

/-- EN of PH_MAINS_CFG, as the register map has it. -/
def mainsEnField : FieldDesc := ⟨R.PH_MAINS_CFG.EN, .rwl, .img, .kept, .chip 2⟩

theorem mainsEnField_mapped : (regAt R.PH_MAINS_CFG).any (fun r => decide (mainsEnField ∈ r.fields)) = true := by decide +kernel

/-- A write that sets EN, where its group is live, enables the axis. -/
theorem Dev.mainsOn_plain {v : Word} (en : v.getLsbD 0 = true) (live : d.groupLive (.chip 2) R.PH_MAINS_CFG = true) :
    (d.plain R.PH_MAINS_CFG v).mainsOn = true := by
  obtain ⟨r, row⟩ : ∃ r, regAt R.PH_MAINS_CFG = some r := Option.isSome_iff_exists.mp (by decide +kernel)
  have mem := mainsEnField_mapped
  rw [row, Option.any_some, decide_eq_true_eq] at mem
  have stored : (d.plain R.PH_MAINS_CFG v).fget R.PH_MAINS_CFG R.PH_MAINS_CFG.EN = R.PH_MAINS_CFG.EN.get v :=
    (Dev.fget_plain d R.PH_MAINS_CFG r v row mainsEnField mem).trans (if_pos live)
  have one : R.PH_MAINS_CFG.EN.get v = 1 := by
    have low : v.toNat % 2 = 1 := by simpa [BitVec.getLsbD, Nat.testBit_zero] using en
    simpa [Fld.get, R.PH_MAINS_CFG.EN] using low
  rw [Dev.mainsOn, Dev.flag, stored, one]; rfl

theorem Dev.timeEffect_mainsCfg (d : Dev) (v : Word) : d.timeEffect R.PH_MAINS_CFG v =
    let e := d.plain R.PH_MAINS_CFG v
    e.when (e.mainsOn && !d.mainsOn) (·.mainsEnabled) := rfl

theorem Dev.timeEffect_enables {v : Word} (off : d.mainsOn = false) (en : v.getLsbD 0 = true)
    (live : d.groupLive (.chip 2) R.PH_MAINS_CFG = true) : d.timeEffect R.PH_MAINS_CFG v = (d.plain R.PH_MAINS_CFG v).mainsEnabled := by
  rw [Dev.timeEffect_mainsCfg]; dsimp only
  rw [Dev.mainsOn_plain en live, off]; rfl

end

/-- A write of the time page's registers waits there for its turn (R175). -/
theorem State.writeReg_timePage (s : State) (m : Master) {a : Nat} (v : Word) (page : a / 0x10000 = 6) :
    s.writeReg m a v = s.onDev (·.timeArrives m a v) := by
  have other : a / 0x10000 ≠ 3 := by omega
  rw [State.writeReg, if_pos (.inr page), State.writeNow, if_neg other, if_pos page]

/-- Settles O24: an edge is judged by the axis's state, and a write that enables the axis takes effect in its turn. -/
theorem mainsAxis : Obligations.MainsAxis := by
  intro s on
  refine ⟨fun rising held h => State.runDev_done on (Dev.mainsEdge_ignored h),
    fun rising held enabled edge long locked => ⟨fun running outside => ?_, fun h => ?_⟩,
    fun rising held enabled edge long unlocked first => ?_, fun rising held e first l enabled edge long acquires last intervals usable close => ?_,
    fun enabled locked holds same due => State.runDev_done on (Dev.mainsMiss_counts enabled locked holds same due),
    fun m v acc off en live => ⟨?_, Dev.timeEffect_enables off en live⟩⟩
  · exact State.runDev_done on ((Dev.mainsEdge_locked enabled edge long locked).trans (Dev.mainsLockedEdge_stray running outside))
  · exact State.runDev_done on ((Dev.mainsEdge_locked enabled edge long locked).trans (Dev.mainsLockedEdge_ends h))
  · exact State.runDev_done on ((Dev.mainsEdge_measures enabled edge long unlocked).trans (Dev.mainsMeasure_first first))
  · have unlocked : s.dev.mainsState ≠ 1 := by omega
    exact State.runDev_done on ((Dev.mainsEdge_measures enabled edge long unlocked).trans
      (Dev.mainsMeasure_locks acquires last intervals usable close))
  · exact State.run_did (act := fun s => s.writeAccess m R.PH_MAINS_CFG 15 v) on
      ((State.writeAccess_of v acc).trans (s.writeReg_timePage m v (by decide)))

/-! ## ODO and the capture inputs -/

section
variable {d : Dev}

theorem Dev.odoEdge_off (high : Nat) (dir : Bool) (off : d.flag R.PH_ODO_CFG R.PH_ODO_CFG.EN = false) : d.odoEdge high dir = d :=
  if_pos (by simp [off])

section
variable {high : Nat} (enabled : d.flag R.PH_ODO_CFG R.PH_ODO_CFG.EN = true)
include enabled

theorem Dev.odoEdge_glitch (dir : Bool) (short : high < d.fget R.PH_ODO_CFG R.PH_ODO_CFG.FILT) :
    d.odoEdge high dir = d.bump R.PH_ODO_GLITCH := (if_neg (by simp [enabled])).trans (if_pos short)

/-- A counted edge moves the axis by a step, back or forward. -/
theorem Dev.odoEdge_counts {dir back : Bool} (long : d.fget R.PH_ODO_CFG R.PH_ODO_CFG.FILT ≤ high)
    (turn : (dir != d.flag R.PH_ODO_CFG R.PH_ODO_CFG.DIR_POL) = back) : d.odoEdge high dir =
      let st : Int := if back then -1 else 1
      let d := d.setOdo ⟨d.time.odo.acc + st, wrapTo 32 ((d.time.odo.value : Int) + st)⟩
      let d := ({ d with clk := { d.clk with odoSteps := d.clk.odoSteps + st } } : Dev).bump (if back then R.PH_ODO_REV else R.PH_ODO_FWD)
      let d := (d.setFlag R.PH_ODO_STAT R.PH_ODO_STAT.DIR back).setFlag R.PH_ODO_STAT R.PH_ODO_STAT.STILL false
      (d.arm ⟨.odoStill, 0, 0⟩ d.odoStillClocks).refreshAxis 5 := by
  rw [Dev.odoEdge, enabled, turn, if_neg (by decide), if_neg (Nat.not_lt.mpr long)]

end

theorem Dev.timeEffect_odoSet (d : Dev) : d.timeEffect R.PH_ODO_CMD 1 = d.odoSet := rfl

section
variable {i : Nat} {rising : Bool} {held : Nat}

theorem Dev.captureEdge_taken (edge : (d.fget (R.CAP_CFG i) R.CAP_CFG.EDGE).testBit (if rising then 0 else 1) = true)
    (long : d.fget (R.CAP_CFG i) R.CAP_CFG.FILT ≤ held) (run : d.usersRun = true) : d.captureEdge i rising held =
      let e : CaptureEntry := ⟨d.was.tbAll, d.was.time.mains.value, d.was.time.odo.value, rising⟩
      { d with clk := { d.clk with captured := d.clk.captured ++ [(i, e)] } } :=
  if_neg (by simp [edge, run, Nat.not_lt.mpr long])

theorem Dev.captureEdge_ignored (h : (d.fget (R.CAP_CFG i) R.CAP_CFG.EDGE).testBit (if rising then 0 else 1) = false ∨
    held < d.fget (R.CAP_CFG i) R.CAP_CFG.FILT) : d.captureEdge i rising held = d :=
  if_pos (by rcases h with h | h <;> simp [h])

theorem Dev.capturePop_more {e e' : CaptureEntry} {l : List CaptureEntry} (held : d.captures i = e :: e' :: l) :
    d.capturePop i = (d.setCaptures i (e' :: l)).refreshCapture i := by
  rw [Dev.capturePop, held]; rfl

/-- A register takes a free value. -/
def Dev.freeWord (a : Nat) (d : Dev) : Dev := d.fresh.2.wr a d.fresh.1

theorem Dev.capturePop_last {e : CaptureEntry} (held : d.captures i = [e]) : d.capturePop i =
    let d := Dev.freeWord (R.CAP_ODO i) (Dev.freeWord (R.CAP_MAINS i)
      (((d.setCaptures i []).refreshCapture i).each [0, 1, 2, 3] fun t => Dev.freeWord (R.CAP_TB i t)))
    d.freshBool.2.setFlag (R.CAP_STAT i) R.CAP_STAT.HEAD_EDGE d.freshBool.1 := by
  rw [Dev.capturePop, held]; rfl

theorem Dev.capturePop_none (held : d.captures i = []) : d.capturePop i = d := by rw [Dev.capturePop, held]

end

theorem placeOf_capCfg : ∀ i : Fin 2, R.CAP_CFG i ≠ R.PH_ODO_CMD ∧ placeOf (R.CAP_CFG i) (R.TB_CMD 0) 0x40 4 = none ∧
    placeOf (R.CAP_CFG i) (R.TB_RATE 0) 0x40 4 = none ∧ R.CAP_CFG i ≠ R.PH_MAINS_CFG ∧ placeOf (R.CAP_CFG i) (R.TB_CFG 0) 64 4 = none ∧
    placeOf (R.CAP_CFG i) (R.CAP_CFG 0) 32 2 = some i.val := by decide

theorem Dev.timeEffect_capCfg (d : Dev) (i : Fin 2) (v : Word) :
    d.timeEffect (R.CAP_CFG i) v = (d.plain (R.CAP_CFG i) v).when (v.getLsbD 31) (·.capturePop i) := by
  obtain ⟨odo, cmd, rate, mains, tb, capture⟩ := placeOf_capCfg i
  rw [Dev.timeEffect, if_neg odo, cmd, rate]; dsimp only
  rw [Dev.timeWrite, if_neg mains, tb, capture]

end

/-- Settles O25: an edge counts, is a glitch or is taken by its length, and the commands of the axis and of the FIFOs act in their turn. -/
theorem odoAxisAndCaptures : Obligations.OdoAxisAndCaptures := by
  refine ⟨fun s on => ⟨fun high dir enabled => ⟨fun short => State.runDev_done on (Dev.odoEdge_glitch enabled dir short), fun long => ?edge⟩,
      fun high dir off => State.runDev_done on (Dev.odoEdge_off _ dir off), fun m acc => State.runCommand_done on acc rfl rfl,
      Dev.timeEffect_odoSet s.dev, fun armed => State.runDev_done on (if_pos armed),
      fun idle => State.runDev_done on (if_neg (Bool.not_eq_true _ ▸ idle))⟩,
    fun i s on => ⟨fun rising held edge long run => State.runDev_done on (Dev.captureEdge_taken edge long run), fun d => rfl,
      fun d e => ⟨fun room => if_neg (Nat.not_le.mpr room), fun full => if_pos full⟩,
      fun rising held edge => State.runDev_done on (Dev.captureEdge_ignored (.inl edge)),
      fun rising held short => State.runDev_done on (Dev.captureEdge_ignored (.inr short)),
      fun m acc => State.runCommand_done on acc rfl rfl, fun d v pop => ?pop, fun e e' l held => Dev.capturePop_more held,
      fun e held => Dev.capturePop_last held, Dev.capturePop_none⟩⟩
  case edge =>
    refine ⟨fun forward => ?_, fun backward => ?_⟩
    · exact State.runDev_done on (Dev.odoEdge_counts (back := false) enabled long (by simp [forward]))
    · exact State.runDev_done on (Dev.odoEdge_counts (back := true) enabled long (by simp [backward]))
  case pop => rw [Dev.timeEffect_capCfg, pop]; rfl

end Sys2Proof.Machine
end

section
/-! Users of the axes (R194, R197 to R201, R205, R207, R278). -/

open Sys2Proof Sys2Proof.Machine

namespace Sys2Proof.Machine

section
variable {d : Dev}

/-! ## Schedule slots -/

theorem Dev.slotOpen_opens {k : Nat} (closed : (d.slotUser k).active = false) (inside : d.windowNow k = true) : d.slotOpen k =
    (((d.setSlotUser k { d.slotUser k with active := true }).refreshSlotStat k).countOpening k).passesOpen k :=
  if_neg (by simp [closed, inside])

theorem Dev.slotOpen_outside {k : Nat} (outside : d.windowNow k = false) : d.slotOpen k = d := if_pos (by simp [outside])

theorem Dev.slotClose_leaves {k : Nat} (open_ : (d.slotUser k).active = true) (ordinary : (d.slotUser k).fallback = false)
    (outside : d.windowNow k = false) :
    d.slotClose k = (d.setSlotUser k { d.slotUser k with active := false }).refreshSlotStat k := by
  have leaves : ((d.slotUser k).active && !d.windowNow k) = true := by rw [open_, outside]; rfl
  have kept : ¬({ d.slotUser k with active := false } : AxisUser).fallbackDone = true := by
    show ¬((d.slotUser k).fallback && (d.slotUser k).owed == 0) = true
    simp [ordinary]
  rw [Dev.slotClose]; dsimp only
  rw [if_pos leaves, if_neg kept]

theorem Dev.slotClose_done {k : Nat} (closed : (d.slotUser k).active = false) (fallback : (d.slotUser k).fallback = true)
    (paid : (d.slotUser k).owed = 0) :
    d.slotClose k = (d.setSlotUser k { d.slotUser k with fallback := false }).refreshSlotStat k := by
  have stays : ¬((d.slotUser k).active && !d.windowNow k) = true := by simp [closed]
  have done_ : (d.slotUser k).fallbackDone = true := by
    show ((d.slotUser k).fallback && (d.slotUser k).owed == 0) = true
    simp [fallback, paid]
  rw [Dev.slotClose]; dsimp only
  rw [if_neg stays, if_pos done_]

theorem Dev.restartGap_rd (d : Dev) (k a : Nat) : (d.restartGap k).rd a = d.rd a := by
  rw [Dev.restartGap, Dev.armGap]; dsimp only
  split <;> rfl

/-- The configuration of a slot lies apart from what its windows write. -/
theorem schCfg_apart : ∀ k : Fin 8, R.SCH_CFG k ≠ R.SCH_STAT k ∧ R.SCH_CFG k ≠ R.SCH_LATE k ∧ R.SCH_CFG k ≠ R.SCH_LATE k + 4 := by decide

/-- A fallback window as it opens: counted LATE, with what it owes, its gap limit anew. -/
def Dev.fallbackOpens (d : Dev) (k owed : Nat) : Dev :=
  ((((d.setSlotUser k { d.slotUser k with fallback := true, owed := owed }).setFlag (R.SCH_STAT k) R.SCH_STAT.LATE true).bump
    (R.SCH_LATE k)).restartGap k).refreshSlotStat k

theorem Dev.slotKind_congr {e : Dev} {k : Nat} (cfg : e.rd (R.SCH_CFG k) = d.rd (R.SCH_CFG k)) : e.slotKind k = d.slotKind k := by
  rw [Dev.slotKind, Dev.slotKind, Dev.fget, Dev.fget, cfg]

theorem Dev.fallbackOpens_slotKind (d : Dev) (k : Fin 8) (owed : Nat) : (d.fallbackOpens k owed).slotKind k = d.slotKind k := by
  obtain ⟨stat, late, late'⟩ := schCfg_apart k
  apply Dev.slotKind_congr
  rw [Dev.fallbackOpens, Dev.refreshSlotStat]; dsimp only
  rw [Dev.rd_setFlag_ne _ _ _ stat, Dev.rd_setFlag_ne _ _ _ stat, Dev.restartGap_rd, Dev.rd_bump_ne _ _ late late',
    Dev.rd_setFlag_ne _ _ _ stat]
  rfl

theorem Dev.passesOpen_slotKind (d : Dev) (k : Nat) : (d.passesOpen k).slotKind k = d.slotKind k := by
  rw [Dev.passesOpen]; split <;> rfl

theorem Dev.slotFallback_opens (k : Fin 8) (armed : d.armed ⟨.schedGap, k, 0⟩ = true) (enabled : d.slotOn k = true)
    (run : d.usersRun = true) (outside : d.windowNow k = false) : d.slotFallback k =
      let owed := if d.slotKind k = 4 then 0 else d.slotTargets k
      let e := d.fallbackOpens k owed
      let e : Dev := if d.slotKind k = 2 then { e with time := { e.time with passes := Nat.lor e.time.passes (e.slotTargets k) } } else e
      if d.slotKind k = 4 then e.snapshot
      else if d.slotKind k = 1 then
        e.each [0, 1, 2, 3] fun n e => if owed.testBit n then e.modTbl n (fun t => { t with windowSince := true }) else e
      else e := by
  have owed_kind := d.fallbackOpens_slotKind k (if d.slotKind k = 4 then 0 else d.slotTargets k)
  refine (if_neg (by simp [Dev.due, armed, enabled, run, outside])).trans ?_
  dsimp only
  show (let e := (d.fallbackOpens k (if d.slotKind k = 4 then 0 else d.slotTargets k)).passesOpen k
    if e.slotKind k = 4 then e.snapshot
    else if e.slotKind k = 1 then
      e.each [0, 1, 2, 3] fun n e => if (if d.slotKind k = 4 then 0 else d.slotTargets k).testBit n then
        e.modTbl n (fun t => { t with windowSince := true }) else e
    else e) = _
  dsimp only
  rw [Dev.passesOpen_slotKind, Dev.passesOpen, owed_kind]

/-! ## Gate tables -/

section
variable {p : Nat}

theorem Dev.gateSwitch_switches {start : Int} (armed : (d.gate p).armed = some start) (enabled : d.gateOn p = true)
    (reached : start ≤ d.axisAcc (d.gateAxis p)) (other : d.gateAxis p ≠ 5) : d.gateSwitch p =
      d.setGate p { d.gate p with active := some (d.gate p).pendingBank, armed := none, origin := start } := by
  rw [Dev.gateSwitch]; dsimp only
  rw [armed]; dsimp only
  rw [if_pos (by simp [enabled, reached]), if_neg other]

theorem Dev.gateSwitch_waits {start : Int} (armed : (d.gate p).armed = some start) (before : d.axisAcc (d.gateAxis p) < start) :
    d.gateSwitch p = d := by
  rw [Dev.gateSwitch]; dsimp only
  rw [armed]
  exact if_neg (by simp [Int.not_le.mpr before])

section
variable (low : p < 128)
include low

theorem Dev.gateRefresh_idle (idle : (d.eport p).sending = none) : d.gateRefresh p = d.setGate p { d.gate p with mask := d.gates p } := by
  rw [Dev.gateRefresh]; dsimp only
  rw [idle]
  exact if_neg (Nat.not_le.mpr low)

theorem Dev.gateRefresh_cuts {i x : Nat} (sending : (d.eport p).sending = some (i, x)) (closed : (d.gates p).testBit i = false)
    (first : (d.eport p).gateClosed = false) : d.gateRefresh p =
      ((d.setGate p { d.gate p with mask := d.gates p }).setEport p { d.eport p with gateClosed := true }).bump
        (pCntKey (portRegion p) (portLocal p) 0) := by
  rw [Dev.gateRefresh]; dsimp only
  rw [sending]; dsimp only
  rw [if_pos (by simp [closed, first]), if_neg (Nat.not_le.mpr low)]

end
end

/-! ## Pulse outputs -/

section
variable {j : Nat}

theorem Dev.pulseRefresh_off (off : d.pulseOn j = false) : d.pulseRefresh j =
    ((((d.setPulseUser j { d.pulseUser j with started := false, active := false }).setFlag (R.PO_STAT j) R.PO_STAT.LEVEL false).setFlag
      (R.PO_STAT j) R.PO_STAT.RUNNING false).setFlag (R.PO_STAT j) R.PO_STAT.BADCFG false).pulsePin j := by
  have good (u : AxisUser) : (d.setPulseUser j u).pulseBad j = false := by
    show (d.pulseOn j && !cycleOk (d.pulseAxis j) (d.pulsePeriod j)) = false
    rw [off, Bool.false_and]
  rw [Dev.pulseRefresh]; dsimp only
  rw [good, off]
  simp only [Bool.false_and]
  rfl

theorem Dev.pulseRefresh_rises (on_ : d.pulseOn j = true) (good : d.pulseBad j = false) (run : d.usersRun = true)
    (valid : d.axisValid (d.pulseAxis j) = true) (started : (d.pulseUser j).started = true) (low : (d.pulseUser j).active = false)
    (inside : d.position (d.pulseAxis j) (d.pulseUser j).origin (d.pulsePeriod j) < (d.rd (R.PO_WIDTH j)).toNat) : d.pulseRefresh j =
      (((((d.setPulseUser j { d.pulseUser j with started := true, active := true }).setFlag (R.PO_STAT j) R.PO_STAT.LEVEL true).setFlag
        (R.PO_STAT j) R.PO_STAT.RUNNING true).setFlag (R.PO_STAT j) R.PO_STAT.BADCFG false).bump (R.PO_EDGES j)).pulsePin j := by
  have still (u : AxisUser) : (d.setPulseUser j u).pulseBad j = false := good
  have wide : ((d.rd (R.PO_WIDTH j)).toNat != 0) = true := by simp only [bne_iff_ne]; omega
  have within : decide (d.position (d.pulseAxis j) (d.pulseUser j).origin (d.pulsePeriod j) < (d.rd (R.PO_WIDTH j)).toNat) = true :=
    decide_eq_true inside
  rw [Dev.pulseRefresh]; dsimp only
  rw [still, on_, good, run, valid, wide, within, started, low]
  rfl

end
end

/-- Settles O26: each user of an axis follows its position, once. -/
theorem axisUsers : Obligations.AxisUsers := by
  intro s on
  exact ⟨fun k closed inside => State.runDev_done on (Dev.slotOpen_opens closed inside),
    fun k outside => State.runDev_done on (Dev.slotOpen_outside outside),
    fun k open_ ordinary outside => State.runDev_done on (Dev.slotClose_leaves open_ ordinary outside),
    fun k closed fallback paid => State.runDev_done on (Dev.slotClose_done closed fallback paid),
    fun k armed enabled run outside => State.runDev_done on (Dev.slotFallback_opens k armed enabled run outside),
    fun p start armed enabled reached other => State.runDev_done on (Dev.gateSwitch_switches armed enabled reached other),
    fun p start armed before => State.runDev_done on (Dev.gateSwitch_waits armed before),
    fun p idle => State.runDev_done on (Dev.gateRefresh_idle p.isLt idle),
    fun p i x sending closed first => State.runDev_done on (Dev.gateRefresh_cuts p.isLt sending closed first),
    fun j off => State.runDev_done on (Dev.pulseRefresh_off off),
    fun j on_ good run valid started low inside => State.runDev_done on (Dev.pulseRefresh_rises on_ good run valid started low inside)⟩

end Sys2Proof.Machine
end

section
/-! Learn notifications (R265 to R267), the Gleaner, the spares, the shadow store and the rebuild of the pattern map (R247, R278, R280 to
R284, R287). -/

open Sys2Proof Sys2Proof.Machine

namespace Sys2Proof.Machine

section
variable {d : Dev} {n : Nat}

/-! ## Learn notifications -/

theorem Dev.learnDispatch_none (h : d.flag (R.TBL_LRN_CFG n) R.TBL_LRN_CFG.TARGET = true ∨ (d.tbl n).learn = []) : d.learnDispatch n = d := by
  rcases h with target | empty
  · exact if_pos target
  · rw [Dev.learnDispatch, empty]; dsimp only
    rw [ite_self]

section
variable {l : Learn} {rest : List Learn} (engines : d.flag (R.TBL_LRN_CFG n) R.TBL_LRN_CFG.TARGET = false) (learn : (d.tbl n).learn = l :: rest)
include engines learn

theorem Dev.learnDispatch_head : d.learnDispatch n =
    let q := d.fget (R.TBL_LRN_CFG n) R.TBL_LRN_CFG.ENG_Q
    if d.queueDead n q then d.dropLearn n
    else if !d.queueRoom n q then d
    else ((d.modTbl n (fun t => { t with learn := rest })).refreshLearn n).enterNow n q
      (Task.make 3 (bodyWords 0 (((d.modTbl n (fun t => { t with learn := rest })).refreshLearn n).regionGen n) (l.words.map (·.toNat))) none none) := by
  rw [Dev.learnDispatch, engines, if_neg Bool.false_ne_true, learn]

theorem Dev.learnDispatch_dead (dead : d.queueDead n (d.fget (R.TBL_LRN_CFG n) R.TBL_LRN_CFG.ENG_Q) = true) : d.learnDispatch n =
    ((d.modTbl n fun t => { t with learn := [] }).bump (R.TBL_LRN_DROP n) (l :: rest).length).refreshLearn n := by
  refine (Dev.learnDispatch_head engines learn).trans ((if_pos dead).trans ?_)
  rw [Dev.dropLearn, learn]

section
variable (alive : d.queueDead n (d.fget (R.TBL_LRN_CFG n) R.TBL_LRN_CFG.ENG_Q) = false)
include alive

theorem Dev.learnDispatch_full (full : d.queueRoom n (d.fget (R.TBL_LRN_CFG n) R.TBL_LRN_CFG.ENG_Q) = false) : d.learnDispatch n = d :=
  (Dev.learnDispatch_head engines learn).trans ((if_neg (Bool.not_eq_true _ ▸ alive)).trans (if_pos (by rw [full]; rfl)))

theorem Dev.learnDispatch_task (room : d.queueRoom n (d.fget (R.TBL_LRN_CFG n) R.TBL_LRN_CFG.ENG_Q) = true) : d.learnDispatch n =
    ((d.modTbl n (fun t => { t with learn := rest })).refreshLearn n).enterNow n (d.fget (R.TBL_LRN_CFG n) R.TBL_LRN_CFG.ENG_Q)
      (Task.make 3 (bodyWords 0 (((d.modTbl n (fun t => { t with learn := rest })).refreshLearn n).regionGen n) (l.words.map (·.toNat)))
        none none) :=
  (Dev.learnDispatch_head engines learn).trans ((if_neg (Bool.not_eq_true _ ▸ alive)).trans (if_neg (by rw [room]; decide)))

end
end

theorem Dev.queueDead_of {q : Nat} (h : d.queueDepth n q = 0 ∨ (d.rl n).engFw = false ∨ d.queueEngines n q = []) : d.queueDead n q = true := by
  rcases h with h | h | h <;> simp [Dev.queueDead, h]

theorem Dev.queueDead_not {q : Nat} (depth : d.queueDepth n q ≠ 0) (fw : (d.rl n).engFw = true) (engines : d.queueEngines n q ≠ []) :
    d.queueDead n q = false := by simp [Dev.queueDead, depth, fw, engines]

/-- The words of a notification as numbers (Table 6-4). -/
theorem Learn.words_toNat (l : Learn) : l.words.map (·.toNat) =
    [l.mac % 2 ^ 32, (l.mac / 2 ^ 32 % 2 ^ 16 + l.fid % 4096 * 2 ^ 16 + l.kind * 2 ^ 28) % 2 ^ 32,
      (l.port % 4096 + l.oldDest % 4096 * 4096) % 2 ^ 32, (l.loc % 2 ^ 20 + l.gen % 256 * 2 ^ 20) % 2 ^ 32] := by
  simp only [Learn.words, List.map_cons, List.map_nil, BitVec.toNat_ofNat]

/-! ## The Gleaner -/

theorem Dev.gleanerBurst_notReady {allowed free : Bool} (h : allowed = false ∨ d.flag (R.TBL_STAT n) R.TBL_STAT.READY = false ∨
    d.blockInRestart n 6 = true ∨ (d.tbl n).verifying = true) : d.gleanerBurst n allowed free = d :=
  if_pos (by rcases h with h | h | h | h <;> simp [h])

/-- The Gleaner of region n may work (R278, R287). -/
def Dev.gleanerReady (d : Dev) (n : Nat) (allowed : Bool) : Prop :=
  allowed = true ∧ d.flag (R.TBL_STAT n) R.TBL_STAT.READY = true ∧ d.regionRuns n = true ∧ d.blockInRestart n 6 = false
    ∧ (d.tbl n).verifying = false

section
variable {allowed free : Bool} (ready : d.gleanerReady n allowed)
include ready

theorem Dev.gleanerReady_guard : ¬(!allowed || !d.flag (R.TBL_STAT n) R.TBL_STAT.READY || !d.regionRuns n || d.blockInRestart n 6
    || (d.tbl n).verifying) = true := by
  obtain ⟨window, tables, runs, up, verified⟩ := ready
  simp [window, tables, runs, up, verified]

theorem Dev.gleanerBurst_gap (between : (d.tbl n).inPass = false) (later : (d.tbl n).pass ≠ 0)
    (h : ((d.tbl n).windowSince = false ∧ free = false) ∨
      d.now < (d.tbl n).passStart + d.fget (R.TBL_GLN_CFG n) R.TBL_GLN_CFG.MIN_GAP_MS * ms) : d.gleanerBurst n allowed free = d := by
  refine (if_neg (Dev.gleanerReady_guard ready)).trans (if_pos ?_)
  rcases h with ⟨window, named⟩ | early
  · simp [between, later, window, named]
  · simp [between, later, Nat.not_le.mpr early]

/-- Whether the walk of a pass's burst ages entries (R274). -/
def Dev.ages (d : Dev) (n k : Nat) : Bool :=
  d.flag (R.TBL_AGE_CFG n) R.TBL_AGE_CFG.EN && k % max 1 (d.fget (R.TBL_AGE_CFG n) R.TBL_AGE_CFG.PASSES) == 0

/-- The state a burst leaves before the pass's end is judged. -/
def Dev.burstWalked (d : Dev) (n : Nat) (b : Nat × Nat) : Dev :=
  ((d.walkBurst n b (d.ages n (d.tbl n).pass)).modTbl n (fun t => { t with burst := t.burst + 1 })).workDone 1 n

/-- A pass ends: the digests are compared and the pass is counted (R281). -/
def Dev.gleanerPassEnds (d : Dev) (n : Nat) : Dev :=
  (((d.gleanerCompare n).bump (R.TBL_GLN_PASSES n)).modTbl n fun t => { t with inPass := false, burst := 0 }).setFlag
    (R.TBL_GLN_STAT n) R.TBL_GLN_STAT.IN_PASS false

section
variable {b : Nat × Nat} (pass : (d.tbl n).inPass = true) (burst : (d.bursts n)[(d.tbl n).burst]? = some b)
include pass burst

theorem Dev.gleanerBurst_step : d.gleanerBurst n allowed free =
    if b.1 == 2 && (d.tbl n).plan.isSome then d
    else
      let e := d.burstWalked n b
      if (e.bursts n).length ≤ (e.tbl n).burst then e.gleanerPassEnds n else e := by
  refine (if_neg (Dev.gleanerReady_guard ready)).trans ((if_neg (by simp [pass])).trans ?_)
  dsimp only
  rw [if_pos pass, burst]
  rfl

theorem Dev.gleanerBurst_waits (stash : b.1 = 2) (plan : (d.tbl n).plan ≠ none) : d.gleanerBurst n allowed free = d :=
  (Dev.gleanerBurst_step ready pass burst).trans (if_pos (by simp [stash, Option.isSome_iff_ne_none, plan]))

section
variable (free_ : b.1 ≠ 2 ∨ (d.tbl n).plan = none)
include free_

theorem Dev.gleanerBurst_walks : d.gleanerBurst n allowed free =
    let e := d.burstWalked n b
    if (e.bursts n).length ≤ (e.tbl n).burst then e.gleanerPassEnds n else e :=
  (Dev.gleanerBurst_step ready pass burst).trans (if_neg (by rcases free_ with h | h <;> simp [h]))

theorem Dev.gleanerBurst_goesOn (more : ((d.burstWalked n b).tbl n).burst < ((d.burstWalked n b).bursts n).length) :
    d.gleanerBurst n allowed free = d.burstWalked n b :=
  (Dev.gleanerBurst_walks ready pass burst free_).trans (if_neg (Nat.not_le.mpr more))

theorem Dev.gleanerBurst_ends (last : ((d.burstWalked n b).bursts n).length ≤ ((d.burstWalked n b).tbl n).burst) :
    d.gleanerBurst n allowed free = (d.burstWalked n b).gleanerPassEnds n :=
  (Dev.gleanerBurst_walks ready pass burst free_).trans (if_pos last)

end
end
end

/-! ## The shadow store, the spares and the verification -/

theorem Dev.shadowAdjust_beyond {word : Nat} (set_ : Bool) (beyond : 4416 ≤ word) : d.shadowAdjust n word set_ = d := if_pos beyond

theorem Dev.shadowAdjust_adjusts {word : Nat} (set_ : Bool) (inside : word < 4416) : d.shadowAdjust n word set_ =
    let v := d.rd (R.TBL_SHADOW_DELTA n)
    let d := d.wrMem (shadowKey n word) (if set_ then v else d.rd (shadowKey n word) + v)
    if (d.tbl n).inPass then d.unsettle n word else d := if_neg (Nat.not_le.mpr inside)

theorem Dev.spareCopied_retires {bank spare : Nat} (copying : (d.tbl n).copying = some (bank, spare)) : d.spareCopied n =
    let t := d.tbl n
    let d := (((d.backgroundServed n [bank, spare]).modTbl n fun x =>
      { x with copying := none, failing := t.failing.drop 1, retired := x.retired ++ [(bank, spare)] }).fset (R.TBL_SPARE_STAT n)
      R.TBL_SPARE_STAT.LAST_RETIRED bank).setFlag (R.TBL_SPARE_STAT n) R.TBL_SPARE_STAT.COPYING false
    let d := d.saturatingAdd (R.TBL_SPARE_STAT n) R.TBL_SPARE_STAT.RETIRED 1
    match t.failing with
    | [] => d
    | f :: _ => d.spareStart n f := by
  rw [Dev.spareCopied, copying] <;> rfl

theorem Dev.spareCopied_none (none_ : (d.tbl n).copying = none) : d.spareCopied n = d := by rw [Dev.spareCopied, none_]

theorem Dev.verifyDone_idle (idle : (d.tbl n).verifying = false) : d.verifyDone n = d := if_pos (by simp [idle])

theorem Dev.verifyDone_ends (verifying : (d.tbl n).verifying = true) (up : d.blockInRestart n 6 = false) : d.verifyDone n =
    let d := d.modTbl n fun t => { t with acc := [], unsettled := [], inPass := true, burst := 0 }
    let d := ((d.each (d.bursts n) fun b d => (d.walkBurst n b false).modTbl n fun t => { t with burst := t.burst + 1 }).gleanerCompare
      n).bump (R.TBL_GLN_PASSES n)
    let d := ((d.fset (R.TBL_FDB_COUNT n) R.TBL_FDB_COUNT.VALID (d.countKeys n)).modTbl n fun t =>
      { t with verifying := false, inPass := false, burst := 0 }).setFlag (R.TBL_GLN_STAT n) R.TBL_GLN_STAT.IN_PASS false
    let d := d.setFlag (R.TBL_STAT n) R.TBL_STAT.READY true
    if d.flag (R.WNW_STAT n) R.WNW_STAT.READY then d else d.setFlag (R.WNW_STAT n) R.WNW_STAT.REBUILD true :=
  if_neg (by simp [verifying, up])

/-! ## The rebuild of the pattern map -/

theorem Dev.wnwRebuildDone_waits (h : d.flag (R.WNW_STAT n) R.WNW_STAT.REBUILD = false ∨ (d.tbl n).verifying = true) :
    d.wnwRebuildDone n = d := if_pos (by rcases h with h | h <;> simp [h])

/-- What the rebuild does with one used entry of the rule array (R247), the device `d0` being that at its start. -/
def Dev.rebuildEntry (d0 : Dev) (n : Nat) (used : List Nat) (a : Nat) (d : Dev) : Dev :=
  if d0.ruleValid n a && d0.rebuildChoice n (d0.rulePattern n a) used == some a then
    (d.wrMem (ruleKey n a 0) (ruleWord0 true false (d0.rulePattern n a))).wrMem (patKey n (d0.rulePattern n a)) (patWord a true true)
  else (if d0.ruleValid n a && !d0.ruleBusy n a then d.setFlag (R.WNW_STAT n) R.WNW_STAT.DUP_FREED true else d).wrMem (ruleKey n a 0) 0

theorem Dev.rebuildEntry_eq (d0 : Dev) (n : Nat) (used : List Nat) (a : Nat) (d : Dev) :
    (let p := d0.rulePattern n a
      if !d0.ruleValid n a then d.wrMem (ruleKey n a 0) 0
      else if d0.rebuildChoice n p used == some a then
        (d.wrMem (ruleKey n a 0) (ruleWord0 true false p)).wrMem (patKey n p) (patWord a true true)
      else
        let d := if d0.ruleBusy n a then d else d.setFlag (R.WNW_STAT n) R.WNW_STAT.DUP_FREED true
        d.wrMem (ruleKey n a 0) 0) = d0.rebuildEntry n used a d := by
  rw [Dev.rebuildEntry]
  cases valid : d0.ruleValid n a with
  | false => simp
  | true =>
    by_cases chosen : (d0.rebuildChoice n (d0.rulePattern n a) used == some a) = true
    · simp [chosen]
    · cases busy : d0.ruleBusy n a <;> simp [chosen]

theorem Dev.wnwRebuildDone_ends (rebuild : d.flag (R.WNW_STAT n) R.WNW_STAT.REBUILD = true) (tables : d.blockInRestart n 6 = false)
    (loft : d.blockInRestart n 8 = false) (verified : (d.tbl n).verifying = false) : d.wnwRebuildDone n =
      let used := ((d.spaceWords 0x20 n).filter (fun x => x.1 % 32 == 0 && x.2.toNat % 4 != 0)).map (fun x => x.1 / 32)
      let e := d.each ((d.spaceWords 0x22 n).map (·.1)) fun k d => d.wrMem (spWord 0x22 n + k) 0
      let inMap := fun (k : Nat) => decide (spWord 0x22 n ≤ k ∧ k < spWord 0x22 n + 0x01000000)
      let e : Dev := { e with faults := e.faults.filter (fun x => !inMap x.1) }
      let e := e.each used (d.rebuildEntry n used)
      (e.setFlag (R.WNW_STAT n) R.WNW_STAT.REBUILD false).setFlag (R.WNW_STAT n) R.WNW_STAT.READY true := by
  refine (if_neg (by simp [rebuild, tables, loft, verified])).trans ?_
  dsimp only
  rw [funext fun a => funext fun e => Dev.rebuildEntry_eq d n _ a e]

end

/-- Settles O29: notifications, bursts, copies and the rebuild each go on by the state of their own part. -/
theorem learningAndGleaner : Obligations.LearningAndGleaner := by
  refine ⟨fun n s on => ?learning, fun n s on => ?gleaner⟩
  case learning =>
    refine ⟨State.runDev_done on rfl, fun m acc => State.runCommand_done on acc rfl rfl, State.runDev_done on rfl, fun d => rfl,
      Dev.learnDispatch_none, fun engines l rest learn => ⟨fun dead => ?_, fun depth fw queues => ⟨fun full => ?_, fun room => ?_⟩⟩⟩
    · exact Dev.learnDispatch_dead engines learn (Dev.queueDead_of dead)
    · exact Dev.learnDispatch_full engines learn (Dev.queueDead_not depth fw queues) full
    · have task := Dev.learnDispatch_task engines learn (Dev.queueDead_not depth fw queues) room
      rw [l.words_toNat] at task
      exact task
  case gleaner =>
    refine ⟨fun h => State.runDev_done on (Dev.gleanerBurst_notReady h), fun ready between later h => State.runDev_done on ?gap,
      fun ready pass b burst => ⟨fun stash plan => State.runDev_done on (Dev.gleanerBurst_waits ready pass burst stash plan),
        fun free d walked => ?walk⟩,
      fun m word set_ acc => ⟨fun beyond => State.runCommand_done on acc rfl (Dev.shadowAdjust_beyond set_ beyond),
        fun inside => State.runCommand_done on acc rfl (Dev.shadowAdjust_adjusts set_ inside)⟩,
      fun m acc => State.runCommand_done on acc rfl rfl,
      fun bank spare copying => State.runDev_done on (Dev.spareCopied_retires copying),
      fun none_ => State.runDev_done on (Dev.spareCopied_none none_),
      fun verifying up => State.runDev_done on (Dev.verifyDone_ends verifying up),
      fun idle => State.runDev_done on (Dev.verifyDone_idle idle),
      fun h => State.runDev_done on (Dev.wnwRebuildDone_waits h),
      fun rebuild tables loft verified => State.runDev_done on (Dev.wnwRebuildDone_ends rebuild tables loft verified)⟩
    case gap =>
      refine Dev.gleanerBurst_gap ready between later (h.imp_left fun ⟨window, named⟩ => ⟨window, ?_⟩)
      rw [List.isEmpty_eq_false_iff]; exact named
    case walk =>
      have walks : d = s.dev.burstWalked n b := walked
      refine ⟨fun more => ?_, fun last => ?_⟩
      · rw [walks] at more ⊢
        exact State.runDev_done (g := fun _ => s.dev.burstWalked n b) on (Dev.gleanerBurst_goesOn ready pass burst free more)
      · rw [walks] at last ⊢
        exact State.runDev_done (g := fun _ => (s.dev.burstWalked n b).gleanerPassEnds n) on
          (Dev.gleanerBurst_ends ready pass burst free last)

end Sys2Proof.Machine
end

section
/-! Policer commands (R349, R350, Table 8-3). -/

open Sys2Proof Sys2Proof.Machine

namespace Sys2Proof.Machine

section
variable {d : Dev} {n : Nat}

theorem Dev.polCommand_busy (run : Dev → Nat × Dev) (busy : d.flag (R.POL_CMD_STAT n) R.POL_CMD_STAT.BUSY = true) :
    d.polCommand n run = d.setFlag (R.POL_CMD_STAT n) R.POL_CMD_STAT.OVERRUN true := if_pos busy

section
variable (free : d.flag (R.POL_CMD_STAT n) R.POL_CMD_STAT.BUSY = false)
include free

theorem Dev.polCommand_aborted (run : Dev → Nat × Dev) (down : d.tablesUp n = false) : d.polCommand n run = polEnds n 3 d :=
  (if_neg (Bool.not_eq_true _ ▸ free)).trans (if_pos (by simp [down]))

theorem Dev.polCommand_runs (run : Dev → Nat × Dev) (up : d.tablesUp n = true) : d.polCommand n run = polEnds n (run d).1 (run d).2 :=
  (if_neg (Bool.not_eq_true _ ▸ free)).trans (if_neg (by simp [up]))

end

theorem badPolicer_iff (w : List Word) : badPolicer w = true ↔
    ((w.getD 3 0).toNat.testBit 0 = true ∧ (w.getD 3 0).toNat.testBit 1 = false ∧
      bits (w.getD 1 0).toNat 0 24 < bits (w.getD 0 0).toNat 0 24)
      ∨ bits (w.getD 0 0).toNat 24 8 ≠ 0 ∨ bits (w.getD 1 0).toNat 24 8 ≠ 0 ∨ bits (w.getD 3 0).toNat 4 28 ≠ 0 := by
  rw [badPolicer]
  simp only [Bool.or_eq_true, Bool.and_eq_true, Bool.not_eq_true', decide_eq_true_eq, bne_iff_ne, or_assoc, and_assoc]

theorem Dev.polWrite_bad {i : Nat} (bad : badPolicer (d.polData n) = true) : d.polWrite n i = (2, d) := if_pos bad

theorem Dev.polWrite_stores {i : Nat} (good : badPolicer (d.polData n) = false) : d.polWrite n i =
    let e := d.polStore n i (d.polData n)
    let sizes := ((d.polData n).getD 2 0).toNat
    let e := e.setPolicer n i { tc := bucketFull (bits sizes 0 16), tx := bucketFull (bits sizes 16 16), last := e.now, full := false }
    let e : Dev := { e with clk := { e.clk with polWrites := e.clk.polWrites ++ [(n, i)] } }
    (0, e.touchPolicer n i) := if_neg (Bool.not_eq_true _ ▸ good)

/-- An OP that names no command. -/
theorem Dev.polByOp_bad {op : Nat} (small : op < 16) (other : op = 0 ∨ 3 < op) :
    d.polByOp n (R.POL_CMD.OP.put 0 op) = d.polCommand n (fun d => (1, d)) := by
  have named : R.POL_CMD.OP.get (R.POL_CMD.OP.put 0 op) = op := (Fld.get_put _ _ _ (by decide)).trans (Nat.mod_eq_of_lt small)
  rw [Dev.polByOp, named]
  split
  case h_1 => omega
  case h_2 => omega
  case h_3 => omega
  case h_4 => rfl

end

/-- Settles O30: a policer command meets BUSY, a restart, or its own checks, and ends with the result of what it met. -/
theorem policerCommands : Obligations.PolicerCommands := by
  intro n m index s on takes
  refine ⟨fun busy => ?busy, fun free down => ?aborted, fun free up => ⟨fun bad => ?_, fun good => ?_, ?_, ?_, fun op other => ?_⟩⟩
  case busy =>
    simp only [List.forall_mem_cons]
    exact ⟨State.runTakes_done on takes (Dev.polCommand_busy _ busy), State.runCommand_done on takes.1 rfl (Dev.polCommand_busy _ busy),
      State.runTakes_done on takes (Dev.polCommand_busy _ busy), fun _ mem => absurd mem List.not_mem_nil⟩
  case aborted =>
    simp only [List.forall_mem_cons]
    exact ⟨State.runTakes_done on takes (Dev.polCommand_aborted free _ down), State.runCommand_done on takes.1 rfl (Dev.polCommand_aborted free _ down),
      State.runTakes_done on takes (Dev.polCommand_aborted free _ down), fun _ mem => absurd mem List.not_mem_nil⟩
  · exact State.runTakes_done on takes ((Dev.polCommand_runs free _ up).trans (by rw [Dev.polWrite_bad ((badPolicer_iff _).mpr bad)]))
  · have fine : badPolicer (s.dev.polData n) = false := Bool.eq_false_iff.mpr (mt (badPolicer_iff _).mp good)
    exact State.runTakes_done on takes ((Dev.polCommand_runs free _ up).trans (by rw [Dev.polWrite_stores fine]; rfl))
  · exact State.runCommand_done on takes.1 rfl (Dev.polCommand_runs free _ up)
  · exact State.runTakes_done on takes (Dev.polCommand_runs free _ up)
  · exact State.runCommand_done on takes.1 rfl ((Dev.polByOp_bad op.isLt (other.imp_left (congrArg BitVec.toNat))).trans
      (Dev.polCommand_runs free _ up))

end Sys2Proof.Machine
end

section
/-! A frame at a port, to the pipeline input (R126, R135, R137, R139, R149, R216, R217, R302, R303, R307). -/

open Sys2Proof Sys2Proof.Machine

namespace Sys2Proof.Machine

section
variable {d : Dev} {p : Nat}

/-! ## A frame begins -/

/-- What the MAC of a port receives: the line's bytes, or in near-end loopback the next frame it has sent. -/
def Dev.lineOrLoop (d : Dev) (p : Nat) : Option (List Byte) × Dev := if d.looped p 1 then d.takeLooped p else (some [], d)

theorem Dev.frameBegin_ignored (h : d.macSees p = false ∨ (d.receiving p).isSome = true) : d.frameBegin p = d :=
  if_pos (by rcases h with h | h <;> simp [h])

section
variable (sees : d.macSees p = true) (idle : d.receiving p = none)
include sees idle

theorem Dev.frameBegin_of : d.frameBegin p =
    let x := d.lineOrLoop p
    if x.1.isNone then d
    else if !d.portReady p then x.2.bump (R.MAC_RX_NOT_READY p)
    else
      let f := if d.fifoWaits p then x.2.freshBool else (false, x.2)
      let i := f.2.newId
      let l := Landing.begun i.1 p (d.macMax p) d.now (if d.looped p 1 then x.1 else none) (d.rxStamps p) f.1
      let d := i.2.addLanding l
      if f.1 then d else d.askGranary (.landing l.id) := if_neg (by simp [sees, idle])

theorem Dev.frameBegin_empty (empty : (d.lineOrLoop p).1 = none) : d.frameBegin p = d :=
  (Dev.frameBegin_of sees idle).trans (if_pos (by rw [empty]; rfl))

section
variable {bs : List Byte} (got : (d.lineOrLoop p).1 = some bs)
include got

theorem Dev.frameBegin_notReady (notReady : d.portReady p = false) : d.frameBegin p = (d.lineOrLoop p).2.bump (R.MAC_RX_NOT_READY p) :=
  (Dev.frameBegin_of sees idle).trans ((if_neg (by rw [got]; simp)).trans (if_pos (by rw [notReady]; rfl)))

section
variable (ready : d.portReady p = true)
include ready

theorem Dev.frameBegin_ready : d.frameBegin p =
    let x := d.lineOrLoop p
    let f := if d.fifoWaits p then x.2.freshBool else (false, x.2)
    let i := f.2.newId
    let e := i.2.addLanding (Landing.begun i.1 p (d.macMax p) d.now (if d.looped p 1 then x.1 else none) (d.rxStamps p) f.1)
    if f.1 then e else e.askGranary (.landing i.1) :=
  (Dev.frameBegin_of sees idle).trans ((if_neg (by rw [got]; simp)).trans (if_neg (by rw [ready]; decide)))

theorem Dev.frameBegin_charges (room : d.fifoWaits p = false) : d.frameBegin p =
    let i := (d.lineOrLoop p).2.newId
    (i.2.addLanding (Landing.begun i.1 p (d.macMax p) d.now (if d.looped p 1 then (d.lineOrLoop p).1 else none) (d.rxStamps p) false)
      ).askGranary (.landing i.1) := by
  rw [Dev.frameBegin_ready sees idle got ready, room]; rfl

theorem Dev.frameBegin_fifo (waits : d.fifoWaits p = true) : d.frameBegin p =
    let full := (d.lineOrLoop p).2.freshBool
    let i := full.2.newId
    let e := i.2.addLanding (Landing.begun i.1 p (d.macMax p) d.now (if d.looped p 1 then (d.lineOrLoop p).1 else none) (d.rxStamps p) full.1)
    if full.1 then e else e.askGranary (.landing i.1) := by
  rw [Dev.frameBegin_ready sees idle got ready, waits]; rfl

end
end
end

/-! ## A frame ends -/

theorem Dev.frameEnd_none {bytes : List Byte} {error : Bool} {corr uncorr : Nat} (none_ : (d.countFec p corr uncorr).receiving p = none) :
    d.frameEnd p bytes error corr uncorr = d.countFec p corr uncorr := by
  rw [Dev.frameEnd]; dsimp only
  rw [none_]

/-- The bytes a frame has had at its end. -/
def Landing.received (l : Landing) (bytes : List Byte) : List Byte := l.head ++ (l.looped.getD bytes).drop l.head.length

/-- The one outcome of a frame at its end (R137). -/
def Dev.endOutcome (d : Dev) (p : Nat) (l : Landing) (bytes : List Byte) (error : Bool) (uncorr : Nat) : Nat :=
  d.rxOutcome p (l.received bytes) (!l.readyAtBegin) l.fifoFull (error || uncorr != 0 || l.cutAt.any (fun t => decide (t < d.now)))
    l.maxLen l.hash

/-- A frame's end is counted under its outcome. -/
def Dev.frameSeen (d : Dev) (p : Nat) (l : Landing) (bytes : List Byte) (o : Nat) : Dev :=
  (d.countRx p o (l.received bytes).length).retransmit p (l.received bytes) (o == 10)

section
variable {l : Landing} {bytes : List Byte} {error : Bool} {corr uncorr o : Nat} (receives : (d.countFec p corr uncorr).receiving p = some l)
  (outcome : (d.countFec p corr uncorr).endOutcome p l bytes error uncorr = o)
include receives outcome

theorem Dev.frameEnd_of : d.frameEnd p bytes error corr uncorr =
    let e := (d.countFec p corr uncorr).frameSeen p l bytes o
    if o = 10 ∧ l.phase ≠ .gone then
      let l := { l with ended := true, bytes := l.received bytes }
      let e := e.setLanding l
      if l.waiting then e else (e.growLanding l).2
    else e.endReception l := by
  subst outcome
  rw [Dev.frameEnd]; dsimp only
  rw [receives]; rfl

section
variable (good : o = 10) (kept : l.phase ≠ .gone)
include good kept

theorem Dev.frameEnd_good : d.frameEnd p bytes error corr uncorr =
    let l := { l with ended := true, bytes := l.received bytes }
    let e := ((d.countFec p corr uncorr).frameSeen p l bytes o).setLanding l
    if l.waiting then e else (e.growLanding l).2 := (Dev.frameEnd_of receives outcome).trans (if_pos ⟨good, kept⟩)

end

theorem Dev.frameEnd_released (h : ¬(o = 10 ∧ l.phase ≠ .gone)) : d.frameEnd p bytes error corr uncorr =
    ((d.countFec p corr uncorr).frameSeen p l bytes o).endReception l := (Dev.frameEnd_of receives outcome).trans (if_neg h)

end

theorem Dev.endReception_kept {l : Landing} (h : l.phase = .landing ∨ l.phase = .offered ∨ l.phase = .gone) : d.endReception l =
    (d.setLanding { l with ended := true }).releaseLanding { l with ended := true } := by
  refine if_neg ?_
  rcases h with h | h | h <;> simp [h]

theorem Dev.endReception_taken {l : Landing} (landing : l.phase ≠ .landing) (offered : l.phase ≠ .offered) (gone : l.phase ≠ .gone) :
    d.endReception l = ((d.setLanding { l with ended := true }).releaseLanding { l with ended := true }).bumpPerf (R.PIPE_SLOT_WASTED l.region) :=
  if_pos (by simp [landing, offered, gone])

/-! ## The landing charge and the head window -/

theorem Dev.landingTurn_none {id : Nat} (none_ : d.frame.landing.find? (fun l => l.id == id && l.waiting && l.phase != .gone) = none) :
    d.landingTurn id = d := by rw [Dev.landingTurn, none_]

theorem Dev.landingTurn_tries {id : Nat} {l : Landing}
    (waits : d.frame.landing.find? (fun l => l.id == id && l.waiting && l.phase != .gone) = some l) :
    d.landingTurn id = (d.tryLanding l).2 := by rw [Dev.landingTurn, waits]

theorem Dev.landingRetry_none {o : Origin} (none_ : d.landingOf o (fun l => l.waiting && !l.fifoFull && l.phase != .gone) = none) :
    d.landingRetry o = d := by rw [Dev.landingRetry, none_]

theorem Dev.landingRetry_asks {o : Origin} {l : Landing} (waits : d.landingOf o (fun l => l.waiting && !l.fifoFull && l.phase != .gone) = some l) :
    d.landingRetry o = d.askGranary (.landing l.id) := by rw [Dev.landingRetry, waits]

section
variable {o : Origin} {head : List Byte}

theorem Dev.headWindowOffer_none (none_ : d.landingOf o (fun l => l.phase == .landing && !l.waiting && !l.fifoFull) = none) :
    d.headWindowOffer o head = d := by rw [Dev.headWindowOffer, none_]

section
variable {l : Landing} (lands : d.landingOf o (fun l => l.phase == .landing && !l.waiting && !l.fifoFull) = some l)
include lands

theorem Dev.headWindowOffer_port (p : Nat) (port : o = .port p) : d.headWindowOffer o head =
    let w := if l.ended then l.bytes.take 64 else (l.looped.getD head).take 64
    if w.length < 64 then d else d.setLanding { l with head := w, phase := .offered } := by
  subst port
  rw [Dev.headWindowOffer, lands]

theorem Dev.headWindowOffer_other (other : ∀ p, o ≠ .port p) : d.headWindowOffer o head =
    if l.ended then d.setLanding { l with head := if l.ended then l.bytes.take 64 else (l.looped.getD head).take 64, phase := .offered }
    else d := by
  rw [Dev.headWindowOffer, lands]
  cases o with
  | port p => exact absurd rfl (other p)
  | host => rfl
  | engine => rfl

theorem Dev.headWindowOffer_ended (ended : l.ended = true) (long : ∀ p, o = .port p → 64 ≤ l.bytes.length) :
    d.headWindowOffer o head = d.setLanding { l with head := l.bytes.take 64, phase := .offered } := by
  by_cases port : ∃ p, o = .port p
  · obtain ⟨p, port⟩ := port
    have full : ¬(l.bytes.take 64).length < 64 := by rw [List.length_take]; have := long p port; omega
    rw [Dev.headWindowOffer_port lands p port, if_pos ended]
    exact if_neg full
  · rw [Dev.headWindowOffer_other lands (not_exists.mp port), if_pos ended, if_pos ended]

theorem Dev.headWindowOffer_window {p : Nat} (port : o = .port p) (running : l.ended = false) (long : 64 ≤ (l.looped.getD head).length) :
    d.headWindowOffer o head = d.setLanding { l with head := (l.looped.getD head).take 64, phase := .offered } := by
  have full : ¬((l.looped.getD head).take 64).length < 64 := by rw [List.length_take]; omega
  have window : (if l.ended then l.bytes.take 64 else (l.looped.getD head).take 64) = (l.looped.getD head).take 64 :=
    if_neg (Bool.not_eq_true _ ▸ running)
  rw [Dev.headWindowOffer_port lands p port]; dsimp only
  rw [window]
  exact if_neg full

theorem Dev.headWindowOffer_short (running : l.ended = false) (h : (∀ p, o ≠ .port p) ∨ (l.looped.getD head).length < 64) :
    d.headWindowOffer o head = d := by
  have notEnded : ¬l.ended = true := by rw [running]; exact Bool.false_ne_true
  by_cases port : ∃ p, o = .port p
  · obtain ⟨p, port⟩ := port
    have short : (l.looped.getD head).length < 64 := h.resolve_left fun other => other p port
    have cut : ((l.looped.getD head).take 64).length < 64 := by rw [List.length_take]; omega
    rw [Dev.headWindowOffer_port lands p port, if_neg notEnded]
    exact if_pos cut
  · rw [Dev.headWindowOffer_other lands (not_exists.mp port), if_neg notEnded]

end
end
end

/-- Settles O31: a frame's beginning, its charge, its head window and its end are judged by what the MAC and the landing frame are. -/
theorem receivedFrames : Obligations.ReceivedFrames := by
  intro s on
  refine ⟨fun p ports => ?port, fun d id => ⟨Dev.landingTurn_none, fun l => Dev.landingTurn_tries⟩, fun src ports => ?source⟩
  case port =>
    refine ⟨fun blind => State.runPort_done on ports (Dev.frameBegin_ignored (.inl blind)),
      fun l busy => State.runPort_done on ports (Dev.frameBegin_ignored (.inr (by rw [busy]; rfl))),
      fun sees idle empty => State.runPort_done on ports (Dev.frameBegin_empty sees idle empty),
      fun bs sees idle got notReady => State.runPort_done on ports (Dev.frameBegin_notReady sees idle got notReady),
      fun bs sees idle got ready room => State.runPort_done on ports (Dev.frameBegin_charges sees idle got ready room),
      fun bs sees idle got ready waits => State.runPort_done on ports (Dev.frameBegin_fifo sees idle got ready waits),
      fun bytes codes => ⟨fun none_ => State.runPort_done on ports (Dev.frameEnd_none none_), fun l receives => ?_⟩⟩
    refine ⟨fun good kept waits => ?_, fun good kept charged => ?_, fun h phase => ?_, fun bad landing offered gone => ?_⟩
    · exact State.runPort_done on ports ((Dev.frameEnd_good receives rfl good kept).trans (if_pos waits))
    · exact State.runPort_done on ports ((Dev.frameEnd_good receives rfl good kept).trans (if_neg (Bool.not_eq_true _ ▸ charged)))
    · exact State.runPort_done on ports ((Dev.frameEnd_released receives rfl (fun x => h.elim (· x.1) x.2)).trans (Dev.endReception_kept phase))
    · exact State.runPort_done on ports ((Dev.frameEnd_released receives rfl (fun h => bad h.1)).trans
        (Dev.endReception_taken landing offered gone))
  case source =>
    have retry {g : Dev → Dev} (h : s.dev.landingRetry (sourceOrigin src) = g s.dev) :
        exec (.landingChargeRetry src) s = .next (s.done g) := State.runSource_done (act := fun o d => d.landingRetry o) on ports h
    have offer {g : Dev → Dev} (head : List Byte) (h : s.dev.headWindowOffer (sourceOrigin src) head = g s.dev) :
        exec (.headWindowOffer src head) s = .next (s.done g) := State.runSource_done (act := fun o d => d.headWindowOffer o head) on ports h
    exact ⟨fun none_ => retry (Dev.landingRetry_none none_), fun l waits => retry (Dev.landingRetry_asks waits),
      fun head none_ => offer head (Dev.headWindowOffer_none none_),
      fun head l lands ended long => offer head (Dev.headWindowOffer_ended lands ended long),
      fun head p l port lands running long => offer head (Dev.headWindowOffer_window lands port running long),
      fun head l lands running h => offer head (Dev.headWindowOffer_short lands running h)⟩

end Sys2Proof.Machine
end

section
/-! Spills, returns and topology holds (R322, R323, R326 to R330), and queue flushes, gate arming and recovery resets (R198, R361, R362,
R364, R377, R660). -/

open Sys2Proof Sys2Proof.Machine

namespace Sys2Proof.Machine

section
variable {d : Dev} {n : Nat}

/-! ## Spills and returns -/

theorem Dev.spillComplete_none (none_ : d.spillDone n = none) : d.spillComplete n = d := by rw [Dev.spillComplete, none_]

section
variable {q : Nat} {x : Descr}

/-- A frame whose bale writes are complete stands in bales, and is counted (R322). -/
def Dev.spillCounted (d : Dev) (n q : Nat) (x : Descr) : Dev :=
  let d := d.setFrame n q { x with tier := .bales }
  (d.bump (R.GRN_SPILLED n)).when (d.heldQueue n q) (·.bump (R.GRN_HOLD_SPILLED n))

theorem Dev.spillComplete_of (spilled : d.spillDone n = some (q, x)) : d.spillComplete n =
    if x.guarded then (d.spillCounted n q x).answerFrame n x .spill else (d.spillCounted n q x).answerOwner n x .spill := by
  rw [Dev.spillComplete, spilled]; rfl

/-- Returns go on: shedding allows them, and the channel and the buffer block answer (R323). -/
def Dev.returnsMove (d : Dev) (n : Nat) : Prop :=
  d.stageActs < 3 ∧ (d.channelServes n = true ∨ d.channelFailed n = true) ∧ d.blockUp n 7 = true

theorem Dev.baleReturn_still (h : ¬d.returnsMove n) : d.baleReturn n = d := by
  refine if_pos (Decidable.byContradiction fun moves => ?_)
  simp only [Bool.or_eq_true, decide_eq_true_eq, Bool.not_eq_true', Bool.or_eq_false_iff, not_or, Bool.not_eq_false, not_and] at moves
  obtain ⟨⟨shed, channel⟩, up⟩ := moves
  refine h ⟨by omega, ?_, up⟩
  cases serves : d.channelServes n with
  | true => exact .inl rfl
  | false => exact .inr (by simpa using channel serves)

section
variable (moves : d.returnsMove n)
include moves

theorem Dev.returnsMove_guard : ¬(3 ≤ d.stageActs || !(d.channelServes n || d.channelFailed n) || !d.blockUp n 7) = true := by
  obtain ⟨shed, channel, up⟩ := moves
  rcases channel with channel | channel <;> simp [channel, up, Nat.not_le.mpr shed]

theorem Dev.baleReturn_none (none_ : d.nextReturn n = none) : d.baleReturn n = d := by
  rw [Dev.baleReturn, if_neg (Dev.returnsMove_guard moves), none_]

section
variable (next : d.nextReturn n = some (q, x))
include next

theorem Dev.baleReturn_unreadable (lost : (d.baleCheck n q x).1 = false) : d.baleReturn n = (d.baleCheck n q x).2 := by
  rw [Dev.baleReturn, if_neg (Dev.returnsMove_guard moves), next]; dsimp only
  rw [← Prod.eta (d.baleCheck n q x), lost]

theorem Dev.baleReturn_waits (read : (d.baleCheck n q x).1 = true)
    (full : (d.baleCheck n q x).2.returnPlace n x.cls (grainsFor x.length) = none) : d.baleReturn n = (d.baleCheck n q x).2 := by
  rw [Dev.baleReturn, if_neg (Dev.returnsMove_guard moves), next]; dsimp only
  rw [← Prod.eta (d.baleCheck n q x), read]; dsimp only
  rw [full]

theorem Dev.baleReturn_returns {p : Nat} (read : (d.baleCheck n q x).1 = true)
    (place : (d.baleCheck n q x).2.returnPlace n x.cls (grainsFor x.length) = some p) :
    d.baleReturn n = (d.baleCheck n q x).2.returnFrame n q x p := by
  rw [Dev.baleReturn, if_neg (Dev.returnsMove_guard moves), next]; dsimp only
  rw [← Prod.eta (d.baleCheck n q x), read]; dsimp only
  rw [place]

end
end
end

/-! ## Topology holds -/

theorem Dev.holdFinish_none (mask : Nat) (idle : (d.holdOf n).active = false) : d.holdFinish n mask = d := if_pos (by simp [idle])

theorem Dev.holdFinish_ends (mask : Nat) (active : (d.holdOf n).active = true) : d.holdFinish n mask = d.holdEnds n mask :=
  if_neg (by simp [active])

theorem Dev.holdTimeout_ends (active : (d.holdOf n).active = true) (due : d.due ⟨.holdMax, n, 0⟩ = true) : d.holdTimeout n =
    (d.holdEnds n 0).setFlag (R.GRN_EVT n) R.GRN_EVT.HOLD_TIMEOUT true := by
  rw [Dev.holdTimeout, active, due, if_pos (by decide), Dev.holdFinish_ends 0 active]

theorem Dev.holdTimeout_none (h : (d.holdOf n).active = false ∨ d.due ⟨.holdMax, n, 0⟩ = false) : d.holdTimeout n = d :=
  if_neg (by rcases h with h | h <;> simp [h])

end

/-- Settles O33: a spill that is complete, a return and a hold each go by what stands in their way. -/
theorem spillsAndHolds : Obligations.SpillsAndHolds := by
  intro n s on
  refine ⟨fun none_ => State.runDev_done on (Dev.spillComplete_none none_), fun q x spilled => ⟨fun guarded => ?_, fun plain => ?_⟩,
    State.runDev_done on rfl, fun d => ⟨fun h => ?return_, fun moves q x next => ⟨fun lost => Dev.baleReturn_unreadable moves next lost,
      fun read full => Dev.baleReturn_waits moves next read full, fun read p place => Dev.baleReturn_returns moves next read place⟩⟩,
    fun m acc => ⟨fun active => State.runCommand_done on acc rfl (if_pos active),
      fun idle => State.runCommand_done on acc rfl (if_neg (Bool.not_eq_true _ ▸ idle)),
      fun idle => State.runCommand_done on acc rfl (Dev.holdFinish_none _ idle),
      fun active => State.runCommand_done on acc rfl (Dev.holdFinish_ends _ active)⟩,
    fun active due => State.runDev_done on (Dev.holdTimeout_ends active due), fun h => State.runDev_done on (Dev.holdTimeout_none h)⟩
  · exact State.runDev_done on ((Dev.spillComplete_of spilled).trans (if_pos guarded))
  · exact State.runDev_done on ((Dev.spillComplete_of spilled).trans (if_neg (Bool.not_eq_true _ ▸ plain)))
  case return_ =>
    by_cases moves : d.returnsMove n
    · exact Dev.baleReturn_none moves (h.resolve_left (not_not_intro moves))
    · exact Dev.baleReturn_still moves

/-! ## Flushes and arming -/

section
variable {s : State} {m : Master} {code n addr : Nat} {g : LiveGroup} (on : s.dev.chip.state ≠ .off) (act : Dev → Dev)
include on

theorem State.runSpace_unserved (unserved : s.dev.masterServed m = false) :
    s.run (fun s => s.spaceCommand m code n addr g act) = .next (s.done id) :=
  State.run_did (g := id) on (if_pos (by simp [unserved]))

section
variable (served : s.dev.masterServed m = true)
include served

theorem State.runSpace_refused (refused : s.mayWrite m code n addr = false) :
    s.run (fun s => s.spaceCommand m code n addr g act) = .next (s.done fun d => d.bump R.IND_REFUSED) :=
  State.run_did on ((if_neg (by simp [served])).trans (if_pos (by simp [refused])))

section
variable (may : s.mayWrite m code n addr = true)
include may

theorem State.runSpace_frozen (frozen : s.dev.groupLive g (spWord code n) = false) :
    s.run (fun s => s.spaceCommand m code n addr g act) = .next (s.done fun d => d.bump R.LDR_LIVE_IGN) := by
  have counted : s.dev.guarded g (spWord code n) act = s.dev.bump R.LDR_LIVE_IGN := if_neg (Bool.not_eq_true _ ▸ frozen)
  exact State.run_did on ((if_neg (by simp [served])).trans ((if_neg (by simp [may])).trans (by simp only [State.onDev, counted])))

theorem State.runSpace_done {k : Dev → Dev} (live : s.dev.groupLive g (spWord code n) = true) (e : act s.dev = k s.dev) :
    s.run (fun s => s.spaceCommand m code n addr g act) = .next (s.done k) := by
  have acts : s.dev.guarded g (spWord code n) act = k s.dev := (if_pos live).trans e
  exact State.run_did on ((if_neg (by simp [served])).trans ((if_neg (by simp [may])).trans (by simp only [State.onDev, acts])))

end
end
end

theorem Dev.recoveryReset_none {d : Dev} {n : Nat} (none_ : (List.range 256).find? (fun j => d.due ⟨.recoveryReset, n, j⟩) = none) :
    d.recoveryReset n = d := by rw [Dev.recoveryReset, none_]

theorem Dev.recoveryReset_resets {d : Dev} {n j : Nat} (due : (List.range 256).find? (fun j => d.due ⟨.recoveryReset, n, j⟩) = some j) :
    d.recoveryReset n =
      ((d.disarm ⟨.recoveryReset, n, j⟩).setStream n j { d.stream n j with takeAny := true }).bump (streamCell n j 3) := by
  rw [Dev.recoveryReset, due]

/-- Settles O34: a flush and an arming are judged as writes of their word, and an entry's reset is that of the first timer due. -/
theorem flushArmReset : Obligations.FlushArmReset := by
  intro s on
  refine ⟨fun m n k queues => ?flush, fun m p => ?arm, fun n => ⟨fun none_ => State.runDev_done on (Dev.recoveryReset_none none_),
    fun j due => State.runDev_done on (Dev.recoveryReset_resets due)⟩⟩
  case flush =>
    exact ⟨fun unserved => State.runSpace_unserved on _ unserved, fun served refused => State.runSpace_refused on _ served refused,
      fun served may frozen => State.runSpace_frozen on _ served may frozen, fun served may live =>
      ⟨fun ready => State.runSpace_done on _ served may live (if_pos ready),
        fun notReady => State.runSpace_done on _ served may live (if_neg (Bool.not_eq_true _ ▸ notReady))⟩⟩
  case arm =>
    exact ⟨fun unserved => State.runSpace_unserved on _ unserved, fun served refused => State.runSpace_refused on _ served refused,
      fun served may frozen => State.runSpace_frozen on _ served may frozen, fun served may live =>
      ⟨fun bad => State.runSpace_done on _ served may live (if_pos bad),
        fun good => State.runSpace_done on _ served may live (if_neg (Bool.not_eq_true _ ▸ good))⟩⟩

end Sys2Proof.Machine
end

section
/-! The charge at the decision, the commit and the release (R147, R304 to R307, R310, R313, R314, R413), ring caches (R294), and journal
entries sent again (R423, R426, R430 to R432). -/

open Sys2Proof Sys2Proof.Machine

namespace Sys2Proof.Machine

section
variable {d : Dev} {n : Nat}

/-! ## The charge at the decision -/

theorem Dev.decisionCharge_none (none_ : d.lowestSource n (fun l => l.phase == .decided && !l.waiting) = none) : d.decisionCharge n = d := by
  rw [Dev.decisionCharge, none_]

section
variable {l : Landing} {dec : Decision} (source : d.lowestSource n (fun l => l.phase == .decided && !l.waiting) = some l)
  (pre : l.pre = some dec)
include source pre

theorem Dev.decisionCharge_down (down : d.granaryUp n = false) : d.decisionCharge n = d := by
  rw [Dev.decisionCharge, source]; dsimp only
  rw [pre]; dsimp only
  exact if_pos (by simp [down])

section
variable {e : Dev} {k : Nat} (up : d.granaryUp n = true) (freed : d.discharge n l.src l.chargeCls l.pool l.need l.minGr = e)
  (entries : (if e.guardedClass dec.cls then (dec.targets.filter (fun t => !t.mirror)).length else 0) = k)
include up freed entries

theorem Dev.decisionCharge_journalFull (none_ : e.freeEntries n k = none) : d.decisionCharge n =
    (((e.bump (R.ACC_JRNL_FULL n)).setFlag (R.ACC_EVT n) R.ACC_EVT.JRNL_FULL true).bump (R.GRN_REFUSED l.region dec.cls)).discardLanding
      { l with waiting := true } true := by
  rw [Dev.decisionCharge, source]; dsimp only
  rw [pre]; dsimp only
  rw [if_neg (by simp [up]), freed, entries, none_]; rfl

section
variable {es : List Nat} (free : e.freeEntries n k = some es)
include free

theorem Dev.decisionCharge_placed {p m : Nat} (place : e.placeFor n l.src dec.cls l.need = some (p, m)) :
    d.decisionCharge n = Dev.chargedFrame e n { l with waiting := true } dec p m es := by
  rw [Dev.decisionCharge, source]; dsimp only
  rw [pre]; dsimp only
  rw [if_neg (by simp [up]), freed, entries, free]; dsimp only
  rw [place]; rfl

theorem Dev.decisionCharge_pushedOut {f : Dev} (full : e.placeFor n l.src dec.cls l.need = none)
    (room : e.makeRoom n l.src dec.cls l.need = some f) : d.decisionCharge n =
      Dev.chargedFrame f n { l with waiting := true } dec (f.homePool n dec.cls) (f.minShare n l.src dec.cls l.need) es := by
  rw [Dev.decisionCharge, source]; dsimp only
  rw [pre]; dsimp only
  rw [if_neg (by simp [up]), freed, entries, free]; dsimp only
  rw [full, room]; rfl

theorem Dev.decisionCharge_refused (full : e.placeFor n l.src dec.cls l.need = none) (stuck : e.makeRoom n l.src dec.cls l.need = none) :
    d.decisionCharge n = (e.bump (R.GRN_REFUSED l.region dec.cls)).discardLanding { l with waiting := true } true := by
  rw [Dev.decisionCharge, source]; dsimp only
  rw [pre]; dsimp only
  rw [if_neg (by simp [up]), freed, entries, free]; dsimp only
  rw [full, stuck]; rfl

end
end
end

/-! ## The commit and the release -/

theorem Dev.frameCommit_none (none_ : d.lowestSource n (fun l => l.phase == .charged && l.ended) = none) : d.frameCommit n = d := by
  rw [Dev.frameCommit, none_]

section
variable {l : Landing} {dec : Decision} (source : d.lowestSource n (fun l => l.phase == .charged && l.ended) = some l)
  (pre : l.pre = some dec)
include source pre

/-- A target takes the frame's length as sent (R147). -/
def Dev.targetFits (d : Dev) (l : Landing) (dec : Decision) (t : Target) : Bool :=
  d.mtuOk t dec.outerTag (l.bytes.length + if l.computeFcs then 4 else 0)

/-- The targets that do not take the frame are left out, and their entries freed. -/
def Dev.targetsOmitted (d : Dev) (n : Nat) (l : Landing) (dec : Decision) : Dev :=
  let out := dec.targets.filter (fun t => !d.targetFits l dec t)
  (d.countMtu l.origin out.length).freeReserved n (out.filterMap (·.entry))

theorem Dev.frameCommit_of : d.frameCommit n =
    let dec' := { dec with targets := dec.targets.filter (d.targetFits l dec) }
    if dec'.targets.all (·.mirror) && !dec.redirect then (d.targetsOmitted n l dec).discardLanding l false
    else (d.targetsOmitted n l dec).commitFrame l dec' := by
  rw [Dev.frameCommit, source]; dsimp only
  rw [pre]; rfl

theorem Dev.frameCommit_discards (alone : (dec.targets.filter (d.targetFits l dec)).all (·.mirror) = true) (plain : dec.redirect = false) :
    d.frameCommit n = (d.targetsOmitted n l dec).discardLanding l false :=
  (Dev.frameCommit_of source pre).trans (if_pos (by simp only [alone, plain]; decide))

theorem Dev.frameCommit_commits (h : (dec.targets.filter (d.targetFits l dec)).all (·.mirror) = false ∨ dec.redirect = true) :
    d.frameCommit n = (d.targetsOmitted n l dec).commitFrame l { dec with targets := dec.targets.filter (d.targetFits l dec) } := by
  refine (Dev.frameCommit_of source pre).trans (if_neg ?_)
  rcases h with h | h <;> simp only [h, Bool.false_and, Bool.not_true, Bool.and_false, Bool.false_eq_true, not_false_eq_true]

end

theorem Dev.ownerRelease_none (h : Map.get (fun _ => []) d.frame.releases n = [] ∨ 4 ≤ (d.clk.released.filter (· == n)).length) :
    d.ownerRelease n = d := by
  rw [Dev.ownerRelease]
  cases releases : Map.get (fun _ => []) d.frame.releases n with
  | nil => rfl
  | cons x rest => exact if_pos (h.resolve_left (by rw [releases]; exact List.cons_ne_nil x rest))

/-- A release leaves the list of those that wait, one of the four of its clock. -/
def Dev.releasePopped (d : Dev) (n : Nat) (rest : List Nat) : Dev :=
  { d with
    clk := { d.clk with released := d.clk.released ++ [n] }
    frame := { d.frame with releases := Map.put (fun _ => []) d.frame.releases n rest } }

theorem Dev.ownerRelease_pops {h : Nat} {rest : List Nat} (waits : Map.get (fun _ => []) d.frame.releases n = h :: rest)
    (few : (d.clk.released.filter (· == n)).length < 4) : d.ownerRelease n = (d.releasePopped n rest).releaseOwner n h := by
  rw [Dev.ownerRelease, waits]
  exact if_neg (Nat.not_le.mpr few)

theorem Dev.releaseOwner_double {h : Nat} (gone : (d.grain n h).held = false ∨ (d.grain n h).headBit = false ∨ (d.frec n h).ref = 0) :
    d.releaseOwner n h = ((d.bump (R.GRN_DOUBLE_FREE n)).setFlag (R.GRN_EVT n) R.GRN_EVT.DOUBLE_FREE true).logEntry 0x0010 n 7 h :=
  if_pos (by rcases gone with gone | gone | gone <;> simp [gone])

section
variable {h : Nat} (held : (d.grain n h).held = true) (head : (d.grain n h).headBit = true) (owned : (d.frec n h).ref ≠ 0)
include held head owned

theorem Dev.releaseOwner_of : d.releaseOwner n h =
    let r := d.frec n h
    if r.forwarded ≠ 0 then d.setFrec n h { r with forwarded := r.forwarded - 1 }
    else if r.ref = 1 then d.freeFrame n h
    else d.setFrec n h { r with ref := r.ref - 1 } := if_neg (by simp [held, head, owned])

theorem Dev.releaseOwner_forwarded (forwarded : (d.frec n h).forwarded ≠ 0) : d.releaseOwner n h =
    d.setFrec n h { d.frec n h with forwarded := (d.frec n h).forwarded - 1 } :=
  (Dev.releaseOwner_of held head owned).trans (if_pos forwarded)

theorem Dev.releaseOwner_last (plain : (d.frec n h).forwarded = 0) (last : (d.frec n h).ref = 1) : d.releaseOwner n h = d.freeFrame n h :=
  (Dev.releaseOwner_of held head owned).trans ((if_neg (not_not_intro plain)).trans (if_pos last))

theorem Dev.releaseOwner_more (plain : (d.frec n h).forwarded = 0) (more : 1 < (d.frec n h).ref) : d.releaseOwner n h =
    d.setFrec n h { d.frec n h with ref := (d.frec n h).ref - 1 } :=
  (Dev.releaseOwner_of held head owned).trans ((if_neg (not_not_intro plain)).trans (if_neg (Nat.ne_of_gt more)))

end

/-! ## Ring caches, gaps and the journal -/

theorem Dev.refillCache_none (none_ : [0, 1, 2, 3].find? (fun r => (d.ring n r).wantsRefill) = none) : d.refillCache n = d := by
  rw [Dev.refillCache, none_]

theorem Dev.refillCache_refills {r : Nat} (low : [0, 1, 2, 3].find? (fun r => (d.ring n r).wantsRefill) = some r) :
    d.refillCache n = d.ringRefilled n r := by rw [Dev.refillCache, low]

theorem Dev.writebackCache_none (none_ : [0, 1, 2, 3].find? (fun r => (d.ring n r).wantsBack) = none) : d.writebackCache n = d := by
  rw [Dev.writebackCache, none_]

theorem Dev.writebackCache_writes {r : Nat} (high : [0, 1, 2, 3].find? (fun r => (d.ring n r).wantsBack) = some r) :
    d.writebackCache n = d.ringBacked n r := by rw [Dev.writebackCache, high]

theorem Dev.gapLimit_none (none_ : (d.held n).filter (d.lowestHeld n) = []) : d.gapLimit n = d := by
  rw [Dev.gapLimit, Dev.gapTarget, none_]

theorem Dev.gapLimit_first {h0 : HeldEnq} {rest : List HeldEnq} (lowest : (d.held n).filter (d.lowestHeld n) = h0 :: rest) : d.gapLimit n =
    let h := rest.foldl (fun m y => if y.since < m.since then y else m) h0
    { d with clk := { d.clk with gaps := d.clk.gaps ++ [(n, h.descr.uid)] } } := by
  rw [Dev.gapLimit, Dev.gapTarget, lowest]

section
variable {uid : Nat} {place : Descr → Dev → Dev}

theorem Dev.gapSkip_none (none_ : (d.held n).find? (fun h => h.descr.uid == uid && d.lowestHeld n h) = none) : d.gapSkip n uid place = d := by
  rw [Dev.gapSkip, none_]

theorem Dev.gapSkip_skips {h : HeldEnq} (held : (d.held n).find? (fun h => h.descr.uid == uid && d.lowestHeld n h) = some h) :
    d.gapSkip n uid place =
      let d := (d.bump (R.ACC_GAP_SKIP n)).setFlag (R.ACC_EVT n) R.ACC_EVT.GAP_SKIP true
      (d.setHeld n ((d.held n).filter (fun y => y != h))).acceptEnq n h.descr place := by rw [Dev.gapSkip, held]

end

theorem Dev.retryResend_none (none_ : (d.journalUsed n).find? (fun i => d.due ⟨.retry, n, i⟩ && (d.jentry n i).state == .resend) = none) :
    d.retryResend n = d := by rw [Dev.retryResend, none_]

theorem Dev.retryResend_sends {i : Nat}
    (due : (d.journalUsed n).find? (fun i => d.due ⟨.retry, n, i⟩ && (d.jentry n i).state == .resend) = some i) :
    d.retryResend n = (d.disarm ⟨.retry, n, i⟩).resendEntry n i false := by rw [Dev.retryResend, due]

theorem Dev.replayStart_none (none_ : (d.walksOf n).find? (fun w => !w.started) = none) : d.replayStart n = d := by
  rw [Dev.replayStart]; dsimp only
  rw [none_]

theorem Dev.replayStart_starts {w : Walk} (fresh : (d.walksOf n).find? (fun w => !w.started) = some w) : d.replayStart n =
    let open_ := (d.journalUsed n).filter (fun i => (d.jentry n i).unretired)
    let w' := { w with started := true, index := 0, pending := open_, sent := 0, again := false }
    (d.setWalks n ((d.walksOf n).map (fun x => if x == w then w' else x))).setFlag (R.ACC_STAT n) R.ACC_STAT.REPLAY true := by
  rw [Dev.replayStart]; dsimp only
  rw [fresh]

theorem Dev.walkEnd_none (none_ : (d.walksOf n).find? (·.started) = none) : d.walkEnd n = d := by rw [Dev.walkEnd, none_]

/-- A walk of region n is over: its last entries are passed, and it goes, or starts again (R431, R432). -/
def Dev.walkEnded (d : Dev) (n : Nat) (w : Walk) : Dev :=
  let r := d.walkTo n (max w.index (d.journalSize n)) w
  let rest := (r.2.walksOf n).filter (fun x => x != w)
  let d := r.2.setWalks n (if r.1.again then rest ++ [Walk.new w.toward] else rest)
  let d := d.setFlag (R.ACC_STAT n) R.ACC_STAT.REPLAY ((d.walksOf n).any (·.started))
  let d := d.when (d.flag (R.ACC_CFG n) R.ACC_CFG.REPLAY_LOG) (·.logChip 0x0031
    ((match w.toward with | some e => e + 4 | none => n) + 2 ^ 16 * (r.1.sent % 2 ^ 16)))
  d.flushEnqs n

theorem Dev.walkEnd_ends {w : Walk} (runs : (d.walksOf n).find? (·.started) = some w) : d.walkEnd n = d.walkEnded n w := by
  rw [Dev.walkEnd, runs]; rfl

theorem Dev.custodyEnd_runs (runs : d.chipStopped = false) : d.custodyEnd =
    let e : Dev := { d with frame := { d.frame with arrivals := [] }, clk := { d.clk with gaps := [], walkEnds := [] } }
    let judged := (e.each d.frame.arrivals Dev.judgeCpl).each d.frame.arrivals Dev.judgeArrival
    let skipped := judged.each d.clk.gaps (fun x d => d.gapSkip x.1 x.2 (Dev.place x.1))
    (skipped.recoverEnd.each [0, 1, 2, 3] (fun n d => d.walkTick n)).each d.clk.walkEnds (fun n d => d.walkEnd n) :=
  if_neg (Bool.not_eq_true _ ▸ runs)

end

/-- Settles O32: charges, commits, releases and walks take their turns, each judged by what waits for it. -/
theorem acceptedFrames : Obligations.AcceptedFrames := by
  refine ⟨fun n s on => ⟨State.runDev_done on rfl, State.runDev_done on rfl, fun d k m => rfl, fun d => rfl,
      fun d => ⟨Dev.decisionCharge_none, fun l dec source pre => ⟨Dev.decisionCharge_down source pre, fun up none_ => ?_,
        fun up es free => ⟨fun p m place => ?_, fun f full room => ?_, fun full stuck => ?_⟩⟩⟩,
      fun d => ⟨Dev.frameCommit_none, fun l dec source pre => ⟨Dev.frameCommit_discards source pre, Dev.frameCommit_commits source pre⟩⟩,
      fun h => State.runDev_done on (Dev.ownerRelease_none h), fun h rest waits few => ⟨fun gone => ?_, fun held head owned =>
        ⟨fun forwarded => ?_, fun plain last => ?_, fun plain more => ?_⟩⟩⟩, fun n s on => ?journal⟩
  · exact Dev.decisionCharge_journalFull source pre up rfl rfl none_
  · exact Dev.decisionCharge_placed source pre up rfl rfl free place
  · exact Dev.decisionCharge_pushedOut source pre up rfl rfl free full room
  · exact Dev.decisionCharge_refused source pre up rfl rfl free full stuck
  · exact State.runDev_done on ((Dev.ownerRelease_pops waits few).trans (Dev.releaseOwner_double gone))
  · exact State.runDev_done on ((Dev.ownerRelease_pops waits few).trans (Dev.releaseOwner_forwarded held head owned forwarded))
  · exact State.runDev_done on ((Dev.ownerRelease_pops waits few).trans (Dev.releaseOwner_last held head owned plain last))
  · exact State.runDev_done on ((Dev.ownerRelease_pops waits few).trans (Dev.releaseOwner_more held head owned plain more))
  case journal =>
    exact ⟨fun none_ => State.runDev_done on (Dev.refillCache_none none_), fun r low => State.runDev_done on (Dev.refillCache_refills low),
      fun none_ => State.runDev_done on (Dev.writebackCache_none none_), fun r high => State.runDev_done on (Dev.writebackCache_writes high),
      fun none_ => State.runDev_done on (Dev.gapLimit_none none_), fun h0 rest lowest => State.runDev_done on (Dev.gapLimit_first lowest),
      fun d e uid => ⟨Dev.gapSkip_none, fun h => Dev.gapSkip_skips⟩,
      fun none_ => State.runDev_done on (Dev.retryResend_none none_), fun i due => State.runDev_done on (Dev.retryResend_sends due),
      fun none_ => State.runDev_done on (Dev.replayStart_none none_), fun w fresh => State.runDev_done on (Dev.replayStart_starts fresh),
      State.runDev_done on rfl, fun d n => ⟨Dev.walkEnd_none, fun w => Dev.walkEnd_ends⟩, fun d => Dev.custodyEnd_runs⟩

end Sys2Proof.Machine
end

section
/-! Transmission (R143 to R146, R150, R357 to R359, R361). -/

open Sys2Proof Sys2Proof.Machine

namespace Sys2Proof.Machine

section
variable {d : Dev} {p i : Nat} {x : Descr}

/-! ## The MAC takes a frame -/

theorem Dev.transmitSelect_barred (h : d.macMayStart p = false) : d.transmitSelect p = d := if_pos (by simp [h])

section
variable (may : d.macMayStart p = true)
include may

theorem Dev.transmitSelect_none (h : (d.beforeSelect p).selectQueue p = none) : d.transmitSelect p = d.beforeSelect p := by
  rw [Dev.beforeSelect] at h ⊢
  rw [Dev.transmitSelect]
  dsimp only at h ⊢
  rw [if_neg (by simp [may]), h]

theorem Dev.transmitSelect_start {rest : List Descr} (h : (d.beforeSelect p).selectQueue p = some i)
    (head : ((d.beforeSelect p).queue (portRegion p) (portQueue p i)).frames = x :: rest) :
    d.transmitSelect p = (d.beforeSelect p).startFrame p i x := by
  rw [Dev.beforeSelect] at h head ⊢
  rw [Dev.transmitSelect]
  dsimp only at h head ⊢
  rw [if_neg (by simp [may]), h]
  dsimp only
  rw [head]
end

/-! ## A frame being sent ends, or is cut -/

/-- The ECN mark that the frame being sent takes. -/
def Dev.txMark (d : Dev) (p : Nat) (x : Descr) : Bool :=
  let ep := d.eport p
  let body := ep.bytes.take (if x.computeFcs then ep.bytes.length else ep.bytes.length - 4)
  ep.ce && (ecnOf x body == some 1 || ecnOf x body == some 2)

/-- The frame as the MAC of its port builds it, and whether it is in error. -/
def Dev.txBuilt (d : Dev) (p : Nat) (x : Descr) :=
  let ep := d.eport p
  let a := R.SCH_PORT (portRegion p) (portLocal p)
  buildFrame x ep.bytes (d.txMark p x) ep.bad (d.flag a R.SCH_PORT.CB_ENCODE) (d.flag a R.SCH_PORT.CB_DECODE)

/-- The frame of queue `i` leaves: its stamp, its queue, its port and its account. -/
def Dev.txFinish (d : Dev) (p i : Nat) (x : Descr) (error : Bool) (how : CplStatus) : Dev :=
  (((d.txStamp p x error).unqueue (portRegion p) (portQueue p i) x).endSending p).egressDone (portRegion p) x how

theorem Dev.noStamp_none (h : x.tsReq = none) : d.noStamp x = d := by rw [Dev.noStamp, h]

theorem Dev.noStamp_some {r : TsRequest} (h : x.tsReq = some r) :
    d.noStamp x = d.when x.stampHere (fun d => d.tellStamp r.owner none false) := by rw [Dev.noStamp, h]; rfl

theorem Dev.transmitComplete_idle (h : d.sendingFrame p = none) : d.transmitComplete p = d := by rw [Dev.transmitComplete]; dsimp only; rw [h]

theorem Dev.transmitCut_idle (h : d.sendingFrame p = none) : d.transmitCut p = d := by rw [Dev.transmitCut]; dsimp only; rw [h]

section
variable (sending : d.sendingFrame p = some (i, x))
include sending

theorem Dev.transmitComplete_waits (h : (d.eport p).readsLeft ≠ 0 ∨ d.portBlockUp p = false) : d.transmitComplete p = d := by
  rw [Dev.transmitComplete]; dsimp only; rw [sending]
  exact if_pos (h.imp id (by simp [·]))

section
variable (left : (d.eport p).readsLeft = 0) (up : d.portBlockUp p = true)
include left up

theorem Dev.transmitComplete_of : d.transmitComplete p =
    let n := portRegion p
    let r := d.txBuilt p x
    let d := (d.sendOut p r.1 (!r.2.2)).when (d.txMark p x) (fun d => d.bump (qCntKey n (portQueue p i) 2))
    let d := if r.2.2 then d.bump (R.MAC_TX_STOMP p)
      else (((d.bump (R.MAC_TX_OK p)).bumpPerf (R.MAC_TX_OK_BYTES p) r.1.length).bump (qCntKey n (portQueue p i) 0)).bumpPerf
        (qCntKey n (portQueue p i) 1) r.1.length
    (d.when (r.2.2 && x.guarded) (fun d => (d.bump (R.ACC_LOST n)).setFlag (R.ACC_EVT n) R.ACC_EVT.LOST true)).txFinish p i x r.2.2
      (if r.2.2 && !x.guarded then .transmitError else .transmit) := by
  rw [Dev.transmitComplete]; dsimp only; rw [sending]
  exact if_neg (by simp [left, up])

theorem Dev.transmitComplete_good (h : (d.txBuilt p x).2.2 = false) : d.transmitComplete p =
    let n := portRegion p
    let r := d.txBuilt p x
    let d := (d.sendOut p r.1 true).when (d.txMark p x) (fun d => d.bump (qCntKey n (portQueue p i) 2))
    ((((d.bump (R.MAC_TX_OK p)).bumpPerf (R.MAC_TX_OK_BYTES p) r.1.length).bump (qCntKey n (portQueue p i) 0)).bumpPerf
        (qCntKey n (portQueue p i) 1) r.1.length).txFinish p i x false .transmit := by
  rw [Dev.transmitComplete_of sending left up]; dsimp only; rw [h]; rfl

theorem Dev.transmitComplete_error (h : (d.txBuilt p x).2.2 = true) : d.transmitComplete p =
    let n := portRegion p
    let d := (d.sendOut p (d.txBuilt p x).1 false).when (d.txMark p x) (fun d => d.bump (qCntKey n (portQueue p i) 2))
    ((d.bump (R.MAC_TX_STOMP p)).when x.guarded (fun d =>
        (d.bump (R.ACC_LOST n)).setFlag (R.ACC_EVT n) R.ACC_EVT.LOST true)).txFinish p i x true
      (if x.guarded then .transmit else .transmitError) := by
  rw [Dev.transmitComplete_of sending left up]; dsimp only; rw [h]
  cases x.guarded <;> rfl
end

/-- The frame that is cut leaves a mark of its own on the line, and no time stamp. -/
theorem Dev.transmitCut_of : d.transmitCut p =
    let d := (Dev.noStamp (d.sendOut p (d.eport p).bytes false) x).endSending p
    if x.guarded then
      d.modQueue (portRegion p) (portQueue p i) (fun q => { q with frames := q.frames.modify 0 (fun y => { y with tx := false }) })
    else ((d.unqueue (portRegion p) (portQueue p i) x).bump (R.MAC_TX_ABORT p)).egressDone (portRegion p) x .discard := by
  rw [Dev.transmitCut]; dsimp only; rw [sending]
  dsimp only
  cases req : x.tsReq with
  | none => rw [Dev.noStamp_none req]
  | some r => rw [Dev.noStamp_some req]

theorem Dev.transmitCut_guarded (h : x.guarded = true) : d.transmitCut p =
    ((Dev.noStamp (d.sendOut p (d.eport p).bytes false) x).endSending p).modQueue (portRegion p) (portQueue p i)
      (fun q => { q with frames := q.frames.modify 0 (fun y => { y with tx := false }) }) :=
  (Dev.transmitCut_of sending).trans (if_pos h)

theorem Dev.transmitCut_unguarded (h : x.guarded = false) : d.transmitCut p =
    ((((Dev.noStamp (d.sendOut p (d.eport p).bytes false) x).endSending p).unqueue (portRegion p) (portQueue p i) x).bump
      (R.MAC_TX_ABORT p)).egressDone (portRegion p) x .discard :=
  (Dev.transmitCut_of sending).trans (if_neg (Bool.not_eq_true _ ▸ h))
end

/-! ## A port that is not ready any more -/

theorem Dev.portNotReady_keeps (h : d.portReady p = true ∨ d.regionRuns (portRegion p) = false) : d.portNotReady p = d :=
  if_pos (by rcases h with h | h <;> simp [h])

theorem Dev.portNotReady_drops (h : d.portReady p = false) (runs : d.regionRuns (portRegion p) = true) :
    d.portNotReady p = d.each (List.range 8) (fun i d =>
      let q := portQueue p i
      d.each ((d.idleFrames (portRegion p) q).filter (fun x => !x.guarded)) (fun x d =>
        ((d.unqueue (portRegion p) q x).bump (qCntKey (portRegion p) q 3)).egressDone (portRegion p) x .discard)) :=
  if_neg (by simp [h, runs])
end

/-- Settles O35: each branch of the start, the end and the cut of a frame, and of a port's loss of readiness. -/
theorem sentFrames : Obligations.SentFrames := by
  unfold Obligations.SentFrames
  intro p s on hp
  refine ⟨fun barred => ?_, fun may none => ?_, fun may i x rest sel head => ?_, fun idle => ⟨?_, ?_⟩,
    fun i x sending => ⟨fun waits => ?_, fun left up => ⟨fun good => ?_, fun bad => ?_⟩, fun gd => ?_, fun gd => ?_⟩,
    fun keeps => ?_, fun not runs => ?_⟩
  · exact State.runPort_done on hp (Dev.transmitSelect_barred barred)
  · exact State.runPort_done on hp (Dev.transmitSelect_none may none)
  · exact State.runPort_done on hp (Dev.transmitSelect_start may sel head)
  · exact State.runPort_done on hp (Dev.transmitComplete_idle idle)
  · exact State.runPort_done on hp (Dev.transmitCut_idle idle)
  · exact State.runPort_done on hp (Dev.transmitComplete_waits sending waits)
  · exact State.runPort_done on hp (Dev.transmitComplete_good sending left up good)
  · exact State.runPort_done on hp (Dev.transmitComplete_error sending left up bad)
  · exact State.runPort_done on hp (Dev.transmitCut_guarded sending gd)
  · exact State.runPort_done on hp (Dev.transmitCut_unguarded sending gd)
  · exact State.runPort_done on hp (Dev.portNotReady_keeps keeps)
  · exact State.runPort_done on hp (Dev.portNotReady_drops not runs)

end Sys2Proof.Machine
end

section
/-! Requests and commands of a DRAM channel (R388 to R393, R396, R397, R404). -/

open Sys2Proof Sys2Proof.Machine

namespace Sys2Proof.Machine

section
variable {d : Dev} {n burst : Nat} {chip : Bool} {data : Nat}

/-! ## A read -/

theorem Dev.dramRead_down (h : d.channelState n = 3 ∨ d.channelState n = 0) :
    d.dramRead n burst chip = d.emit (.silo n burst none) := if_pos (by simpa using h)

section
variable (serves : d.channelState n ≠ 3) (on : d.channelState n ≠ 0)
include serves on

theorem Dev.dramRead_reset (h : (d.dramOf n).sleep = .reset) : d.dramRead n burst chip = d :=
  (if_neg (by simp [serves, on])).trans (if_pos (by simp [h]))

theorem Dev.dramRead_asleep (h : (d.dramOf n).sleep ≠ .reset) (asleep : d.dramAwake n = false) :
    d.dramRead n burst chip =
      d.setDram n { d.dramOf n with waitRead := (d.dramOf n).waitRead ++ [⟨burst, d.now, chip, none⟩] } :=
  (if_neg (by simp [serves, on])).trans ((if_neg (by simp [h])).trans (if_pos (by simp [asleep])))
end

/-- A channel that is awake is not held in reset. -/
theorem Dev.dramAwake_sleep (h : d.dramAwake n = true) : (d.dramOf n).sleep ≠ .reset := by
  intro r; simp [Dev.dramAwake, r] at h

section
variable (served : d.channelState n ≠ 3 ∧ d.channelState n ≠ 0 ∧ d.dramAwake n = true)
include served

theorem Dev.dramRead_served : d.dramRead n burst chip =
    (((d.wakeIdle n).enterRead n ⟨burst, d.now, chip, none⟩).getD
      (((d.wakeIdle n).setDram n { (d.wakeIdle n).dramOf n with
        waitRead := ((d.wakeIdle n).dramOf n).waitRead ++ [⟨burst, d.now, chip, none⟩] }).bump (R.DRC_QFULL_WAIT n))) := by
  obtain ⟨serves, on, awake⟩ := served
  rw [Dev.dramRead]; dsimp only
  rw [if_neg (by simp [serves, on]), if_neg (by simp [Dev.dramAwake_sleep awake]), if_neg (by simp [awake])]
  cases (d.wakeIdle n).enterRead n ⟨burst, d.now, chip, none⟩ with
  | none => rw [Option.getD_none]
  | some e => rw [Option.getD_some]

theorem Dev.dramRead_forwarded {w : DramWrite}
    (h : ((d.wakeIdle n).dramOf n).writeQ.find? (fun w => w.burst == burst) = some w) :
    d.dramRead n burst chip = ((d.wakeIdle n).bump (R.DRC_FWD n)).emit (.silo n burst (some w.data)) := by
  rw [Dev.dramRead_served served, Dev.enterRead]; dsimp only; rw [h]; dsimp only; rw [Option.getD_some, Dev.forwardRead]

section
variable (h : ((d.wakeIdle n).dramOf n).writeQ.find? (fun w => w.burst == burst) = none)
include h

theorem Dev.dramRead_queued (room : ((d.wakeIdle n).dramOf n).readQ.length < 64) :
    d.dramRead n burst chip = ((d.wakeIdle n).setDram n { (d.wakeIdle n).dramOf n with
      readQ := ((d.wakeIdle n).dramOf n).readQ ++ [⟨burst, d.now, chip, none⟩] }).refreshDram n := by
  rw [Dev.dramRead_served served, Dev.enterRead]; dsimp only; rw [h]; dsimp only
  rw [if_pos room, Option.getD_some]

theorem Dev.dramRead_full (full : 64 ≤ ((d.wakeIdle n).dramOf n).readQ.length) :
    d.dramRead n burst chip = ((d.wakeIdle n).setDram n { (d.wakeIdle n).dramOf n with
      waitRead := ((d.wakeIdle n).dramOf n).waitRead ++ [⟨burst, d.now, chip, none⟩] }).bump (R.DRC_QFULL_WAIT n) := by
  rw [Dev.dramRead_served served, Dev.enterRead]; dsimp only; rw [h]; dsimp only
  rw [if_neg (by omega), Option.getD_none]
end
end

/-! ## A write -/

theorem Dev.dramWrite_ignored (h : d.channelState n = 3 ∨ d.channelState n = 0 ∨ (d.dramOf n).sleep = .reset) :
    d.dramWrite n burst data = d := if_pos (by rcases h with h | h | h <;> simp [h])

theorem Dev.dramWrite_asleep (serves : d.channelState n ≠ 3) (on : d.channelState n ≠ 0)
    (h : (d.dramOf n).sleep ≠ .reset) (asleep : d.dramAwake n = false) :
    d.dramWrite n burst data =
      d.setDram n { d.dramOf n with waitWrite := (d.dramOf n).waitWrite ++ [⟨burst, data, d.now⟩] } :=
  (if_neg (by simp [serves, on, h])).trans (if_pos (by simp [asleep]))

/-- A write that is queued: the queue `q` that holds it, and the reads of its burst that came in this clock are gone. -/
def Dev.writeHeld (d : Dev) (n burst : Nat) (q : List DramWrite) : Dev :=
  let y := (d.wakeIdle n).dramOf n
  (d.wakeIdle n).setDram n { y with
    writeQ := q, readQ := y.readQ.filter (fun r => !(r.burst == burst && r.since == (d.wakeIdle n).now)) }

/-- Those reads are answered with the write's data. -/
def Dev.writeForwards (d e : Dev) (n burst data : Nat) : Dev :=
  d.each ((e.dramOf n).readQ.filter (fun r => r.burst == burst && r.since == e.now)) (fun r d =>
    (d.bump (R.DRC_FWD n)).emit (.silo n r.burst (some data)))

section
variable (served : d.channelState n ≠ 3 ∧ d.channelState n ≠ 0 ∧ d.dramAwake n = true)
include served

theorem Dev.dramWrite_served : d.dramWrite n burst data =
    (((d.wakeIdle n).enterWrite n ⟨burst, data, d.now⟩).getD
      (((d.wakeIdle n).setDram n { (d.wakeIdle n).dramOf n with
        waitWrite := ((d.wakeIdle n).dramOf n).waitWrite ++ [⟨burst, data, d.now⟩] }).bump (R.DRC_QFULL_WAIT n))) := by
  obtain ⟨serves, on, awake⟩ := served
  rw [Dev.dramWrite]; dsimp only
  rw [if_neg (by simp [serves, on, Dev.dramAwake_sleep awake]), if_neg (by simp [awake])]
  cases (d.wakeIdle n).enterWrite n ⟨burst, data, d.now⟩ with
  | none => rw [Option.getD_none]
  | some e => rw [Option.getD_some]

theorem Dev.dramWrite_merged (h : ((d.wakeIdle n).dramOf n).writeQ.any (fun z => z.burst == burst) = true) :
    d.dramWrite n burst data = (((d.writeHeld n burst (((d.wakeIdle n).dramOf n).writeQ.map
      (fun z => if z.burst == burst then { z with data := data } else z))).bump (R.DRC_MERGED n)).writeForwards
        (d.wakeIdle n) n burst data).refreshDram n := by
  rw [Dev.dramWrite_served served, Dev.enterWrite]; dsimp only; rw [h, if_neg (by simp), Option.getD_some, if_pos rfl, Dev.when_true]
  simp only [Dev.writeForwards, Dev.writeHeld, Dev.forwardRead]

section
variable (h : ((d.wakeIdle n).dramOf n).writeQ.any (fun z => z.burst == burst) = false)
include h

theorem Dev.dramWrite_queued (room : ((d.wakeIdle n).dramOf n).writeQ.length < 64) :
    d.dramWrite n burst data = ((d.writeHeld n burst (((d.wakeIdle n).dramOf n).writeQ ++ [⟨burst, data, d.now⟩])).writeForwards
        (d.wakeIdle n) n burst data).refreshDram n := by
  rw [Dev.dramWrite_served served, Dev.enterWrite]; dsimp only; rw [h, if_neg (by simpa using room), Option.getD_some]; rfl

theorem Dev.dramWrite_full (full : 64 ≤ ((d.wakeIdle n).dramOf n).writeQ.length) :
    d.dramWrite n burst data = ((d.wakeIdle n).setDram n { (d.wakeIdle n).dramOf n with
      waitWrite := ((d.wakeIdle n).dramOf n).waitWrite ++ [⟨burst, data, d.now⟩] }).bump (R.DRC_QFULL_WAIT n) := by
  rw [Dev.dramWrite_served served, Dev.enterWrite]; dsimp only; rw [h, if_pos (by simpa using full), Option.getD_none]
end
end

/-! ## The next command of a channel -/

/-- The oldest of the reads that are too old, and of the writes. -/
def Dev.agedRead (d : Dev) (n : Nat) : Option DramRead :=
  pickOldest DramRead.since (fun _ => false) ((d.dramOf n).readQ.filter (fun r => decide (d.ageMax n ≤ d.now - r.since)))

def Dev.agedWrite (d : Dev) (n : Nat) : Option DramWrite :=
  pickOldest DramWrite.since (fun _ => false) ((d.dramOf n).ready.filter (fun w => decide (d.ageMax n ≤ d.now - w.since)))

def Dev.nextRead (d : Dev) (n : Nat) : Option DramRead :=
  pickOldest DramRead.since (fun r => (d.dramOf n).hit r.burst) (d.dramOf n).readQ

def Dev.nextWrite (d : Dev) (n : Nat) : Option DramWrite :=
  pickOldest DramWrite.since (fun w => (d.dramOf n).hit w.burst) (d.dramOf n).ready

/-- What a channel issues that owes no urgent refresh, its requests that are too old being `r` and `w`. -/
def Dev.dramTurn (d : Dev) (n : Nat) (r : Option DramRead) (w : Option DramWrite) : Dev :=
  let aged := d.bump (R.DRC_AGE_PROMOTE n)
  match r, w with
  | some r, some w => if w.since < r.since then aged.issueWrite n w else aged.issueRead n r
  | some r, none => aged.issueRead n r
  | none, some w => aged.issueWrite n w
  | none, none =>
    match (if d.flag (R.DRC_STAT n) R.DRC_STAT.DRAIN then none else d.nextRead n), d.nextWrite n with
    | some r, _ => d.issueRead n r
    | none, some w => d.issueWrite n w
    | none, none => if 0 < (d.dramOf n).owed then d.issueRefresh n else d

/-- With none too old, and outside DRAIN mode no read, the writes have their turn, then a refresh that is owed. -/
def Dev.dramAfterReads (d : Dev) (n : Nat) (w : Option DramWrite) : Dev :=
  match w with
  | some w => d.issueWrite n w
  | none => if 0 < (d.dramOf n).owed then d.issueRefresh n else d

theorem Dev.dramIssue_none (h : d.channelServes n = false ∨ d.flag (R.DRC_STAT n) R.DRC_STAT.PASS = true) : d.dramIssue n = d :=
  if_pos (by rcases h with h | h <;> simp [h])

section
variable (issues : d.channelServes n = true ∧ d.flag (R.DRC_STAT n) R.DRC_STAT.PASS = false)
include issues

theorem Dev.dramIssue_refresh (h : 4 ≤ (d.dramOf n).owed) : d.dramIssue n = d.issueRefresh n :=
  (if_neg (by simp [issues])).trans (if_pos h)

section
variable (few : (d.dramOf n).owed < 4)
include few

theorem Dev.dramIssue_turn : d.dramIssue n = d.dramTurn n (d.agedRead n) (d.agedWrite n) :=
  (if_neg (by simp [issues])).trans (if_neg (by omega))

/-- Requests that are too old come first, reads before writes of the same age. -/
theorem Dev.dramIssue_aged {r : Option DramRead} {w : Option DramWrite} (hr : d.agedRead n = r) (hw : d.agedWrite n = w) :
    d.dramIssue n = d.dramTurn n r w := by rw [Dev.dramIssue_turn issues few, hr, hw]

section
variable (noRead : d.agedRead n = none) (noWrite : d.agedWrite n = none)
include noRead noWrite

theorem Dev.dramIssue_read {r : DramRead} (drain : d.flag (R.DRC_STAT n) R.DRC_STAT.DRAIN = false) (h : d.nextRead n = some r) :
    d.dramIssue n = d.issueRead n r := by
  rw [Dev.dramIssue_aged issues few noRead noWrite]; rw [Dev.dramTurn, drain, h]; rfl

/-- Outside DRAIN mode a read comes before the writes. -/
theorem Dev.dramIssue_noRead (h : d.flag (R.DRC_STAT n) R.DRC_STAT.DRAIN = true ∨ d.nextRead n = none) :
    d.dramIssue n = d.dramAfterReads n (d.nextWrite n) := by
  rw [Dev.dramIssue_aged issues few noRead noWrite, Dev.dramTurn]
  rw [show (if d.flag (R.DRC_STAT n) R.DRC_STAT.DRAIN then none else d.nextRead n) = none by rcases h with h | h <;> simp [h]]
  cases d.nextWrite n <;> rfl
end
end
end
end

/-- Settles O36: each branch of a read, a write and the choice of the next command. -/
theorem dramTraffic : Obligations.DramTraffic := by
  unfold Obligations.DramTraffic
  intro n s on
  refine ⟨fun burst chip => ⟨fun down => ?_, fun a b r => ?_, fun a b r sleep => ?_, fun served w found => ?_,
      fun served none room => ?_, fun served none full => ?_⟩,
    fun burst data => ⟨fun h => ?_, fun a b r sleep => ?_, fun served queued => ?_, fun served new room => ?_,
      fun served new full => ?_⟩,
    ⟨fun h => ?_, fun issues owed => ?_, fun issues few => ⟨fun r w hr hw older => ?_, fun r w hr hw older => ?_,
      fun r hr hw => ?_, fun w hr hw => ?_, fun hr hw => ⟨fun r drain next => ?_, fun w noRead next => ?_,
        fun noRead next owes => ?_, fun noRead next owes => ?_⟩⟩⟩⟩
  · exact State.runDev_done on (Dev.dramRead_down down)
  · exact State.runDev_done on (Dev.dramRead_reset a b r)
  · exact State.runDev_done on (Dev.dramRead_asleep a b r sleep)
  · exact State.runDev_done on (Dev.dramRead_forwarded served found)
  · exact State.runDev_done on (Dev.dramRead_queued served none room)
  · exact State.runDev_done on (Dev.dramRead_full served none full)
  · exact State.runDev_done on (Dev.dramWrite_ignored h)
  · exact State.runDev_done on (Dev.dramWrite_asleep a b r sleep)
  · exact State.runDev_done on (Dev.dramWrite_merged served queued)
  · exact State.runDev_done on (Dev.dramWrite_queued served new room)
  · exact State.runDev_done on (Dev.dramWrite_full served new full)
  · exact State.runDev_done on (Dev.dramIssue_none h)
  · exact State.runDev_done on (Dev.dramIssue_refresh issues owed)
  · exact State.runDev_done on ((Dev.dramIssue_aged issues few hr hw).trans (if_pos older))
  · exact State.runDev_done on ((Dev.dramIssue_aged issues few hr hw).trans (if_neg (by omega)))
  · exact State.runDev_done on (Dev.dramIssue_aged issues few hr hw)
  · exact State.runDev_done on (Dev.dramIssue_aged issues few hr hw)
  · exact State.runDev_done on (Dev.dramIssue_read issues few hr hw drain next)
  · exact State.runDev_done on ((Dev.dramIssue_noRead issues few hr hw noRead).trans (by
      rw [show s.dev.nextWrite n = some w from next, Dev.dramAfterReads]))
  · exact State.runDev_done on ((Dev.dramIssue_noRead issues few hr hw noRead).trans (by
      rw [show s.dev.nextWrite n = none from next, Dev.dramAfterReads]; exact if_pos owes))
  · exact State.runDev_done on ((Dev.dramIssue_noRead issues few hr hw noRead).trans (by
      rw [show s.dev.nextWrite n = none from next, Dev.dramAfterReads]; exact if_neg (by omega)))

end Sys2Proof.Machine
end

section
/-! Errors, refresh, power states, training and tracking of a DRAM channel (R383, R387, R395 to R403, R405). -/

open Sys2Proof Sys2Proof.Machine

namespace Sys2Proof.Machine

section
variable {d : Dev} {n err : Nat}

/-! ## The data of a read -/

theorem Dev.dramReadComplete_none (h : (d.dramOf n).issued = []) : d.dramReadComplete n err = d := by
  rw [Dev.dramReadComplete]; dsimp only; rw [h]

theorem Dev.dramReadTimeout_none (h : (d.dramOf n).issued = []) : d.dramReadTimeout n = d := if_pos (by simp [h])

theorem Dev.dramReadTimeout_fails (h : (d.dramOf n).issued ≠ []) : d.dramReadTimeout n = d.channelFail n 3 := if_neg (by simpa using h)

section
variable {r : DramRead} {rest : List DramRead} (first : (d.dramOf n).issued = r :: rest)
include first

theorem Dev.dramReadComplete_bad (h : 2 ≤ err) : d.dramReadComplete n err = (d.readReturned n rest).readBad n (err == 3) r := by
  rw [Dev.dramReadComplete]; dsimp only; rw [first]; dsimp only
  rw [if_neg (by omega)]; rfl

theorem Dev.dramReadComplete_written (h : err < 2) {v : Nat} (written : r.data = some v) :
    d.dramReadComplete n err = Dev.dramReadComplete.good n err (d.readReturned n rest) r v := by
  rw [Dev.dramReadComplete]; dsimp only; rw [first]; dsimp only
  rw [if_pos h, written, Dev.readReturned]

theorem Dev.dramReadComplete_unwritten (h : err < 2) (unwritten : r.data = none) :
    d.dramReadComplete n err =
      Dev.dramReadComplete.good n err (d.readReturned n rest).fresh.2 r (d.readReturned n rest).fresh.1.toNat := by
  rw [Dev.dramReadComplete]; dsimp only; rw [first]; dsimp only
  rw [if_pos h, unwritten, Dev.readReturned]
end

theorem Dev.readGood_clean {r : DramRead} {v : Nat} (h : err = 0) :
    Dev.dramReadComplete.good n err d r v = d.emit (.silo n r.burst (some v)) := if_neg (by omega)

theorem Dev.readGood_corrected {r : DramRead} {v : Nat} (h : err = 1) :
    Dev.dramReadComplete.good n err d r v = d.readCorrected n r v := if_pos h

/-! ## Refresh, temperatures and power states -/

theorem Dev.dramRefreshDue_serves (h : d.channelServes n = true) :
    d.dramRefreshDue n = d.setDram n { d.dramOf n with owed := (d.dramOf n).owed + 1 } := if_pos h

theorem Dev.dramRefreshDue_down (h : d.channelServes n = false) : d.dramRefreshDue n = d := if_neg (Bool.not_eq_true _ ▸ h)

theorem Dev.zqLatch_down (h : d.channelServes n = false) : d.zqLatch n = d := if_neg (by simp [h])

/-- A schedule slot of kind 2 that names the channel is open. -/
def Dev.inPassWindow (d : Dev) (n : Nat) : Bool :=
  (List.range 8).any (fun k => d.slotKind k == 2 && (d.slotTargets k).testBit n && (d.slotUser k).active)

theorem Dev.zqLatch_window (h : d.inPassWindow n = true) : d.zqLatch n = d :=
  if_neg (by rw [← Dev.inPassWindow, h]; simp)

theorem Dev.zqLatch_takes (serves : d.channelServes n = true) (h : d.inPassWindow n = false) :
    d.zqLatch n = d.setDram n { d.dramOf n with zqAt := d.now } := if_pos (by rw [← Dev.inPassWindow, h, serves]; rfl)

theorem Dev.dramTemp_ready {a b m : Nat} {hot : Bool} (h : d.channelState n = 2) : d.dramTemp n a b m hot = d.tempRead n a b m hot :=
  if_neg (by simp [h])

theorem Dev.dramTemp_ignored {a b m : Nat} {hot : Bool} (h : d.channelState n ≠ 2) : d.dramTemp n a b m hot = d := if_pos h

theorem Dev.dramPowerDown_enters (idle : d.dramIdle n = true) (h : d.was.fget (R.DRC_PWR n) R.DRC_PWR.PD_IDLE ≠ 0) :
    d.dramPowerDown n = d.setFlag (R.DRC_STAT n) R.DRC_STAT.PD true := if_pos (by simp [idle, h])

theorem Dev.dramPowerDown_stays (h : d.dramIdle n = false ∨ d.was.fget (R.DRC_PWR n) R.DRC_PWR.PD_IDLE = 0) :
    d.dramPowerDown n = d := if_neg (by rcases h with h | h <;> simp [h])

theorem Dev.dramSelfRefreshIdle_enters (idle : d.dramIdle n = true) (h : d.was.fget (R.DRC_PWR n) R.DRC_PWR.SR_IDLE_US ≠ 0) :
    d.dramSelfRefreshIdle n = d.enterSelfRefresh n .idle := if_pos (by simp [idle, h])

theorem Dev.dramSelfRefreshIdle_stays (h : d.dramIdle n = false ∨ d.was.fget (R.DRC_PWR n) R.DRC_PWR.SR_IDLE_US = 0) :
    d.dramSelfRefreshIdle n = d := if_neg (by rcases h with h | h <;> simp [h])

/-! ## Training -/

theorem Dev.trainingComplete_ignored {ok : Bool}
    (h : d.channelState n ≠ 1 ∨ (d.dramOf n).training = .none ∨ (d.dramOf n).sleep ≠ .none) : d.trainingComplete n ok = d := if_pos h

/-- A training of kind `t` that failed: from saved values it starts over in full, else the channel has failed. -/
def Dev.trainingFailed (d : Dev) (n : Nat) (t : Training) : Dev :=
  let d := d.when (t == .warmCheck) (fun d => (d.bump (R.DRC_TRACK n)).checkEnds n false)
  match t with
  | .saved | .warmCheck => d.trainStart n .full
  | _ => d.channelFail n 1

theorem Dev.trainingFailed_warmCheck :
    d.trainingFailed n .warmCheck = ((d.bump (R.DRC_TRACK n)).checkEnds n false).trainStart n .full := by
  rw [Dev.trainingFailed]
  rw [show (Training.warmCheck == Training.warmCheck) = true from rfl, Dev.when_true]

theorem Dev.checkEnds_eq : Dev.checked = Dev.checkEnds := rfl

section
variable (trains : d.channelState n = 1) (awake : (d.dramOf n).sleep = .none)
include trains awake

theorem Dev.trainingComplete_ready (h : (d.dramOf n).training ≠ .none) :
    d.trainingComplete n true = (d.when ((d.dramOf n).training == .warmCheck) (fun d =>
      (d.bump (R.DRC_TRACK n)).checkEnds n true)).trained n (d.dramOf n).training :=
  (if_neg (by simp [trains, awake, h])).trans (if_pos rfl)

theorem Dev.trainingComplete_failed (h : (d.dramOf n).training ≠ .none) :
    d.trainingComplete n false = d.trainingFailed n (d.dramOf n).training := by
  rw [Dev.trainingComplete]; dsimp only
  rw [if_neg (by simp [trains, awake, h]), if_neg Bool.false_ne_true, Dev.checkEnds_eq]
  cases (d.dramOf n).training <;> rfl
end

/-! ## Tracking -/

theorem Dev.trackingInterval_slot (h : d.trackedBySlot n = true) : d.trackingInterval n = d := if_pos h

theorem Dev.trackingInterval_pass (h : d.trackedBySlot n = false) : d.trackingInterval n = d.windowPass n :=
  if_neg (Bool.not_eq_true _ ▸ h)

section
variable {drift : Nat} {retrainOk calOk : Bool}

theorem Dev.passDone_ignored
    (h : d.flag (R.DRC_STAT n) R.DRC_STAT.PASS = false ∨ (d.dramOf n).issued ≠ [] ∨ (d.dramOf n).sleep ≠ .none) :
    d.passDone n drift retrainOk calOk = d := if_pos (by rcases h with h | h | h <;> simp [h])

/-- The drift beyond which a channel trains anew: the larger of its two limits. -/
def Dev.driftLimit (d : Dev) (n : Nat) : Nat :=
  max (d.was.fget (R.DRC_RT_CFG n) R.DRC_RT_CFG.TRACK_PS) (d.was.fget (R.DRC_RT_CFG n) R.DRC_RT_CFG.RETRAIN_PS)

section
variable (runs : d.flag (R.DRC_STAT n) R.DRC_STAT.PASS = true ∧ (d.dramOf n).issued = [] ∧ (d.dramOf n).sleep = .none)
include runs

theorem Dev.passDone_of : d.passDone n drift retrainOk calOk =
    if decide (d.driftLimit n < drift) && !retrainOk then (d.passEnds n drift calOk).channelFail n 4
    else if (d.dramOf n).training != .warmCheck then d.passEnds n drift calOk
    else if calOk then (d.passEnds n drift calOk).trained n .warmCheck
    else (d.passEnds n drift calOk).trainStart n .full := by
  obtain ⟨pass, none, awake⟩ := runs
  exact if_neg (by simp [pass, none, awake])

theorem Dev.passDone_fails (far : d.driftLimit n < drift) (h : retrainOk = false) :
    d.passDone n drift retrainOk calOk = (d.passEnds n drift calOk).channelFail n 4 :=
  (Dev.passDone_of runs).trans (if_pos (by simp [far, h]))

section
variable (kept : drift ≤ d.driftLimit n ∨ retrainOk = true)
include kept

theorem Dev.passDone_kept : d.passDone n drift retrainOk calOk =
    if (d.dramOf n).training != .warmCheck then d.passEnds n drift calOk
    else if calOk then (d.passEnds n drift calOk).trained n .warmCheck
    else (d.passEnds n drift calOk).trainStart n .full :=
  (Dev.passDone_of runs).trans (if_neg (by
    rcases kept with h | h
    · simp [Nat.not_lt.mpr h]
    · simp [h]))

theorem Dev.passDone_tracked (h : (d.dramOf n).training ≠ .warmCheck) : d.passDone n drift retrainOk calOk = d.passEnds n drift calOk :=
  (Dev.passDone_kept runs kept).trans (if_pos (by simp [h]))

theorem Dev.passDone_checked (h : (d.dramOf n).training = .warmCheck) : d.passDone n drift retrainOk calOk =
    if calOk then (d.passEnds n drift calOk).trained n .warmCheck else (d.passEnds n drift calOk).trainStart n .full :=
  (Dev.passDone_kept runs kept).trans (if_neg (by simp [h]))
end
end
end

/-! ## Requalification -/

/-- A queue of the channel holds frames in its bales. -/
def Dev.siloRuns (d : Dev) (n : Nat) : Bool := (d.queuesOf n).any (fun q => !(d.queue n q).run.isEmpty)

theorem Dev.requalify_trains (failed : d.channelState n = 3) (h : d.siloRuns n = false)
    (none : Map.get (fun _ => []) d.frame.mirrorList n = []) : d.requalify n = d.trainStart n .requalify :=
  if_pos (by rw [← Dev.siloRuns, h, failed, none]; rfl)

theorem Dev.requalify_refused
    (h : d.channelState n ≠ 3 ∨ d.siloRuns n = true ∨ Map.get (fun _ => []) d.frame.mirrorList n ≠ []) :
    d.requalify n = d.logEntry 0x0024 n 7 n :=
  if_neg (by rw [← Dev.siloRuns]; rcases h with h | h | h <;> simp [h])
end

/-- The data of a read come back, or do not. -/
theorem dramReads (n : Fin 4) (s : State) (on : s.dev.chip.state ≠ .off) :
    let x := s.dev.dramOf n
    (∀ e : Fin 4, x.issued = [] → exec (.dramReadComplete n e) s = .next (s.done id))
    ∧ (∀ (e : Fin 4) (r : DramRead) (rest : List DramRead), x.issued = r :: rest →
      (2 ≤ e.val → exec (.dramReadComplete n e) s = .next (s.done fun d => Dev.readBad (Dev.readReturned d n rest) n (e.val == 3) r))
      ∧ (e.val = 0 → r.data = none → exec (.dramReadComplete n e) s = .next (s.done fun d =>
          let v := (Dev.readReturned d n rest).fresh
          v.2.emit (.silo n r.burst (some v.1.toNat))))
      ∧ (e.val = 1 → r.data = none → exec (.dramReadComplete n e) s = .next (s.done fun d =>
          let v := (Dev.readReturned d n rest).fresh
          Dev.readCorrected v.2 n r v.1.toNat))
      ∧ (∀ v, e.val = 0 → r.data = some v →
        exec (.dramReadComplete n e) s = .next (s.done fun d => (Dev.readReturned d n rest).emit (.silo n r.burst (some v))))
      ∧ (∀ v, e.val = 1 → r.data = some v →
        exec (.dramReadComplete n e) s = .next (s.done fun d => Dev.readCorrected (Dev.readReturned d n rest) n r v)))
    ∧ (x.issued ≠ [] → exec (.dramReadTimeout n) s = .next (s.done fun d => d.channelFail n 3))
    ∧ (x.issued = [] → exec (.dramReadTimeout n) s = .next (s.done id)) := by
  refine ⟨fun e none => ?_, fun e r rest first => ⟨fun bad => ?_, fun e0 none => ?_, fun e1 none => ?_, fun v e0 v_eq => ?_,
    fun v e1 v_eq => ?_⟩, fun some => ?_, fun none => ?_⟩
  · exact State.runDev_done on (Dev.dramReadComplete_none none)
  · exact State.runDev_done on (Dev.dramReadComplete_bad first bad)
  · exact State.runDev_done on ((Dev.dramReadComplete_unwritten first (by omega) none).trans (Dev.readGood_clean e0))
  · exact State.runDev_done on ((Dev.dramReadComplete_unwritten first (by omega) none).trans (Dev.readGood_corrected e1))
  · exact State.runDev_done on ((Dev.dramReadComplete_written first (by omega) v_eq).trans (Dev.readGood_clean e0))
  · exact State.runDev_done on ((Dev.dramReadComplete_written first (by omega) v_eq).trans (Dev.readGood_corrected e1))
  · exact State.runDev_done on (Dev.dramReadTimeout_fails some)
  · exact State.runDev_done on (Dev.dramReadTimeout_none none)

/-- Settles O37: the answers of a read, and each branch of the commands of a channel's state. -/
theorem dramErrorsAndStates : Obligations.DramErrorsAndStates := by
  unfold Obligations.DramErrorsAndStates
  refine ⟨dramReads, fun n s on => ?_⟩
  refine ⟨fun serves => ?_, fun down => ⟨?_, ?_⟩, fun win => ?_, fun serves out => ?_,
    fun a b m hot => ⟨fun ready => ?_, fun not => ?_⟩, fun idle cfg => ?_, fun h => ?_, fun idle cfg => ?_, fun h => ?_,
    fun ok h => ?_, fun st some awake => ?_, fun st saved awake => ?_, fun st check awake => ?_, fun st full awake => ?_,
    fun not => ?_, fun slot => ?_,
    fun drift retrainOk calOk => ⟨fun h => ?_, fun runs far failed => ?_, fun runs kept => ⟨fun other => ?_, fun check ok => ?_,
      fun check failed => ?_⟩⟩,
    fun m acc => ⟨fun st runs mirrors => ?_, fun h => ?_⟩⟩
  · exact State.runDev_done on (Dev.dramRefreshDue_serves serves)
  · exact State.runDev_done on (Dev.dramRefreshDue_down down)
  · exact State.runDev_done on (Dev.zqLatch_down down)
  · exact State.runDev_done on (Dev.zqLatch_window win)
  · exact State.runDev_done on (Dev.zqLatch_takes serves out)
  · exact State.runDev_done on (Dev.dramTemp_ready ready)
  · exact State.runDev_done on (Dev.dramTemp_ignored not)
  · exact State.runDev_done on (Dev.dramPowerDown_enters idle cfg)
  · exact State.runDev_done on (Dev.dramPowerDown_stays h)
  · exact State.runDev_done on (Dev.dramSelfRefreshIdle_enters idle cfg)
  · exact State.runDev_done on (Dev.dramSelfRefreshIdle_stays h)
  · exact State.runDev_done on (Dev.trainingComplete_ignored h)
  · exact State.runDev_done on (Dev.trainingComplete_ready st awake some)
  · exact State.runDev_done on ((Dev.trainingComplete_failed st awake (by simp [saved])).trans (by rw [saved]; rfl))
  · exact State.runDev_done on ((Dev.trainingComplete_failed st awake (by simp [check])).trans (by rw [check]; exact Dev.trainingFailed_warmCheck))
  · rcases full with full | full <;> 
      exact State.runDev_done on ((Dev.trainingComplete_failed st awake (by simp [full])).trans (by rw [full]; rfl))
  · exact State.runDev_done on (Dev.trackingInterval_pass not)
  · exact State.runDev_done on (Dev.trackingInterval_slot slot)
  · exact State.runDev_done on (Dev.passDone_ignored h)
  · exact State.runDev_done on (Dev.passDone_fails runs far failed)
  · exact State.runDev_done on (Dev.passDone_tracked runs kept other)
  · subst ok; exact State.runDev_done on (Dev.passDone_checked runs kept check)
  · subst failed; exact State.runDev_done on (Dev.passDone_checked runs kept check)
  · exact State.runCommand_done on acc rfl (Dev.requalify_trains st runs mirrors)
  · exact State.runCommand_done on acc rfl (Dev.requalify_refused h)

end Sys2Proof.Machine
end

section
/-! The Loft, its mirror, and the directory of an engine block (R460 to R462, R466, R468, R470, R473, R478). -/

open Sys2Proof Sys2Proof.Machine

namespace Sys2Proof.Machine

/-! ## Turns at the Loft -/

section
variable {d : Dev} {e t : Nat}

theorem putTurn_eq : d.putTurn e t = putRuns e t d := by
  rw [Dev.putTurn, putRuns]; dsimp only
  split <;> rename_i h
  · exact (if_neg (by simpa using h)).symm
  · exact (if_pos (by simpa using h)).symm

/-- The turn of a thread that does not wait for it. -/
theorem LoftTurn.act_put (e t : Nat) (d : Dev) : (LoftTurn.put e t).act d =
    if (d.thread e t).waits != some .loft then d else if d.tablesUp (e / 16) then putRuns e t d else d.askLoft (.put e t) := by
  rw [← putTurn_eq]; rfl

theorem LoftTurn.act_get (e t : Nat) (d : Dev) : (LoftTurn.get e t).act d =
    if (d.thread e t).waits != some .loft then d else if d.tablesUp (e / 16) then getRuns e t d else d.askLoft (.get e t) := rfl

/-- A thread's turn at the Loft: it must still wait for it, and the tables must be up. -/
theorem loftTurn_act (k : LoftTurn × (Dev → Dev)) (mem : k ∈ [(LoftTurn.put e t, putRuns e t), (.get e t, getRuns e t)]) :
    k.1.act d =
      if (d.thread e t).waits != some .loft then d else if d.tablesUp (e / 16) then k.2 d else d.askLoft k.1 := by
  revert k
  simp only [List.forall_mem_cons]
  exact ⟨LoftTurn.act_put e t d, LoftTurn.act_get e t d, fun _ mem => absurd mem List.not_mem_nil⟩

end

/-! ## The mirror -/

section
variable {d : Dev} {n : Nat}

theorem Dev.loftMirrorSend_down (h : d.loftLink = false) : d.loftMirrorSend n = d := if_pos (by simp [h])

/-- The record at the head of the mirror queue goes out in a frame of its own. -/
def Dev.mirrorSends (d : Dev) (n : Nat) (r : LoftRec) (rest : List LoftRec) : Dev :=
  let words := (List.range ((r.data.length + 3) / 4)).map (fun i => leAt (r.data ++ [0, 0, 0]) (4 * i) 4)
  ((d.setMirrorQ n rest).bump (R.LOFT_MIRROR_TX n)).abdSend 0x10 n ([r.slot, r.seq, r.length] ++ words)

/-- A turn of the mirror, its queue being as given. -/
def Dev.mirrorTurn (d : Dev) (n : Nat) (queue : List LoftRec) : Dev :=
  match queue with
  | [] => d
  | r :: rest => d.mirrorSends n r rest

section
variable (link : d.loftLink = true)
include link

theorem Dev.loftMirrorSend_up : d.loftMirrorSend n = (resyncJoins n d).mirrorTurn n ((resyncJoins n d).mirrorQ n) :=
  if_neg (by simp [link])

theorem Dev.loftMirrorSend_none (h : (resyncJoins n d).mirrorQ n = []) : d.loftMirrorSend n = resyncJoins n d := by
  rw [Dev.loftMirrorSend_up link, h, Dev.mirrorTurn]

theorem Dev.loftMirrorSend_some {r : LoftRec} {rest : List LoftRec} (h : (resyncJoins n d).mirrorQ n = r :: rest) :
    d.loftMirrorSend n = (resyncJoins n d).mirrorSends n r rest := by
  rw [Dev.loftMirrorSend_up link, h, Dev.mirrorTurn]
end

/-! ## The directory -/

theorem Dev.dirServe_none {k l : Nat} {own : Bool} (h : d.nextReq k l = none) : d.dirServe k l own = d := by rw [Dev.dirServe, h]

section
variable {k l : Nat} {own : Bool} {r : DirReq} (next : d.nextReq k l = some r)
include next

theorem Dev.dirServe_waits (h : r.own ≠ own ∨ d.lineRoom (8 * k + r.eng) l = false) : d.dirServe k l own = d := by
  rw [Dev.dirServe, next]
  exact if_pos (h.imp id (by simp [·]))

/-- The words of a line, as the error map names them. -/
def lineKeys (k l : Nat) : List Nat := (List.range 16).map (fun w => dataKey k (64 * l + 4 * w))

/-- The words of a line with single-bit errors are corrected, and counted so. -/
def Dev.lineCorrected (d : Dev) (k l : Nat) : Dev :=
  d.each ((lineKeys k l).filter (fun a => d.fault a = 1)) (fun a d => (d.bump (R.ENG_CORR k)).corrected (k / 2) (4 + k % 2) (some a))

section
variable (own_eq : r.own = own) (room : d.lineRoom (8 * k + r.eng) l = true)
include own_eq room

theorem Dev.dirServe_contained {a : Nat} (h : (lineKeys k l).find? (fun a => d.fault a = 2) = some a) :
    d.dirServe k l own = (d.bump (R.ENG_UNCORR k)).contained (k / 2) (4 + k % 2) r.eng (a % 65536) := by
  rw [lineKeys] at h
  rw [Dev.dirServe, next]; dsimp only
  rw [if_neg (by simp [own_eq, room]), h]

theorem Dev.dirServe_grants (h : (lineKeys k l).find? (fun a => d.fault a = 2) = none) :
    d.dirServe k l own = ((d.lineCorrected k l).grantLine k r).serveWaiting (8 * k + r.eng) l := by
  rw [lineKeys] at h
  rw [Dev.dirServe, next]; dsimp only
  rw [if_neg (by simp [own_eq, room]), h, Dev.lineCorrected, lineKeys]
end
end

theorem Dev.dirPutx_owned {e l : Nat} (h : (d.dirLine (e / 8) l).owner = some (e % 8)) :
    d.dirPutx e l = ((d.writeBackLine (e / 8) (e % 8) l).dropLine e l).setDirLine (e / 8) l DirLine.home := if_pos h

theorem Dev.dirPutx_other {e l : Nat} (h : (d.dirLine (e / 8) l).owner ≠ some (e % 8)) : d.dirPutx e l = d := if_neg h
end

/-- LFPUT and LFGET of a thread, the turns of the Loft and its mirror. -/
theorem loftCommands (s : State) (on : s.dev.chip.state ≠ .off) :
    (∀ (c : Core) (t : Fin 8) (w : Word) (x : Thread),
      let e := coreNo c
      let a := (x.reg (fieldA w)).toNat
      let b := (x.reg (fieldB w)).toNat
      let len := bits a 16 9
      let free := fun (d : Dev) => d.fresh.2.result e t x (fieldD w) d.fresh.1
      let does := fun (f : Dev → Dev) => Host.Outcome.next (s.done fun d => f (d.startIssue e t))
      let waits := fun (o : LoftTurn) => does (fun d => (d.setThread e t { x with state := .wait, waits := some .loft }).askLoft o)
      (s.dev.Issues e t 0x38 w x →
        (e = supCore → exec (.lfput c t) s = does free)
        ∧ (e ≠ supCore → len ≤ 256 → 0x20000 < b + len → exec (.lfput c t) s = does (fun d => d.threadFault e t 3))
        ∧ (e ≠ supCore → (256 < len ∨ b + len ≤ 0x20000) → exec (.lfput c t) s = waits (.put e t)))
      ∧ (s.dev.Issues e t 0x39 w x →
        (e = supCore → exec (.lfget c t) s = does free)
        ∧ (e ≠ supCore → 0x20000 < b + 272 → exec (.lfget c t) s = does (fun d => d.threadFault e t 3))
        ∧ (e ≠ supCore → b + 272 ≤ 0x20000 → exec (.lfget c t) s = waits (.get e t))))
    ∧ (∀ d : Dev, d.loftEnd =
        ({ d with engine := { d.engine with loftTurns := [], loftBusy := [] } } : Dev).each
          (inLoftOrder d.engine.loftTurns) LoftTurn.act)
    ∧ (∀ (d : Dev) (e t : Nat) (k : LoftTurn × (Dev → Dev)), k ∈ [(LoftTurn.put e t, putRuns e t), (.get e t, getRuns e t)] →
        let waits := (d.thread e t).waits = some .loft
        (¬ waits → k.1.act d = d)
        ∧ (waits → d.tablesUp (e / 16) = false → k.1.act d = d.askLoft k.1)
        ∧ (waits → d.tablesUp (e / 16) = true → k.1.act d = k.2 d))
    ∧ (∀ n : Fin 4,
      (s.dev.loftLink = false → exec (.loftMirrorSend n) s = .next (s.done id))
      ∧ (s.dev.loftLink = true → (resyncJoins n s.dev).mirrorQ n = [] → exec (.loftMirrorSend n) s = .next (s.done (resyncJoins n)))
      ∧ (s.dev.loftLink = true → ∀ r rest, (resyncJoins n s.dev).mirrorQ n = r :: rest →
          exec (.loftMirrorSend n) s = .next (s.done fun d => (resyncJoins n d).mirrorSends n r rest))
      ∧ (∀ m : Master, s.dev.Accepts m (R.LOFT_CMD n) → exec (.loftResyncAll m n) s = .next (s.done fun d =>
          d.each (d.loftSlotsWith n (fun k => d.loftMirrored n k && d.loftFilled n k)) (fun k d => d.setLoftBit n k 18 true)))) := by
  refine ⟨fun c t w x => ⟨fun i => ⟨fun sup => ?_, fun eng len far => ?_, fun eng fits => ?_⟩,
      fun i => ⟨fun sup => ?_, fun eng far => ?_, fun eng fits => ?_⟩⟩, fun _ => rfl,
    fun d e t k mem => ⟨fun waits => ?_, fun waits down => ?_, fun waits up => ?_⟩,
    fun n => ⟨fun down => ?_, fun link none => ?_, fun link r rest head => ?_, fun m acc => ?_⟩⟩
  · exact State.runDev_issue on i (if_pos sup)
  · exact State.runDev_issue on i ((if_neg eng).trans (if_pos ⟨len, far⟩))
  · exact State.runDev_issue on i ((if_neg eng).trans (if_neg (fun h => by omega)))
  · exact State.runDev_issue on i (if_pos sup)
  · exact State.runDev_issue on i ((if_neg eng).trans (if_pos far))
  · exact State.runDev_issue on i ((if_neg eng).trans (if_neg (by omega)))
  · exact (loftTurn_act k mem).trans (if_pos (by simpa using waits))
  · exact (loftTurn_act k mem).trans ((if_neg (by simpa using waits)).trans (if_neg (Bool.not_eq_true _ ▸ down)))
  · exact (loftTurn_act k mem).trans ((if_neg (by simpa using waits)).trans (if_pos up))
  · exact State.runDev_done on (Dev.loftMirrorSend_down down)
  · exact State.runDev_done on (Dev.loftMirrorSend_none link none)
  · exact State.runDev_done on (Dev.loftMirrorSend_some link head)
  · exact State.runCommand_done on acc rfl rfl

/-- Settles O44: the Loft's commands and turns, and each answer of the directory. -/
theorem loftAndDirectory : Obligations.LoftAndDirectory := by
  unfold Obligations.LoftAndDirectory
  refine ⟨loftCommands, fun s on => ⟨fun k l c mem => ?_, fun e l => ⟨fun owned => ?_, fun other => ?_⟩⟩⟩
  · have serve : ∀ c ∈ [(false, Instr.dirGets k l), (true, .dirGetx k l)], exec c.2 s = s.runDev (fun d => d.dirServe k l c.1) := by
      simp only [List.forall_mem_cons]
      exact ⟨rfl, rfl, fun _ mem => absurd mem List.not_mem_nil⟩
    rw [serve c mem]
    refine ⟨fun none => ?_, fun r next waits => ?_, fun r next own room => ⟨fun a bad => ?_, fun readable => ?_⟩⟩
    · exact State.runDev_done on (Dev.dirServe_none none)
    · exact State.runDev_done on (Dev.dirServe_waits next waits)
    · exact State.runDev_done on (Dev.dirServe_contained next own room bad)
    · exact State.runDev_done on (Dev.dirServe_grants next own room readable)
  · exact State.runDev_done on (Dev.dirPutx_owned owned)
  · exact State.runDev_done on (Dev.dirPutx_other other)

end Sys2Proof.Machine
end

section
/-! The voter (R484, R487 to R492). -/

open Sys2Proof Sys2Proof.Machine

namespace Sys2Proof.Machine

/-! ## What the voter does with the records of a frame -/

section
variable {x y : Option Nat} {v : Nat}

theorem sameRecord_of (hx : x = some v) (hy : y = some v) : sameRecord x y = true := by simp [sameRecord, hx, hy]

theorem sameRecord_left (hx : x = some v) (hy : y ≠ some v) : sameRecord x y = false := by
  simp [sameRecord, hx, Ne.symm hy]

theorem sameRecord_right (hx : x ≠ some v) (hy : y = some v) : sameRecord x y = false := by
  simp [sameRecord, hy, hx]

end

section
variable {d : Dev} {l : Landing} {dec : Decision} {records : Nat → Option Nat} {v a b c : Nat}

theorem Dev.judge_three : d.judge l dec [a, b, c] records =
    if sameRecord (records a) (records b) && sameRecord (records b) (records c) then
      d.released l dec (VoteRecord.unpack ((records a).getD 0))
    else if sameRecord (records a) (records b) then d.majority l dec ((records a).getD 0) c (records c)
    else if sameRecord (records a) (records c) then d.majority l dec ((records a).getD 0) b (records b)
    else if sameRecord (records b) (records c) then d.majority l dec ((records b).getD 0) a (records a)
    else d.noMajority l ([a, b, c].filterMap records) := rfl

theorem Dev.judge_allSame (ha : records a = some v) (hb : records b = some v) (hc : records c = some v) :
    d.judge l dec [a, b, c] records = d.released l dec (VoteRecord.unpack v) := by
  rw [Dev.judge_three, if_pos (by simp [sameRecord_of ha hb, sameRecord_of hb hc]), ha, Option.getD_some]

theorem Dev.judge_oddThird (ha : records a = some v) (hb : records b = some v) (hc : records c ≠ some v) :
    d.judge l dec [a, b, c] records = d.majority l dec v c (records c) := by
  rw [Dev.judge_three, if_neg (by simp [sameRecord_left hb hc]), if_pos (sameRecord_of ha hb), ha, Option.getD_some]

theorem Dev.judge_oddSecond (ha : records a = some v) (hb : records b ≠ some v) (hc : records c = some v) :
    d.judge l dec [a, b, c] records = d.majority l dec v b (records b) := by
  rw [Dev.judge_three, if_neg (by simp [sameRecord_left ha hb]), if_neg (by simp [sameRecord_left ha hb]),
    if_pos (sameRecord_of ha hc), ha, Option.getD_some]

theorem Dev.judge_oddFirst (ha : records a ≠ some v) (hb : records b = some v) (hc : records c = some v) :
    d.judge l dec [a, b, c] records = d.majority l dec v a (records a) := by
  rw [Dev.judge_three, if_neg (by simp [sameRecord_right ha hb]), if_neg (by simp [sameRecord_right ha hb]),
    if_neg (by simp [sameRecord_right ha hc]), if_pos (sameRecord_of hb hc), hb, Option.getD_some]

theorem Dev.majority_eq {other : Option Nat} : d.majority l dec v c other =
    ((d.voteLast l.region (2 ^ c) 0 ((other.map (voteFields v)).getD 0)).strike l.region c).released l dec (VoteRecord.unpack v) := by
  cases other <;> rfl

theorem Dev.judge_noMajority (ab : sameRecord (records a) (records b) = false) (ac : sameRecord (records a) (records c) = false)
    (bc : sameRecord (records b) (records c) = false) :
    d.judge l dec [a, b, c] records = d.noMajority l ([a, b, c].filterMap records) := by
  rw [Dev.judge_three, if_neg (by simp [ab]), if_neg (by simp [ab]), if_neg (by simp [ac]), if_neg (by simp [bc])]

theorem Dev.judge_two : d.judge l dec [a, b] records =
    if sameRecord (records a) (records b) then d.released l dec (VoteRecord.unpack ((records a).getD 0))
    else ((d.voteLast l.region (2 ^ a + 2 ^ b) 2 (allFields ([a, b].filterMap records))).discardLanding l true).disagreement
      l.region := rfl

theorem Dev.judge_bothSame (ha : records a = some v) (hb : records b = some v) :
    d.judge l dec [a, b] records = d.released l dec (VoteRecord.unpack v) := by
  rw [Dev.judge_two, if_pos (sameRecord_of ha hb), ha, Option.getD_some]

theorem Dev.judge_disagree (ab : sameRecord (records a) (records b) = false) :
    d.judge l dec [a, b] records =
      ((d.voteLast l.region (2 ^ a + 2 ^ b) 2 (allFields ([a, b].filterMap records))).discardLanding l true).disagreement l.region := by
  rw [Dev.judge_two, if_neg (Bool.not_eq_true _ ▸ ab)]

theorem Dev.judge_few {serving : List Nat} (h : serving.length < 2) :
    d.judge l dec serving records = (d.bump (R.VOTE_DOWN_DROP l.region)).discardLanding l true := by
  match serving, h with
  | [], _ => rfl
  | [_], _ => rfl

end

section
variable {d : Dev} {n : Nat} {masks : Nat → Option Nat}

theorem Dev.vote_none (h : d.voteQueue n = []) : d.vote n masks = d := by rw [Dev.vote, h]

/-- The channels that were in service as the clock began. -/
def Dev.votersServing (d : Dev) (n : Nat) : List Nat :=
  [0, 1, 2].filter (fun c => (d.was.fget (R.VOTE_STAT n) R.VOTE_STAT.IN_SERVICE).testBit c)

/-- The frame at the head of the voter's queue has left it. -/
def Dev.votePopped (d : Dev) (n : Nat) (rest : List Nat) : Dev :=
  { d with frame := { d.frame with votes := Map.put (fun _ => []) d.frame.votes n rest } }

/-- The record of each channel: the single-path one changed by its mask, or missing. -/
def channelRecord (r : VoteRecord) (masks : Nat → Option Nat) (c : Nat) : Option Nat := (masks c).map (fun m => r.pack ^^^ m)

theorem Dev.vote_judges {id : Nat} {rest : List Nat} {l : Landing} {dec : Decision} {r : VoteRecord}
    (queue : d.voteQueue n = id :: rest) (found : d.frame.landing.find? (fun l => l.id == id) = some l) (pre : l.pre = some dec)
    (record : l.vote = some r) :
    d.vote n masks = (d.votePopped n rest).judge l dec (d.votersServing n) (channelRecord r masks) := by
  rw [Dev.vote, queue]; dsimp only; rw [found]; dsimp only; rw [pre, record]; rfl

/-! ## Counts and self-test -/

theorem Dev.strikeClear_due {c : Nat} (h : d.due ⟨.strikeClear, n, c⟩ = true) :
    d.strikeClear n c = (d.disarm ⟨.strikeClear, n, c⟩).fset (R.VOTE_STAT n) (strikeField c) 0 := if_pos h

theorem Dev.strikeClear_early {c : Nat} (h : d.due ⟨.strikeClear, n, c⟩ = false) : d.strikeClear n c = d :=
  if_neg (Bool.not_eq_true _ ▸ h)

theorem Dev.disagreeClear_due (h : d.due ⟨.disagreeClear, n, 0⟩ = true) :
    d.disagreeClear n = (d.disarm ⟨.disagreeClear, n, 0⟩).setVoter n { d.voter n with disagree := 0 } := if_pos h

theorem Dev.disagreeClear_early (h : d.due ⟨.disagreeClear, n, 0⟩ = false) : d.disagreeClear n = d := if_neg (Bool.not_eq_true _ ▸ h)

section
variable {pass : Nat}

/-- The channels that a self-test passed. -/
def passedChannels (pass : Nat) : List Nat := [0, 1, 2].filter (fun c => pass.testBit c)

/-- The self-test ends: those channels are in service with no strikes, the others have failed. -/
def Dev.selfTested (d : Dev) (n pass : Nat) : Dev :=
  let d := d.each (passedChannels pass) (fun c d => (d.fset (R.VOTE_STAT n) (strikeField c) 0).disarm ⟨.strikeClear, n, c⟩)
  let d := (d.fset (R.VOTE_STAT n) R.VOTE_STAT.IN_SERVICE pass).fset (R.VOTE_STAT n) R.VOTE_STAT.TEST_FAIL (7 - pass % 8)
  (d.setFlag (R.VOTE_STAT n) R.VOTE_STAT.TESTING false).when (decide ((passedChannels pass).length < 3))
    (fun d => d.voteEvt n R.VOTE_EVT.TEST_FAIL)

theorem Dev.selfTestDone_idle (h : d.flag (R.VOTE_STAT n) R.VOTE_STAT.TESTING = false) : d.selfTestDone n pass = d :=
  if_pos (by simp [h])

theorem Dev.selfTestDone_down (h : d.flag (R.VOTE_STAT n) R.VOTE_STAT.TESTING = true) (few : (passedChannels pass).length < 2) :
    d.selfTestDone n pass = (d.selfTested n pass).enterVitalDown n := (if_neg (by simp [h])).trans (if_pos few)

theorem Dev.selfTestDone_serves (h : d.flag (R.VOTE_STAT n) R.VOTE_STAT.TESTING = true) (enough : 2 ≤ (passedChannels pass).length) :
    d.selfTestDone n pass = ((d.selfTested n pass).setFlag (R.VOTE_STAT n) R.VOTE_STAT.VITAL_DOWN false).tryClaim :=
  (if_neg (by simp [h])).trans (if_neg (Nat.not_lt.mpr enough))
end
end

/-- Settles O45: the vote as the cases of how many channels serve and which records are equal, then the counts. -/
theorem voterJudgesAndCounts : Obligations.VoterJudgesAndCounts := by
  unfold Obligations.VoterJudgesAndCounts
  refine ⟨⟨fun n a b c s on => State.runDev_done on rfl, fun _ => rfl, fun d n masks => ⟨Dev.vote_none, ?_⟩⟩, fun n s on =>
    ⟨fun c => ⟨fun due => ?_, fun early => ?_⟩, fun due => ?_, fun early => ?_,
      fun pass => ⟨fun idle => ?_, fun testing few => ?_, fun testing enough => ?_⟩⟩⟩
  · intro id rest l dec r queue found pre record region
    have judged := Dev.vote_judges (masks := masks) queue found pre record
    subst region
    refine ⟨fun serving => ⟨fun v ha hb hc => ?_, fun v ha hb hc => ?_, fun v ha hb hc => ?_, fun v ha hb hc => ?_,
      fun ab ac bc => ?_⟩, fun i j serving => ⟨fun v ha hb => ?_, fun ab => ?_⟩, fun few => ?_⟩
    · rw [Dev.votersServing, serving] at judged
      exact judged.trans (Dev.judge_allSame ha hb hc)
    · rw [Dev.votersServing, serving] at judged
      exact judged.trans ((Dev.judge_oddThird ha hb hc).trans Dev.majority_eq)
    · rw [Dev.votersServing, serving] at judged
      exact judged.trans ((Dev.judge_oddSecond ha hb hc).trans Dev.majority_eq)
    · rw [Dev.votersServing, serving] at judged
      exact judged.trans ((Dev.judge_oddFirst ha hb hc).trans Dev.majority_eq)
    · rw [serving]
      rw [Dev.votersServing, serving] at judged
      exact judged.trans (Dev.judge_noMajority ab ac bc)
    · rw [Dev.votersServing, serving] at judged
      exact judged.trans (Dev.judge_bothSame ha hb)
    · rw [serving]
      rw [Dev.votersServing, serving] at judged
      exact judged.trans (Dev.judge_disagree ab)
    · exact judged.trans (Dev.judge_few few)
  · exact State.runDev_done on (Dev.strikeClear_due due)
  · exact State.runDev_done on (Dev.strikeClear_early early)
  · exact State.runDev_done on (Dev.disagreeClear_due due)
  · exact State.runDev_done on (Dev.disagreeClear_early early)
  · exact State.runDev_done on (Dev.selfTestDone_idle idle)
  · exact State.runDev_done on (Dev.selfTestDone_down testing few)
  · exact State.runDev_done on (Dev.selfTestDone_serves testing enough)

end Sys2Proof.Machine
end

section
/-! Lanes and timers of the Abaide link (R493 to R500). -/

open Sys2Proof Sys2Proof.Machine

namespace Sys2Proof.Machine

section
variable {d : Dev} {lane : Nat}

/-! ## Lanes -/

/-- The lane is shown up, or down. -/
def Dev.laneShown (d : Dev) (lane : Nat) (up : Bool) : Dev := d.setFieldBit R.ABD_STAT R.ABD_STAT.LANE_UP lane up

theorem Dev.abdLaneUp_ignored (h : d.laneEnabled lane = false ∨ d.chip.state = .held) : d.abdLaneUp lane = d :=
  if_pos (by rcases h with h | h <;> simp [h])

section
variable (on : d.chip.state ≠ .off) (up : d.laneEnabled lane = true ∧ d.chip.state ≠ .held)
include on up

theorem Dev.abdLaneUp_of : d.abdLaneUp lane = if (d.laneShown lane true).twinMode = 0 then d.laneShown lane true
    else
      let d := d.laneShown lane true
      let d := d.when (!d.armed ⟨.keepalive, 0, 0⟩) (fun d => d.arm ⟨.keepalive, 0, 0⟩ (100 * us))
      (d.when (!d.twin.link.hello) (fun d => d.arm ⟨.helloResend, 0, 0⟩ (10 * ms))).sendHello :=
  if_neg (by simp [on, up])

theorem Dev.abdLaneUp_alone (h : (d.laneShown lane true).twinMode = 0) : d.abdLaneUp lane = d.laneShown lane true :=
  (Dev.abdLaneUp_of on up).trans (if_pos h)

theorem Dev.abdLaneUp_greets (h : (d.laneShown lane true).twinMode ≠ 0) : d.abdLaneUp lane =
    let d := d.laneShown lane true
    let d := d.when (!d.armed ⟨.keepalive, 0, 0⟩) (fun d => d.arm ⟨.keepalive, 0, 0⟩ (100 * us))
    (d.when (!d.twin.link.hello) (fun d => d.arm ⟨.helloResend, 0, 0⟩ (10 * ms))).sendHello :=
  (Dev.abdLaneUp_of on up).trans (if_neg h)
end

theorem Dev.abdLaneDown_other (h : (d.laneShown lane false).abdLanes ≠ 0) : d.abdLaneDown lane = d.laneShown lane false :=
  if_pos (bne_iff_ne.mpr h)

theorem Dev.abdLaneDown_last (h : (d.laneShown lane false).abdLanes = 0) : d.abdLaneDown lane =
    let d := d.laneShown lane false
    let d := d.setLink { d.twin.link with queue := [], sending := none }
    let d := (d.setFlag R.ABD_STAT R.ABD_STAT.TX_BUSY false).disarm ⟨.keepalive, 0, 0⟩
    (d.disarm ⟨.helloResend, 0, 0⟩).askTwin .lost := if_neg (mt bne_iff_ne.mp (not_not_intro h))

section
variable {good : Bool} {type : Nat}

theorem Dev.abdBadFrame_counts (up : d.abdLanes.testBit lane = true) (h : good = false ∨ abdTypeUsed d.twinMode type = false) :
    d.abdBadFrame lane good type = d.bump R.ABD_CRC_ERR := if_pos (by rcases h with h | h <;> simp [up, h])

theorem Dev.abdBadFrame_ignored (h : d.abdLanes.testBit lane = false ∨ (good = true ∧ abdTypeUsed d.twinMode type = true)) :
    d.abdBadFrame lane good type = d := if_neg (by rcases h with h | h <;> simp [h])
end

/-! ## Timers -/

theorem Dev.abdGap_early {seq : Nat} (h : d.due ⟨.abdGap, seq, 0⟩ = false) : d.abdGap seq = d := if_neg (Bool.not_eq_true _ ▸ h)

theorem Dev.abdGap_due {seq : Nat} (h : d.due ⟨.abdGap, seq, 0⟩ = true) : d.abdGap seq =
    let l := d.twin.link
    let d := (d.disarm ⟨.abdGap, seq, 0⟩).setLink { l with missing := l.missing.erase seq, lost := (seq :: l.lost).take 4096 }
    (d.bump R.ABD_GAP).when (d.twinMode == 1) (fun d => d.abdSend 0x11 0 []) := if_pos h

theorem TwinTurn.silence_due (h : d.stillDue ⟨.abdSilence, 0, 0⟩ = true) :
    TwinTurn.silence.act d = (d.disarm ⟨.abdSilence, 0, 0⟩).linkLost := if_pos h

theorem TwinTurn.silence_early (h : d.stillDue ⟨.abdSilence, 0, 0⟩ = false) : TwinTurn.silence.act d = d :=
  if_neg (Bool.not_eq_true _ ▸ h)

theorem Dev.keepaliveTimer_due (h : d.due ⟨.keepalive, 0, 0⟩ = true) : d.keepaliveTimer =
    (d.arm ⟨.keepalive, 0, 0⟩ (100 * us)).when (d.twin.link.queue.isEmpty && d.twin.link.sending.isNone)
      (fun d => d.abdSend 0x08 0 []) := if_pos h

theorem Dev.keepaliveTimer_early (h : d.due ⟨.keepalive, 0, 0⟩ = false) : d.keepaliveTimer = d := if_neg (Bool.not_eq_true _ ▸ h)

theorem Dev.helloTimer_early (h : d.due ⟨.helloResend, 0, 0⟩ = false) : d.helloTimer = d := if_neg (Bool.not_eq_true _ ▸ h)

section
variable (due : d.due ⟨.helloResend, 0, 0⟩ = true)
include due

theorem Dev.helloTimer_stops (h : d.twin.link.hello = true) : d.helloTimer = d.disarm ⟨.helloResend, 0, 0⟩ :=
  (if_pos due).trans (if_pos h)

theorem Dev.helloTimer_resends (h : d.twin.link.hello = false) : d.helloTimer =
    let d := d.when (d.fget R.ABD_STAT R.ABD_STAT.PEER_CAUSE == 0) (fun d => d.fset R.ABD_STAT R.ABD_STAT.PEER_CAUSE 1)
    d.sendHello.arm ⟨.helloResend, 0, 0⟩ (10 * ms) := (if_pos due).trans (if_neg (Bool.not_eq_true _ ▸ h))
end

theorem Dev.abdFrameTx_next (h : d.twin.link.sending ≠ none) : d.abdFrameTx = d.abdStart :=
  if_pos (Option.isSome_iff_ne_none.mpr h)

theorem Dev.abdFrameTx_idle (h : d.twin.link.sending = none) : d.abdFrameTx = d := if_neg (by simp [h])
end

/-- Settles O46: each branch of the events of a lane and of the timers of the link. -/
theorem abaideLink : Obligations.AbaideLink := by
  unfold Obligations.AbaideLink
  intro s on
  refine ⟨fun lane => ⟨fun h => ?_, fun up alone => ?_, fun up twin => ?_, fun other => ?_, fun last => ?_,
      fun good type => ⟨fun up bad => ?_, fun h => ?_⟩⟩,
    fun seq => ⟨fun early => ?_, fun due => ?_⟩, State.runDev_done on rfl,
    fun d => ⟨rfl, TwinTurn.silence_due, TwinTurn.silence_early⟩, fun due => ?_, fun early => ?_, fun due heard => ?_,
    fun due unheard => ?_, fun early => ?_, fun sending => ?_, fun idle => ?_⟩
  · exact State.runDev_done on (Dev.abdLaneUp_ignored h)
  · exact State.runDev_done on (Dev.abdLaneUp_alone on up alone)
  · exact State.runDev_done on (Dev.abdLaneUp_greets on up twin)
  · exact State.runDev_done on (Dev.abdLaneDown_other other)
  · exact State.runDev_done on (Dev.abdLaneDown_last last)
  · exact State.runDev_done on (Dev.abdBadFrame_counts up bad)
  · exact State.runDev_done on (Dev.abdBadFrame_ignored h)
  · exact State.runDev_done on (Dev.abdGap_early early)
  · exact State.runDev_done on (Dev.abdGap_due due)
  · exact State.runDev_done on (Dev.keepaliveTimer_due due)
  · exact State.runDev_done on (Dev.keepaliveTimer_early early)
  · exact State.runDev_done on (Dev.helloTimer_stops due heard)
  · exact State.runDev_done on (Dev.helloTimer_resends due unheard)
  · exact State.runDev_done on (Dev.helloTimer_early early)
  · exact State.runDev_done on (Dev.abdFrameTx_next sending)
  · exact State.runDev_done on (Dev.abdFrameTx_idle idle)

end Sys2Proof.Machine
end

section
/-! Messages of the lease and of the Abaide link (R474, R494 to R499, R505, R507 to R512, R514). -/

open Sys2Proof Sys2Proof.Machine

namespace Sys2Proof.Machine

/-! ## The delivery of a message -/

section
variable {d e : Dev} {lane type seq epoch : Nat} {act : Dev → Dev}

theorem Dev.abdReceive_unheard (h : (d.abdLanes.testBit lane || d.was.abdLanes.testBit lane) = false) :
    d.abdReceive lane type seq epoch act = d := if_pos (by simp only [h, Bool.not_false])

section
variable (heard : (d.abdLanes.testBit lane || d.was.abdLanes.testBit lane) = true)
include heard

theorem Dev.abdReceive_unused (h : abdTypeUsed d.twinMode type = false) :
    d.abdReceive lane type seq epoch act = d.bump R.ABD_CRC_ERR :=
  (if_neg (by simp only [heard, Bool.not_true, Bool.false_eq_true, not_false_eq_true])).trans (if_pos (by simp [h]))

section
variable (used : abdTypeUsed d.twinMode type = true)
include used

theorem Dev.abdReceive_used : d.abdReceive lane type seq epoch act =
    if !(d.abdAccept seq).1 then (d.abdAccept seq).2
    else if d.twinMode = 2 ∨ epoch = d.epoch then act (d.abdAccept seq).2
    else if seqAfter 16 epoch d.epoch then act ((d.abdAccept seq).2.fset R.TWN_STAT R.TWN_STAT.EPOCH epoch)
    else if type = 1 then act (d.abdAccept seq).2
    else (d.abdAccept seq).2.bump R.TWN_STALE :=
  (if_neg (by simp only [heard, Bool.not_true, Bool.false_eq_true, not_false_eq_true])).trans (if_neg (by simp [used]))

theorem Dev.abdReceive_refused (h : (d.abdAccept seq).1 = false) : d.abdReceive lane type seq epoch act = (d.abdAccept seq).2 :=
  (Dev.abdReceive_used heard used).trans (if_pos (by simp [h]))

theorem Dev.abdReceive_accepted (h : (d.abdAccept seq).1 = true) : d.abdReceive lane type seq epoch act =
    if d.twinMode = 2 ∨ epoch = d.epoch then act (d.abdAccept seq).2
    else if seqAfter 16 epoch d.epoch then act ((d.abdAccept seq).2.fset R.TWN_STAT R.TWN_STAT.EPOCH epoch)
    else if type = 1 then act (d.abdAccept seq).2
    else (d.abdAccept seq).2.bump R.TWN_STALE :=
  (Dev.abdReceive_used heard used).trans (if_neg (by simp [h]))

theorem Dev.abdReceive_stale (h : (d.abdAccept seq).1 = true) (other : type ≠ 1) (native : d.twinMode ≠ 2) (differs : epoch ≠ d.epoch)
    (older : seqAfter 16 epoch d.epoch = false) :
    d.abdReceive lane type seq epoch act = (d.abdAccept seq).2.bump R.TWN_STALE :=
  (Dev.abdReceive_accepted heard used h).trans
    ((if_neg (not_or.mpr ⟨native, differs⟩)).trans ((if_neg (Bool.not_eq_true _ ▸ older)).trans (if_neg other)))
end
end

/-- A message that is delivered acts on the state its delivery leaves. -/
theorem Dev.abdReceive_delivers (h : d.Delivers lane type seq epoch e) : d.abdReceive lane type seq epoch act = act e := by
  obtain ⟨heard, used, accepted, ⟨same, rfl⟩ | ⟨other, newer, rfl⟩ | ⟨other, older, hello, rfl⟩⟩ := h <;>
    rw [Dev.abdReceive_accepted heard used accepted]
  · exact if_pos same
  · exact (if_neg other).trans (if_pos newer)
  · exact (if_neg other).trans ((if_neg (Bool.not_eq_true _ ▸ older)).trans (if_pos hello))

theorem State.runDev_delivers {s : State} (on : s.dev.chip.state ≠ .off) (h : s.dev.Delivers lane type seq epoch e) {f : Dev}
    (k : act e = f) : s.runDev (fun d => d.abdReceive lane type seq epoch act) = .next (s.done fun _ => f) :=
  State.runDev_done on ((Dev.abdReceive_delivers h).trans k)
end

/-! ## Native messages of the lease -/

section
variable {d : Dev} {serial lseq : Nat}

theorem Dev.claim_standby (h : d.leaseState = 1) : d.claim serial = (d.abdSend 0x03 0 (serialWords serial)).setView := by
  simp only [Dev.claim, h]

theorem Dev.claim_active (h : d.leaseState = 3) :
    d.claim serial = ((d.standBy.abdSend 0x03 0 (serialWords serial)).setView).twnEvt R.TWN_EVT.YIELDED := by simp only [Dev.claim, h]

section
variable (claiming : d.leaseState = 2)
include claiming

theorem Dev.claim_lower (h : d.ownSerial < serial) : d.claim serial = d := by rw [Dev.claim, claiming]; exact if_pos h

theorem Dev.claim_yields (h : serial ≤ d.ownSerial) : d.claim serial =
    ((((d.standBy.abdSend 0x03 0 (serialWords serial)).setView).bump R.TWN_SIMUL).twnEvt R.TWN_EVT.SIMUL).twnEvt
      R.TWN_EVT.YIELDED := by rw [Dev.claim, claiming]; exact if_neg (Nat.not_lt.mpr h)
end

theorem Dev.claim_solo (h : d.leaseState = 0) : d.claim serial = d := by simp only [Dev.claim, h]

theorem Dev.claimAck_own (h : d.leaseState = 2) (own : serial = d.ownSerial) : d.claimAck serial = d.enterActive := if_pos ⟨h, own⟩

theorem Dev.claimAck_ignored (h : d.leaseState ≠ 2 ∨ serial ≠ d.ownSerial) : d.claimAck serial = d :=
  if_neg (fun ⟨a, b⟩ => h.elim (· a) (· b))

theorem Dev.renew_standby (h : d.leaseState = 1) :
    d.renew lseq = ((d.wr R.TWN_LEASE (BitVec.ofNat 32 lseq)).abdSend 0x05 0 [lseq]).setView := by simp only [Dev.renew, h]

theorem Dev.renew_claiming (h : d.leaseState = 2) : d.renew lseq =
    (((d.standBy.wr R.TWN_LEASE (BitVec.ofNat 32 lseq)).abdSend 0x05 0 [lseq]).setView).twnEvt R.TWN_EVT.YIELDED := by
  simp only [Dev.renew, h]

section
variable (active : d.leaseState = 3)
include active

theorem Dev.renew_higher (h : (d.twnEvt R.TWN_EVT.DUAL).peerSerial < (d.twnEvt R.TWN_EVT.DUAL).ownSerial) : d.renew lseq =
    ((((d.twnEvt R.TWN_EVT.DUAL).standBy).wr R.TWN_LEASE (BitVec.ofNat 32 lseq)).setView).twnEvt R.TWN_EVT.YIELDED := by
  rw [Dev.renew, active]; exact if_pos h

theorem Dev.renew_lower (h : (d.twnEvt R.TWN_EVT.DUAL).ownSerial ≤ (d.twnEvt R.TWN_EVT.DUAL).peerSerial) :
    d.renew lseq = (d.twnEvt R.TWN_EVT.DUAL).setFlag R.TWN_STAT R.TWN_STAT.DUAL true := by
  rw [Dev.renew, active]; exact if_neg (Nat.not_lt.mpr h)

theorem Dev.renewAck_known {x : Nat × Nat} (h : d.twin.lease.renews.find? (fun x => x.1 == lseq) = some x) :
    d.renewAck lseq = (((d.setLease { d.twin.lease with lastAcked := max d.twin.lease.lastAcked x.2 }).bump
      R.TWN_RENEW_ACK_RX).setFlag R.TWN_STAT R.TWN_STAT.DUAL false).armOwnLease := by
  rw [Dev.renewAck]; dsimp only; rw [if_pos active, h]
end

theorem Dev.renew_solo (h : d.leaseState = 0) : d.renew lseq = d := by simp only [Dev.renew, h]

theorem Dev.renewAck_ignored (h : d.leaseState ≠ 3 ∨ d.twin.lease.renews.find? (fun x => x.1 == lseq) = none) :
    d.renewAck lseq = d := by
  have none : (if d.leaseState = 3 then d.twin.lease.renews.find? (fun x => x.1 == lseq) else none) = none :=
    h.elim (fun h => if_neg h) (fun h => by rw [h, ite_self])
  rw [Dev.renewAck]; dsimp only; rw [none]

theorem Dev.peerYield_claims (h : d.leaseState = 1 ∨ d.leaseState = 2) : d.peerYield = d.arm ⟨.view, 0, 0⟩ 0 := if_pos h

theorem Dev.peerYield_clears (standby : d.leaseState ≠ 1) (claiming : d.leaseState ≠ 2) :
    d.peerYield = d.setFlag R.TWN_STAT R.TWN_STAT.DUAL false := if_neg (not_or.mpr ⟨standby, claiming⟩)
end

/-! ## HELLO and STATUS -/

section
variable {d : Dev} {serial device version : Nat}

/-- What a HELLO is refused for: its device, its serial number or its version; 0 where it is accepted. -/
def Dev.helloCause (d : Dev) (serial device version : Nat) : Nat :=
  let dev := if d.twinMode = 2 then 0x8420 else 0x9664
  if device ≠ dev then 2 else if serial = d.ownSerial then 3
    else if version ≠ (if d.twinMode = 2 then 1 else 2) then 4 else 0

/-- The peer of an accepted HELLO is known. -/
def Dev.helloHeard (d : Dev) (serial : Nat) : Dev :=
  let d := ((d.fset R.ABD_STAT R.ABD_STAT.PEER_CAUSE 0).wr R.TWN_PEER_LO (BitVec.ofNat 32 serial)).wr R.TWN_PEER_HI
    (BitVec.ofNat 32 (serial / 2 ^ 32))
  (d.setLink { d.twin.link with hello := true }).disarm ⟨.helloResend, 0, 0⟩

/-- The link enters service. -/
def Dev.linkServes (d : Dev) : Dev :=
  let d := d.setFlag R.ABD_STAT R.ABD_STAT.IN_SERVICE true
  let d := d.setLease { d.twin.lease with barred := false }
  let d := d.when d.loftLink (fun d => d.each ([0, 1, 2, 3].filter d.regionEnabled) (fun n d => d.loftResyncAll n))
  d.armOwnLease.tryClaim

theorem Dev.hello_refused (h : d.helloCause serial device version ≠ 0) : d.hello serial device version =
    (d.fset R.ABD_STAT R.ABD_STAT.PEER_CAUSE (d.helloCause serial device version)).twnEvt R.TWN_EVT.PEER_BAD := if_pos h

section
variable (accepted : d.helloCause serial device version = 0)
include accepted

theorem Dev.hello_accepted : d.hello serial device version =
    if (d.helloHeard serial).linkUp then d.helloHeard serial else (d.helloHeard serial).linkServes := by
  rw [Dev.helloCause] at accepted
  rw [Dev.hello]
  dsimp only at accepted ⊢
  rw [accepted]
  exact if_neg (not_not_intro rfl)

theorem Dev.hello_again (h : (d.helloHeard serial).linkUp = true) : d.hello serial device version = d.helloHeard serial :=
  (Dev.hello_accepted accepted).trans (if_pos h)

theorem Dev.hello_first (h : (d.helloHeard serial).linkUp = false) :
    d.hello serial device version = (d.helloHeard serial).linkServes :=
  (Dev.hello_accepted accepted).trans (if_neg (Bool.not_eq_true _ ▸ h))
end

theorem Dev.status_standby {role : Nat} (h : role ≠ 1) :
    d.status serial role = (d.setFlag R.TWN_STAT R.TWN_STAT.DUAL false).disarm ⟨.compatDual, 0, 0⟩ := if_pos h

/-- The peer was seen to be active, in compatibility mode. -/
def Dev.peerActive (d : Dev) : Dev := d.arm ⟨.compatActive, 0, 0⟩ (150 * ms)

/-- Both are active. -/
def Dev.dualActive (d : Dev) : Dev := (d.peerActive.twnEvt R.TWN_EVT.DUAL).setFlag R.TWN_STAT R.TWN_STAT.DUAL true

theorem Dev.status_passive (h : d.peerActive.leaseState ≠ 3) : d.status serial 1 = d.peerActive :=
  (if_neg (not_not_intro rfl)).trans (if_pos h)

section
variable (active : d.peerActive.leaseState = 3)
include active

theorem Dev.status_yielding (h : d.peerActive.twin.lease.yielding = true) : d.status serial 1 = d.peerActive.standBy :=
  (if_neg (not_not_intro rfl)).trans ((if_neg (not_not_intro active)).trans (if_pos h))

section
variable (stays : d.peerActive.twin.lease.yielding = false)
include stays

theorem Dev.status_dual : d.status serial 1 =
    if serial < d.dualActive.ownSerial then d.dualActive.standBy
    else d.dualActive.when (!d.dualActive.armed ⟨.compatDual, 0, 0⟩) (fun d => d.arm ⟨.compatDual, 0, 0⟩ (150 * ms)) :=
  (if_neg (not_not_intro rfl)).trans ((if_neg (not_not_intro active)).trans (if_neg (Bool.not_eq_true _ ▸ stays)))
end
end

/-! ## LOFT and TWINMSG -/

section
variable {n : Nat}

/-- A region applies the records of its mirror. -/
def Dev.appliesMirror (d : Dev) (n : Nat) : Bool :=
  d.regionEnabled n && d.regionRuns n && d.flag (R.LOFT_CFG n) R.LOFT_CFG.TWIN_APPLY

theorem Dev.loftMsg_applies {l : List LoftRec} (h : d.appliesMirror n = true) :
    d.loftMsg n l = d.each l (fun r d => d.askLoft (.twin n r)) := if_pos h

theorem Dev.loftMsg_ignored {l : List LoftRec} (h : d.appliesMirror n = false) : d.loftMsg n l = d :=
  if_neg (Bool.not_eq_true _ ▸ h)

theorem Dev.twinMsg_task {queue : Nat} {body : List Nat} (enabled : d.regionEnabled n = true) (runs : (d.rl n).engFw = true) :
    d.twinMsg n queue body = d.enterTask n queue (Task.make 5 (bodyWords 0 0 body) none none) := if_pos (by simp [enabled, runs])

theorem Dev.twinMsg_dropped {queue : Nat} {body : List Nat} (h : d.regionEnabled n = false ∨ (d.rl n).engFw = false) :
    d.twinMsg n queue body = d.bump R.ABD_TX_DROP := if_neg (by rcases h with h | h <;> simp [h])
end
end

/-- The native messages of the lease. -/
theorem leaseMessages (lane : Fin 2) (seq : Word) (epoch : BitVec 16) (serial : BitVec 64) (lseq : Word) (s : State)
    (on : s.dev.chip.state ≠ .off) :
    let q := lseq.toNat
    let ack := fun (d : Dev) => d.abdSend 0x03 0 (serialWords serial.toNat)
    let note := fun (d : Dev) => d.wr R.TWN_LEASE (BitVec.ofNat 32 q)
    let ends := fun (f : Dev) => Host.Outcome.next (s.done fun _ => f)
    (∀ e, s.dev.Delivers lane 0x02 seq.toNat epoch.toNat e →
        exec (.claim lane seq epoch serial) s = ends (e.askTwin (.claim serial.toNat)))
    ∧ (∀ d : Dev,
      let judged := fun (f : Dev) => (TwinTurn.claim serial.toNat).act d = f
      (d.leaseState = 1 → judged ((ack d).setView))
      ∧ (d.leaseState = 3 → judged (((ack d.standBy).setView).twnEvt R.TWN_EVT.YIELDED))
      ∧ (d.leaseState = 2 → d.ownSerial < serial.toNat → judged d)
      ∧ (d.leaseState = 2 → serial.toNat ≤ d.ownSerial →
          judged (((((ack d.standBy).setView).bump R.TWN_SIMUL).twnEvt R.TWN_EVT.SIMUL).twnEvt R.TWN_EVT.YIELDED))
      ∧ (d.leaseState = 0 → judged d))
    ∧ (∀ e, s.dev.Delivers lane 0x03 seq.toNat epoch.toNat e →
      (e.leaseState = 2 → serial.toNat = e.ownSerial → exec (.claimAck lane seq epoch serial) s = ends e.enterActive)
      ∧ (e.leaseState ≠ 2 ∨ serial.toNat ≠ e.ownSerial → exec (.claimAck lane seq epoch serial) s = ends e))
    ∧ (∀ e, s.dev.Delivers lane 0x04 seq.toNat epoch.toNat e →
      (e.leaseState = 1 → exec (.renew lane seq epoch lseq) s = ends (((note e).abdSend 0x05 0 [q]).setView))
      ∧ (e.leaseState = 2 → exec (.renew lane seq epoch lseq) s =
          ends ((((note e.standBy).abdSend 0x05 0 [q]).setView).twnEvt R.TWN_EVT.YIELDED))
      ∧ (e.leaseState = 3 → (e.twnEvt R.TWN_EVT.DUAL).peerSerial < (e.twnEvt R.TWN_EVT.DUAL).ownSerial → exec (.renew lane seq epoch lseq) s =
          ends (((note (e.twnEvt R.TWN_EVT.DUAL).standBy).setView).twnEvt R.TWN_EVT.YIELDED))
      ∧ (e.leaseState = 3 → (e.twnEvt R.TWN_EVT.DUAL).ownSerial ≤ (e.twnEvt R.TWN_EVT.DUAL).peerSerial → exec (.renew lane seq epoch lseq) s =
          ends ((e.twnEvt R.TWN_EVT.DUAL).setFlag R.TWN_STAT R.TWN_STAT.DUAL true))
      ∧ (e.leaseState = 0 → exec (.renew lane seq epoch lseq) s = ends e))
    ∧ (∀ e, s.dev.Delivers lane 0x05 seq.toNat epoch.toNat e →
      let l := e.twin.lease
      (∀ x, e.leaseState = 3 → l.renews.find? (fun x => x.1 == q) = some x → exec (.renewAck lane seq epoch lseq) s =
          ends ((((e.setLease { l with lastAcked := max l.lastAcked x.2 }).bump R.TWN_RENEW_ACK_RX).setFlag R.TWN_STAT
            R.TWN_STAT.DUAL false).armOwnLease))
      ∧ (e.leaseState ≠ 3 ∨ l.renews.find? (fun x => x.1 == q) = none → exec (.renewAck lane seq epoch lseq) s = ends e))
    ∧ (∀ e, s.dev.Delivers lane 0x06 seq.toNat epoch.toNat e →
      (e.leaseState = 1 ∨ e.leaseState = 2 → exec (.yield lane seq epoch) s = ends (e.arm ⟨.view, 0, 0⟩ 0))
      ∧ (e.leaseState ≠ 1 → e.leaseState ≠ 2 → exec (.yield lane seq epoch) s = ends (e.setFlag R.TWN_STAT R.TWN_STAT.DUAL false))) := by
  refine ⟨fun e deliv => ?_, fun d => ⟨fun h => ?_, fun h => ?_, fun h lower => ?_, fun h higher => ?_, fun h => ?_⟩,
    fun e deliv => ⟨fun h own => ?_, fun h => ?_⟩,
    fun e deliv => ⟨fun h => ?_, fun h => ?_, fun h higher => ?_, fun h lower => ?_, fun h => ?_⟩,
    fun e deliv => ⟨fun x h known => ?_, fun h => ?_⟩, fun e deliv => ⟨fun h => ?_, fun standby claiming => ?_⟩⟩
  · exact State.runDev_delivers on deliv rfl
  · exact Dev.claim_standby h
  · exact Dev.claim_active h
  · exact Dev.claim_lower h lower
  · exact Dev.claim_yields h higher
  · exact Dev.claim_solo h
  · exact State.runDev_delivers on deliv (Dev.claimAck_own h own)
  · exact State.runDev_delivers on deliv (Dev.claimAck_ignored h)
  · exact State.runDev_delivers on deliv (Dev.renew_standby h)
  · exact State.runDev_delivers on deliv (Dev.renew_claiming h)
  · exact State.runDev_delivers on deliv (Dev.renew_higher h higher)
  · exact State.runDev_delivers on deliv (Dev.renew_lower h lower)
  · exact State.runDev_delivers on deliv (Dev.renew_solo h)
  · exact State.runDev_delivers on deliv (Dev.renewAck_known h known)
  · exact State.runDev_delivers on deliv (Dev.renewAck_ignored h)
  · exact State.runDev_delivers on deliv (Dev.peerYield_claims h)
  · exact State.runDev_delivers on deliv (Dev.peerYield_clears standby claiming)

/-- Settles O47: what each message does once it is delivered, and what keeps a message from being delivered. -/
theorem twinMessages : Obligations.TwinMessages := by
  unfold Obligations.TwinMessages
  refine ⟨leaseMessages, fun lane seq epoch s on => ?_⟩
  refine ⟨fun e serial device version deliv => ⟨fun refused => ?_, fun accepted => ⟨fun again => ?_, fun first => ?_⟩⟩,
    fun e serial role deliv => ⟨fun standby => ?_, fun active passive => ?_, fun active here yielding => ?_,
      fun active here stays => ⟨fun lower => ?_, fun higher => ?_⟩⟩,
    fun e deliv => ?_, fun e n l deliv => ⟨fun applies => ?_, fun ignores => ?_⟩, fun _ _ _ => rfl, fun e deliv => ?_,
    fun e n queue body deliv => ⟨fun enabled runs => ?_, fun h => ?_⟩,
    fun serial device lseq role version n l queue body k mem => ?_⟩
  · exact State.runDev_delivers on deliv (Dev.hello_refused refused)
  · exact State.runDev_delivers on deliv (Dev.hello_again accepted again)
  · exact State.runDev_delivers on deliv (Dev.hello_first accepted first)
  · exact State.runDev_delivers on deliv (Dev.status_standby (fun h => standby (BitVec.eq_of_toNat_eq h)))
  · subst active; exact State.runDev_delivers on deliv (Dev.status_passive passive)
  · subst active; exact State.runDev_delivers on deliv (Dev.status_yielding here yielding)
  · subst active; exact State.runDev_delivers on deliv ((Dev.status_dual here stays).trans (if_pos lower))
  · subst active; exact State.runDev_delivers on deliv ((Dev.status_dual here stays).trans (if_neg (Nat.not_lt.mpr higher)))
  · exact State.runDev_delivers on deliv rfl
  · exact State.runDev_delivers on deliv (Dev.loftMsg_applies applies)
  · exact State.runDev_delivers on deliv (Dev.loftMsg_ignored ignores)
  · exact State.runDev_delivers on deliv rfl
  · exact State.runDev_delivers on deliv (Dev.twinMsg_task enabled runs)
  · exact State.runDev_delivers on deliv (Dev.twinMsg_dropped h)
  · have received : ∃ act, exec k.2.2 s = s.runDev (fun d => d.abdReceive lane k.1 seq.toNat k.2.1 act) := by
      revert k
      simp only [List.forall_mem_cons]
      exact ⟨⟨_, rfl⟩, ⟨_, rfl⟩, ⟨_, rfl⟩, ⟨_, rfl⟩, ⟨_, rfl⟩, ⟨_, rfl⟩, ⟨_, rfl⟩, ⟨_, rfl⟩, ⟨_, rfl⟩, ⟨_, rfl⟩, ⟨_, rfl⟩,
        fun _ mem => absurd mem List.not_mem_nil⟩
    obtain ⟨act, received⟩ := received
    rw [received]
    refine ⟨fun unheard => ?_, fun heard unused => ?_, fun heard used refused => ?_, fun heard used ok other native differs older => ?_⟩
    · exact State.runDev_done on (Dev.abdReceive_unheard unheard)
    · exact State.runDev_done on (Dev.abdReceive_unused heard unused)
    · exact State.runDev_done on (Dev.abdReceive_refused heard used refused)
    · exact State.runDev_done on (Dev.abdReceive_stale heard used ok other native differs older)

end Sys2Proof.Machine
end

section
/-! Timers and commands of the lease (R499, R503 to R506, R508, R510, R512, R514, R518). -/

open Sys2Proof Sys2Proof.Machine

namespace Sys2Proof.Machine

section
variable {d : Dev}

/-! ## RENEW, the own lease and the view -/

section
variable (due : d.due ⟨.renew, 0, 0⟩ = true) (acts : d.leaseState = 3 ∧ d.twinMode = 1)
include due acts

theorem Dev.renewTimer_sends (h : (d.arm ⟨.renew, 0, 0⟩ (8 * ms)).healthy = true) : d.renewTimer =
    let d := d.arm ⟨.renew, 0, 0⟩ (8 * ms)
    let seq := ((d.rd R.TWN_LEASE).toNat + 1) % 2 ^ 32
    let l := d.twin.lease
    let d := (d.wr R.TWN_LEASE (BitVec.ofNat 32 seq)).setLease { l with lastSent := d.now, renews := ((seq, d.now) :: l.renews).take 4 }
    ((d.bump R.TWN_RENEW_TX).abdSend 0x04 0 [seq]).armOwnLease :=
  (if_pos (by simp [due, acts])).trans (if_pos h)

theorem Dev.renewTimer_unhealthy (h : (d.arm ⟨.renew, 0, 0⟩ (8 * ms)).healthy = false) :
    d.renewTimer = d.arm ⟨.renew, 0, 0⟩ (8 * ms) :=
  (if_pos (by simp [due, acts])).trans (if_neg (Bool.not_eq_true _ ▸ h))
end

theorem Dev.renewTimer_idle (h : d.due ⟨.renew, 0, 0⟩ = false ∨ ¬(d.leaseState = 3 ∧ d.twinMode = 1)) : d.renewTimer = d := by
  refine if_neg ?_
  rcases h with h | h
  · simp [h]
  · simp only [Bool.and_eq_true, beq_iff_eq, and_assoc]
    exact fun ⟨_, acts⟩ => h acts

theorem TwinTurn.own_expires (due : d.stillDue ⟨.ownLease, 0, 0⟩ = true) (active : d.leaseState = 3) : TwinTurn.own.act d =
    let d := ((d.standBy.bump R.TWN_OWN_EXPIRED).twnEvt R.TWN_EVT.OWN_EXPIRED).alarm 2
    (d.setLease { d.twin.lease with barred := !d.linkUp }).tryClaim := if_pos (by simp [due, active])

theorem TwinTurn.own_early (h : d.stillDue ⟨.ownLease, 0, 0⟩ = false ∨ d.leaseState ≠ 3) : TwinTurn.own.act d = d :=
  if_neg (by rcases h with h | h <;> simp [h])

theorem TwinTurn.view_expires (due : d.stillDue ⟨.view, 0, 0⟩ = true) : TwinTurn.view.act d =
    (((d.disarm ⟨.view, 0, 0⟩).bump R.TWN_PEER_EXPIRED).twnEvt R.TWN_EVT.PEER_EXPIRED).tryClaim := if_pos due

theorem TwinTurn.view_early (h : d.stillDue ⟨.view, 0, 0⟩ = false) : TwinTurn.view.act d = d := if_neg (Bool.not_eq_true _ ▸ h)

theorem Dev.claimTimer_resends (due : d.due ⟨.claimResend, 0, 0⟩ = true) (claiming : d.leaseState = 2) : d.claimTimer =
    (d.abdSend 0x02 0 (serialWords d.ownSerial)).arm ⟨.claimResend, 0, 0⟩ (2 * ms) := if_pos (by simp [due, claiming])

theorem Dev.claimTimer_idle (h : d.due ⟨.claimResend, 0, 0⟩ = false ∨ d.leaseState ≠ 2) : d.claimTimer = d :=
  if_neg (by rcases h with h | h <;> simp [h])

/-! ## Commands -/

theorem Dev.yieldLease_ignored (h : d.leaseState ≠ 3) : d.yieldLease = d := if_pos (by simp [h])

section
variable (active : d.leaseState = 3)
include active

theorem Dev.yieldLease_compat (h : d.twinMode = 2) : d.yieldLease =
    ((d.sendStatus 2).setLease { d.twin.lease with yielding := true }).arm ⟨.compatYield, 0, 0⟩ (150 * ms) :=
  (if_neg (by simp [active])).trans (if_pos h)

theorem Dev.yieldLease_native (h : d.twinMode ≠ 2) : d.yieldLease =
    (((d.abdSend 0x06 0 []).standBy.setView).bump R.TWN_YIELDS).twnEvt R.TWN_EVT.YIELDED :=
  (if_neg (by simp [active])).trans (if_neg h)
end

section
variable {queue n : Nat}

theorem Dev.abdTxSend_overrun (h : d.flag R.ABD_STAT R.ABD_STAT.TX_BUSY = true) :
    d.abdTxSend queue n = d.setFlag R.ABD_STAT R.ABD_STAT.OVERRUN true := if_pos h

section
variable (free : d.flag R.ABD_STAT R.ABD_STAT.TX_BUSY = false)
include free

theorem Dev.abdTxSend_dropped (h : d.linkUp = false ∨ d.twinMode ≠ 1) : d.abdTxSend queue n = d.bump R.ABD_TX_DROP :=
  (if_neg (Bool.not_eq_true _ ▸ free)).trans (if_pos (by rcases h with h | h <;> simp [h]))

theorem Dev.abdTxSend_queues (up : d.linkUp = true) (native : d.twinMode = 1) : d.abdTxSend queue n =
    (d.setFlag R.ABD_STAT R.ABD_STAT.TX_BUSY true).abdSend 0x20 n
      (queue :: (List.range 4).map (fun w => (d.rd (R.ABD_TX_MSG w)).toNat)) :=
  (if_neg (Bool.not_eq_true _ ▸ free)).trans (if_neg (by simp [up, native]))
end
end

/-! ## Compatibility mode, and RESET_N -/

theorem Dev.compatStatus_sends (due : d.due ⟨.compatStatus, 0, 0⟩ = true) (compat : d.twinMode = 2) : d.compatStatus =
    (d.arm ⟨.compatStatus, 0, 0⟩ (8 * ms)).sendStatus (if d.leaseState = 3 then (if d.twin.lease.yielding then 2 else 1) else 0) :=
  if_pos (by simp [due, compat])

theorem Dev.compatStatus_idle (h : d.due ⟨.compatStatus, 0, 0⟩ = false ∨ d.twinMode ≠ 2) : d.compatStatus = d :=
  if_neg (by rcases h with h | h <;> simp [h])

theorem Dev.compatActive_due (h : d.due ⟨.compatActive, 0, 0⟩ = true) :
    d.compatActive = (d.disarm ⟨.compatActive, 0, 0⟩).tryClaim := if_pos h

theorem Dev.compatActive_early (h : d.due ⟨.compatActive, 0, 0⟩ = false) : d.compatActive = d := if_neg (Bool.not_eq_true _ ▸ h)

theorem Dev.compatDual_over (due : d.due ⟨.compatDual, 0, 0⟩ = true) (active : d.leaseState = 3) :
    d.compatDual = (d.standBy.twnEvt R.TWN_EVT.COMPAT_OVER).alarm 3 := if_pos (by simp [due, active])

theorem Dev.compatDual_idle (h : d.due ⟨.compatDual, 0, 0⟩ = false ∨ d.leaseState ≠ 3) : d.compatDual = d :=
  if_neg (by rcases h with h | h <;> simp [h])

theorem Dev.compatYieldFail_due (h : d.due ⟨.compatYield, 0, 0⟩ = true) : d.compatYieldFail =
    ((d.disarm ⟨.compatYield, 0, 0⟩).setLease { d.twin.lease with yielding := false }).twnEvt R.TWN_EVT.YIELD_FAIL := if_pos h

theorem Dev.compatYieldFail_early (h : d.due ⟨.compatYield, 0, 0⟩ = false) : d.compatYieldFail = d := if_neg (Bool.not_eq_true _ ▸ h)

theorem Dev.resetLong_due (h : d.due ⟨.resetSafe, 0, 0⟩ = true) : d.resetLong =
    ((d.disarm ⟨.resetSafe, 0, 0⟩).setFlag R.OUT_STAT R.OUT_STAT.SAFE true).heldHosts := by
  rw [Dev.resetLong, if_pos h, Dev.resetSafe, if_pos h, Dev.setSafe]

theorem Dev.resetLong_early (h : d.due ⟨.resetSafe, 0, 0⟩ = false) : d.resetLong = d := if_neg (Bool.not_eq_true _ ▸ h)
end

/-- Settles O48: each timer and command of the lease, due and not due. -/
theorem leaseTimers : Obligations.LeaseTimers := by
  unfold Obligations.LeaseTimers
  intro s on
  refine ⟨fun due acts healthy => ?_, fun due acts ill => ?_, fun idle => ?_, State.runDev_done on rfl, State.runDev_done on rfl,
    fun _ => rfl, fun d => ⟨TwinTurn.own_expires, TwinTurn.own_early, TwinTurn.view_expires, TwinTurn.view_early⟩,
    fun due claiming => ?_, fun idle => ?_, fun m acc => ⟨fun other => ?_, fun active compat => ?_, fun active native => ?_⟩,
    fun m queue n acc => ⟨fun busy => ?_, fun free drop => ?_, fun free up native => ?_⟩,
    fun due compat => ?_, fun idle => ?_, fun due => ?_, fun early => ?_, fun due active => ?_, fun idle => ?_, fun due => ?_,
    fun early => ?_, fun due => ?_, fun early => ?_⟩
  · exact State.runDev_done on (Dev.renewTimer_sends due acts healthy)
  · exact State.runDev_done on (Dev.renewTimer_unhealthy due acts ill)
  · exact State.runDev_done on (Dev.renewTimer_idle idle)
  · exact State.runDev_done on (Dev.claimTimer_resends due claiming)
  · exact State.runDev_done on (Dev.claimTimer_idle idle)
  · exact State.runCommand_done on acc rfl (Dev.yieldLease_ignored other)
  · exact State.runCommand_done on acc rfl (Dev.yieldLease_compat active compat)
  · exact State.runCommand_done on acc rfl (Dev.yieldLease_native active native)
  · exact State.runCommand_done on acc rfl (Dev.abdTxSend_overrun busy)
  · exact State.runCommand_done on acc rfl (Dev.abdTxSend_dropped free drop)
  · exact State.runCommand_done on acc rfl (Dev.abdTxSend_queues free up native)
  · exact State.runDev_done on (Dev.compatStatus_sends due compat)
  · exact State.runDev_done on (Dev.compatStatus_idle idle)
  · exact State.runDev_done on (Dev.compatActive_due due)
  · exact State.runDev_done on (Dev.compatActive_early early)
  · exact State.runDev_done on (Dev.compatDual_over due active)
  · exact State.runDev_done on (Dev.compatDual_idle idle)
  · exact State.runDev_done on (Dev.compatYieldFail_due due)
  · exact State.runDev_done on (Dev.compatYieldFail_early early)
  · exact State.runDev_done on (Dev.resetLong_due due)
  · exact State.runDev_done on (Dev.resetLong_early early)

end Sys2Proof.Machine
end

section
/-! Configuration, link and resets of a PCIe host port (R521 to R525, R534, R543, R571). -/

open Sys2Proof Sys2Proof.Machine

namespace Sys2Proof.Machine

section
variable {d : Dev} {n : Nat}

/-! ## Configuration requests -/

/-- A configuration request is answered with retry status while RESET_N is low and its 50 ms run. -/
def Dev.configRetry (d : Dev) (n : Nat) : Prop := d.chip.state = .held ∧ d.armed ⟨.resetSafe, 0, 0⟩ = true ∧ d.hostPowered n = true

theorem Dev.configRetry_iff :
    (d.chip.state == .held && d.armed ⟨.resetSafe, 0, 0⟩ && d.hostPowered n) = true ↔ d.configRetry n := by
  simp only [Bool.and_eq_true, beq_iff_eq, and_assoc, Dev.configRetry]

theorem Dev.pcieConfig_retry {r : PcieConfig} (h : d.configRetry n) : d.pcieConfig n r = d.emit (.cfgCompletion n true 0) :=
  if_pos (Dev.configRetry_iff.mpr h)

section
variable (on : d.chip.state ≠ .off)
include on

/-- A host port is served while the chip is not held and the port has power. -/
theorem Dev.hostServed_iff :
    (d.chip.state == .held || d.chip.state == .off || !d.hostPowered n) = true ↔ ¬(d.chip.state ≠ .held ∧ d.hostPowered n = true) := by
  simp only [Bool.or_eq_true, beq_iff_eq, on, or_false, Bool.not_eq_true', ← Bool.not_eq_true,
    Classical.not_and_iff_not_or_not, Decidable.not_not, ne_eq]

theorem Dev.pcieConfig_unserved {r : PcieConfig} (h : ¬d.configRetry n) (unserved : ¬(d.chip.state ≠ .held ∧ d.hostPowered n = true)) :
    d.pcieConfig n r = d :=
  (if_neg (mt Dev.configRetry_iff.mp h)).trans (if_pos ((Dev.hostServed_iff on).mpr unserved))

section
variable (served : d.chip.state ≠ .held ∧ d.hostPowered n = true)
include served

theorem Dev.pcieConfig_early {r : PcieConfig} (h : d.flag (R.HST_STAT n) R.HST_STAT.READY = false) :
    d.pcieConfig n r = (d.bump (R.HST_CFG_RETRY n)).emit (.cfgCompletion n true 0) :=
  (if_neg (mt Dev.configRetry_iff.mp (fun r => served.1 r.1))).trans
    ((if_neg (mt (Dev.hostServed_iff on).mp (not_not_intro served))).trans (if_pos (by simp [h])))

/-- What a host port that is ready answers. -/
theorem Dev.pcieConfig_ready {r : PcieConfig} (h : d.flag (R.HST_STAT n) R.HST_STAT.READY = true) : d.pcieConfig n r =
    (let answers := fun (v : Nat) (d : Dev) => d.emit (.cfgCompletion n false v)
    match r with
    | .deviceId vf => answers (Config.pciVendor.toNat + (if vf then 0x9665 else 0x9664) * 65536) d
    | .classRev => answers (0x02800000 + d.fget R.ID_DEVICE R.ID_DEVICE.REV) d
    | .vfCounts => answers ((d.hostCount n - 1) * 65537) d
    | .vfOffsetStride => answers 0x00010001 d
    | .vfControl en num =>
      let two := d.hostMode n == 2
      answers 0 (((d.setFlag (R.HST_STAT n) R.HST_STAT.VF_ENABLE (en && two)).fset (R.HST_STAT n) R.HST_STAT.NUM_VFS
        (if two then min num.toNat (d.hostCount n - 1) else 0)).askHost (.enable n))
    | .pasidEnable en => answers 0 (d.setFlag (R.HST_STAT n) R.HST_STAT.PASID_EN (en && d.hostMode n == 1))) :=
  ((if_neg (mt Dev.configRetry_iff.mp (fun r => served.1 r.1))).trans
    ((if_neg (mt (Dev.hostServed_iff on).mp (not_not_intro served))).trans (if_neg (by simp [h])))).trans (by cases r <;> rfl)
end

/-! ## The link -/

theorem Dev.pcieLinkUp_ignored {speed width : Nat}
    (h : ¬(d.chip.state ≠ .held ∧ d.hostPowered n = true) ∨ d.flag (R.HST_STAT n) R.HST_STAT.SHED = true) :
    d.pcieLinkUp n speed width = d :=
  if_pos (by
    rw [Bool.or_eq_true]
    exact h.imp (Dev.hostServed_iff on).mpr id)

theorem Dev.pcieLinkUp_shows {speed width : Nat} (served : d.chip.state ≠ .held ∧ d.hostPowered n = true)
    (h : d.flag (R.HST_STAT n) R.HST_STAT.SHED = false) : d.pcieLinkUp n speed width =
    (((d.setFlag (R.HST_STAT n) R.HST_STAT.LINK_UP true).fset (R.HST_STAT n) R.HST_STAT.SPEED speed).fset (R.HST_STAT n)
      R.HST_STAT.WIDTH width).setFlag (R.HST_EVT n) R.HST_EVT.LINK_UP true :=
  if_neg (by
    rw [Bool.or_eq_true, h]
    exact fun x => x.elim (fun x => (Dev.hostServed_iff on).mp x served) nofun)
end

theorem Dev.pcieLinkDown_ignored (h : d.flag (R.HST_STAT n) R.HST_STAT.LINK_UP = false) : d.pcieLinkDown n = d := if_pos (by simp [h])

section
variable (up : d.flag (R.HST_STAT n) R.HST_STAT.LINK_UP = true)
include up

theorem Dev.pcieLinkDown_shed (h : (d.hostLinkGone n).flag (R.HST_STAT n) R.HST_STAT.SHED = true) :
    d.pcieLinkDown n = d.hostLinkGone n := (if_neg (by simp [up])).trans (if_pos h)

theorem Dev.pcieLinkDown_resets (h : (d.hostLinkGone n).flag (R.HST_STAT n) R.HST_STAT.SHED = false) :
    d.pcieLinkDown n = (d.hostLinkGone n).portReset n := (if_neg (by simp [up])).trans (if_neg (Bool.not_eq_true _ ▸ h))
end

/-! ## Resets of functions -/

theorem Dev.vfFlr_asks {i : Nat} (mode : d.hostMode n = 2) (vf : i ≠ 0) : d.vfFlr n i = d.askReset n i := if_pos ⟨mode, vf⟩

theorem Dev.vfFlr_ignored {i : Nat} (h : d.hostMode n ≠ 2 ∨ i = 0) : d.vfFlr n i = d :=
  if_neg (fun ⟨mode, vf⟩ => h.elim (· mode) vf)

theorem Dev.askReset_ignored {i : Nat} (h : d.instState n i = 0 ∨ d.instState n i = 1) : d.askReset n i = d :=
  if_neg (by rcases h with h | h <;> simp [h])

theorem Dev.askReset_asks {i : Nat} (disabled : d.instState n i ≠ 0) (resetting : d.instState n i ≠ 1) :
    d.askReset n i = { d with clk := { d.clk with host := d.clk.host ++ [.reset n i] } } :=
  if_pos (by simp [disabled, resetting])
end

/-- Settles O49: each kind of request, each event of the link, each reset, and what the clock's end does. -/
theorem hostPorts : Obligations.HostPorts := by
  unfold Obligations.HostPorts
  intro n s on
  refine ⟨fun r retry => ?_, fun r retry unserved => ?_, fun r served early => ?_,
    fun ⟨served, ready⟩ => ⟨fun vf => ?_, ?_, ?_, ?_, fun en num => ?_, fun en => ?_⟩,
    fun speed width => ⟨fun h => ?_, fun served h => ?_⟩, fun down => ?_, fun up => ⟨fun shed => ?_, fun h => ?_⟩,
    State.runDev_done on rfl, State.runDev_done on rfl, State.runDev_done on rfl,
    fun i => ⟨fun mode vf => ?_, fun h => ?_⟩, fun d i => ⟨Dev.askReset_ignored, Dev.askReset_asks⟩, fun _ => rfl⟩
  · exact State.runDev_done on (Dev.pcieConfig_retry retry)
  · exact State.runDev_done on (Dev.pcieConfig_unserved on retry unserved)
  · exact State.runDev_done on (Dev.pcieConfig_early on served early)
  · exact State.runDev_done on (Dev.pcieConfig_ready on served ready)
  · exact State.runDev_done on (Dev.pcieConfig_ready on served ready)
  · exact State.runDev_done on (Dev.pcieConfig_ready on served ready)
  · exact State.runDev_done on (Dev.pcieConfig_ready on served ready)
  · exact State.runDev_done on (Dev.pcieConfig_ready on served ready)
  · exact State.runDev_done on (Dev.pcieConfig_ready on served ready)
  · exact State.runDev_done on (Dev.pcieLinkUp_ignored on h)
  · exact State.runDev_done on (Dev.pcieLinkUp_shows on served h)
  · exact State.runDev_done on (Dev.pcieLinkDown_ignored down)
  · exact State.runDev_done on (Dev.pcieLinkDown_shed up shed)
  · exact State.runDev_done on (Dev.pcieLinkDown_resets up h)
  · exact State.runDev_done on (Dev.vfFlr_asks mode vf)
  · exact State.runDev_done on (Dev.vfFlr_ignored h)

end Sys2Proof.Machine
end

section
/-! Host instances (R530 to R535, R547, R548), and the registers of their pages that act (R526, R532, R541). -/

open Sys2Proof Sys2Proof.Machine

namespace Sys2Proof.Machine

/-! ## Writes at a host page -/

section
variable {d : Dev} {n i : Nat} {v : Word}

/-- What a full-word write does at position `o` of a page that answers there. -/
theorem Dev.instWrite_at {off o : Nat} (pos : pageOffset off = o) (serves : d.pageServes n i o = true) :
    d.instWrite n i off 15 v =
      let a := instPage n i + o
      let q := (o - 0x100) / 64
      if a = R.INST_CTL n i then d.when (v.getLsbD 0) (fun d => d.instCtlReset n i)
      else if a = R.INST_MSG_CMD n i then d.when (v.getLsbD 0) (fun d => d.instMsg n i)
      else if 0x100 ≤ o ∧ q < 8 then
        if a = R.TXQ_TAIL n i q then d.txTail n i q v.toNat
        else if a = R.RXQ_TAIL n i q then d.rxTail n i q v.toNat
        else if a = R.TXQ_CFG n i q then d.txCfgWrite n i q v
        else if a = R.RXQ_CFG n i q then d.rxCfgWrite n i q v
        else if (a = R.TXQ_BASE_LO n i q ∨ a = R.TXQ_BASE_HI n i q) ∧ d.txEnabled n i q then d
        else if (a = R.RXQ_BASE_LO n i q ∨ a = R.RXQ_BASE_HI n i q) ∧ d.rxEnabled n i q then d
        else if a = R.QP_IRQ n i q then (d.plain a v).moderate n i q false
        else d.plain a v
      else d.plain a v := by
  rw [Dev.instWrite, pos]
  exact (if_neg (not_not_intro rfl)).trans (if_neg (by simp [serves]))

theorem Dev.instWrite_silent {off o : Nat} (pos : pageOffset off = o) (silent : d.pageServes n i o = false) :
    d.instWrite n i off 15 v = d := by
  rw [Dev.instWrite, pos]
  exact (if_neg (not_not_intro rfl)).trans (if_pos (by simp [silent]))

/-! The positions of the registers that act. -/

theorem instCtl_position : pageOffset (R.INST_CTL n i - instPage n i) = 0x4 := by
  rw [R.INST_CTL, Nat.add_sub_cancel_left]; rfl

theorem instMsgCmd_position : pageOffset (R.INST_MSG_CMD n i - instPage n i) = 0x30 := by
  rw [R.INST_MSG_CMD, Nat.add_sub_cancel_left]; rfl

theorem txqTail_position (q : Fin 8) : pageOffset (R.TXQ_TAIL n i q - instPage n i) = 0x10C + 0x40 * q := by
  rw [R.TXQ_TAIL, Nat.add_assoc, Nat.add_sub_cancel_left]
  revert q; decide

theorem rxqTail_position (q : Fin 8) : pageOffset (R.RXQ_TAIL n i q - instPage n i) = 0x120 + 0x40 * q := by
  rw [R.RXQ_TAIL, Nat.add_assoc, Nat.add_sub_cancel_left]
  revert q; decide

/-- The registers of the host function itself answer where it does. -/
theorem Dev.pageServes_own {o : Nat} (h : o < 0x100) : d.pageServes n i o = d.instServes n i := by
  rw [Dev.pageServes, pageQueue, if_neg (by omega), if_neg (by omega), Bool.and_true]

/-- Those of a queue pair answer where it exists, too. -/
theorem Dev.pageServes_queue {o : Nat} (q : Fin 8) (low : 0x100 + 0x40 * q.val ≤ o) (high : o < 0x140 + 0x40 * q.val) :
    d.pageServes n i o = (d.instServes n i && decide (q.val < d.qpCount n i)) := by
  have index : (o - 0x100) / 64 = q := by omega
  rw [Dev.pageServes, pageQueue, if_neg (by omega), if_pos (by omega), index]

theorem Dev.instWrite_ctl : d.instWrite n i (R.INST_CTL n i - instPage n i) 15 1#32 = d.instCtlReset n i := by
  by_cases serves : d.instServes n i = true
  · rw [Dev.instWrite_at instCtl_position (by rwa [Dev.pageServes_own (by decide)])]
    exact if_pos rfl
  · rw [Dev.instWrite_silent instCtl_position (by simpa [Dev.pageServes_own] using serves), Dev.instCtlReset, if_neg serves]

theorem Dev.instWrite_msgCmd (serves : d.instServes n i = true) :
    d.instWrite n i (R.INST_MSG_CMD n i - instPage n i) 15 1#32 = d.instMsg n i := by
  rw [Dev.instWrite_at instMsgCmd_position (by rwa [Dev.pageServes_own (by decide)])]
  exact (if_neg (by simp [R.INST_CTL])).trans (if_pos rfl)

theorem Dev.instWrite_msgCmd_silent (silent : d.instServes n i = false) :
    d.instWrite n i (R.INST_MSG_CMD n i - instPage n i) 15 1#32 = d :=
  Dev.instWrite_silent instMsgCmd_position (by rwa [Dev.pageServes_own (by decide)])

section
variable {q : Fin 8}

theorem Dev.instWrite_txTail (serves : d.instServes n i = true) (exist : q.val < d.qpCount n i) :
    d.instWrite n i (R.TXQ_TAIL n i q - instPage n i) 15 v = d.txTail n i q v.toNat := by
  rw [Dev.instWrite_at (txqTail_position q) (by simp [Dev.pageServes_queue q, serves, exist])]
  have index : (0x10C + 0x40 * q.val - 0x100) / 64 = q := by omega
  dsimp only
  rw [index, if_neg (by rw [R.INST_CTL]; omega), if_neg (by rw [R.INST_MSG_CMD]; omega), if_pos ⟨by omega, q.isLt⟩,
    if_pos (by rw [R.TXQ_TAIL]; omega)]

theorem Dev.instWrite_rxTail (serves : d.instServes n i = true) (exist : q.val < d.qpCount n i) :
    d.instWrite n i (R.RXQ_TAIL n i q - instPage n i) 15 v = d.rxTail n i q v.toNat := by
  rw [Dev.instWrite_at (rxqTail_position q) (by simp [Dev.pageServes_queue q, serves, exist])]
  have index : (0x120 + 0x40 * q.val - 0x100) / 64 = q := by omega
  dsimp only
  rw [index, if_neg (by rw [R.INST_CTL]; omega), if_neg (by rw [R.INST_MSG_CMD]; omega), if_pos ⟨by omega, q.isLt⟩,
    if_neg (by rw [R.TXQ_TAIL]; omega), if_pos (by rw [R.RXQ_TAIL]; omega)]

section
variable (silent : d.instServes n i = false ∨ d.qpCount n i ≤ q.val)
include silent

theorem Dev.pageServes_silent {o : Nat} (low : 0x100 + 0x40 * q.val ≤ o) (high : o < 0x140 + 0x40 * q.val) :
    d.pageServes n i o = false := by
  rw [Dev.pageServes_queue q low high]
  rcases silent with h | h <;> simp [h]

theorem Dev.instWrite_txTail_silent : d.instWrite n i (R.TXQ_TAIL n i q - instPage n i) 15 v = d :=
  Dev.instWrite_silent (txqTail_position q) (Dev.pageServes_silent silent (by omega) (by omega))

theorem Dev.instWrite_rxTail_silent : d.instWrite n i (R.RXQ_TAIL n i q - instPage n i) 15 v = d :=
  Dev.instWrite_silent (rxqTail_position q) (Dev.pageServes_silent silent (by omega) (by omega))
end
end

/-! ## Resets -/

theorem Dev.instReset_ignored (h : d.instState n i = 0 ∨ d.instState n i = 1) : d.instReset n i = d := if_pos h

theorem Dev.instReset_does (disabled : d.instState n i ≠ 0) (resetting : d.instState n i ≠ 1) : d.instReset n i =
    let a := R.INST_STAT n i
    let d := (d.fset a R.INST_STAT.STATE 1).fset a R.INST_STAT.GEN (d.instGen n i + 1)
    let d := ((d.fset a R.INST_STAT.ERR_CAUSE 0).bump (R.HST_INST_RESETS n)).instDiscard n i
    let d := d.instPageCold n i (fun o => decide (0x0C ≤ o ∧ o < 0x18 ∨ 0x40 ≤ o))
    (d.each (d.clk.completed.filter (· == (n, i))) (fun _ d => (d.bump (R.INST_STALE_CPL n i)).bump (R.HST_STALE_CPL n))).txServe n :=
  if_neg (not_or.mpr ⟨disabled, resetting⟩)

theorem Dev.instCtlReset_ignored (h : d.instServes n i = false ∨ d.instState n i = 0 ∨ d.instState n i = 1) :
    d.instCtlReset n i = d := by
  rw [Dev.instCtlReset]
  rcases h with h | h
  · exact if_neg (Bool.not_eq_true _ ▸ h)
  · have keeps : d.askReset n i = d := if_neg (by rcases h with h | h <;> simp [h])
    rw [keeps, ite_self]

theorem Dev.instCtlReset_asks (serves : d.instServes n i = true) (disabled : d.instState n i ≠ 0) (resetting : d.instState n i ≠ 1) :
    d.instCtlReset n i = d.askHost (.reset n i) :=
  (if_pos serves).trans (if_pos (by simp [disabled, resetting]))

theorem Dev.instResetDone_active (h : d.instState n i = 1) :
    d.instResetDone n i = (d.fset (R.INST_STAT n i) R.INST_STAT.STATE 2).instEvt n i 0 := if_pos h

theorem Dev.instResetDone_ignored (h : d.instState n i ≠ 1) : d.instResetDone n i = d := if_neg h

/-! ## Messages to the engines -/

theorem Dev.instMsg_busy (h : d.flag (R.INST_STAT n i) R.INST_STAT.MSG_BUSY = true) : d.instMsg n i = d := if_pos (by simp [h])

section
variable (serves : d.instServes n i = true)
include serves

section
variable (free : d.flag (R.INST_STAT n i) R.INST_STAT.MSG_BUSY = false)
include free

theorem Dev.instMsg_refused (h : d.flag (R.INSTE_GRANT n i) R.INSTE_GRANT.MSG = false ∨ (d.rl n).engFw = false) :
    d.instMsg n i = d.bump (R.INST_MSG_REFUSED n i) :=
  (if_neg (by simp [serves, free])).trans (if_pos (by rcases h with h | h <;> simp [h]))

theorem Dev.instMsg_posts (grant : d.flag (R.INSTE_GRANT n i) R.INSTE_GRANT.MSG = true) (engines : (d.rl n).engFw = true) :
    d.instMsg n i =
      let body := (List.range 4).map (fun w => (d.rd (R.INST_MSG n i w)).toNat)
      let d : Dev := { d.setFlag (R.INST_STAT n i) R.INST_STAT.MSG_BUSY true with
        clk := { d.clk with posted := (n, i) :: d.clk.posted } }
      d.askTasks (.enter n (d.fget (R.INSTE_MSGQ n i) R.INSTE_MSGQ.QUEUE)
        (Task.make 4 (bodyWords (i + d.instGen n i * 256) 0 body) none (some i))) :=
  (if_neg (by simp [serves, free])).trans (if_neg (by simp [grant, engines]))
end
end

/-! ## DMA errors and moderation -/

theorem Dev.dmaError_eq {q kind gen cause : Nat} : d.dmaError n i q kind gen cause = dmaFails n i q kind gen cause d := rfl

theorem Dev.dmaTimeout_due {q kind : Nat} (h : d.due (dmaTimer n i q kind) = true) :
    d.dmaTimeout n i q kind = dmaFails n i q kind (d.instGen n i) 4 (d.disarm (dmaTimer n i q kind)) := if_pos h

theorem Dev.dmaTimeout_early {q kind : Nat} (h : d.due (dmaTimer n i q kind) = false) : d.dmaTimeout n i q kind = d :=
  if_neg (Bool.not_eq_true _ ▸ h)

theorem Dev.moderationExpiry_due {q : Nat} (h : d.due ⟨.msixModeration, 64 * n + i, q⟩ = true) :
    d.moderationExpiry n i q = (d.disarm ⟨.msixModeration, 64 * n + i, q⟩).moderate n i q true := if_pos h

theorem Dev.moderationExpiry_early {q : Nat} (h : d.due ⟨.msixModeration, 64 * n + i, q⟩ = false) : d.moderationExpiry n i q = d :=
  if_neg (Bool.not_eq_true _ ▸ h)
end

/-- Settles O50: the registers of a page that act, the reset as the clock ends, errors of its transfers and its interrupts. -/
theorem hostInstances : Obligations.HostInstances := by
  unfold Obligations.HostInstances
  intro n i s on
  refine ⟨fun silent => ⟨?_, ?_⟩, fun serves => ⟨fun ignored => ?_, fun disabled resetting => ?_, fun busy => ?_, fun free h => ?_,
      fun free grant engines => ?_⟩, fun d => ⟨Dev.instReset_ignored, Dev.instReset_does⟩, fun resetting => ?_, fun other => ?_,
    fun q kind gen cause => ?_, fun q kind => ⟨fun due => ?_, fun early => ?_⟩, fun q => ⟨fun due => ?_, fun early => ?_⟩,
    fun e => State.runDev_done on rfl⟩
  · exact State.runDev_done on (Dev.instWrite_ctl.trans (Dev.instCtlReset_ignored (.inl silent)))
  · exact State.runDev_done on (Dev.instWrite_msgCmd_silent silent)
  · exact State.runDev_done on (Dev.instWrite_ctl.trans (Dev.instCtlReset_ignored (.inr ignored)))
  · exact State.runDev_done on (Dev.instWrite_ctl.trans (Dev.instCtlReset_asks serves disabled resetting))
  · exact State.runDev_done on ((Dev.instWrite_msgCmd serves).trans (Dev.instMsg_busy busy))
  · exact State.runDev_done on ((Dev.instWrite_msgCmd serves).trans (Dev.instMsg_refused serves free h))
  · exact State.runDev_done on ((Dev.instWrite_msgCmd serves).trans (Dev.instMsg_posts serves free grant engines))
  · exact State.runDev_done on (Dev.instResetDone_active resetting)
  · exact State.runDev_done on (Dev.instResetDone_ignored other)
  · exact State.runDev_done on Dev.dmaError_eq
  · exact State.runDev_done on (Dev.dmaTimeout_due due)
  · exact State.runDev_done on (Dev.dmaTimeout_early early)
  · exact State.runDev_done on (Dev.moderationExpiry_due due)
  · exact State.runDev_done on (Dev.moderationExpiry_early early)

end Sys2Proof.Machine
end

section
/-! Transmit rings of a host function (R533, R534, R536 to R539). -/

open Sys2Proof Sys2Proof.Machine

namespace Sys2Proof.Machine

section
variable {d : Dev} {n i q : Nat}

/-! ## The doorbell -/

section
variable {v : Nat} (serves : d.instServes n i = true) (exist : q < d.qpCount n i)
include serves exist

theorem Dev.txTail_beyond (h : d.txSize n i q ≤ v % 4096) : d.txTail n i q v = d.instEvt n i 2 :=
  (if_neg (by simp [serves, exist])).trans (if_pos h)

theorem Dev.txTail_moves (h : v % 4096 < d.txSize n i q) :
    d.txTail n i q v = (d.wr (R.TXQ_TAIL n i q) (BitVec.ofNat 32 (v % 4096))).kick n i q :=
  (if_neg (by simp [serves, exist])).trans (if_neg (Nat.not_le.mpr h))
end

/-! ## Answers of the reads of a host function -/

section
variable {gen : Nat} {act : Dev → Dev}

/-- An answer that came in this clock for the host function is noted. -/
def Dev.answerMet (d : Dev) (n i : Nat) : Dev := { d with clk := { d.clk with completed := (n, i) :: d.clk.completed } }

theorem Dev.completes_stale (h : gen ≠ d.instGen n i) :
    d.completes n i gen act = (d.bump (R.INST_STALE_CPL n i)).bump (R.HST_STALE_CPL n) := if_pos h

section
variable (own : gen = d.instGen n i)
include own

theorem Dev.completes_reset (h : d.clk.host.contains (.reset n i) = true) : d.completes n i gen act = d.answerMet n i :=
  (if_neg (not_not_intro own)).trans (if_pos h)

theorem Dev.completes_acts (h : d.clk.host.contains (.reset n i) = false) : d.completes n i gen act = act (d.answerMet n i) :=
  (if_neg (not_not_intro own)).trans (if_neg (Bool.not_eq_true _ ▸ h))
end

/-- What a command does that is such an answer: stale, left to the reset it meets, or acting. -/
theorem State.runDev_answers {s : State} (on : s.dev.chip.state ≠ .off) :
    (gen ≠ s.dev.instGen n i → s.runDev (fun d => d.completes n i gen act) =
        .next (s.done fun d => (d.bump (R.INST_STALE_CPL n i)).bump (R.HST_STALE_CPL n)))
    ∧ (gen = s.dev.instGen n i → s.dev.clk.host.contains (.reset n i) = true →
        s.runDev (fun d => d.completes n i gen act) = .next (s.done fun d => d.answerMet n i))
    ∧ (gen = s.dev.instGen n i → s.dev.clk.host.contains (.reset n i) = false →
        s.runDev (fun d => d.completes n i gen act) = .next (s.done fun d => act (d.answerMet n i))) :=
  ⟨fun h => State.runDev_done on (Dev.completes_stale h), fun own h => State.runDev_done on (Dev.completes_reset own h),
    fun own h => State.runDev_done on (Dev.completes_acts own h)⟩
end

/-! ## Write-backs -/

theorem Dev.txWriteback_down (h : ¬(d.dmaUp n = true ∧ (d.instActive n i = true ∨ d.instState n i = 3))) : d.txWriteback n i q = d :=
  if_pos (by
    rw [Bool.or_eq_true, Bool.not_eq_true', Bool.not_eq_true', Bool.or_eq_false_iff, beq_eq_false_iff_ne]
    rwa [Classical.not_and_iff_not_or_not, not_or, Bool.not_eq_true, Bool.not_eq_true] at h)

section
variable (works : d.dmaUp n = true ∧ (d.instActive n i = true ∨ d.instState n i = 3))
include works

theorem Dev.txWriteback_up : (!d.dmaUp n || !(d.instActive n i || d.instState n i == 3)) = false := by
  obtain ⟨up, state⟩ := works
  rcases state with h | h <;> simp [up, h]

theorem Dev.txWriteback_empty (h : (d.txRing n i q).slots = []) : d.txWriteback n i q = d := by
  rw [Dev.txWriteback, Dev.txWriteback_up works]; dsimp only; rw [if_neg Bool.false_ne_true, h]

section
variable {k : TxSlot} {rest : List TxSlot} (first : (d.txRing n i q).slots = k :: rest)
include first

theorem Dev.txWriteback_waits (h : ∀ a b, k.phase ≠ .ready a b) : d.txWriteback n i q = d := by
  rw [Dev.txWriteback, Dev.txWriteback_up works]; dsimp only; rw [if_neg Bool.false_ne_true, first]; dsimp only
  split
  · exact absurd ‹_› (h _ _)
  · rfl

theorem Dev.txWriteback_ready {status : Nat} {ts : Option Nat} (h : k.phase = .ready status ts) : d.txWriteback n i q =
    let w := (txWords k status ts (d.instGen n i)).flatMap (leBytes 4)
    let d := (d.emit (.hostWrite n i (d.pasid n i) (d.txSlotAddr n i q k.slot) w)).setTxRing n i q
      { d.txRing n i q with slots := rest }
    let d := d.wr (R.TXQ_HEAD n i q) (BitVec.ofNat 32 ((k.slot + 1) % d.txSize n i q))
    let d := d.when (status == 2 || status == 4 || status == 5) (fun d => d.bump (R.QP_TX_DISCARDED n i q))
    d.wroteBack n i q := by
  rw [Dev.txWriteback, Dev.txWriteback_up works]; dsimp only; rw [if_neg Bool.false_ne_true, first]; dsimp only; rw [h]
end
end

/-! ## Waits for a timestamp -/

theorem Dev.tsWaitExpiry_due {k : Nat} (h : d.due ⟨.tsWait, 64 * n + i, 4096 * q + k⟩ = true) :
    d.tsWaitExpiry n i q k = d.askHost (.stampWait n i q k) := by rw [Dev.tsWaitExpiry, h, Dev.when_true]

theorem Dev.tsWaitExpiry_early {k : Nat} (h : d.due ⟨.tsWait, 64 * n + i, 4096 * q + k⟩ = false) : d.tsWaitExpiry n i q k = d := by
  rw [Dev.tsWaitExpiry, h, Dev.when_false]

/-- A timer is still due as the clock ends when nothing has set it anew in the clock. -/
theorem Dev.stillDue_iff {t : TimerId} : d.stillDue t = true ↔ d.due t = true ∧ d.deadline t = d.was.deadline t := by
  simp [Dev.stillDue]

theorem Dev.tsWaitEnd_missed {k : Nat} (h : d.stillDue ⟨.tsWait, 64 * n + i, 4096 * q + k⟩ = true) : d.tsWaitEnd n i q k =
    (d.disarm ⟨.tsWait, 64 * n + i, 4096 * q + k⟩).modSlot n i q k
      (fun y => if y.phase = .stamp then { y with phase := .ready 3 none } else y) := if_pos h

theorem Dev.tsWaitEnd_seen {k : Nat} (h : d.stillDue ⟨.tsWait, 64 * n + i, 4096 * q + k⟩ = false) : d.tsWaitEnd n i q k = d :=
  if_neg (Bool.not_eq_true _ ▸ h)
end

/-- Settles O51: the doorbell, the answers of the ring's reads, the write-back of its first slot and the end of a wait. -/
theorem hostTransmit : Obligations.HostTransmit := by
  unfold Obligations.HostTransmit
  intro n i q s on
  refine ⟨fun v => ⟨fun silent => ?_, fun ⟨serves, exist⟩ beyond => ?_, fun ⟨serves, exist⟩ fits => ?_⟩,
    fun gen w => State.runDev_answers on, fun gen b => State.runDev_answers on,
    ⟨fun down => ?_, fun works empty => ?_, fun works k rest first waits => ?_, fun works k rest status ts first ready => ?_⟩,
    fun k => ⟨fun due => ?_, fun early => ?_, fun d => ⟨fun due same => ?_, fun h => ?_⟩⟩⟩
  · exact State.runDev_done on (Dev.instWrite_txTail_silent silent)
  · exact State.runDev_done on ((Dev.instWrite_txTail serves exist).trans (Dev.txTail_beyond serves exist beyond))
  · exact State.runDev_done on ((Dev.instWrite_txTail serves exist).trans (Dev.txTail_moves serves exist fits))
  · exact State.runDev_done on (Dev.txWriteback_down down)
  · exact State.runDev_done on (Dev.txWriteback_empty works empty)
  · exact State.runDev_done on (Dev.txWriteback_waits works first waits)
  · exact State.runDev_done on (Dev.txWriteback_ready works first ready)
  · exact State.runDev_done on (Dev.tsWaitExpiry_due due)
  · exact State.runDev_done on (Dev.tsWaitExpiry_early early)
  · exact Dev.tsWaitEnd_missed (Dev.stillDue_iff.mpr ⟨due, same⟩)
  · refine Dev.tsWaitEnd_seen (Bool.eq_false_iff.mpr (mt Dev.stillDue_iff.mp ?_))
    rw [Classical.not_and_iff_not_or_not, Bool.not_eq_true]
    exact h

end Sys2Proof.Machine
end

section
/-! Receive rings of a host function (R536, R541 to R546). -/

open Sys2Proof Sys2Proof.Machine

namespace Sys2Proof.Machine

section
variable {d : Dev} {n i q : Nat}

section
variable {v : Nat} (serves : d.instServes n i = true) (exist : q < d.qpCount n i)
include serves exist

theorem Dev.rxTail_beyond (h : d.rxSize n i q ≤ v % 4096) : d.rxTail n i q v = d.instEvt n i 2 :=
  (if_neg (by simp [serves, exist])).trans (if_pos h)

theorem Dev.rxTail_moves (h : v % 4096 < d.rxSize n i q) :
    d.rxTail n i q v = d.wr (R.RXQ_TAIL n i q) (BitVec.ofNat 32 (v % 4096)) :=
  (if_neg (by simp [serves, exist])).trans (if_neg (Nat.not_le.mpr h))
end

/-! ## Handing a frame over -/

section
variable {descs : List (List Word)}

theorem Dev.rxHandover_none (h : d.rxHead n i q = none) : d.rxHandover n i q descs = d := by rw [Dev.rxHandover, h]

/-- The frame at the head of a queue pair is handed over when its bytes have been read, nothing holds it back, and it is in hand. -/
def Dev.rxHandReady (d : Dev) (n i q : Nat) (h : HostFrame) : Prop :=
  h.readsLeft = 0 ∧ d.rxWaits n i q h = false ∧ d.laneHolds n h = false ∧ d.dmaUp n = true
    ∧ d.rxHand n = some (i, q, h.descr.uid)

section
variable {h : HostFrame} (head : d.rxHead n i q = some h)
include head

theorem Dev.rxReady_isNone : (d.rxReady n i q).isNone = !(h.readsLeft == 0 && !d.rxWaits n i q h && !d.laneHolds n h) := by
  rw [Dev.rxReady, head, Option.filter_some]
  cases h.readsLeft == 0 && !d.rxWaits n i q h && !d.laneHolds n h <;> rfl

theorem Dev.rxHandReady_iff :
    ((d.rxReady n i q).isNone || !d.dmaUp n || d.rxHand n ≠ some (i, q, h.descr.uid)) = true ↔ ¬d.rxHandReady n i q h := by
  rw [Dev.rxReady_isNone head, Dev.rxHandReady]
  simp only [Bool.or_eq_true, Bool.not_eq_true', Bool.and_eq_false_iff, beq_eq_false_iff_ne, Bool.not_eq_false', decide_eq_true_eq,
    Classical.not_and_iff_not_or_not, Bool.not_eq_false, Bool.not_eq_true, ne_eq, or_assoc]

theorem Dev.rxHandover_waits (waits : ¬d.rxHandReady n i q h) : d.rxHandover n i q descs = d := by
  rw [Dev.rxHandover, head]
  exact if_pos ((Dev.rxHandReady_iff head).mpr waits)

section
variable (ready : d.rxHandReady n i q h)
include ready

theorem Dev.rxHandover_short (places : placeBuffers (d.rxBuf n i q) (descs.take (d.rxPosted n i q)) 0 h.body = none) :
    d.rxHandover n i q descs = d := by
  rw [Dev.rxHandover, head]
  dsimp only
  rw [if_neg (fun x => (Dev.rxHandReady_iff head).mp x ready), places]

theorem Dev.rxHandover_placed {l : List (Nat × Option (Nat × List Byte))}
    (places : placeBuffers (d.rxBuf n i q) (descs.take (d.rxPosted n i q)) 0 h.body = some l) :
    d.rxHandover n i q descs = handedOver n i q h l d := by
  rw [Dev.rxHandover, head]
  dsimp only
  rw [if_neg (fun x => (Dev.rxHandReady_iff head).mp x ready), places]
  rfl
end
end
end

/-! ## Waits for descriptors, and the next frame in hand -/

theorem Dev.rxWaitExpiry_none (h : d.due ⟨.rxWait, 64 * n + i, q⟩ = false ∨ d.rxHead n i q = none) : d.rxWaitExpiry n i q = d := by
  rcases h with h | h
  · exact if_neg (Bool.not_eq_true _ ▸ h)
  · rw [Dev.rxWaitExpiry, h]
    exact ite_self _

section
variable {h : HostFrame} (due : d.due ⟨.rxWait, 64 * n + i, q⟩ = true) (head : d.rxHead n i q = some h)
include due head

theorem Dev.rxWaitExpiry_guarded (guarded : h.descr.guarded = true) : d.rxWaitExpiry n i q = d := by
  rw [Dev.rxWaitExpiry, if_pos due, head]
  exact if_pos guarded

theorem Dev.rxWaitExpiry_drops (unguarded : h.descr.guarded = false) : d.rxWaitExpiry n i q =
    ((d.bump (R.QP_RX_NODESC_DROP n i q)).recipientDone n h.descr.uid i q false).refreshRxWait n := by
  rw [Dev.rxWaitExpiry, if_pos due, head]
  exact if_neg (Bool.not_eq_true _ ▸ unguarded)
end

theorem Dev.rxTake_none (h : d.rxNext n = none) : d.rxTake n = d := by rw [Dev.rxTake, h]

theorem Dev.rxTake_reads {j p : Nat} {h : HostFrame} (next : d.rxNext n = some (j, p, h)) : d.rxTake n =
    let need := (h.body.length + d.rxBuf n j p - 1) / d.rxBuf n j p
    let d : Dev := { d with host := { d.host with rxTurn := Map.put (fun _ => 511) d.host.rxTurn n (8 * j + p) } }
    ((d.setRxHand n (some (j, p, h.descr.uid))).emit
      (.hostRead n j (d.pasid n j) (d.rxSlotAddr n j p (d.rd (R.RXQ_HEAD n j p)).toNat) (32 * need))).arm (dmaTimer n j p 2)
      (10 * ms) := by rw [Dev.rxTake, next]
end

/-- Settles O52: the doorbell, the handover of the frame in hand, the wait for descriptors and the next frame in hand. -/
theorem hostReceive : Obligations.HostReceive := by
  unfold Obligations.HostReceive
  intro n i q s on
  refine ⟨fun v => ⟨fun silent => ?_, fun ⟨serves, exist⟩ beyond => ?_, fun ⟨serves, exist⟩ fits => ?_⟩,
    fun descs => ⟨fun none => ?_, fun h head => ⟨fun waits => ?_, fun ready short => ?_, fun ready l placed => ?_⟩⟩,
    ⟨fun none => ?_, fun h due head => ⟨fun guarded => ?_, fun unguarded => ?_⟩⟩,
    fun d => ⟨Dev.rxTake_none, fun j p h => Dev.rxTake_reads⟩⟩
  · exact State.runDev_done on (Dev.instWrite_rxTail_silent silent)
  · exact State.runDev_done on ((Dev.instWrite_rxTail serves exist).trans (Dev.rxTail_beyond serves exist beyond))
  · exact State.runDev_done on ((Dev.instWrite_rxTail serves exist).trans (Dev.rxTail_moves serves exist fits))
  · exact State.runDev_done on (Dev.rxHandover_none none)
  · exact State.runDev_done on (Dev.rxHandover_waits head waits)
  · exact State.runDev_done on (Dev.rxHandover_short head ready short)
  · exact State.runDev_done on (Dev.rxHandover_placed head ready placed)
  · exact State.runDev_done on (Dev.rxWaitExpiry_none none)
  · exact State.runDev_done on (Dev.rxWaitExpiry_guarded due head guarded)
  · exact State.runDev_done on (Dev.rxWaitExpiry_drops due head unguarded)

end Sys2Proof.Machine
end

section
/-! Starts (R558 to R560, R567, R573 to R575). -/

open Sys2Proof Sys2Proof.Machine

namespace Sys2Proof.Machine

/-! ## What turns a start away -/

section
variable {s : State} {d : Dev}

theorem powerOn_off (h : s.dev.chip.state = .off) :
    s.runPowerOn = .next { (coldStart s 0 2).settle false with pending := s.pending } := by
  rw [State.runPowerOn, if_pos h, powerOn, if_pos h]

theorem powerOn_on (h : s.dev.chip.state ≠ .off) : s.runPowerOn = .next s := by rw [State.runPowerOn, if_neg h]

theorem Dev.mayStart_of (on : d.chip.state ≠ .off) (h : d.chip.state ≠ .held) : d.mayStart = true := by
  simp [Dev.mayStart, on, h]

theorem Dev.mayStart_held (h : d.chip.state = .held) : d.mayStart = false := by simp [Dev.mayStart, h]

/-- No master is served while the chip is held. -/
theorem Dev.masterServed_held {m : Master} (h : d.chip.state = .held) : d.masterServed m = false := by
  cases m <;> simp [Dev.masterServed, h]

/-- Such a master's command does nothing. -/
theorem State.command_unserved {m : Master} {a : Nat} {g : LiveGroup} {act : State → State} (h : s.dev.masterServed m = false) :
    s.command m a g act = s := by
  rw [State.command, Dev.judgeWrite, h]
  rfl

/-- A register that takes a write has a master that is served. -/
theorem Dev.Accepts.served {m : Master} {a : Nat} (acc : d.Accepts m a) : d.masterServed m = true := by
  refine Decidable.byContradiction fun h => ?_
  rw [Dev.Accepts, Dev.judgeWrite, Bool.eq_false_iff.mpr h] at acc
  exact Option.some_ne_none a (congrArg Prod.snd acc).symm

theorem Dev.Accepts.not_held {m : Master} {a : Nat} (acc : d.Accepts m a) : d.chip.state ≠ .held := fun h =>
  Bool.false_ne_true ((Dev.masterServed_held h).symm.trans acc.served)

theorem warmStart_lost {cause : Nat} {clear : Bool} (h : s.dev.flag R.STR_STAT R.STR_STAT.RETAIN_OK = false) :
    warmStart s cause clear = coldStart s 9 1 := by
  rw [warmStart, Dev.retainOk, h]
  exact if_pos rfl

/-! ## The end of a start -/

theorem Dev.enterService_ready (starts : d.chip.state.starting = true) (minimal : d.minimalSet = true) : d.enterService =
    let d := ((d.toState .service).setFlag R.STR_STAT R.STR_STAT.MIN_SET true).wr R.STR_TIME (BitVec.ofNat 32 ((d.now - d.start.edge) / us))
    (d.disarm ⟨.startLimit, 0, 0⟩).tryClaim := if_neg (by simp [starts, minimal])

theorem Dev.enterService_waits (h : d.chip.state.starting = false ∨ d.minimalSet = false) : d.enterService = d :=
  if_pos (by rcases h with h | h <;> simp [h])

theorem startTimeout_fails (due : s.dev.due ⟨.startLimit, 0, 0⟩ = true) (starts : s.dev.chip.state.starting = true) :
    startTimeout s = failStart s (s.dev.chip.state == .startWarm) s.dev.failStep 3 := by
  rw [startTimeout, if_pos due, startFail, if_pos starts]

theorem startTimeout_idle (h : s.dev.due ⟨.startLimit, 0, 0⟩ = false ∨ s.dev.chip.state.starting = false) : startTimeout s = s := by
  rcases h with early | h
  · exact if_neg (Bool.not_eq_true _ ▸ early)
  · rw [startTimeout, show startFail s 3 = s from if_neg (Bool.not_eq_true _ ▸ h), ite_self]

theorem Dev.failCountClear_due (due : d.due ⟨.failClear, 0, 0⟩ = true) (serves : d.chip.state.serving = true) : d.failCountClear =
    ((d.fset R.STR_STAT R.STR_STAT.WARM_FAILS 0).fset R.STR_STAT R.STR_STAT.COLD_FAILS 0).disarm ⟨.failClear, 0, 0⟩ :=
  if_pos (by simp [due, serves])

theorem Dev.failCountClear_idle (h : d.due ⟨.failClear, 0, 0⟩ = false ∨ d.chip.state.serving = false) : d.failCountClear = d :=
  if_neg (by rcases h with h | h <;> simp [h])

/-! ## A change of the chip state -/

theorem Dev.stateEntered_after : d.stateEntered d.chip.prev =
    let d := if d.chip.state = .service then d.setFlag R.STR_STAT R.STR_STAT.RETAIN_OK true else d
    if d.chip.state.serving then (if d.chip.prev.serving then d else d.arm ⟨.failClear, 0, 0⟩ (10000 * ms))
    else (if d.chip.state = .test then d else { d with supply := { d.supply with exiting := 0 } }).disarm ⟨.failClear, 0, 0⟩ := by
  have entered : d.when (d.chip.state == .service) (fun d => d.setFlag R.STR_STAT R.STR_STAT.RETAIN_OK true) =
      if d.chip.state = .service then d.setFlag R.STR_STAT R.STR_STAT.RETAIN_OK true else d := by
    by_cases h : d.chip.state = .service <;> simp [Dev.when, h]
  have chip : (if d.chip.state = .service then d.setFlag R.STR_STAT R.STR_STAT.RETAIN_OK true else d).chip = d.chip := by
    split <;> simp
  rw [Dev.stateEntered]
  dsimp only
  rw [entered]
  generalize (if d.chip.state = .service then d.setFlag R.STR_STAT R.STR_STAT.RETAIN_OK true else d) = e at chip ⊢
  rw [← chip]
  by_cases serves : e.chip.state.serving = true
  · rw [if_pos serves, if_pos serves]
    by_cases served : e.chip.prev.serving = true <;> simp [Dev.when, served]
  · rw [if_neg serves, if_neg serves]
    by_cases test : e.chip.state = .test <;> simp [Dev.when, test]

theorem Dev.toState_same {c : ChipState} (h : d.chip.state = c) : d.toState c = d := if_pos h

/-- The state is entered: it is logged, and the state before it remembered. -/
def Dev.stateShown (d : Dev) (c : ChipState) : Dev :=
  let d := d.logChip 0x0008 (d.chip.state.code + 16 * c.code)
  { d with chip := { d.chip with prev := d.chip.state, state := c, since := d.now } }

theorem Dev.toState_other {c : ChipState} (h : d.chip.state ≠ c) :
    d.toState c = ((d.stateShown c).stateEntered (d.stateShown c).chip.prev).each allPorts (fun p d => d.refreshReady p) := if_neg h
end

/-- Settles O53: each way a start begins or is turned away, how it ends, and what a change of the chip state does. -/
theorem startsBegin : Obligations.StartsBegin := by
  unfold Obligations.StartsBegin
  intro s
  refine ⟨powerOn_off, powerOn_on, fun on => ⟨fun c free => ⟨?_, fun _ => ?_, fun lost => ?_⟩, fun c held => ⟨?_, ?_⟩,
      fun m => ⟨fun held => ⟨?_, ?_⟩, fun acc => ⟨?_, fun service => ?_, fun other => ?_⟩⟩,
      fun starts minimal => ?_, fun h => ?_, fun due starts => ?_, fun h => ?_, fun due serves => ?_, fun h => ?_,
      State.runDev_done on rfl⟩,
    fun d c => ⟨Dev.toState_same, fun other => ?_⟩⟩
  · exact State.run_did on (if_pos (Dev.mayStart_of on free))
  · exact State.run_did on (if_pos (Dev.mayStart_of on free))
  · exact State.run_did on ((if_pos (Dev.mayStart_of on free)).trans (warmStart_lost lost))
  · exact State.run_did on (if_neg (Bool.not_eq_true _ ▸ Dev.mayStart_held held))
  · exact State.run_did on (if_neg (Bool.not_eq_true _ ▸ Dev.mayStart_held held))
  · exact State.run_did (act := fun s => s.command m R.STR_CMD .none strCmdCold) (g := fun s => s.onDev id) on
      (State.command_unserved (Dev.masterServed_held held))
  · exact State.run_did (act := fun s => s.command m R.STR_CMD .none strCmdWarm) (g := fun s => s.onDev id) on
      (State.command_unserved (Dev.masterServed_held held))
  · exact State.runCommand_did on acc rfl (if_pos (Dev.mayStart_of on acc.not_held))
  · exact State.runCommand_did on acc rfl (if_pos service)
  · exact State.runCommand_did on acc rfl (if_neg other)
  · exact State.runDev_done on (Dev.enterService_ready starts minimal)
  · exact State.runDev_done on (Dev.enterService_waits h)
  · exact State.run_did on (startTimeout_fails due starts)
  · exact State.run_did on (startTimeout_idle h)
  · exact State.runDev_done on (Dev.failCountClear_due due serves)
  · exact State.runDev_done on (Dev.failCountClear_idle h)
  · rw [Dev.toState_other other, Dev.stateEntered_after]
    rfl

end Sys2Proof.Machine
end

section
/-! The steps of a start (R561 to R566, R687, Table 14-1). -/

open Sys2Proof Sys2Proof.Machine

namespace Sys2Proof.Machine

section
variable {s : State} {k : Nat} {u : StepUnit} {fails : List BistFail}

/-! ## Steps 1 to 5 -/

/-- A failure of a host block, whose memories step 2 tests. -/
def BistFail.ofHost (x : BistFail) : Bool := match x.unit with | .block _ j => j.val == 9 | _ => false

/-- Any other failure, which step 4 finds. -/
def BistFail.ofRest (x : BistFail) : Bool := match x.unit with | .block _ j => j.val != 9 | _ => true

/-- What step 4's memory tests leave, before what failed is judged. -/
def Dev.bistTested (d : Dev) (fails : List BistFail) : Dev :=
  let d := d.bist (fails.filter BistFail.ofRest)
  { d with start := { d.start with step := 5 } }

theorem startStep_ignored (low : k ≤ 5) (h : ¬(s.dev.runState.starting = true ∧ s.dev.start.step = k)) :
    startStepComplete s k u fails = s := by
  refine (if_pos low).trans (if_pos ?_)
  rw [Bool.or_eq_true, bne_iff_ne, Bool.not_eq_true', ← Bool.not_eq_true]
  exact Classical.not_and_iff_not_or_not.mp h

section
variable (here : s.dev.runState.starting = true ∧ s.dev.start.step = k)
include here

theorem startStep_here (low : k ≤ 5) : startStepComplete s k u fails =
    if k = 1 then s.onDev fun d => { d.timeCold with start := { d.start with step := 2 } }
    else if k = 2 then headerReads (s.onDev fun d =>
      (d.fuseRegs s.fuses).bist (if d.runState = .startCold then fails.filter BistFail.ofHost else []))
    else if k = 3 then
      if !s.dev.loader.applied then s
      else
        let d := s.dev.hostBlocksReady.supervisorStart
        if d.runState = .startCold then { s with dev := { d with start := { d.start with step := 4 } } }
        else { s with dev := d.startParallel }
    else if k = 4 then
      if fails.any (fun x => x.unit == .chip) || (s.dev.bist (fails.filter BistFail.ofRest)).start.downRegions.testBit 0 then
        startFail (s.onDev (·.bistTested fails)) 4
      else s.onDev (·.bistTested fails)
    else s.onDev fun d => ({ d with log := { EventLog.init with intake := d.log.intake } } : Dev).startParallel :=
  (if_pos low).trans (if_neg (by simp [here]))

theorem startStep_one (h : k = 1) : startStepComplete s k u fails =
    s.onDev fun d => { d.timeCold with start := { d.start with step := 2 } } :=
  (startStep_here here (by omega)).trans (if_pos h)

theorem startStep_two (h : k = 2) : startStepComplete s k u fails = headerReads (s.onDev fun d =>
    (d.fuseRegs s.fuses).bist (if d.runState = .startCold then fails.filter BistFail.ofHost else [])) :=
  (startStep_here here (by omega)).trans ((if_neg (by omega)).trans (if_pos h))

theorem startStep_three_waits (h : k = 3) (image : s.dev.loader.applied = false) : startStepComplete s k u fails = s :=
  (startStep_here here (by omega)).trans ((if_neg (by omega)).trans ((if_neg (by omega)).trans ((if_pos h).trans (if_pos (by
    rw [image]; rfl)))))

theorem startStep_three (h : k = 3) (image : s.dev.loader.applied = true) : startStepComplete s k u fails = s.onDev fun d =>
    let d := d.hostBlocksReady.supervisorStart
    if d.runState = .startCold then { d with start := { d.start with step := 4 } } else d.startParallel := by
  refine (startStep_here here (by omega)).trans ((if_neg (by omega)).trans ((if_neg (by omega)).trans ((if_pos h).trans
    ((if_neg (by rw [image]; simp)).trans ?_))))
  rw [State.onDev]
  dsimp only
  split <;> rfl

theorem startStep_four (h : k = 4) : startStepComplete s k u fails =
    if fails.any (fun x => x.unit == .chip) || (s.dev.bist (fails.filter BistFail.ofRest)).start.downRegions.testBit 0 then
      startFail (s.onDev (·.bistTested fails)) 4
    else s.onDev (·.bistTested fails) :=
  (startStep_here here (by omega)).trans ((if_neg (by omega)).trans ((if_neg (by omega)).trans ((if_neg (by omega)).trans
    (if_pos h))))

theorem startStep_five (h : k = 5) : startStepComplete s k u fails =
    s.onDev fun d => ({ d with log := { EventLog.init with intake := d.log.intake } } : Dev).startParallel :=
  (startStep_here here (by omega)).trans ((if_neg (by omega)).trans ((if_neg (by omega)).trans ((if_neg (by omega)).trans
    (if_neg (by omega)))))
end

/-! ## Steps 6 to 9, side by side -/

section
variable (high : 6 ≤ k)
include high

theorem startStep_early (h : s.dev.start.step ≠ 6) : startStepComplete s k u fails = s :=
  (if_neg (by omega)).trans (if_pos (bne_iff_ne.mpr h))

theorem startStep_parallel (h : s.dev.start.step = 6) : startStepComplete s k u fails =
    match u with
    | .block n j => if k = 6 ∧ (j.val < 4 ∨ j.val = 9) then s.onDev (·.blockCalibrated n j) else s
    | .region n =>
      if k = 7 then s.onDev (·.trainingComplete n true)
      else if k = 8 then s.onDev (·.tablesReady n)
      else if k = 9 then s.onDev (·.buffersReady n)
      else s
    | .chip => s := by
  refine ((if_neg (by omega)).trans (if_neg (by simp [h]))).trans ?_
  cases u <;> rfl

theorem startStep_block {n : Fin 4} {j : Fin 10} (parallel : s.dev.start.step = 6) (h : k = 6) (low : j.val < 4 ∨ j.val = 9) :
    startStepComplete s k (.block n j) fails = s.onDev (·.blockCalibrated n j) :=
  (startStep_parallel high parallel).trans (if_pos ⟨h, low⟩)

/-- A step that no unit of its kind has changes nothing. -/
theorem startStep_other (h : match u with
      | .block _ j => ¬(k = 6 ∧ (j.val < 4 ∨ j.val = 9)) | .region _ => k = 6 ∨ 9 < k | .chip => True) :
    startStepComplete s k u fails = s := by
  by_cases parallel : s.dev.start.step = 6
  · rw [startStep_parallel high parallel]
    cases u with
    | chip => rfl
    | block n j => exact if_neg h
    | region n => exact (if_neg (by omega)).trans ((if_neg (by omega)).trans (if_neg (by omega)))
  · exact startStep_early high parallel
end
end

/-- Settles O55: the steps that end in their order, then those that end side by side. -/
theorem startStepsEnd : Obligations.StartStepsEnd := by
  unfold Obligations.StartStepsEnd
  intro s on k u fails
  have does : ∀ {g : State → State}, startStepComplete s k u fails = g s →
      exec (.startStepComplete k u fails) s = .next (s.did g) := fun e =>
    State.run_did (act := fun s => startStepComplete s k u fails) on e
  refine ⟨fun low other => ?_, fun one here => ?_, fun two here => ?_, fun three here waits => ?_, fun three here image => ?_,
    fun four here => ⟨fun lost => ?_, fun kept => ?_⟩, fun five here => ?_, fun high early => ?_,
    fun six parallel n j unit low => ?_, fun seven parallel n unit => ?_, fun eight parallel n unit => ?_,
    fun nine parallel n unit => ?_, fun high other => ?_⟩
  · exact does (g := fun s => s.onDev id) (startStep_ignored low other)
  · exact does (startStep_one here one)
  · exact does (startStep_two here two)
  · exact does (g := fun s => s.onDev id) (startStep_three_waits here three waits)
  · exact does (startStep_three here three image)
  · exact does ((startStep_four here four).trans (if_pos lost))
  · exact does ((startStep_four here four).trans (if_neg (Bool.not_eq_true _ ▸ kept)))
  · exact does (startStep_five here five)
  · exact does (g := fun s => s.onDev id) (startStep_early high early)
  · subst unit
    exact does (startStep_block (by omega) parallel six low)
  · subst unit
    exact does ((startStep_parallel (by omega) parallel).trans (if_pos seven))
  · subst unit
    exact does ((startStep_parallel (by omega) parallel).trans ((if_neg (by omega)).trans (if_pos eight)))
  · subst unit
    exact does
      ((startStep_parallel (by omega) parallel).trans ((if_neg (by omega)).trans ((if_neg (by omega)).trans (if_pos nine))))
  · refine does (g := fun s => s.onDev id) (startStep_other high ?_)
    cases u <;> exact other

end Sys2Proof.Machine
end

section
/-! Saving calibration, and the end of a fatal dump (R577 to R581, R597, R599, R621, R622, R624, R626). -/

open Sys2Proof Sys2Proof.Machine

namespace Sys2Proof.Machine

section
variable {s : State}

/-! ## Calibration -/

theorem Dev.calTaken_iff {d : Dev} :
    d.calTaken = true ↔ d.chip.state = .service ∧ d.fget R.CAL_STAT R.CAL_STAT.RESULT ≠ 1 := by
  rw [Dev.calTaken, Bool.and_eq_true, beq_iff_eq, bne_iff_ne]

theorem calSave_ignored (h : ¬s.dev.calTaken = true) : calSave s = s := if_neg h

theorem calRestoreFactory_ignored (h : ¬s.dev.calTaken = true) : calRestoreFactory s = s := if_neg h

section
variable (taken : s.dev.calTaken = true)
include taken

theorem calSave_taken : calSave s = { s with
    dev := ({ (s.dev.freshBytes 16).2 with start := { (s.dev.freshBytes 16).2.start with
      saving := some (0x1000000 + 0x20000 * b2n (calSaveCopy s (s.dev.freshBytes 16).1).1, (calSaveCopy s (s.dev.freshBytes 16).1).2) } }
        : Dev).fset R.CAL_STAT R.CAL_STAT.RESULT 1 } := if_pos taken

theorem calRestoreFactory_taken : calRestoreFactory s = { s with
    flash := eraseUnits s.sfdp (eraseUnits s.sfdp s.flash 0x1000000 1) 0x1020000 1
    dev := s.dev.setFlag R.CAL_STAT R.CAL_STAT.FACTORY_PENDING true } := if_pos taken
end

theorem calSaveComplete_idle {good : Bool} (h : s.dev.start.saving = none) : calSaveComplete s good = s := by
  rw [calSaveComplete]; dsimp only; rw [h]

section
variable {at_ : Nat} {b : List Byte} (saving : s.dev.start.saving = some (at_, b))
include saving

/-- No save is under way any more. -/
def Dev.saveEnded (d : Dev) : Dev := { d with start := { d.start with saving := none } }

theorem calSaveComplete_good : calSaveComplete s true = { s with
    flash := programBytes (eraseUnits s.sfdp s.flash at_ b.length) at_ b
    dev := (s.dev.saveEnded.fset R.CAL_STAT R.CAL_STAT.RESULT 2).setFlag R.CAL_STAT R.CAL_STAT.FACTORY_PENDING false } := by
  rw [calSaveComplete]; dsimp only; rw [saving]; dsimp only
  rw [if_pos rfl, Dev.saveEnded]

theorem calSaveComplete_bad : calSaveComplete s false = { s with
    flash := programBytes (eraseUnits s.sfdp s.flash at_ b.length) at_ (s.dev.saveEnded.freshBytes b.length).1
    dev := (s.dev.saveEnded.freshBytes b.length).2.fset R.CAL_STAT R.CAL_STAT.RESULT 3 } := by
  rw [calSaveComplete]; dsimp only; rw [saving]; dsimp only
  rw [if_neg Bool.false_ne_true, Dev.saveEnded]
end

/-! ## The end of a dump -/

theorem dumpComplete_active (h : s.dev.dump.active = true) :
    dumpComplete s = dumpEnd s (dumpSections s s.dev.dump.onChip) true false false := if_pos h

theorem dumpComplete_idle (h : s.dev.dump.active = false) : dumpComplete s = s := if_neg (Bool.not_eq_true _ ▸ h)

theorem dumpTimeout_due (h : s.dev.due ⟨.dumpMax, 0, 0⟩ = true) : dumpTimeout s = dumpCut s true false := if_pos h

theorem dumpTimeout_early (h : s.dev.due ⟨.dumpMax, 0, 0⟩ = false) : dumpTimeout s = s := if_neg (Bool.not_eq_true _ ▸ h)
end

/-- Settles O57: the calibration commands, taken and not taken, the end of a save, and the two ends of a dump. -/
theorem calibrationAndDump : Obligations.CalibrationAndDump := by
  unfold Obligations.CalibrationAndDump
  refine ⟨fun s on m acc => ⟨fun other => ⟨?_, ?_⟩, fun taken => ?_, fun taken => ?_, fun idle good => ?_,
      fun at_ b saving => ⟨?_, ?_⟩⟩,
    fun s on => ⟨fun active => ?_, fun idle => ?_, fun due => ?_, fun early => ?_, fun m acc => ?_⟩⟩
  · exact State.runCommand_did (k := fun s => s.onDev id) on acc rfl (calSave_ignored (mt Dev.calTaken_iff.mp other))
  · exact State.runCommand_did (k := fun s => s.onDev id) on acc rfl (calRestoreFactory_ignored (mt Dev.calTaken_iff.mp other))
  · exact State.runCommand_did on acc rfl (calSave_taken (Dev.calTaken_iff.mpr taken))
  · exact State.runCommand_did on acc rfl (calRestoreFactory_taken (Dev.calTaken_iff.mpr taken))
  · exact State.run_did (act := fun s => calSaveComplete s good) (g := fun s => s.onDev id) on (calSaveComplete_idle idle)
  · exact State.run_did (act := fun s => calSaveComplete s true) on (calSaveComplete_good saving)
  · exact State.run_did (act := fun s => calSaveComplete s false) on (calSaveComplete_bad saving)
  · exact State.run_did on (dumpComplete_active active)
  · exact State.run_did (g := fun s => s.onDev id) on (dumpComplete_idle idle)
  · exact State.run_did on (dumpTimeout_due due)
  · exact State.run_did (g := fun s => s.onDev id) on (dumpTimeout_early early)
  · exact State.runCommand_done on acc rfl rfl

end Sys2Proof.Machine
end

section
/-! RESET_N, HELD, the loss of VDD_AUX and TEST (R5, R6, R569 to R572, R590, R591, R674, R686, R687). -/

open Sys2Proof Sys2Proof.Machine

namespace Sys2Proof.Machine

section
variable {s : State} {d : Dev} {low : Nat}

/-! ## RESET_N -/

theorem Dev.resetFall_again (h : d.supply.resetLow = true) : d.resetFall = d := if_pos h

theorem Dev.resetFall_holds (h : d.supply.resetLow = false) : d.resetFall =
    let d := ({ d with supply := { d.supply with resetLow := true, resetAt := d.now - us } } : Dev)
    let d := if d.chip.state = .held then d else d.enterHeld
    (d.arm ⟨.resetSafe, 0, 0⟩ (50 * ms - us)).refreshDwell := if_neg (Bool.not_eq_true _ ▸ h)

section
variable (high : s.dev.supply.resetLow = false)
include high

theorem resetRise_glitch (h : low < us) : resetRise s low = s.onDev fun d => d.logChip 0x0013 low :=
  (if_pos (by rw [high]; rfl)).trans (if_pos h)

theorem resetRise_high (h : us ≤ low) : resetRise s low = s :=
  (if_pos (by rw [high]; rfl)).trans (if_neg (Nat.not_lt.mpr h))
end

/-- RESET_N is high again. -/
def Dev.resetRaised (d : Dev) : Dev := ({ d with supply := { d.supply with resetLow := false } } : Dev).disarm ⟨.resetSafe, 0, 0⟩

/-- HELD is left, whether SHED-5 or RESET_N had caused it. -/
def Dev.heldLeft (d : Dev) : Dev := { d.resetRaised with supply := { d.resetRaised.supply with fromShed5 := false } }

section
variable (reset : s.dev.supply.resetLow = true)
include reset

theorem resetRise_short (h : low < us) : resetRise s low = s :=
  (if_neg (by rw [reset]; simp)).trans (if_pos h)

section
variable (long : us ≤ low)
include long

theorem resetRise_recognised : resetRise s low =
    if s.dev.supply.fromShed5 && s.dev.resetRaised.requested == 5 then s.onDev fun d => d.resetRaised.refreshDwell
    else if low < 50 * ms then warmStart (s.onDev Dev.heldLeft) 2 s.dev.supply.fromShed5
    else coldStart (s.onDev Dev.heldLeft) 1 1 :=
  (if_neg (by rw [reset]; simp)).trans (if_neg (Nat.not_lt.mpr long))

theorem resetRise_shed (h : (s.dev.supply.fromShed5 && s.dev.resetRaised.requested == 5) = true) :
    resetRise s low = s.onDev fun d => d.resetRaised.refreshDwell := (resetRise_recognised reset long).trans (if_pos h)

section
variable (leaves : (s.dev.supply.fromShed5 && s.dev.resetRaised.requested == 5) = false)
include leaves

theorem resetRise_warm (h : low < 50 * ms) : resetRise s low = warmStart (s.onDev Dev.heldLeft) 2 s.dev.supply.fromShed5 :=
  (resetRise_recognised reset long).trans ((if_neg (Bool.not_eq_true _ ▸ leaves)).trans (if_pos h))

theorem resetRise_cold (h : 50 * ms ≤ low) : resetRise s low = coldStart (s.onDev Dev.heldLeft) 1 1 :=
  (resetRise_recognised reset long).trans ((if_neg (Bool.not_eq_true _ ▸ leaves)).trans (if_neg (Nat.not_lt.mpr h)))
end
end
end

/-! ## The exit from HELD -/

theorem heldExit_starts (due : s.dev.due ⟨.heldExit, 0, 0⟩ = true) (held : s.dev.chip.state = .held)
    (shed : s.dev.supply.fromShed5 = true) (high : s.dev.supply.resetLow = false) :
    heldExit s = warmStart (s.onDev fun d =>
      ({ d with supply := { d.supply with fromShed5 := false } } : Dev).disarm ⟨.heldExit, 0, 0⟩) 8 true :=
  if_neg (by simp [due, held, shed, high])

theorem heldExit_waits (h : s.dev.due ⟨.heldExit, 0, 0⟩ = false ∨ s.dev.chip.state ≠ .held ∨ s.dev.supply.fromShed5 = false
    ∨ s.dev.supply.resetLow = true) : heldExit s = s :=
  if_pos (by rcases h with h | h | h | h <;> simp [h])

/-! ## TEST -/

section
variable {drives : Bool}

theorem Dev.testEntry_again (h : d.chip.state = .test) :
    d.testEntry drives = { d with start := { d.start with drove := d.start.drove || drives } } := if_pos h

section
variable (out : d.chip.state ≠ .test)
include out

theorem Dev.testEntry_off (h : d.causeState = .off ∨ d.causeState = .held) : d.testEntry drives = d :=
  (if_neg out).trans (if_pos h)

theorem Dev.testEntry_notes (on : d.causeState ≠ .off) (free : d.causeState ≠ .held) :
    d.testEntry drives = d.noteCause (.test drives) := (if_neg out).trans (if_neg (not_or.mpr ⟨on, free⟩))

theorem Dev.enterTest_enters : d.enterTest drives =
    { d.toState .test with chip := { (d.toState .test).chip with testFrom := d.chip.state },
                           start := { (d.toState .test).start with drove := drives } } := if_neg out
end

theorem Dev.enterTest_again (h : d.chip.state = .test) :
    d.enterTest drives = { d with start := { d.start with drove := d.start.drove || drives } } := if_pos h
end

theorem testExit_out (h : s.dev.chip.state ≠ .test) : testExit s = s := if_pos (by simp [h])

section
variable (test : s.dev.chip.state = .test)
include test

theorem testExit_drove (h : s.dev.start.drove = true) : testExit s = coldStart s 11 1 :=
  (if_neg (by simp [test])).trans (if_pos h)

theorem testExit_returns (h : s.dev.start.drove = false) : testExit s = s.onDev fun d => d.toState d.chip.testFrom :=
  (if_neg (by simp [test])).trans (if_neg (Bool.not_eq_true _ ▸ h))
end
end

/-- Settles O60: each event of RESET_N, the exit from HELD, the loss of VDD_AUX, and each entry and exit of TEST. -/
theorem heldOffAndTest : Obligations.HeldOffAndTest := by
  unfold Obligations.HeldOffAndTest
  intro s on
  have rises : ∀ {low : Word} {g : State → State}, resetRise s low.toNat = g s → exec (.resetNRise low) s = .next (s.did g) :=
    fun {low _} e => State.run_did (act := fun s => resetRise s low.toNat) on e
  refine ⟨fun low => ?_, fun high => ?_, fun low => ⟨fun high glitch => ?_, fun high long => ?_, fun reset short => ?_,
      fun reset long => ⟨fun stays => ?_, fun leaves warm => ?_, fun leaves cold => ?_⟩⟩,
    fun due held shed high => ?_, fun h => ?_, State.runDev_done on rfl,
    fun drives => ⟨fun test => ?_, fun out off => ?_, fun out on' free => ?_,
      fun d => ⟨Dev.enterTest_again, Dev.enterTest_enters⟩⟩,
    fun out => ?_, fun test drove => ?_, fun test kept => ?_⟩
  · exact State.runDev_done on (Dev.resetFall_again low)
  · exact State.runDev_done on (Dev.resetFall_holds high)
  · exact rises (resetRise_glitch high glitch)
  · exact rises (g := fun s => s.onDev id) (resetRise_high high long)
  · exact rises (g := fun s => s.onDev id) (resetRise_short reset short)
  · exact rises (resetRise_shed reset long stays)
  · exact rises (resetRise_warm reset long leaves warm)
  · exact rises (resetRise_cold reset long leaves cold)
  · exact State.run_did on (heldExit_starts due held shed high)
  · exact State.run_did (g := fun s => s.onDev id) on (heldExit_waits h)
  · exact State.runDev_done on (Dev.testEntry_again test)
  · exact State.runDev_done on (Dev.testEntry_off out off)
  · exact State.runDev_done on (Dev.testEntry_notes out on' free)
  · exact State.run_did (g := fun s => s.onDev id) on (testExit_out out)
  · exact State.run_did on (testExit_drove test drove)
  · exact State.run_did on (testExit_returns test kept)

end Sys2Proof.Machine
end
